-- ==== Sys2Proof/Word.lean ====
section
/-! DEFINITION. The word types of the BXM-3248 and the names of its lanes, groups, cores and counters (file 00, "Hierarchy" and "Notation"). -/

namespace Sys2Proof

/-- A register or memory word (R5). -/
abbrev Word := BitVec 32

/-- A byte. -/
abbrev Byte := BitVec 8

/-- Lanes P0–P31 (file 00, "Hierarchy"). -/
abbrev LaneId := Fin 32

/-- Groups G0–G3. -/
abbrev GroupId := Fin 4

/-- Cores numbered as TARGET in R269: 0–3 = C0–C3, 4 = S0, 5 = S1. -/
abbrev CoreId := Fin 6

/-- Counters CNT0–CNT23 (R247). -/
abbrev CounterId := Fin 24

/-- Interrupt source numbers (R267). -/
abbrev SourceId := Fin 1024

/-- The group that serves a lane: lane n lies in group n / 8. -/
def groupOf (l : LaneId) : GroupId := ⟨l.val / 8, by omega⟩

/-- The partner of a policy core: C0↔C1 and C2↔C3 (file 00, "Hierarchy"). -/
def partnerOf (g : GroupId) : GroupId := ⟨(if g.val % 2 = 0 then g.val + 1 else g.val - 1) % 4, by omega⟩

/-- The policy core of a group, as a core number. -/
def coreOf (g : GroupId) : CoreId := ⟨g.val, by omega⟩

end Sys2Proof
end

