-- ==== Sys2Proof/Syntax.lean ====
section
/-! DEFINITION. The commands the block takes: one constructor of Instr for each row of spec/opcode_table.json, with the operands this model gives it, and the plain data types those operands use. -/

namespace Sys2Proof

/-- Who reaches a register: the host through HSPI, or one of the six cores (R436). -/
inductive Agent where
  | host
  | core (t : CoreId)
deriving DecidableEq, Repr

/-- The two pins of a lane's configuration channel. -/
inductive CcPin where
  | cc1
  | cc2
deriving DecidableEq, Repr

/-- What the partner or cable presents on a CC pin (R27, R452). `rp n` is Rp at level n: 0 = default USB, 1 = 1.5 A, 2 = 3.0 A. -/
inductive CcTerm where
  | opened
  | ra
  | rd
  | rp (level : Fin 3)
deriving DecidableEq, Repr

/-- The SOP types a lane handles (R49). -/
inductive Sop where
  | sop
  | sopP
  | sopPP
deriving DecidableEq, Repr

/-- A received PD message: its SOP type, its 16-bit header and its data objects, each object as four bytes in wire order, little-endian (R48, R55).
An extended message carries its extended header in the low half of the first object. -/
structure Frame where
  sop : Sop := .sop
  header : BitVec 16 := 0
  objs : List (BitVec 32) := []
deriving DecidableEq, Repr

/-- A side of a lane's path whose discharge ends (R162). -/
inductive PathSide where
  | vbout
  | vbin
deriving DecidableEq, Repr

/-- What the comparators show in a self-test or a pre-close test (R158–R160): the polarity check and the reference checks of OCP A and OCP B, the reference checks of all other comparators, and the path current of the lane's ADC in mA. -/
structure TestResult where
  aPol : Bool := true
  aRef : Bool := true
  bPol : Bool := true
  bRef : Bool := true
  othersPass : Bool := true
  ma : Int := 0
deriving DecidableEq, Repr

/-- A lane with VBOUT, in mV, as the AON ADC sees it (R148, R149). -/
structure LaneVout where
  lane : LaneId
  mv : Nat := 0
deriving DecidableEq, Repr

/-- A lane with the mean VBIN, in mV, of the last 100 µs (R183). -/
structure LaneVbin where
  lane : LaneId
  mv : Nat := 0
deriving DecidableEq, Repr

/-- A lane with VBOUT and VBIN, in mV, as its level comparators accept them (R139, R153). -/
structure LaneVolts where
  lane : LaneId
  voutMv : Nat := 0
  vinMv : Nat := 0
deriving DecidableEq, Repr

/-- The kind of a slew-bound interval (R190). -/
inductive SlewKind where
  | voltage
  | current
deriving DecidableEq, Repr

/-- What the sensors show at a carrier valley (R174): VIN in 5 mV units, the VBIN samples of the period just ended in 5 mV units, the 12-bit inductor-current code at the valley and the port-side current in 10 mA units. -/
structure StageSample where
  vin : Nat := 0
  vbin : List Nat := []
  code : Int := 0
  iport : Int := 0
deriving DecidableEq, Repr

/-- One sample of the 10 MS/s stream that slew-bound control uses (R174, R190, R191): VIN and VBIN in 5 mV units, the 12-bit inductor-current code and the path current in 10 mA units. -/
structure SlewSample where
  vin : Nat := 0
  vbin : Nat := 0
  code : Int := 0
  ipath : Int := 0
deriving DecidableEq, Repr

/-- Three consecutive samples of that stream, oldest first (R190). -/
structure SlewTriple where
  a : SlewSample := {}
  b : SlewSample := {}
  c : SlewSample := {}
deriving DecidableEq, Repr

/-- The tag of an IMAGE_WRITE command, and whether the code store reads back as the command writes it (R389, R400). -/
structure ChunkTag where
  tag : Byte := 0
  readsBack : Bool := true
deriving DecidableEq, Repr

/-- What one lane measures in a budget frame: the charge through its path in 2^-24 µA·s (R129, positive toward the partner), VBUS in 5 mV units (R131), the power from the partner in 0.1 W (R208), and the path current in 10 mA units (R131). -/
structure LaneSample where
  charge : Int := 0
  vbus : Nat := 0
  power : Nat := 0
  current : Int := 0
deriving DecidableEq, Repr

/-- What the device measures in a budget frame of 100 µs: the bus mean of R205, the VSYS mean of R431 and the lanes' samples. -/
structure BusSample where
  busV : BitVec 14 := 0
  vsysV : BitVec 14 := 0
  lanes : List LaneSample := []
deriving DecidableEq, Repr

/-- A tether port (R360). -/
inductive Port where
  | tu
  | td
deriving DecidableEq, Repr

/-- What a neighbour offers when a link comes up (R362, R369): its DTIME, whether it has ACQ, whether it is in RUN or HOLDOVER, and its position where it has one. -/
structure Neighbour where
  dtime : Nat := 0
  acq : Bool := false
  running : Bool := false
  pos : Option Nat := none
deriving DecidableEq, Repr

/-- Where HCS# ends an accepted read (R380): before the leading status byte; within it, with the first word fetched or not; or behind `words` words driven whole, with the word after the one then on the lines fetched or not. -/
inductive ReadCut where
  | turnaround
  | status (fetched : Bool)
  | data (words : Nat) (ahead : Bool)
deriving DecidableEq, Repr

/-- What a timing marker gives the device that stamps it, in units of 1.25 ns (R368): t1 and t4 at the upstream end of a link, whose marker has been returned, or t2 at the downstream end. -/
inductive MarkerStamp where
  | returned (t1 t4 : Nat)
  | arrived (t2 : Nat)
deriving DecidableEq, Repr

/-- One lane's entry of an upstream slot (R366), all powers in 0.1 W. -/
structure LaneReport where
  floor : BitVec 12 := 0
  want : BitVec 12 := 0
  alloc : BitVec 12 := 0
  credit : BitVec 12 := 0
  prio : BitVec 3 := 0
  enabled : Bool := false
  twin : Bool := false
deriving DecidableEq, Repr

/-- A device's slot of an upstream frame (R366). -/
structure SlotReport where
  pos : Fin 8 := 0
  state : BitVec 4 := 0
  version : Byte := 0
  busSag : Bool := false
  frozen : Bool := false
  timeLock : Bool := false
  busV : BitVec 16 := 0
  lanes : List LaneReport := []
deriving DecidableEq, Repr

/-- The pose that the hitch broadcasts (R365, offset 536). -/
structure PoseReport where
  e : Int := 0
  n : Int := 0
  hdg : Nat := 0
  yaw : Int := 0
  spd : Nat := 0
  rev : Bool := false
  dtime : Nat := 0
deriving DecidableEq, Repr

/-- A record of a tether frame (R367). -/
inductive TetherRecord where
  | stagger (pos : Fin 8) (lane : LaneId) (time : Nat)
  | mark (tx ty : Int) (row : Byte) (col : Byte) (len : Nat)
  | chunk (tx ty : Int) (index : Fin 128) (data : List Byte)
  | tunnel (pos : Fin 8) (tag : Byte) (part : Byte) (data : List Byte)
deriving DecidableEq, Repr

/-- A downstream frame (R365): the header fields, T_MARK and LINK_DELAY in ps, the results for this stack and the records. `results` lists CEIL and SLOT for lane n of position p at index 32 × p + n. -/
structure DownFrame where
  crcOk : Bool := true
  fseq : Word := 0
  hitchPos : Fin 8 := 0
  n : Fin 9 := 0
  hold : Bool := false
  resValid : Bool := false
  sag : Bool := false
  credit : Bool := false
  succ : Bool := false
  version : Byte := 0
  tMark : Word := 0
  linkDelay : Word := 0
  effW : BitVec 24 := 0
  allocSum : BitVec 24 := 0
  results : List (BitVec 12 × BitVec 4) := []
  pose : Option PoseReport := none
  records : List TetherRecord := []
deriving DecidableEq, Repr

/-- An upstream frame (R366). -/
structure UpFrame where
  crcOk : Bool := true
  fseq : Word := 0
  slots : List SlotReport := []
  records : List TetherRecord := []
deriving DecidableEq, Repr

/-- Where an ECC error is found (R340). Word addresses are byte addresses of the word. -/
inductive EccSite where
  | coreMemory (t : CoreId) (addr : Nat) (scrub : Bool)
  | sharedRam (addr : Nat) (reader : Option Agent)
  | swathMap (addr : Nat)
  | pdReceive (l : LaneId)
  | pdTransmit (l : LaneId)
  | vectorEntry (t : CoreId) (s : SourceId)
  | decodeTable (t : CoreId) (addr : Nat)
  | loopEngine (l : LaneId)
deriving DecidableEq, Repr

/-- What the two margin reads of AUDIT find at one fuse word, as 39-bit raw reads (R416). -/
structure MarginRead where
  word : Fin 512 := 0
  low : BitVec 39 := 0
  high : BitVec 39 := 0
deriving DecidableEq, Repr

/-- What the verify of a programmed fuse word reads: at both sense margins, and afterwards at the nominal one (R411, R414). -/
structure VerifyRead where
  nominal : BitVec 39 := 0
  low : BitVec 39 := 0
  high : BitVec 39 := 0
deriving DecidableEq, Repr

/-- A 5-bit register field of a Camku instruction (R307). -/
abbrev RegCode := BitVec 5

/-- The commands of the block, one constructor for each row of the table. -/
inductive Instr where
  -- Camku instructions (files 12 and 13): core t executes the instruction at its pc
  | add (t : CoreId) (rd ra rb : RegCode) (s : Bool)
  | sub (t : CoreId) (rd ra rb : RegCode) (s : Bool)
  | addc (t : CoreId) (rd ra rb : RegCode) (s : Bool)
  | subc (t : CoreId) (rd ra rb : RegCode) (s : Bool)
  | and (t : CoreId) (rd ra rb : RegCode) (s : Bool)
  | or (t : CoreId) (rd ra rb : RegCode) (s : Bool)
  | xor (t : CoreId) (rd ra rb : RegCode) (s : Bool)
  | andn (t : CoreId) (rd ra rb : RegCode) (s : Bool)
  | shl (t : CoreId) (rd ra rb : RegCode) (s : Bool)
  | shr (t : CoreId) (rd ra rb : RegCode) (s : Bool)
  | sar (t : CoreId) (rd ra rb : RegCode) (s : Bool)
  | ror (t : CoreId) (rd ra rb : RegCode) (s : Bool)
  | mul (t : CoreId) (rd ra rb : RegCode) (s : Bool)
  | mulh (t : CoreId) (rd ra rb : RegCode) (s : Bool)
  | mulhu (t : CoreId) (rd ra rb : RegCode) (s : Bool)
  | min (t : CoreId) (rd ra rb : RegCode) (s : Bool)
  | max (t : CoreId) (rd ra rb : RegCode) (s : Bool)
  | minu (t : CoreId) (rd ra rb : RegCode) (s : Bool)
  | maxu (t : CoreId) (rd ra rb : RegCode) (s : Bool)
  | clz (t : CoreId) (rd ra : RegCode) (s : Bool)
  | cmp (t : CoreId) (ra rb : RegCode) (s : Bool)
  | tst (t : CoreId) (ra rb : RegCode) (s : Bool)
  | addi (t : CoreId) (rd ra : RegCode) (imm : BitVec 16)
  | andi (t : CoreId) (rd ra : RegCode) (imm : BitVec 16)
  | ori (t : CoreId) (rd ra : RegCode) (imm : BitVec 16)
  | xori (t : CoreId) (rd ra : RegCode) (imm : BitVec 16)
  | cmpi (t : CoreId) (ra : RegCode) (imm : BitVec 16)
  | shi (t : CoreId) (fn : Fin 4) (rd ra : RegCode) (amount : BitVec 5) (s : Bool)
  | movi (t : CoreId) (rd : RegCode) (imm : BitVec 16)
  | movhi (t : CoreId) (rd : RegCode) (imm : BitVec 16)
  | ld (t : CoreId) (rd ra : RegCode) (imm : BitVec 16)
  | ldh (t : CoreId) (rd ra : RegCode) (imm : BitVec 16)
  | ldhu (t : CoreId) (rd ra : RegCode) (imm : BitVec 16)
  | ldb (t : CoreId) (rd ra : RegCode) (imm : BitVec 16)
  | ldbu (t : CoreId) (rd ra : RegCode) (imm : BitVec 16)
  | st (t : CoreId) (rd ra : RegCode) (imm : BitVec 16)
  | sth (t : CoreId) (rd ra : RegCode) (imm : BitVec 16)
  | stb (t : CoreId) (rd ra : RegCode) (imm : BitVec 16)
  | bcc (t : CoreId) (cond : Fin 15) (disp : BitVec 22)
  | call (t : CoreId) (disp : BitVec 26)
  | nop (t : CoreId)
  | jmpr (t : CoreId) (ra : RegCode)
  | callr (t : CoreId) (ra : RegCode)
  | ret (t : CoreId)
  | reti (t : CoreId)
  | retx (t : CoreId)
  | wait (t : CoreId)
  | halt (t : CoreId)
  | trap (t : CoreId) (n : BitVec 4)
  | mfc (t : CoreId) (rd : RegCode) (c : Fin 15)
  | mtc (t : CoreId) (c : Fin 15) (ra : RegCode)
  | ei (t : CoreId)
  | di (t : CoreId)
  | mfx (t : CoreId) (rd : RegCode) (x : Fin 3)
  | mtx (t : CoreId) (x : Fin 3) (ra : RegCode)
  | mflk (t : CoreId) (rd : RegCode)
  | mtlk (t : CoreId) (ra : RegCode)
  | bset (t : CoreId) (rx : Option RegCode) (ba : BitVec 16)
  | bclr (t : CoreId) (rx : Option RegCode) (ba : BitVec 16)
  | bnot (t : CoreId) (rx : Option RegCode) (ba : BitVec 16)
  | btst (t : CoreId) (rx : Option RegCode) (ba : BitVec 16)
  | bmovToC (t : CoreId) (rx : Option RegCode) (ba : BitVec 16)
  | bmovn (t : CoreId) (rx : Option RegCode) (ba : BitVec 16)
  | bmovToBit (t : CoreId) (rx : Option RegCode) (ba : BitVec 16)
  | band (t : CoreId) (rx : Option RegCode) (ba : BitVec 16)
  | bandn (t : CoreId) (rx : Option RegCode) (ba : BitVec 16)
  | bor (t : CoreId) (rx : Option RegCode) (ba : BitVec 16)
  | born (t : CoreId) (rx : Option RegCode) (ba : BitVec 16)
  | bxor (t : CoreId) (rx : Option RegCode) (ba : BitVec 16)
  | btas (t : CoreId) (rx : Option RegCode) (ba : BitVec 16)
  | brbs (t : CoreId) (disp : BitVec 10) (ba : BitVec 16)
  | brbc (t : CoreId) (disp : BitVec 10) (ba : BitVec 16)
  | macd (t : CoreId) (acc neg : Bool) (rx ry : RegCode) (xinc yinc : BitVec 4)
  | aclr (t : CoreId) (acc : Bool)
  | mac (t : CoreId) (acc : Bool) (ra rb : RegCode)
  | msu (t : CoreId) (acc : Bool) (ra rb : RegCode)
  | macu (t : CoreId) (acc : Bool) (ra rb : RegCode)
  | mfal (t : CoreId) (acc : Bool) (rd : RegCode)
  | mfah (t : CoreId) (acc : Bool) (rd : RegCode)
  | mfag (t : CoreId) (acc : Bool) (rd : RegCode)
  | mtal (t : CoreId) (acc : Bool) (ra : RegCode)
  | mtah (t : CoreId) (acc : Bool) (ra : RegCode)
  | mtag (t : CoreId) (acc : Bool) (ra : RegCode)
  | asr (t : CoreId) (acc : Bool) (n : BitVec 5)
  | asl (t : CoreId) (acc : Bool) (n : BitVec 5)
  | arnd (t : CoreId) (acc : Bool) (rd : RegCode) (n : BitVec 5)
  | movs (t : CoreId) (sz : Fin 3) (dec : Bool)
  | fills (t : CoreId) (ra : RegCode) (sz : Fin 3) (dec : Bool)
  | cmps (t : CoreId) (sz : Fin 3) (dec : Bool)
  | crcs (t : CoreId) (rd : RegCode) (dec : Bool) (poly : Fin 3)
  | cx (t : CoreId) (k : Fin 16) (rd ra rb : RegCode) (imm : BitVec 11)
  -- power, clocks and operating states (files 01, 16, 18)
  | powerUp
  | resetAsserted
  | resetReleased
  | vsysNotValid
  | vcoreOutOfRange
  | linkFrameTimeout (g : GroupId)
  | linkRestored (g : GroupId)
  | vioLow
  | vsysWarn
  | vsysWarnClear
  | vconnSupLow
  | vconnSupRestored
  | pllLocked
  | imageCheckComplete
  | runSet (a : Agent) (v : Word)
  | runClear (a : Agent) (v : Word)
  | watchSet (a : Agent) (v : Word)
  | watchEntryComplete
  | watchClear (a : Agent) (v : Word)
  | portEnSet (a : Agent) (l : LaneId) (v : Word)
  | portEnClear (a : Agent) (l : LaneId) (v : Word)
  | groupIdle (g : GroupId)
  | holdoverLimit
  | tamper
  | mesh
  | vglitch
  | cglitch
  -- attach and cable discovery (file 02)
  | drpToggle (l : LaneId)
  | attachWaitSrc (l : LaneId) (cc1 cc2 : CcTerm)
  | attachWaitSnk (l : LaneId) (cc1 cc2 : CcTerm)
  | ccDebounce (l : LaneId) (cc1 cc2 : CcTerm) (vbusMv : Nat)
  | terminationLost (l : LaneId)
  | tryCcDebounce (l : LaneId) (cc1 cc2 : CcTerm)
  | drpTry (l : LaneId)
  | trywaitDebounce (l : LaneId) (cc1 cc2 : CcTerm) (vbusMv : Nat)
  | tryTimeout (l : LaneId)
  | detach (l : LaneId)
  | unattachedWaitEnd (l : LaneId)
  | cut (l : LaneId)
  | cutClear (a : Agent) (l : LaneId)
  | vconnOc (l : LaneId)
  | vconnReapply (l : LaneId)
  | watchProbe (l : LaneId) (cc1 cc2 : CcTerm)
  | discoveryResponseTimeout (l : LaneId)
  -- message layer (file 03)
  | transmitStart (l : LaneId)
  | messageReceived (l : LaneId) (f : Frame)
  | goodcrcReceived (l : LaneId) (sop : Sop) (id : BitVec 3)
  | goodcrcTimeout (l : LaneId)
  | send (a : Agent) (l : LaneId) (v : Word)
  | pop (a : Agent) (l : LaneId)
  | pdExtData (a : Agent) (l : LaneId) (wr : Option Word)
  | sinkTx (l : LaneId)
  | amsHoldTimeout (l : LaneId)
  | chunkRequest (l : LaneId) (f : Frame)
  | chunkSenderResponse (l : LaneId)
  | chunkSenderRequest (l : LaneId)
  | hardReset (l : LaneId)
  | hardResetReceived (l : LaneId)
  | hardResetComplete (l : LaneId)
  | psHardReset (l : LaneId)
  | srcRecover (l : LaneId)
  | sinkVbusReturn (l : LaneId) (vbusMv : Nat)
  | sinkHardResetTimeout (l : LaneId) (vbusMv : Nat)
  | cableReset (a : Agent) (l : LaneId)
  | bistCarrierEnd (l : LaneId)
  | arActiveRise (l : LaneId)
  -- contracts and the Urkai mode (file 04)
  | request (l : LaneId) (f : Frame)
  | srcTransition (l : LaneId)
  | contractLimitFall (l : LaneId)
  | softReset (l : LaneId) (f : Frame)
  | getSourceCap (l : LaneId) (f : Frame)
  | sourceCapabilities (l : LaneId) (f : Frame)
  | eprKeepalive (l : LaneId) (f : Frame)
  | keepaliveMissed (l : LaneId)
  | sinkKeepalive (l : LaneId)
  | eprMode (l : LaneId) (f : Frame)
  | discoverIdentity (l : LaneId) (f : Frame)
  | urkaiDiscovery (l : LaneId)
  | urkaiResponseTimeout (l : LaneId)
  | enterModeAck (l : LaneId) (f : Frame)
  | exitModeAck (l : LaneId) (f : Frame)
  | twinSetAck (l : LaneId) (f : Frame)
  | timeMark (l : LaneId)
  | tmFollowAck (l : LaneId) (f : Frame)
  | arm (a : Agent) (l : LaneId) (v : Word)
  | disarm (a : Agent) (l : LaneId) (v : Word)
  | twinArmAck (l : LaneId) (f : Frame)
  | twinDisarmAck (l : LaneId) (f : Frame)
  | armDeadline (l : LaneId)
  | twinSwitch (l : LaneId)
  | standbyLimit (l : LaneId)
  -- role swaps and battery partners (file 05)
  | prsReq (a : Agent) (l : LaneId)
  | prSwap (l : LaneId) (f : Frame)
  | prSwapAccept (l : LaneId)
  | swapRefused (l : LaneId) (f : Frame)
  | swapSrcTransition (l : LaneId)
  | swapVsafe0v (l : LaneId)
  | psRdy (l : LaneId) (f : Frame)
  | psSourceOn (l : LaneId)
  | psSourceOff (l : LaneId)
  | frsArm (c : CoreId) (l : LaneId)
  | sinkCapabilities (l : LaneId) (f : Frame)
  | holdSetAck (l : LaneId) (f : Frame)
  | frsTrig
  | frsSwapTx (l : LaneId)
  | frsHoldCheck (l : LaneId) (vbus : Nat)
  | frSwap (l : LaneId) (f : Frame)
  | frsTimeout (l : LaneId)
  | frsTrigClear
  | holdEnd (l : LaneId)
  | packHoldEnd (l : LaneId)
  | drSwap (l : LaneId) (f : Frame)
  | vconnSwap (l : LaneId) (f : Frame)
  | vconnStable (l : LaneId)
  | vconnSourceTimeout (l : LaneId)
  | vconnSourceOff (l : LaneId)
  | fullAnchor (l : LaneId)
  | emptyAnchor (l : LaneId)
  | emptyMark (a : Agent) (l : LaneId)
  | clr (a : Agent) (l : LaneId)
  | batteryStatus (l : LaneId) (f : Frame)
  | recCommitAck (l : LaneId) (f : Frame)
  -- belay (file 06)
  | preCloseTest (l : LaneId) (r : TestResult)
  | comparatorAccept (l : LaneVolts)
  | closeComplete (l : LaneId)
  | backfeed (l : LaneId) (voutMv : Nat)
  | preCloseRetry (l : LaneId)
  | ocp (l : LaneId) (a b short : Int)
  | ovp (l : LaneVout)
  | uvp (l : LaneVout)
  | reverseCurrent (l : LaneId) (ma : Int)
  | overload (l : LaneId)
  | thermWarn (g : GroupId) (temp : Byte)
  | thermalShutdown (g : GroupId) (temp : Byte)
  | thermalRestart (g : GroupId) (temp : Byte)
  | dischargeEnd (l : LaneId) (side : PathSide)
  | selfTest (l : LaneId) (r : TestResult)
  | stestNow (a : Agent) (l : LaneId) (r : TestResult)
  | latchClr (a : Agent) (l : LaneId)
  | ilimSet (a : Agent) (l : LaneId) (v : Word)
  | shedIlim (a : Agent) (l : LaneId) (v : Word)
  | shedIlimBelay (l : LaneId)
  -- loop engines (file 07)
  | rampComplete (l : LaneVbin)
  | ratioModeChange (l : LaneId) (m : StageSample)
  | slewEnter (l : LaneId) (kind : SlewKind) (m : SlewTriple)
  | leave (l : LaneId) (m : SlewSample)
  | slewTo (l : LaneId) (m : SlewSample)
  | ffRampEnd (l : LaneId)
  | convVset (a : Agent) (l : LaneId) (v : Word)
  | convIset (a : Agent) (l : LaneId) (v : Word)
  | phaseOffset (a : Agent) (l : LaneId) (v : Word)
  -- budget (file 08)
  | budgetFrame (b : BusSample)
  | arbitrationResult (results : List (BitVec 12 × BitVec 4))
  | frozen
  | busSag
  | sagEnd
  | shedMeasure (l : LaneId)
  | shedDeadline (l : LaneId)
  | busBudget (a : Agent) (v : Word)
  -- swath (file 09)
  | fixCommit (a : Agent)
  | swathStep (u : Unit)
  | pospps
  | fixStale
  | drOut
  | poseLost
  | postLapse (l : LaneId)
  | applied (l : LaneId)
  | sectCtrl (a : Agent) (l : LaneId) (v : Word)
  | tileLoad (a : Agent) (tag : Byte)
  | tileTake (a : Agent) (tag : Byte)
  -- counters (file 10)
  | turnEvent (n : CounterId)
  | peakEvent (n : CounterId)
  | compareMatch (n : CounterId) (b : Bool)
  | capture (n : CounterId) (rising : Bool)
  | cntnVal (a : Agent) (n : CounterId) (v : Word)
  | cntnValRead (a : Agent) (n : CounterId)
  | cntnTop (a : Agent) (n : CounterId) (v : Word)
  | cntnCmp (a : Agent) (n : CounterId) (b : Bool) (v : Word)
  | cntnCtrl (a : Agent) (n : CounterId) (v : Word)
  | cntnCap (a : Agent) (n : CounterId) (v : Word)
  -- interrupt controller (file 11)
  | doorbell (a : Agent) (t : CoreId) (s : SourceId)
  | interruptClaim (t : CoreId)
  | holdOff (t : CoreId) (g : Fin 32)
  | icClr (a : Agent) (s : SourceId)
  | take (a : Agent) (t : CoreId)
  | release (a : Agent) (t : CoreId)
  | mlockBreak (t : CoreId)
  | mpClr (a : Agent) (t : CoreId)
  | debugHalt (t : CoreId)
  -- decode tables, supervision and recovery (files 13, 14)
  | decCtrl (a : Agent) (t : CoreId) (v : Word)
  | heartbeatPeriod
  | takeG (t : CoreId) (g : GroupId)
  | rtnG (t : CoreId) (g : GroupId)
  | relG (t : CoreId) (g : GroupId)
  | returnTimeout (g : GroupId)
  | coreRst (a : Agent) (v : Word)
  | wardenTakeover
  | wardenAttempt
  | wardenSuccess
  | wardenAttemptTimeout
  | orphanTimeout (g : GroupId)
  | protoLast (a : Agent) (l : LaneId)
  | eccError (site : EccSite) (double : Bool)
  | evtLogRsv (a : Agent)
  -- tether (file 15)
  | linkUp (p : Port) (nb : Neighbour)
  | linkDown (p : Port)
  | acqTimeout
  | frameStart
  | downstreamFrame (p : Port) (f : DownFrame)
  | upstreamFrame (p : Port) (f : UpFrame)
  | timingMarker (p : Port) (m : MarkerStamp)
  | timeLock (locked : Bool)
  | staggerRequest (pos : Fin 8) (l : LaneId) (time : Nat)
  | swathMark (tx ty : Int) (row col : Byte) (len : Nat)
  | tileChunk (tx ty : Int) (index : Fin 128) (data : List Byte)
  | tunnel (a : Agent) (tag : Byte)
  | hitchSuccession
  | solo (a : Agent) (v : Word)
  | watchBeacon (err : Int)
  -- host port (file 16)
  | hspiWrite (bytes : List Byte)
  | hspiRead (bytes : List Byte) (ended : Option ReadCut)
  | hspiClr (a : Agent)
  | dtimeLoRead (a : Agent)
  | tallyQLoRead (a : Agent) (l : LaneId)
  | poseERead (a : Agent)
  | ppsLoRead (a : Agent)
  | check (a : Agent) (tag : Byte)
  -- firmware, fuses and security (files 17, 18)
  | imageWrite (a : Agent) (tag : ChunkTag)
  | activate (a : Agent) (tag : Byte)
  | activateNextCore (beat : Bool)
  | fuseProgram (a : Agent) (tag : Byte) (vprog : List Nat) (reads : List VerifyRead)
  | audit (a : Agent) (tag : Byte) (reads : List MarginRead)
  | meas (a : Agent) (mv : BitVec 12)
  | dbgPass7 (a : Agent) (v : Word)
  | relock (a : Agent)
  | alarmPolicy (a : Agent) (v : Word)
  | secCtrl (a : Agent) (v : Word)
  | vsysMon (a : Agent) (v : Word)
  | securityRequest (l : LaneId) (f : Frame)
  -- register writes and late rows
  | registerWrite (a : Agent) (addr : Nat) (v : Word)
  | vcoreAndVioInRange
  | sinkVbusPresent (l : LaneId) (vbusMv : Nat)
  | partnerRpChange (l : LaneId) (level : Fin 4)
  | runLimit (l : LaneId)
  | currentLimit (l : LaneId) (m : StageSample)
  | reverseRampEnd (l : LaneId)
  | slotTimeConversion (n : CounterId)
  | illegalInstruction (t : CoreId) (w : Word)
  | debugResume (t : CoreId)
deriving DecidableEq, Repr

end Sys2Proof
end

