-- ==== Sys2Proof/Decode.lean ====
section
/-! DEFINITION. The table gives its rows no bits, so decodeTableWord answers none. The Camku instruction words of R307–R309, R312–R323, R326 are decoded and encoded here: decodeCamku reads the instruction a word holds for a core, and encodeCamku writes a word of it. -/

namespace Sys2Proof

/-- No row of the table gives bits: no word spells a command of the block. -/
def decodeTableWord (_nbits _w : Nat) : Option Instr := none

-- words

/-- Bits [lo + len − 1 : lo] of a word, as a number. -/
def wfield (w : Word) (lo len : Nat) : Nat := (w.toNat / 2 ^ lo) % 2 ^ len

/-- A 5-bit register field (R307). -/
def regAt (w : Word) (lo : Nat) : RegCode := BitVec.ofNat 5 (wfield w lo 5)

/-- Bit n of a word. -/
def flagAt (w : Word) (n : Nat) : Bool := wfield w n 1 = 1

/-- A number below 3, where a field holds one. -/
def fin3 (n : Nat) : Option (Fin 3) := if h : n < 3 then some ⟨n, h⟩ else none

/-- A number below 15, where a field holds one. -/
def fin15 (n : Nat) : Option (Fin 15) := if h : n < 15 then some ⟨n, h⟩ else none

/-- 1 for true, 0 for false. -/
def bitNat (b : Bool) : Nat := if b then 1 else 0

/-- ALU rows (R312): op 0x01, format R with bits [9:6] zero. -/
def decodeAlu (t : CoreId) (w : Word) : Option Instr :=
  let rd := regAt w 21
  let ra := regAt w 16
  let rb := regAt w 11
  let s := flagAt w 10
  if wfield w 6 4 ≠ 0 then none
  else match wfield w 0 6 with
  | 0x00 => some (.add t rd ra rb s)
  | 0x01 => some (.sub t rd ra rb s)
  | 0x02 => some (.addc t rd ra rb s)
  | 0x03 => some (.subc t rd ra rb s)
  | 0x04 => some (.and t rd ra rb s)
  | 0x05 => some (.or t rd ra rb s)
  | 0x06 => some (.xor t rd ra rb s)
  | 0x07 => some (.andn t rd ra rb s)
  | 0x08 => some (.shl t rd ra rb s)
  | 0x09 => some (.shr t rd ra rb s)
  | 0x0A => some (.sar t rd ra rb s)
  | 0x0B => some (.ror t rd ra rb s)
  | 0x0C => some (.mul t rd ra rb s)
  | 0x0D => some (.mulh t rd ra rb s)
  | 0x0E => some (.mulhu t rd ra rb s)
  | 0x0F => some (.min t rd ra rb s)
  | 0x10 => some (.max t rd ra rb s)
  | 0x11 => some (.minu t rd ra rb s)
  | 0x12 => some (.maxu t rd ra rb s)
  | 0x13 => if rb = 0 then some (.clz t rd ra s) else none
  | 0x14 => if rd = 0 then some (.cmp t ra rb s) else none
  | 0x15 => if rd = 0 then some (.tst t ra rb s) else none
  | _ => none

/-- CTL rows (R315): op 0x1A, format R with S and bits [9:6] zero. Register fields that no row names are not looked at (DEDUCED, log 21). -/
def decodeCtl (t : CoreId) (w : Word) : Option Instr :=
  let rd := regAt w 21
  let ra := regAt w 16
  if wfield w 6 5 ≠ 0 then none
  else match wfield w 0 6 with
  | 0x00 => some (.nop t)
  | 0x01 => some (.jmpr t ra)
  | 0x02 => some (.callr t ra)
  | 0x03 => some (.ret t)
  | 0x04 => some (.reti t)
  | 0x05 => some (.retx t)
  | 0x06 => some (.wait t)
  | 0x07 => some (.halt t)
  | 0x08 => if flagAt w 15 then none else some (.trap t (BitVec.ofNat 4 (wfield w 11 4)))
  | 0x09 => (fin15 (wfield w 16 5)).map fun c => .mfc t rd c
  | 0x0A => (fin15 (wfield w 21 5)).map fun c => .mtc t c ra
  | 0x0B => some (.ei t)
  | 0x0C => some (.di t)
  | 0x0D => (fin3 (wfield w 16 5)).map fun x => .mfx t rd x
  | 0x0E => (fin3 (wfield w 21 5)).map fun x => .mtx t x ra
  | 0x0F => some (.mflk t rd)
  | 0x10 => some (.mtlk t ra)
  | _ => none

/-- BIT rows (R317): op 0x20, format X; with IX = 0 the rx field must be 0. -/
def decodeBit (t : CoreId) (w : Word) : Option Instr :=
  let ba := BitVec.ofNat 16 (wfield w 0 16)
  let ix := flagAt w 16
  let rx := if ix then some (regAt w 17) else none
  if !ix && wfield w 17 5 ≠ 0 then none
  else match wfield w 22 4 with
  | 0 => some (.bset t rx ba)
  | 1 => some (.bclr t rx ba)
  | 2 => some (.bnot t rx ba)
  | 3 => some (.btst t rx ba)
  | 4 => some (.bmovToC t rx ba)
  | 5 => some (.bmovn t rx ba)
  | 6 => some (.bmovToBit t rx ba)
  | 7 => some (.band t rx ba)
  | 8 => some (.bandn t rx ba)
  | 9 => some (.bor t rx ba)
  | 10 => some (.born t rx ba)
  | 11 => some (.bxor t rx ba)
  | 12 => some (.btas t rx ba)
  | _ => none

/-- ACC rows (R321): op 0x29, format R with bit [10] as A. -/
def decodeAcc (t : CoreId) (w : Word) : Option Instr :=
  let rd := regAt w 21
  let ra := regAt w 16
  let rb := regAt w 11
  let a := flagAt w 10
  if wfield w 6 4 ≠ 0 then none
  else match wfield w 0 6 with
  | 0x00 => some (.aclr t a)
  | 0x01 => some (.mac t a ra rb)
  | 0x02 => some (.msu t a ra rb)
  | 0x03 => some (.macu t a ra rb)
  | 0x04 => some (.mfal t a rd)
  | 0x05 => some (.mfah t a rd)
  | 0x06 => some (.mfag t a rd)
  | 0x07 => some (.mtal t a ra)
  | 0x08 => some (.mtah t a ra)
  | 0x09 => some (.mtag t a ra)
  | 0x0A => some (.asr t a rb)
  | 0x0B => some (.asl t a rb)
  | 0x0C => some (.arnd t a rd rb)
  | _ => none

/-- STR rows (R322): op 0x2C, format S. POLY is 0 but for CRCS; SZ = 3 and POLY = 3 are illegal; rd and ra are 0 where the row does not name them. -/
def decodeStr (t : CoreId) (w : Word) : Option Instr :=
  let rd := regAt w 21
  let ra := regAt w 16
  let dec := flagAt w 8
  if wfield w 11 5 ≠ 0 then none
  else match wfield w 0 6 with
  | 0 => if rd = 0 ∧ ra = 0 ∧ wfield w 6 2 = 0 then (fin3 (wfield w 9 2)).map fun z => .movs t z dec else none
  | 1 => if rd = 0 ∧ wfield w 6 2 = 0 then (fin3 (wfield w 9 2)).map fun z => .fills t ra z dec else none
  | 2 => if rd = 0 ∧ ra = 0 ∧ wfield w 6 2 = 0 then (fin3 (wfield w 9 2)).map fun z => .cmps t z dec else none
  | 3 => if ra = 0 ∧ wfield w 9 2 = 0 then (fin3 (wfield w 6 2)).map fun p => .crcs t rd dec p else none
  | _ => none

/-- The instruction that a word holds for core t (R308, R309); none where the word is illegal. -/
def decodeCamku (t : CoreId) (w : Word) : Option Instr :=
  let rd := regAt w 21
  let ra := regAt w 16
  let imm := BitVec.ofNat 16 (wfield w 0 16)
  match wfield w 26 6 with
  | 0x01 => decodeAlu t w
  | 0x02 => some (.addi t rd ra imm)
  | 0x03 => some (.andi t rd ra imm)
  | 0x04 => some (.ori t rd ra imm)
  | 0x05 => some (.xori t rd ra imm)
  | 0x06 => if rd = 0 then some (.cmpi t ra imm) else none
  | 0x07 =>
    if wfield w 6 4 ≠ 0 then none
    else match wfield w 0 6 with
    | 0x08 => some (.shi t 0 rd ra (regAt w 11) (flagAt w 10))
    | 0x09 => some (.shi t 1 rd ra (regAt w 11) (flagAt w 10))
    | 0x0A => some (.shi t 2 rd ra (regAt w 11) (flagAt w 10))
    | 0x0B => some (.shi t 3 rd ra (regAt w 11) (flagAt w 10))
    | _ => none
  | 0x08 => if ra = 0 then some (.movi t rd imm) else none
  | 0x09 => if ra = 0 then some (.movhi t rd imm) else none
  | 0x10 => some (.ld t rd ra imm)
  | 0x11 => some (.ldh t rd ra imm)
  | 0x12 => some (.ldhu t rd ra imm)
  | 0x13 => some (.ldb t rd ra imm)
  | 0x14 => some (.ldbu t rd ra imm)
  | 0x15 => some (.st t rd ra imm)
  | 0x16 => some (.sth t rd ra imm)
  | 0x17 => some (.stb t rd ra imm)
  | 0x18 => (fin15 (wfield w 22 4)).map fun c => .bcc t c (BitVec.ofNat 22 (wfield w 0 22))
  | 0x19 => some (.call t (BitVec.ofNat 26 (wfield w 0 26)))
  | 0x1A => decodeCtl t w
  | 0x20 => decodeBit t w
  | 0x21 => some (.brbs t (BitVec.ofNat 10 (wfield w 16 10)) imm)
  | 0x22 => some (.brbc t (BitVec.ofNat 10 (wfield w 16 10)) imm)
  | 0x28 =>
    if wfield w 0 6 ≠ 0 then none
    else some (.macd t (flagAt w 25) (flagAt w 24) (regAt w 19) (regAt w 14) (BitVec.ofNat 4 (wfield w 10 4)) (BitVec.ofNat 4 (wfield w 6 4)))
  | 0x29 => decodeAcc t w
  | 0x2C => decodeStr t w
  | op =>
    if h : 0x30 ≤ op ∧ op < 0x40 then
      some (.cx t ⟨op - 0x30, by omega⟩ rd ra (regAt w 11) (BitVec.ofNat 11 (wfield w 0 11)))
    else none

/-- A word of format R, with S or A in bit [10]. -/
def wordR (op rd ra rb s fn : Nat) : Word :=
  BitVec.ofNat 32 (op * 2 ^ 26 + rd * 2 ^ 21 + ra * 2 ^ 16 + rb * 2 ^ 11 + s * 2 ^ 10 + fn)

/-- A word of format I. -/
def wordI (op : Nat) (rd ra : RegCode) (imm : BitVec 16) : Word :=
  BitVec.ofNat 32 (op * 2 ^ 26 + rd.toNat * 2 ^ 21 + ra.toNat * 2 ^ 16 + imm.toNat)

/-- An ALU word (R312). -/
def wordAlu (fn : Nat) (rd ra rb : RegCode) (s : Bool) : Word := wordR 0x01 rd.toNat ra.toNat rb.toNat (bitNat s) fn

/-- A word of format X (R317). -/
def wordX (sub : Nat) (rx : Option RegCode) (ba : BitVec 16) : Word :=
  match rx with
  | none => BitVec.ofNat 32 (0x20 * 2 ^ 26 + sub * 2 ^ 22 + ba.toNat)
  | some r => BitVec.ofNat 32 (0x20 * 2 ^ 26 + sub * 2 ^ 22 + r.toNat * 2 ^ 17 + 2 ^ 16 + ba.toNat)

/-- A word of format S (R322). -/
def wordS (rd ra : RegCode) (sz : Nat) (dec : Bool) (poly fn : Nat) : Word :=
  BitVec.ofNat 32 (0x2C * 2 ^ 26 + rd.toNat * 2 ^ 21 + ra.toNat * 2 ^ 16 + sz * 2 ^ 9 + bitNat dec * 2 ^ 8 + poly * 2 ^ 6 + fn)

/-- The core and the word of a Camku instruction; none for every other command of the block. Fields a row does not name hold 0. -/
def encodeCamku : Instr → Option (CoreId × Word)
  | .add t rd ra rb s => some (t, wordAlu 0x00 rd ra rb s)
  | .sub t rd ra rb s => some (t, wordAlu 0x01 rd ra rb s)
  | .addc t rd ra rb s => some (t, wordAlu 0x02 rd ra rb s)
  | .subc t rd ra rb s => some (t, wordAlu 0x03 rd ra rb s)
  | .and t rd ra rb s => some (t, wordAlu 0x04 rd ra rb s)
  | .or t rd ra rb s => some (t, wordAlu 0x05 rd ra rb s)
  | .xor t rd ra rb s => some (t, wordAlu 0x06 rd ra rb s)
  | .andn t rd ra rb s => some (t, wordAlu 0x07 rd ra rb s)
  | .shl t rd ra rb s => some (t, wordAlu 0x08 rd ra rb s)
  | .shr t rd ra rb s => some (t, wordAlu 0x09 rd ra rb s)
  | .sar t rd ra rb s => some (t, wordAlu 0x0A rd ra rb s)
  | .ror t rd ra rb s => some (t, wordAlu 0x0B rd ra rb s)
  | .mul t rd ra rb s => some (t, wordAlu 0x0C rd ra rb s)
  | .mulh t rd ra rb s => some (t, wordAlu 0x0D rd ra rb s)
  | .mulhu t rd ra rb s => some (t, wordAlu 0x0E rd ra rb s)
  | .min t rd ra rb s => some (t, wordAlu 0x0F rd ra rb s)
  | .max t rd ra rb s => some (t, wordAlu 0x10 rd ra rb s)
  | .minu t rd ra rb s => some (t, wordAlu 0x11 rd ra rb s)
  | .maxu t rd ra rb s => some (t, wordAlu 0x12 rd ra rb s)
  | .clz t rd ra s => some (t, wordAlu 0x13 rd ra 0 s)
  | .cmp t ra rb s => some (t, wordAlu 0x14 0 ra rb s)
  | .tst t ra rb s => some (t, wordAlu 0x15 0 ra rb s)
  | .addi t rd ra imm => some (t, wordI 0x02 rd ra imm)
  | .andi t rd ra imm => some (t, wordI 0x03 rd ra imm)
  | .ori t rd ra imm => some (t, wordI 0x04 rd ra imm)
  | .xori t rd ra imm => some (t, wordI 0x05 rd ra imm)
  | .cmpi t ra imm => some (t, wordI 0x06 0 ra imm)
  | .shi t fn rd ra amount s => some (t, wordR 0x07 rd.toNat ra.toNat amount.toNat (bitNat s) (8 + fn.val))
  | .movi t rd imm => some (t, wordI 0x08 rd 0 imm)
  | .movhi t rd imm => some (t, wordI 0x09 rd 0 imm)
  | .ld t rd ra imm => some (t, wordI 0x10 rd ra imm)
  | .ldh t rd ra imm => some (t, wordI 0x11 rd ra imm)
  | .ldhu t rd ra imm => some (t, wordI 0x12 rd ra imm)
  | .ldb t rd ra imm => some (t, wordI 0x13 rd ra imm)
  | .ldbu t rd ra imm => some (t, wordI 0x14 rd ra imm)
  | .st t rd ra imm => some (t, wordI 0x15 rd ra imm)
  | .sth t rd ra imm => some (t, wordI 0x16 rd ra imm)
  | .stb t rd ra imm => some (t, wordI 0x17 rd ra imm)
  | .bcc t cond disp => some (t, BitVec.ofNat 32 (0x18 * 2 ^ 26 + cond.val * 2 ^ 22 + disp.toNat))
  | .call t disp => some (t, BitVec.ofNat 32 (0x19 * 2 ^ 26 + disp.toNat))
  | .nop t => some (t, wordR 0x1A 0 0 0 0 0x00)
  | .jmpr t ra => some (t, wordR 0x1A 0 ra.toNat 0 0 0x01)
  | .callr t ra => some (t, wordR 0x1A 0 ra.toNat 0 0 0x02)
  | .ret t => some (t, wordR 0x1A 0 0 0 0 0x03)
  | .reti t => some (t, wordR 0x1A 0 0 0 0 0x04)
  | .retx t => some (t, wordR 0x1A 0 0 0 0 0x05)
  | .wait t => some (t, wordR 0x1A 0 0 0 0 0x06)
  | .halt t => some (t, wordR 0x1A 0 0 0 0 0x07)
  | .trap t n => some (t, wordR 0x1A 0 0 n.toNat 0 0x08)
  | .mfc t rd c => some (t, wordR 0x1A rd.toNat c.val 0 0 0x09)
  | .mtc t c ra => some (t, wordR 0x1A c.val ra.toNat 0 0 0x0A)
  | .ei t => some (t, wordR 0x1A 0 0 0 0 0x0B)
  | .di t => some (t, wordR 0x1A 0 0 0 0 0x0C)
  | .mfx t rd x => some (t, wordR 0x1A rd.toNat x.val 0 0 0x0D)
  | .mtx t x ra => some (t, wordR 0x1A x.val ra.toNat 0 0 0x0E)
  | .mflk t rd => some (t, wordR 0x1A rd.toNat 0 0 0 0x0F)
  | .mtlk t ra => some (t, wordR 0x1A 0 ra.toNat 0 0 0x10)
  | .bset t rx ba => some (t, wordX 0 rx ba)
  | .bclr t rx ba => some (t, wordX 1 rx ba)
  | .bnot t rx ba => some (t, wordX 2 rx ba)
  | .btst t rx ba => some (t, wordX 3 rx ba)
  | .bmovToC t rx ba => some (t, wordX 4 rx ba)
  | .bmovn t rx ba => some (t, wordX 5 rx ba)
  | .bmovToBit t rx ba => some (t, wordX 6 rx ba)
  | .band t rx ba => some (t, wordX 7 rx ba)
  | .bandn t rx ba => some (t, wordX 8 rx ba)
  | .bor t rx ba => some (t, wordX 9 rx ba)
  | .born t rx ba => some (t, wordX 10 rx ba)
  | .bxor t rx ba => some (t, wordX 11 rx ba)
  | .btas t rx ba => some (t, wordX 12 rx ba)
  | .brbs t disp ba => some (t, BitVec.ofNat 32 (0x21 * 2 ^ 26 + disp.toNat * 2 ^ 16 + ba.toNat))
  | .brbc t disp ba => some (t, BitVec.ofNat 32 (0x22 * 2 ^ 26 + disp.toNat * 2 ^ 16 + ba.toNat))
  | .macd t acc neg rx ry xinc yinc =>
    some (t, BitVec.ofNat 32 (0x28 * 2 ^ 26 + bitNat acc * 2 ^ 25 + bitNat neg * 2 ^ 24 + rx.toNat * 2 ^ 19 + ry.toNat * 2 ^ 14
      + xinc.toNat * 2 ^ 10 + yinc.toNat * 2 ^ 6))
  | .aclr t acc => some (t, wordR 0x29 0 0 0 (bitNat acc) 0x00)
  | .mac t acc ra rb => some (t, wordR 0x29 0 ra.toNat rb.toNat (bitNat acc) 0x01)
  | .msu t acc ra rb => some (t, wordR 0x29 0 ra.toNat rb.toNat (bitNat acc) 0x02)
  | .macu t acc ra rb => some (t, wordR 0x29 0 ra.toNat rb.toNat (bitNat acc) 0x03)
  | .mfal t acc rd => some (t, wordR 0x29 rd.toNat 0 0 (bitNat acc) 0x04)
  | .mfah t acc rd => some (t, wordR 0x29 rd.toNat 0 0 (bitNat acc) 0x05)
  | .mfag t acc rd => some (t, wordR 0x29 rd.toNat 0 0 (bitNat acc) 0x06)
  | .mtal t acc ra => some (t, wordR 0x29 0 ra.toNat 0 (bitNat acc) 0x07)
  | .mtah t acc ra => some (t, wordR 0x29 0 ra.toNat 0 (bitNat acc) 0x08)
  | .mtag t acc ra => some (t, wordR 0x29 0 ra.toNat 0 (bitNat acc) 0x09)
  | .asr t acc n => some (t, wordR 0x29 0 0 n.toNat (bitNat acc) 0x0A)
  | .asl t acc n => some (t, wordR 0x29 0 0 n.toNat (bitNat acc) 0x0B)
  | .arnd t acc rd n => some (t, wordR 0x29 rd.toNat 0 n.toNat (bitNat acc) 0x0C)
  | .movs t sz dec => some (t, wordS 0 0 sz.val dec 0 0)
  | .fills t ra sz dec => some (t, wordS 0 ra sz.val dec 0 1)
  | .cmps t sz dec => some (t, wordS 0 0 sz.val dec 0 2)
  | .crcs t rd dec poly => some (t, wordS rd 0 0 dec poly.val 3)
  | .cx t k rd ra rb imm =>
    some (t, BitVec.ofNat 32 ((0x30 + k.val) * 2 ^ 26 + rd.toNat * 2 ^ 21 + ra.toNat * 2 ^ 16 + imm.toNat % 2048 + (rb.toNat * 2 ^ 11)))
  | _ => none

end Sys2Proof
end

