-- ==== Sys2Proof/Config.lean ====
section
/-! DEFINITION. What the spec leaves to the implementation or leaves open: opaque constants with no body, so that no proof can rest on a value of them (notes/assumptions 3, 7–12). -/

namespace Sys2Proof.Config

/-- A fresh free value: the n-th undefined value that the machine takes (log 3). The state holds the counter. -/
opaque free : Nat → BitVec 128

/-- The raw fuse words of the vendor's fields in blocks 0–3 as the device ships (R409; the manual states no trims, identities or test records; log 7). -/
opaque factoryWord : Nat → BitVec 39

/-- The key hash of the Urkai base image as IKH0 ships with it, by word (R409; the manual states no hash; log 7). -/
opaque baseKeyHash : Nat → BitVec 32

/-- Which column of odd weight each data bit of the SECDED code has, as an index into the columns not yet taken (R408; the manual names a SECDED code and gives no matrix; log 8). -/
opaque secdedOrder : Nat → Nat

/-- SHA-256 over a byte string (R397; FIPS 180-4, which the manual cites and does not restate). -/
opaque sha256 : List (BitVec 8) → BitVec 256

/-- The verdict of ECDSA over P-256 (R397): public key, digest, signature. -/
opaque ecdsaVerify : List (BitVec 8) → BitVec 256 → List (BitVec 8) → Bool

/-- AES-256-GCM decryption (R397): key, IV, additional data, body, tag; absent when the tag fails. -/
opaque gcmOpen : BitVec 256 → List (BitVec 8) → List (BitVec 8) → List (BitVec 8) → List (BitVec 8) → Option (List (BitVec 8))

/-- The round function that the device's root key gives its key wrap (R411; log 9). -/
opaque rootRound : Nat → BitVec 160 → BitVec 160

/-- The boot ROM's bytes (R289; the manual gives no contents). -/
opaque bootRom : Nat → BitVec 8

/-- The root certificate that a certificate chain carries (R423; the chain's layout belongs to USB Type-C Authentication; log 11). -/
opaque chainRoot : List (BitVec 8) → List (BitVec 8)

/-- The signatures within a certificate chain, each as public key, signed bytes and signature (R423; log 11). -/
opaque chainLinks : List (BitVec 8) → List (List (BitVec 8) × List (BitVec 8) × List (BitVec 8))

/-- The public key of a chain's leaf certificate (R424; log 11). -/
opaque chainLeaf : List (BitVec 8) → List (BitVec 8)

/-- What the base image writes into a source's vector-table entry at start (R386 step 7; the addresses belong to the image). -/
opaque baseVector : Nat → Nat → BitVec 32

/-- Whether the image of a version reproduces the base image's behaviour, as R4 lets a customer image do (log 92). -/
opaque reproducesBase : BitVec 32 → Bool

-- the SECDED code of the fuse words

/-- The columns of odd weight above 1, from which a SECDED code takes those of its data bits (R408). -/
def oddColumns : List (BitVec 7) :=
  ((List.range 128).map (BitVec.ofNat 7)).filter fun c =>
    let w := ((List.range 7).filter fun k => c.getLsbD k).length
    w % 2 = 1 && decide (1 < w)

/-- n columns, each taken out of those that are left. -/
def takeColumns : Nat → List (BitVec 7) → List (BitVec 7)
  | 0, _ => []
  | n + 1, cs =>
    let k := secdedOrder n % cs.length
    cs.getD k 0 :: takeColumns n (cs.eraseIdx k)

/-- The columns of the 32 data bits: distinct and of odd weight, so that any two codewords lie at least four bits apart (R408; log 8). -/
def secdedColumns : List (BitVec 7) := takeColumns 32 oddColumns

/-- The check bits of a fuse word: the SECDED code of its data, inverted (R408). -/
def secdedCheck (d : BitVec 32) : BitVec 7 :=
  ~~~(secdedColumns.zipIdx.foldl (fun x p => if d.getLsbD p.2 then x ^^^ p.1 else x) 0)

/-- A programmed fuse word (R408). -/
def fuseWord (d : BitVec 32) : BitVec 39 := ((secdedCheck d).zeroExtend 39 <<< 32) ||| d.zeroExtend 39

/-- The fuses as the device ships (R409): blocks 0–3 locked over the vendor's fields, IKH0 programmed, every other word blank. -/
def shippedFuses : Vector (BitVec 39) 512 := Vector.ofFn fun (i : Fin 512) =>
  if i.val < 128 && i.val % 32 = 31 then fuseWord 0x4C4F434B
  else if i.val < 36 || (decide (64 ≤ i.val) && decide (i.val < 127)) then factoryWord i.val
  else if 160 ≤ i.val && i.val < 168 then fuseWord (baseKeyHash (i.val - 160))
  else 0

-- the key wrap

/-- Twelve rounds over the two halves of a block, each undone by `unmix` (log 9). -/
def mix : Nat → BitVec 160 × BitVec 160 → BitVec 160 × BitVec 160
  | 0, b => b
  | n + 1, b => mix n (b.2, b.1 ^^^ rootRound n b.2)

/-- The rounds of `mix` undone, the last one first. -/
def unmix : Nat → BitVec 160 × BitVec 160 → BitVec 160 × BitVec 160
  | 0, b => b
  | n + 1, b =>
    let c := unmix n b
    (c.2 ^^^ rootRound n c.1, c.1)

/-- The integrity value of the key wrap (AES key wrap, RFC 3394; PRESUMED, log 9). -/
def wrapCheck : BitVec 64 := 0xA6A6A6A6A6A6A6A6

/-- A unit key wrapped under the root key (R411, R413). -/
def wrapKey (k : BitVec 256) : BitVec 320 :=
  let b : BitVec 320 := wrapCheck ++ k
  let c := mix 12 (b.extractLsb' 160 160, b.extractLsb' 0 160)
  c.1 ++ c.2

/-- The key that a wrapped key holds, where it passes its integrity check (R411). -/
def unwrapKey (w : BitVec 320) : Option (BitVec 256) :=
  let c := unmix 12 (w.extractLsb' 160 160, w.extractLsb' 0 160)
  let b : BitVec 320 := c.1 ++ c.2
  if b.extractLsb' 256 64 = wrapCheck then some (b.extractLsb' 0 256) else none

end Sys2Proof.Config
end

