-- ==== Sys2Proof/Machine/State.lean ====
section
/-! DEFINITION. The state of the BXM-3248: every register, queue, buffer, counter, mode and pin the spec gives it, as plain data, with the queue of waiting commands. Each field's docstring reads: width; file and rule; reset value; note. A field's default is its reset value. -/

namespace Sys2Proof.Machine

/-- Sparse memory: address and byte pairs in canonical form (Memory.wf in Ops.lean). -/
abbrev Mem := List Host.Cell

/-- DEV_STATUS.STATE (R15). -/
inductive DevState where
  | boot | loader | ready | run | watch | holdover | halted
deriving DecidableEq, Repr

/-- A transition in progress, during which STATE holds the state being left (R15). -/
inductive Transition where
  | none | stopping | halting (cause : Nat) | enteringWatch
deriving DecidableEq, Repr

/-- CC_STATUS.CC_STATE (R28). -/
inductive CcState where
  | disabled | unattachedSrc | attachWaitSrc | attachedSrc | unattachedSnk | attachWaitSnk
  | attachedSnk | trySrc | tryWaitSnk | unattachedWait | cutState | watch
deriving DecidableEq, Repr

/-- Configuration registers of a lane page, as raw words (R433). -/
structure LaneCfg where
  /-- 32 bits; 16 R391; reset 0; PORT_EN and ALTEN_FN -/
  laneCtrl : Word := 0
  /-- 32 bits; 02 R25; reset 0x0002_2000; CC_CTRL -/
  ccCtrl : Word := 0x00022000
  /-- 11 × 32 bits; 04 R78; reset 0; PDO_TABLE0–10 -/
  pdo : Vector Word 11 := Vector.replicate 11 0
  /-- 32 bits; 04 R95; reset 0; UMODE_CTRL -/
  umodeCtrl : Word := 0
  /-- 32 bits; 04 R95; reset 0; TWIN_STANDBY -/
  twinStandby : Word := 0
  /-- 32 bits; 04 R95; reset 0; TWIN_RUN -/
  twinRun : Word := 0
  /-- 32 bits; 04 R98; reset 0; ARM_TIME_LO -/
  armTimeLo : Word := 0
  /-- 32 bits; 04 R98; reset 0; ARM_TIME_HI -/
  armTimeHi : Word := 0
  /-- 32 bits; 06 R141; reset 0; ILIM_SET -/
  ilimSet : Word := 0
  /-- 32 bits; 06 R147; reset 0x0A00_0808; OVP_SET -/
  ovpSet : Word := 0x0A000808
  /-- 32 bits; 06 R163; reset 0x0000_0100; BELAY_CTRL -/
  belayCtrl : Word := 0x100
  /-- 32 bits; 07 R170; reset 0x0535_1080; CONV_CTRL -/
  convCtrl : Word := 0x05351080
  /-- 32 bits; 07 R175; reset 0; CONV_STAGE -/
  convStage : Word := 0
  /-- 32 bits; 07 R180; reset 0x0000_140A; CONV_LOOP -/
  convLoop : Word := 0x140A
  /-- 32 bits; 07 R182; reset 0x0064_03E8; CONV_VSET -/
  convVset : Word := 0x006403E8
  /-- 32 bits; 07 R182; reset 0; VCONV_MAX -/
  vconvMax : Word := 0
  /-- 32 bits; 07 R185; reset 0x0000_005A; CONV_ISET -/
  convIset : Word := 0x5A
  /-- 32 bits; 07 R188; reset 0x0000_2710; CONV_REV -/
  convRev : Word := 0x2710
  /-- 32 bits; 07 R193; reset 0; CONV_FF -/
  convFf : Word := 0
  /-- 32 bits; 07 R173; reset n × 0x080 on lane n; PHASE_OFFSET -/
  phaseOffset : Word := 0
  /-- 7 × 32 bits; 07 R179; reset 0; CV_B0–B3, CV_A1–A3 -/
  cv : Vector Word 7 := Vector.replicate 7 0
  /-- 3 × 32 bits; 07 R179; reset 0; CI_B0, CI_B1, CI_A1 -/
  ci : Vector Word 3 := Vector.replicate 3 0
  /-- 32 bits; 05 R106; reset 0; SWAP_CTRL -/
  swapCtrl : Word := 0
  /-- 10 bits; 05 R130; reset 0; TALLY_FULL_I -/
  tallyFullI : Word := 0
  /-- 12 bits; 05 R130; reset 0; TALLY_FULL_T -/
  tallyFullT : Word := 0
  /-- 14 bits; 05 R130; reset 0; TALLY_EMPTY_V -/
  tallyEmptyV : Word := 0
  /-- 32 bits; 08 R210; reset 0; LANE_BUDGET -/
  laneBudget : Word := 0
  /-- 32 bits; 09 R237; reset 0; SECT_GEOM_FA -/
  sectFa : Word := 0
  /-- 32 bits; 09 R237; reset 0; SECT_GEOM_LAT -/
  sectGeoLat : Word := 0
  /-- 16 bits; 09 R237; reset 0; SECT_GEOM_W -/
  sectW : Word := 0
  /-- 32 bits; 09 R237; reset 0; SECT_LAT -/
  sectLat : Word := 0
  /-- 32 bits; 09 R237; reset 0x000A_0000; SECT_CTRL -/
  sectCtrl : Word := 0x000A0000
  /-- 32 bits; 14 R336; reset 0x1388_03E8; FW_WINDOW0 -/
  fwWindow0 : Word := 0x138803E8
  /-- 32 bits; 14 R336; reset 0x0000_2710; FW_WINDOW1 -/
  fwWindow1 : Word := 0x2710
  /-- 32 bits; 14 R336; reset 0x0000_0333; FW_THRESH -/
  fwThresh : Word := 0x333
  /-- 64 × 32 bits; 19 R435; reset 0; LANE_SAVE0–63 -/
  laneSave : Vector Word 64 := Vector.replicate 64 0
  /-- 8 × 32 bits; 03 R61; reset 0; PD_TX_DATA0–7 -/
  txData : Vector Word 8 := Vector.replicate 8 0
  /-- 32 bits; 03 R61; reset 0; the stored fields AMS_START, EXT and SOP of PD_TX_CTRL -/
  txCtrl : Word := 0
  /-- 32 bits; 03 R463; reset 0; PD_EXT_PTR -/
  extPtr : Word := 0
deriving DecidableEq, Repr

/-- Attach, orientation, VCONN and cable fields of a lane (file 02). -/
structure CcLane where
  /-- 4 bits; 02 R28 R41; reset Disabled; CC_STATE -/
  st : CcState := .disabled
  /-- 1 bit; 02 R33 R41; reset 0; POLARITY, 1 = CC2 -/
  polarity : Bool := false
  /-- 1 bit; 02 R41; reset 0; RA_SEEN -/
  raSeen : Bool := false
  /-- 1 bit; 02 R41; reset 0; VCONN_ON -/
  vconnOn : Bool := false
  /-- 2 bits; 02 R41; reset 0; PARTNER_RP -/
  partnerRp : BitVec 2 := 0
  /-- 1 bit; 02 R41; reset 0; ATTACH_EVT -/
  attachEvt : Bool := false
  /-- 1 bit; 02 R41; reset 0; DETACH_EVT -/
  detachEvt : Bool := false
  /-- 1 bit; 02 R41; reset 0; VCONN_OC -/
  vconnOc : Bool := false
  /-- 1 bit; 02 R38 R41; reset 0; CUT -/
  cut : Bool := false
  /-- 1 bit; 02 R36 R41; reset 0; CABLE_VALID -/
  cableValid : Bool := false
  /-- 2 bits; 02 R36 R41; reset 0; CABLE_IMAX -/
  cableImax : BitVec 2 := 0
  /-- 2 bits; 02 R36 R41; reset 0; CABLE_VMAX -/
  cableVmax : BitVec 2 := 0
  /-- 1 bit; 02 R36 R41; reset 0; CABLE_EPR -/
  cableEpr : Bool := false
  /-- pin or none; 02 R30 R32; reset none; the pin whose termination is being debounced -/
  debPin : Option CcPin := none
  /-- 1 bit; 02 R32 R46; reset 0; a debounce has ended and the attach waits for RUN or, as sink, for VBUS -/
  held : Bool := false
  /-- 1 bit; 02 R30 R46; reset 0; Ra on the other pin when the debounce ended -/
  debRa : Bool := false
  /-- 2 bits; 02 R32 R46; reset 0; the partner's Rp when the debounce ended -/
  debRp : BitVec 2 := 0
  /-- 1 bit; 02 R32; reset 0; VBUS was at least 4.0 V when last seen in the wait -/
  debVbus : Bool := false
  /-- 1 bit; 05 R108 R125; reset 0; the lane attached as source (role to return to) -/
  attachSrc : Bool := false
  /-- 1 bit; 05 R108 R125; reset 0; the lane took the VCONN source role at its attach -/
  attachVconn : Bool := false
  /-- 1 bit; 02 R35; reset 0; VCONN was removed for a transient overcurrent and waits to be reapplied -/
  vconnRetry : Bool := false
  /-- ns or none; 02 R35, 20 R462; reset none; DTIME at which a low VCONN_SUP removed VCONN from the lane -/
  supLowAt : Option Nat := none
  /-- 1 bit; 02 R36; reset 0; cable discovery is running -/
  discRun : Bool := false
  /-- 2 bits; 02 R36; reset 0; attempts of the running discovery -/
  discTries : Nat := 0
  /-- 1 bit; 02 R36 R82; reset 0; the running discovery repeats after a cable reset -/
  discRepeat : Bool := false
  /-- 1 bit; 04 R88; reset 0; the running discovery belongs to an EPR entry -/
  discEpr : Bool := false
  /-- count; 02 R45; reset 0; probe cycles seen since watch entry -/
  probeCycles : Nat := 0
  /-- 1 bit; 02 R45, 01 R23; reset 0; the lane saw a termination, or was attached, when watch entry began -/
  entrySeen : Bool := false
  /-- 1 bit; 02 R45; reset 0; a termination was present in the last baseline cycle -/
  probeBase : Bool := false
  /-- 1 bit; 02 R45; reset 0; the last probe found a termination -/
  probeLast : Bool := false
  /-- count; 02 R45; reset 0; consecutive probes with the result of the last one -/
  probeRun : Nat := 0
deriving DecidableEq, Repr

/-- A slot of the receive FIFO (R54): a message or a marker, with its SOP type and the DTIME_LO of its EOP. -/
structure RxSlot where
  marker : Bool := false
  frame : Frame := {}
  time : Word := 0
deriving DecidableEq, Repr

/-- A slot of the transmit queue (R57). -/
structure TxSlot where
  tag : BitVec 4 := 0
  sop : Sop := .sop
  ext : Bool := false
  ams : Bool := false
  data : List Word := []
  begun : Bool := false
deriving DecidableEq, Repr

/-- What lane hardware or the base image wants of a message's outcome. -/
inductive HwKind where
  | answer | chunkRequest | tmMark | tmFollow | keepalive (again : Bool) | swapAccept | swapPsRdy
deriving DecidableEq, Repr

/-- A message that lane hardware sends with no queue slot and no tag (R63, R66, R86, R93, R114, R115, R119). -/
structure HwMsg where
  kind : HwKind := .answer
  frame : Frame := {}
  ams : Bool := false
deriving DecidableEq, Repr

/-- The frame on the wire that awaits its GoodCRC (R53). `hw` names a hardware message; otherwise the head slot is in flight. -/
structure Flight where
  hw : Option HwMsg := none
  frame : Frame := {}
  tries : Nat := 1
  /-- a hard reset has ended it (R69) -/
  ended : Bool := false
deriving DecidableEq, Repr

/-- A reassembly in progress (R62, R63). -/
structure Reassembly where
  sop : Sop := .sop
  header : BitVec 16 := 0
  extHeader : BitVec 16 := 0
  size : Nat := 0
  next : Nat := 1
  awaiting : Bool := false
deriving DecidableEq, Repr

/-- Where a hard reset stands (R69, R71). -/
inductive HrPhase where
  | idle | signalling | psWait | vbusOff | srcRecover | rising | sinkWait
deriving DecidableEq, Repr

/-- What follows the discharge of a hard reset (R71, R18, R43, R351, R352, R338, R157). -/
inductive HrThen where
  | normal | disable
deriving DecidableEq, Repr

/-- BIST modes (R74). -/
inductive Bist where
  | off | carrier | testData
deriving DecidableEq, Repr

/-- The message layer of a lane (file 03). -/
structure PdLane where
  /-- 3 × 3 bits; 03 R50; reset 0; transmit MessageID of SOP, SOP', SOP'' -/
  txId : Vector (BitVec 3) 3 := Vector.replicate 3 0
  /-- 3 × (3 bits or none); 03 R50; reset none; stored receive MessageID of SOP, SOP', SOP'' -/
  rxId : Vector (Option (BitVec 3)) 3 := Vector.replicate 3 none
  /-- at most 4 slots; 03 R54; reset empty; receive FIFO, oldest first -/
  fifo : List RxSlot := []
  /-- messages; 03 R464; reset empty; received messages the lane has not answered -/
  unanswered : List Frame := []
  /-- 8 bits; 03 R56; reset 0; OVF_CNT -/
  ovfCnt : BitVec 8 := 0
  /-- 1 bit; 03 R56; reset 0; HR_RCVD -/
  hrRcvd : Bool := false
  /-- 1 bit; 03 R56; reset 0; EXT_UNCHUNKED -/
  extUnchunked : Bool := false
  /-- 1 bit; 03 R56; reset 0; EXT_ABORT -/
  extAbort : Bool := false
  /-- 1 bit; 03 R56; reset 0; EXT_TOOBIG -/
  extTooBig : Bool := false
  /-- 1 bit; 03 R56; reset 0; OVF -/
  ovf : Bool := false
  /-- at most 2 slots; 03 R57; reset empty; transmit queue, oldest first -/
  queue : List TxSlot := []
  /-- messages; 03 R63 R66 R93; reset empty; hardware messages that wait for the line -/
  hwq : List HwMsg := []
  /-- frame or none; 03 R53; reset none; the frame that awaits GoodCRC -/
  flight : Option Flight := none
  /-- frame or none; 03 R51; reset none; the GoodCRC that answered the last received frame, none where it was withheld -/
  ack : Option Frame := none
  /-- 1 bit; 03 R59; reset 0; the collision gate has let the head message through -/
  gateOpen : Bool := false
  /-- 4 bits; 03 R61; reset 0; NEXT_TAG -/
  nextTag : BitVec 4 := 0
  /-- 2 bits; 03 R61 R72; reset 0; HR_COUNT -/
  hrCount : BitVec 2 := 0
  /-- 1 bit; 03 R61; reset 0; HR_DONE -/
  hrDone : Bool := false
  /-- 1 bit; 03 R61; reset 0; TX_DONE -/
  txDone : Bool := false
  /-- 4 bits; 03 R61; reset 0; LAST_TAG -/
  lastTag : BitVec 4 := 0
  /-- 3 bits; 03 R60 R61; reset 0; LAST_RESULT -/
  lastResult : BitVec 3 := 0
  /-- 2 bits; 03 R61; reset 0; LAST_RETRIES -/
  lastRetries : BitVec 2 := 0
  /-- 32 bits; 03 R60 R61; reset 0; PD_TX_TIME -/
  txTime : Word := 0
  /-- 260 bytes; 03 R463; reset 0 (DESIGN CHOICE, log 4); receive buffer -/
  rxBuf : Mem := []
  /-- 260 bytes; 03 R463; reset 0 (DESIGN CHOICE, log 4); transmit buffer -/
  txBuf : Mem := []
  /-- record or none; 03 R62 R63 R75; reset none; the reassembly in progress -/
  reasm : Option Reassembly := none
  /-- number or none; 03 R65; reset none; chunk of the head extended message last sent -/
  txChunk : Option Nat := none
  /-- 1 bit; 03 R65; reset 0; the head extended message waits for a Chunk Request -/
  txChunkWait : Bool := false
  /-- phase; 03 R69 R71; reset idle; hard reset in progress; hr_busy is 1 while it is not idle -/
  hrPhase : HrPhase := .idle
  /-- kind; 03 R71; reset normal; what follows the discharge of the hard reset -/
  hrThen : HrThen := .normal
  /-- mode; 03 R74; reset off; BIST mode -/
  bist : Bist := .off
  /-- 1 bit; 03 R66 R75; reset 0; ar_active -/
  arActive : Bool := false
  /-- 1 bit; 03 R67; reset 0; the auto-responder has requested as sink, and the core requests again when it resumes -/
  arAsked : Bool := false
  /-- frame or none; 03 R66; reset none; last Source_Capabilities the lane sent since attach -/
  lastCaps : Option Frame := none
  /-- frame or none; 03 R66; reset none; last Request the lane sent since attach -/
  lastRequest : Option Frame := none
  /-- frame or none; 03 R66; reset none; the Source_Capabilities that the last Request answered -/
  answeredCaps : Option Frame := none
  /-- 1 bit; 04 R83; reset 0; an Accept to a Request is queued or in flight -/
  acceptPending : Bool := false
  /-- 1 bit; 04 R83; reset 0; an Accept that another image sent to a Request is queued or in flight -/
  reqAccept : Bool := false
  /-- 1 bit; 03 R66, 04 R83; reset 0; the contract change of such an Accept is in progress -/
  inChange : Bool := false
deriving DecidableEq, Repr

/-- A contract change from the Accept's EOP to the PS_RDY's GoodCRC (R83). -/
structure Change where
  epr : Bool := false
  kind : BitVec 2 := 3
  objPos : BitVec 4 := 0
  volt : BitVec 14 := 0
  curr : BitVec 10 := 0
  /-- the Accept's EOP has passed -/
  started : Bool := false
  /-- ns; DTIME of the Accept's EOP, the origin of the table of R83 -/
  origin : Nat := 0
  /-- the voltage transition has begun (step 2) -/
  moving : Bool := false
  /-- PS_RDY may go and is held to the instant of R104 -/
  held : Bool := false
  /-- PS_RDY has been queued (step 3) -/
  ready : Bool := false
  /-- the Request came from the partner of a sink lane's own Request -/
  asSink : Bool := false
deriving DecidableEq, Repr

/-- Steps of the base image's sequence of R89, R118, R135 and R424 on a lane. -/
inductive UrkaiStep where
  | idle | identity | svids | modes | enterMode | exitMode | twinSet | sinkCap | holdSet
  | recRead | recWrite | recCommit | digests | certificate | challenge | done
deriving DecidableEq, Repr

/-- The Time Mark exchange (R93). -/
inductive TmPhase where
  | idle | markSent | followSent
deriving DecidableEq, Repr

/-- Contracts, keep-alive, Urkai mode and Twin Contract of a lane (file 04). -/
structure ContractLane where
  /-- 1 bit; 04 R84; reset 0; VALID -/
  valid : Bool := false
  /-- 1 bit; 04 R84; reset 0; EPR -/
  epr : Bool := false
  /-- 2 bits; 04 R84; reset 3; KIND -/
  kind : BitVec 2 := 3
  /-- 4 bits; 04 R84; reset 0; OBJ_POS -/
  objPos : BitVec 4 := 0
  /-- 14 bits; 04 R84; reset 0; VOLT -/
  volt : BitVec 14 := 0
  /-- 10 bits; 04 R84; reset 0; CURR -/
  curr : BitVec 10 := 0
  /-- 1 bit; 04 R88; reset 0; the port pair is in EPR mode -/
  eprMode : Bool := false
  /-- 2 bits; 04 R87; reset 0; KA_KIND -/
  kaKind : BitVec 2 := 0
  /-- ns; 04 R85 R87; reset 0; DTIME at which the running keep-alive deadline was last restarted -/
  kaStart : Nat := 0
  /-- record or none; 04 R83; reset none; contract change in progress -/
  change : Option Change := none
  /-- record or none; 04 R83; reset none; falling limits of step 5 that wait: ILIM value and current -/
  fall : Option (BitVec 8 × BitVec 10) := none
  /-- 1 bit; 04 R83; reset 0; step 5 of a contract change waits -/
  step5 : Bool := false
  /-- words; 04 R82; reset empty; objects of the last capability list sent, by position -/
  offer : List Word := []
  /-- 32 bits; 04 R82 R88; reset 0; the RDO of the contract in force -/
  rdo : Word := 0
  /-- frame or none; 04 R81; reset none; the capability list last received as sink -/
  rxCaps : Option Frame := none
  /-- 12 bits; 08 R217; reset 0; CEIL with which the last list was built -/
  capsCeil : BitVec 12 := 0
  /-- ns; 08 R217; reset 0; DTIME at which the last list was sent -/
  capsTime : Nat := 0
  /-- 1 bit; 04 R105; reset 0; a capability list after a Twin switch waits for the core to resume -/
  capsDue : Bool := false
  /-- 1 bit; 04 R104; reset 0; a fallback waits for the core to resume -/
  fallDue : Bool := false
  /-- list of 5 bits; 04 R98; reset empty; command numbers of the TWIN_ARM and TWIN_DISARM that wait for the core to resume -/
  twinOwed : List (BitVec 5) := []
  /-- ns; 04 R83, 09 R241; reset 0; EOP of the last PS_RDY sent -/
  psEop : Nat := 0
  /-- bytes; 18 R424; reset empty; the part of the partner's certificate chain read so far -/
  authChain : List Byte := []
  /-- bytes; 18 R424; reset empty; the CHALLENGE last sent, with its nonce -/
  authAsked : List Byte := []
  /-- phase; 04 R88; reset 0; EPR entry: 0 = none, 1 = acknowledged, discovery runs, 2 = succeeded -/
  eprEntry : Nat := 0
  /-- step; 04 R89; reset idle; the base image's sequence -/
  seq : UrkaiStep := .idle
  /-- 2 bits; 04 R89; reset 0; sends of the present command -/
  seqTries : Nat := 0
  /-- 1 bit; 04 R89; reset 0; the sequence has run since the last attach or hard reset -/
  seqRun : Bool := false
  /-- 1 bit; 04 R91; reset 0; a command of the sequence awaits its answer -/
  seqWait : Bool := false
  /-- 1 bit; 04 R93; reset 0; the partner is in the Urkai mode -/
  urkai : Bool := false
  /-- 32 bits or none; 04 R90; reset none; the partner's Mode VDO -/
  modeVdo : Option Word := none
  /-- 1 bit; 04 R97; reset 0; TWIN_ON -/
  twinOn : Bool := false
  /-- 1 bit; 04 R93; reset 0; TM_LOCK -/
  tmLock : Bool := false
  /-- phase; 04 R93; reset idle; the Time Mark exchange -/
  tmPhase : TmPhase := .idle
  /-- 16 bits; 04 R91; reset 0; Time Mark sequence number -/
  tmSeq : BitVec 16 := 0
  /-- ns; 04 R93; reset 0; t_mark of the running exchange -/
  tMark : Nat := 0
  /-- count; 04 R93; reset 0; consecutive failed exchanges -/
  tmFails : Nat := 0
  /-- 4 bits; 04 R98; reset 0; ARM_STATE -/
  armState : BitVec 4 := 0
  /-- 4 bits; 04 R98; reset 0; ARM_ID, as last written -/
  armId : BitVec 4 := 0
  /-- 1 bit; 04 R98; reset 0; TARGET, 1 = RUN, as last written -/
  target : Bool := false
  /-- 4 bits; 04 R98; reset 0; ARM_ID of the last arm, taken at the ARM write -/
  armedId : BitVec 4 := 0
  /-- 1 bit; 04 R98; reset 0; TARGET of the last arm, taken at the ARM write -/
  armedTarget : Bool := false
  /-- ns; 04 R104; reset 0; DTIME of the last ARM write -/
  armAt : Nat := 0
  /-- 1 bit; 04 R104; reset 0; the base image has fallen back from the last arm -/
  fellBack : Bool := false
  /-- ns or none; 04 R104; reset none; T to which the PS_RDY of a fallback is held -/
  holdT : Option Nat := none
  /-- 2 bits; 04 R98; reset 0; VOID_CAUSE -/
  voidCause : BitVec 2 := 0
  /-- 6 bits; 04 R98; reset 0; VOID_CNT -/
  voidCnt : BitVec 6 := 0
  /-- 8 bits; 04 R98; reset 0; SWITCH_CNT -/
  switchCnt : BitVec 8 := 0
  /-- ns; 04 R98; reset 0; T of the arm in force, taken at the ARM write -/
  armT : Nat := 0
  /-- 1 bit; 04 R103; reset 0; step 1 of a switch to RUN has been done -/
  runStep : Bool := false
  /-- 1 bit; 04 R103; reset 0; step 2 of a switch to STANDBY waits -/
  standbyWait : Bool := false
  /-- level; 04 R92; reset 0; ALTENn as Row Link drives it -/
  rowLink : Bool := false
  /-- command or none; 04 R98 R101 R104; reset none; a TWIN_ARM (19) or TWIN_DISARM (20) that awaits its answer -/
  armCmd : Option (BitVec 5) := none
  /-- 4 bits; 18 R424; reset 0; AUTH_STATE -/
  authState : BitVec 4 := 0
  /-- 1 bit; 18 R424; reset 0; ROOT -/
  authRoot : Bool := false
  /-- 8 bits; 18 R424; reset 0; AUTH_FAILS -/
  authFails : BitVec 8 := 0
  /-- 32 bits; 05 R135; reset 0; capacity of a pack write in progress -/
  recValue : Word := 0
  /-- 1 bit; 05 R135; reset 0; REC_READ has been sent since the lane entered the Urkai mode -/
  packRead : Bool := false
  /-- 1 bit; 05 R122; reset 0; a hold has ended by PR_Swap, and FRS is armed afresh at the next contract -/
  frsAgain : Bool := false
  /-- 1 bit; 05 R136; reset 0; a pack write waits to be queued again after VSYS_WARN -/
  recRetry : Bool := false
  /-- 1 bit; 06 R143, 07 R189; reset 0; the limits before the first contract wait for the core to resume -/
  ilimOwed : Bool := false
deriving DecidableEq, Repr

/-- Role swaps of a lane (file 05). -/
structure SwapLane where
  /-- 1 bit; 05 R108; reset 0; POWER_ROLE, 1 = source -/
  powerRole : Bool := false
  /-- 1 bit; 05 R108; reset 0; DATA_ROLE, 1 = DFP -/
  dataRole : Bool := false
  /-- 1 bit; 05 R108; reset 0; VCONN_ROLE -/
  vconnRole : Bool := false
  /-- 4 bits; 05 R108; reset 0; SWAP_STATE -/
  state : BitVec 4 := 0
  /-- 4 bits; 05 R108; reset 0; LAST_SWAP -/
  last : BitVec 4 := 0
  /-- 1 bit; 05 R108; reset 0; SWAP_EVT -/
  evt : Bool := false
  /-- 1 bit; 05 R108 R126; reset 0; PACK_HOLD -/
  packHold : Bool := false
  /-- 1 bit; 05 R108 R110; reset 0; frs_arm -/
  frsArm : Bool := false
  /-- 1 bit; 05 R126; reset 0; the partner of this attach has shown a Mode VDO with PACK = 1 -/
  packSeen : Bool := false
  /-- 1 bit; 05 R112; reset 0; the lane's own PR_Swap request was dropped for a message of the partner -/
  prDropped : Bool := false
  /-- 1 bit; 05 R108; reset 0; FRS_CAP -/
  frsCap : Bool := false
  /-- 1 bit; 05 R108; reset 0; HOLD_ON -/
  holdOn : Bool := false
  /-- 1 bit; 05 R118; reset 0; a HOLD_SET has been ACKed since the lane entered the Urkai mode -/
  holdAgreed : Bool := false
  /-- 1 bit; 05 R110 R111; reset 0; ams_hold -/
  amsHold : Bool := false
  /-- 1 bit; 05 R114 R115 R119; reset 0; the lane presents Rp on its CC pin (its present termination) -/
  presentsRp : Bool := false
  /-- 1 bit; 05 R113; reset 0; the lane's own PR_Swap awaits its answer -/
  ownPending : Bool := false
  /-- 1 bit; 05 R114 R115; reset 0; the PS_RDY of the running swap: the lane's has drawn its GoodCRC, or in a VCONN_Swap the partner's has arrived -/
  psSent : Bool := false
  /-- 1 bit; 05 R115; reset 0; the lane became source by PR_Swap and rests at the 3.0 A Rp level -/
  rpHigh : Bool := false
  /-- 1 bit; 05 R119; reset 0; CC is driven low as the FRS signal -/
  frsSignal : Bool := false
  /-- 1 bit; 05 R124; reset 0; the running VCONN_Swap makes the lane VCONN source -/
  vcsTake : Bool := false
  /-- 1 bit; 05 R124; reset 0; the lane's own VCONN_Swap has been sent and awaits its answer -/
  ownVcs : Bool := false
  /-- 1 bit; 05 R124; reset 0; the base image has asked for VCONN since the last attach or hard reset -/
  vcsTried : Bool := false
  /-- 1 bit; 05 R123 R124; reset 0; an Accept to DR_Swap or VCONN_Swap awaits its GoodCRC -/
  swapAccept : Bool := false
  /-- 1 bit; 05 R114; reset 0; a PR_Swap was accepted and its Accept awaits its GoodCRC -/
  prAccept : Bool := false
  /-- 1 bit; 07 R194, 05 R122; reset 0; an empty anchor during a hold came while the core did not serve, and stops the stage when it resumes -/
  stopOwed : Bool := false
deriving DecidableEq, Repr

/-- The charge tally of a lane (file 05). -/
structure TallyLane where
  /-- 40 bits signed; 05 R129; reset 0; TALLY_Q in µA·s -/
  q : Int := 0
  /-- 24 bits; 05 R129; reset 0; fraction of TALLY_Q below 1 µA·s -/
  qFrac : Nat := 0
  /-- 32 bits; 05 R130; reset 0; TALLY_THRU in mA·s -/
  thru : Nat := 0
  /-- 2^-24 µA·s, below 1 mA·s; 05 R129; reset 0; fraction of TALLY_THRU not yet counted -/
  thruFrac : Nat := 0
  /-- 24 bits; 05 R130; reset 0; TALLY_AGE in s -/
  age : Nat := 0
  /-- ns; 05 R130; reset 0; DTIME from which TALLY_AGE counts -/
  ageStart : Nat := 0
  /-- 32 bits; 05 R130; reset 0; TALLY_CAP -/
  cap : Word := 0
  /-- 8 bits; 05 R130; reset 0; JUMP -/
  jump : BitVec 8 := 0
  /-- 1 bit; 05 R130; reset 0; SAT -/
  sat : Bool := false
  /-- 1 bit; 05 R130; reset 0; CAP_NEW -/
  capNew : Bool := false
  /-- 1 bit; 05 R130; reset 0; ANCHOR_EVT -/
  anchorEvt : Bool := false
  /-- 1 bit; 05 R130; reset 0; CV -/
  cv : Bool := false
  /-- 1 bit; 05 R131; reset 0; the full anchor has occurred in the present CV -/
  cvDone : Bool := false
  /-- 1 bit; 05 R131; reset 0; the voltage anchor has occurred and has not qualified again -/
  emptyDone : Bool := false
  /-- frames; 05 R131; reset 0; budget frames in a row with VBUS above TALLY_EMPTY_V -/
  aboveFrames : Nat := 0
  /-- 2 bits; 05 R130; reset 0; LAST_ANCHOR -/
  lastAnchor : BitVec 2 := 0
deriving DecidableEq, Repr

/-- A request to close a lane's path that the belay holds (R139). -/
inductive CloseWant where
  | none | asSource | asSink
deriving DecidableEq, Repr

/-- The belay slice of a lane (file 06). -/
structure BelayLane where
  /-- 2 bits; 06 R164; reset 0; SW -/
  sw : BitVec 2 := 0
  /-- 4 bits; 06 R164; reset 0; CAUSE -/
  cause : BitVec 4 := 0
  /-- 1 bit; 06 R164; reset 0; LATCHED -/
  latched : Bool := false
  /-- 1 bit; 06 R164; reset 0; FAIL_A -/
  failA : Bool := false
  /-- 1 bit; 06 R164; reset 0; FAIL_B -/
  failB : Bool := false
  /-- 1 bit; 06 R164; reset 0; DISAGREE -/
  disagree : Bool := false
  /-- 1 bit; 06 R164; reset 0; BACKFEED -/
  backfeed : Bool := false
  /-- 1 bit; 06 R164; reset 0; TRIP_EVT -/
  tripEvt : Bool := false
  /-- 1 bit; 06 R164; reset 0; THERM_WARN -/
  thermWarn : Bool := false
  /-- 1 bit; 06 R164; reset 0; TRIP_A -/
  tripA : Bool := false
  /-- 1 bit; 06 R164; reset 0; TRIP_B -/
  tripB : Bool := false
  /-- 2 bits; 06 R164; reset 0; STEST_STATE -/
  stest : BitVec 2 := 0
  /-- 1 bit; 06 R164; reset 0; DISCH_IN -/
  dischIn : Bool := false
  /-- 1 bit; 06 R164; reset 0; DISCH_OUT -/
  dischOut : Bool := false
  /-- 1 bit; 06 R164; reset 0; SETTLING -/
  settling : Bool := false
  /-- result; 06 R158; reset all pass; the outcome of the self-test in progress -/
  test : TestResult := {}
  /-- 1 bit; 06 R139 R153; reset 0; the level comparators show VBOUT above 0.8 V -/
  voutHigh : Bool := false
  /-- 1 bit; 06 R139 R153; reset 0; the level comparators show VBIN above 5.5 V -/
  vinHigh : Bool := false
  /-- 1 bit; 06 R139 R148; reset 0; VBOUT is at least 4.0 V and within the voltage window -/
  voutOk : Bool := false
  /-- 1 bit; 06 R149; reset 0; VBOUT has risen above V_lo since the close -/
  risen : Bool := false
  /-- ns; 06 R149; reset 0; DTIME of the last close -/
  closedAt : Nat := 0
  /-- 1 bit; 06 R156; reset 0; a trip opened the switches, and no close has been asked for since -/
  tripOpen : Bool := false
  /-- ns; 06 R156; reset 0; DTIME of the trip that CAUSE records -/
  tripAt : Nat := 0
  /-- ns or none; 06 R154 R164; reset none; DTIME at which a path that was not open began to open -/
  openedAt : Option Nat := none
  /-- ns or none; 02 R46, 06 R167; reset none; DTIME of the detach or cut that opened a closed path -/
  leftAt : Option Nat := none
  /-- want; 06 R139; reset none; the close that lane hardware asks for -/
  want : CloseWant := .none
  /-- 1 bit; 06 R139 R159; reset 0; the pre-close test of the present request has passed -/
  testPassed : Bool := false
  /-- count; 06 R139; reset 0; BACKFEED checks of the present request -/
  backfeedTries : Nat := 0
  /-- 8 bits; 06 R144; reset 0; SHED_ILIM as the comparators hold it, 0 = none -/
  shedApplied : BitVec 8 := 0
  /-- 1 bit; 06 R144; reset 0; a SHED_ILIM write waits for its 1 ms -/
  shedPending : Bool := false
  /-- 1 bit; 06 R155; reset 0; steps 5 and 6 of a CAUSE 8 trip wait for the digital die -/
  deferred : Bool := false
  /-- 1 bit; 06 R465; reset 0; a failed pre-close test joined a hard reset and is retried -/
  closeRetry : Bool := false
deriving DecidableEq, Repr

/-- The loop-engine channel of a lane (file 07). -/
structure ConvLane where
  /-- 1 bit; 07 R196; reset 0; the stage runs (CSTATE not 0) -/
  on : Bool := false
  /-- 1 bit; 07 R184; reset 0; soft start in progress -/
  soft : Bool := false
  /-- 1 bit; 07 R183; reset 0; ramp in progress -/
  ramp : Bool := false
  /-- 1 bit; 07 R185; reset 0; the forward limit clamps the reference -/
  fwdClamp : Bool := false
  /-- 1 bit; 07 R186; reset 0; the floor clamps the reference -/
  floorClamp : Bool := false
  /-- 1 bit; 07 R190; reset 0; slew-bound control -/
  slew : Bool := false
  /-- kind; 07 R190; reset voltage; kind of the slew-bound interval -/
  slewKind : SlewKind := .voltage
  /-- 1 bit; 07 R191; reset 0; dir of the slew-bound interval, 1 = raise the inductor current -/
  slewUp : Bool := false
  /-- 1 bit; 07 R191; reset 0; phase 2 of a slew-bound interval of voltage kind -/
  slewBack : Bool := false
  /-- 1 bit; 07 R191; reset 0; the current loop holds the inductor current at dir × IL_MAX -/
  slewHold : Bool := false
  /-- ns; 07 R190; reset 0; DTIME until which entry to slew-bound control is blocked -/
  slewFree : Nat := 0
  /-- 1 bit; 07 R184 R181; reset 0; the stage has started and its first period has not ended -/
  first : Bool := false
  /-- 1 bit; 07 R189; reset 0; reverse start in progress -/
  revStart : Bool := false
  /-- 1 bit; 07 R188; reset 0; reverse operation -/
  rev : Bool := false
  /-- 14 bits; 07 R183; reset 0; VS -/
  vs : BitVec 14 := 0
  /-- 1/50,000 of 5 mV; 07 R183; reset 0; part of a VS step already ramped -/
  vsFrac : Nat := 0
  /-- 10 mA; 07 R189; reset 0; ILIM_REV as ramped by a reverse start -/
  revNow : Nat := 0
  /-- 1/2,000 of 10 mA; 07 R189; reset 0; part of a step of that ramp -/
  revFrac : Nat := 0
  /-- 1 bit; 06 R151, 07 R186; reset 0; a downward transition of VS is in progress -/
  down : Bool := false
  /-- 1 bit; 06 R151; reset 0; VS has begun to fall, and CONTRACT_ACTIVE has not taken a contract since -/
  fallen : Bool := false
  /-- 16 bits signed; 07 R197; reset 0; IL_AVG -/
  ilAvg : BitVec 16 := 0
  /-- 2 bits; 07 R196; reset 0; RATIO -/
  ratio : BitVec 2 := 0
  /-- 2 bits; 07 R181; reset 0; the ratio mode of the duties computed for the next valley -/
  ratioNew : BitVec 2 := 0
  /-- 14 bits; 07 R197; reset 0; VS as CONV_MEAS shows it since the last valley -/
  vsShown : BitVec 14 := 0
  /-- 1 bit; 07 R196; reset 0; FF_ACT -/
  ffAct : Bool := false
  /-- 10 mA; 07 R193; reset 0; the whole feed-forward step -/
  ffTerm : Int := 0
  /-- ns; 07 R193; reset 0; ramp time of the feed-forward step -/
  ffLen : Nat := 0
  /-- ns; 07 R193; reset 0; time since the feed-forward step began -/
  ffTime : Nat := 0
  /-- 10 mA / 256; 07 R177; reset 0; inductor-current reference -/
  iRef : Int := 0
  /-- Q30; 07 R169 R171; reset 0; D1 in force, the share of a period for which A is on -/
  d1 : Int := 0
  /-- Q30; 07 R169 R171; reset 0; D2 in force, the share of a period for which D is on -/
  d2 : Int := 0
  /-- Q30; 07 R174 R176; reset 0; D1 computed for the next valley -/
  d1Next : Int := 0
  /-- Q30; 07 R174 R176; reset 0; D2 computed for the next valley -/
  d2Next : Int := 0
  /-- fine steps, −4 to 4; 07 R173; reset 0; correction of the carrier against DTIME in this period -/
  corr : Int := 0
  /-- fine steps; 07 R173; reset 0; how far the carrier stands ahead of the time of R173, which corrections bring back to 0 -/
  slip : Int := 0
  /-- ns or none; 07 R172 R191; reset none; DTIME at which the input leg last changed over outside its carrier -/
  inAt : Option Nat := none
  /-- ns or none; 07 R172 R191; reset none; DTIME at which the output leg last changed over outside its carrier -/
  outAt : Option Nat := none
  /-- 8 bits; 07 R196; reset 0; SLEW_CNT -/
  slewCnt : BitVec 8 := 0
  /-- 1 bit; 07 R196; reset 0; SLEW_TO -/
  slewTo : Bool := false
  /-- 3 × 64 bits; 07 R178; reset 0; voltage-loop u1, u2, u3 in Q30 -/
  vu : List Int := [0, 0, 0]
  /-- 3 × 64 bits; 07 R178; reset 0; voltage-loop e1, e2, e3 -/
  ve : List Int := [0, 0, 0]
  /-- 64 bits; 07 R178; reset 0; current-loop u1 -/
  iu : Int := 0
  /-- 64 bits; 07 R178; reset 0; current-loop e1 -/
  ie : Int := 0
  /-- 14 bits; 07 R182 R199; reset 0x03E8; VSET in force -/
  vsetEff : BitVec 14 := 0x3E8
  /-- 8 bits; 07 R182 R199; reset 0x64; RAMP in force -/
  rampEff : BitVec 8 := 0x64
  /-- 10 bits; 07 R185 R199; reset 0x05A; ILIM_FWD in force -/
  fwdEff : BitVec 10 := 0x5A
  /-- 10 bits; 07 R185 R199; reset 0; ILIM_REV in force -/
  revEff : BitVec 10 := 0
  /-- 12 bits; 07 R173; reset n × 0x080; present carrier phase -/
  phase : BitVec 12 := 0
deriving DecidableEq, Repr

/-- A lane's standing with the budget arbiter (file 08). -/
structure BudgetLane where
  /-- 12 bits; 08 R213; reset 0; CEIL -/
  ceil : BitVec 12 := 0
  /-- 12 bits; 08 R213; reset 0; ALLOC -/
  alloc : BitVec 12 := 0
  /-- 3 bits; 08 R213; reset 0; SHED -/
  shed : BitVec 3 := 0
  /-- 4 bits; 08 R213; reset 0; SLOT -/
  slot : BitVec 4 := 0
  /-- frames; 08 R212; reset 0; budget frames of the hold that remain -/
  held : Nat := 0
  /-- 0.1 W; 08 R208; reset 0; credit of the last frame -/
  credit : Nat := 0
  /-- 0.1 W; 08 R207 R83; reset 0; power counted until the change or the release takes effect -/
  counted : Nat := 0
  /-- ns or none; 08 R219; reset none; wanted time of a stagger request not yet answered -/
  staggerReq : Option Nat := none
  /-- 1 bit; 08 R217; reset 0; the switch to RUN that is asked for follows a shed, whatever SECT_MODE -/
  rearm : Bool := false
  /-- 1 bit; 08 R215; reset 0; the switch to STANDBY that shed the lane was voided, so that its next measure is a list -/
  shedVoid : Bool := false
  /-- 1 bit; 08 R216; reset 0; the deadline of a reduced capability list runs -/
  deadline : Bool := false
deriving DecidableEq, Repr

/-- The section of a lane (file 09). -/
structure SectLane where
  /-- 1 bit; 09 R242; reset 0; WANT -/
  want : Bool := false
  /-- 1 bit; 09 R242; reset 0; APPLIED -/
  applied : Bool := false
  /-- 1 bit; 09 R242; reset 0; PENDING -/
  pending : Bool := false
  /-- 1 bit; 09 R242; reset 0; ARM_MISS -/
  armMiss : Bool := false
  /-- 1 bit; 09 R242; reset 0; SHED_MISS -/
  shedMiss : Bool := false
  /-- 1 bit; 09 R242; reset 0; the level that SECT_MODE 2 would drive, before SL_INV -/
  lineOn : Bool := false
  /-- 8 bits; 09 R242; reset 0; BLOCK_PCT -/
  blockPct : BitVec 8 := 0
  /-- ns; 09 R240 R466; reset 0; time of the last post -/
  postT : Nat := 0
  /-- ns; 08 R219; reset 0; T′ of the last post -/
  postT2 : Nat := 0
  /-- list; 09 R241; reset empty; changes of the load that APPLIED still follows, earliest first: DTIME at which it follows, and its value -/
  loads : List (Nat × Bool) := []
  /-- 1 bit; 09 R240; reset 0; the Twin switch of a post for on was not armed for want of CEIL -/
  ceilWait : Bool := false
  /-- 1 bit; 09 R240 R242; reset 0; CEIL did not cover the RUN power when the pending post for on was placed -/
  ceilShort : Bool := false
  /-- µm, 4 values; 09 R241; reset none; ends of the application line at the last step -/
  line : Option (Int × Int × Int × Int) := none
deriving DecidableEq, Repr

/-- Fault windows of a lane (file 14). -/
structure FwLane where
  /-- 14 × ns; 14 R337; reset empty; DTIME of the last POWER events -/
  power : List Nat := []
  /-- 14 × ns; 14 R337; reset empty; DTIME of the last VCONN events -/
  vconn : List Nat := []
  /-- 14 × ns; 14 R337; reset empty; DTIME of the last PROTOCOL events -/
  proto : List Nat := []
  /-- 1 bit; 14 R336; reset 0; VCONN_LAST -/
  vconnLast : Bool := false
  /-- 1 bit; 14 R336; reset 0; PROTO_LAST -/
  protoLast : Bool := false
deriving DecidableEq, Repr

/-- One lane. -/
structure Lane where
  /-- structure; 19 R433; as its fields; configuration registers -/
  cfg : LaneCfg := {}
  /-- structure; 02 R41; as its fields; attach -/
  cc : CcLane := {}
  /-- structure; 03 R56; as its fields; message layer -/
  pd : PdLane := {}
  /-- structure; 04 R84; as its fields; contracts -/
  con : ContractLane := {}
  /-- structure; 05 R108; as its fields; swaps -/
  swap : SwapLane := {}
  /-- structure; 05 R130; as its fields; charge tally -/
  tally : TallyLane := {}
  /-- structure; 06 R164; as its fields; belay -/
  belay : BelayLane := {}
  /-- structure; 07 R196; as its fields; loop-engine channel -/
  conv : ConvLane := {}
  /-- structure; 08 R213; as its fields; budget -/
  budget : BudgetLane := {}
  /-- structure; 09 R242; as its fields; section -/
  sect : SectLane := {}
  /-- structure; 14 R336; as its fields; fault windows -/
  fw : FwLane := {}
  /-- 1 bit; 16 R392, 19 R434; reset 0; PORT_EN = 1 with its check passed -/
  enabled : Bool := false
deriving DecidableEq, Repr

/-- A group and its power die (R432). -/
structure Group where
  /-- 1 bit; 01 R17, 19 R432; reset 0; gN.core_run -/
  coreRun : Bool := false
  /-- 1 bit; 01 R17, 19 R432; reset 0; gN.le_run -/
  leRun : Bool := false
  /-- 32 bits; 19 R432; reset 0; WAKES -/
  wakes : Word := 0
  /-- 16 bits; 19 R432; reset 0; LINK_ERR -/
  linkErr : BitVec 16 := 0
  /-- 1 bit; 19 R432; reset 0; LINK_OK -/
  linkOk : Bool := false
  /-- 8 bits; 19 R432; reset 0; DIE_TEMP -/
  dieTemp : Byte := 0
  /-- 1 bit; 06 R152; reset 0; thermal shutdown or its restart wait -/
  thermShut : Bool := false
  /-- 1 bit; 14 R343; reset 0; dev.spl_g -/
  spliced : Bool := false
  /-- 1 bit; 14 R346 R351; reset 0; ORPHAN -/
  orphan : Bool := false
  /-- 1 bit; 14 R345; reset 0; a return is pending after dev.rtn_g -/
  returning : Bool := false
  /-- 1 bit; 14 R349; reset 0; dev.take_g written since the warden's attempt began -/
  taken : Bool := false
deriving DecidableEq, Repr

/-- A counter (R247). -/
structure Counter where
  /-- 32 bits; 10 R247; reset 0; CNTn_VAL -/
  val : Word := 0
  /-- 32 bits; 10 R247; reset 0xFFFF_FFFF; CNTn_TOP as written -/
  top : Word := 0xFFFFFFFF
  /-- 32 bits; 10 R250; reset 0xFFFF_FFFF; TOP in force on the present slope -/
  topEff : Word := 0xFFFFFFFF
  /-- 32 bits; 10 R247; reset 0xFFFF_FFFF; CNTn_CMPA -/
  cmpA : Word := 0xFFFFFFFF
  /-- 32 bits; 10 R247; reset 0xFFFF_FFFF; CNTn_CMPB -/
  cmpB : Word := 0xFFFFFFFF
  /-- 32 bits; 10 R251; reset 0; CNTn_CTRL, its OWNER, SET_LEN, CLK_SRC, MODE and EN fields -/
  ctrl : Word := 0
  /-- 8 bits; 10 R251; reset 0; CAP_N -/
  capN : Byte := 0
  /-- 2 bits; 10 R251; reset 0; CLAIM -/
  claim : BitVec 2 := 0
  /-- 1 bit; 10 R262 R263; reset 0; hardware keeps the counter as its claim gives, from RUN until RUN is cleared -/
  held : Bool := false
  /-- 1 bit; 10 R251; reset 0; PEAKF -/
  peakF : Bool := false
  /-- 1 bit; 10 R251; reset 0; TURNF -/
  turnF : Bool := false
  /-- 1 bit; 10 R251; reset 0; BF -/
  bF : Bool := false
  /-- 1 bit; 10 R251; reset 0; AF -/
  aF : Bool := false
  /-- 1 bit; 10 R251; reset 0; DIR, 1 = counting down -/
  down : Bool := false
  /-- 32 bits; 10 R256; reset n × 0x100 on counter n; CNTn_ACT -/
  act : Word := 0
  /-- 32 bits; 10 R254; reset 0x100; CNTn_CAP -/
  cap : Word := 0x100
  /-- 8 bits; 10 R255; reset 0; accepted edges since the prescaler's last capture -/
  presc : Nat := 0
  /-- 1 bit; 10 R260; reset 0; internal level of the line PIN_SEL that this counter drives -/
  level : Bool := false
  /-- 32 bits or none; 10 R250; reset none; a written count that takes effect at the next tick -/
  valNew : Option Word := none
  /-- 32 bits or none; 10 R258; reset none; a written CMPA that takes effect at the next tick -/
  cmpANew : Option Word := none
  /-- 32 bits or none; 10 R258; reset none; a written CMPB that takes effect at the next tick -/
  cmpBNew : Option Word := none
  /-- ns or none; 10 R266; reset none; DTIME of the last peak -/
  peakAt : Option Nat := none
  /-- 1 bit; 10 R266; reset 0; a TOP written on the tick of the peak acts from the next up slope -/
  topWait : Bool := false
  /-- 32 bits; 10 R258; reset 0; count from which the present down slope began -/
  slopeTop : Word := 0
  /-- 1 bit; 10 R259; reset 0; a linked counter resets this one at the next tick -/
  resetNext : Bool := false
  /-- ns list; 10 R263; reset empty; pending slot times T′ of an arbiter counter, each with its lane and its level -/
  slots : List (Nat × LaneId × Bool) := []
deriving DecidableEq, Repr

/-- Configuration and standing of an interrupt source (R269). -/
structure IcSrc where
  /-- 8 bits; 11 R269; reset 0; COUNT -/
  count : Byte := 0
  /-- 1 bit; 11 R269; reset 0; ACTIVE -/
  active : Bool := false
  /-- 1 bit; 11 R269; reset 0; PEND of a source with CNT_EN = 0 -/
  pend : Bool := false
  /-- 1 bit; 11 R269; reset 0; SAT -/
  sat : Bool := false
  /-- 1 bit; 11 R270; reset as R270; CNT_EN -/
  cntEn : Bool := false
  /-- 5 bits; 11 R270; reset as R270; GROUP -/
  group : BitVec 5 := 0
  /-- 1 bit; 11 R269; reset 0; CLASS, 1 = fast -/
  fast : Bool := false
  /-- 1 bit; 11 R270; reset as R270; ROUTE_EN -/
  routeEn : Bool := false
  /-- 3 bits; 11 R270; reset as R270; TARGET -/
  target : BitVec 3 := 0
  /-- 3 bits; 11 R274; reset 0; core whose claim set ACTIVE, which its return clears -/
  claimer : BitVec 3 := 0
deriving DecidableEq, Repr

/-- The interrupt block of a core (R285). -/
structure IcCore where
  /-- 1 bit; 11 R285; reset 1; FDIS -/
  fdis : Bool := true
  /-- 1 bit; 11 R283; reset 1; FDIS in effect -/
  fdisEff : Bool := true
  /-- 32 bits; 11 R285; reset 0; IC_CUR_N -/
  curN : Word := 0
  /-- 32 bits; 11 R285; reset 0; IC_CUR_F -/
  curF : Word := 0
  /-- 1 bit; 11 R285; reset 0; HELD -/
  held : Bool := false
  /-- 1 bit; 11 R285; reset 0; BROKEN -/
  broken : Bool := false
  /-- 8 bits; 11 R285; reset 0; SPLICE_GEN -/
  spliceGen : Byte := 0
  /-- 8 bits; 11 R285; reset 0; SPUR_CNT -/
  spurCnt : Byte := 0
  /-- 8 bits; 11 R285; reset 0; MISPOST -/
  mispost : Byte := 0
  /-- 32 × 32 bits; 11 R280; reset 0xFFFF_FFFF; IC_MASK0–31 -/
  mask : Vector Word 32 := Vector.replicate 32 0xFFFFFFFF
  /-- 32 × 32 bits; 11 R283; reset 0xFFFF_FFFF; masks in effect -/
  maskEff : Vector Word 32 := Vector.replicate 32 0xFFFFFFFF
  /-- 32 × 16 bits; 11 R277; reset 0; HOLD_US -/
  hold : Vector (BitVec 16) 32 := Vector.replicate 32 0
  /-- 32 × 1 bit; 11 R277; reset 0; RUNNING -/
  holdRun : Vector Bool 32 := Vector.replicate 32 false
  /-- ns or none; 11 R282 R288; reset none; DTIME of the last rewrite that touched the core -/
  rewroteAt : Option Nat := none
  /-- class or none; 11 R284; reset none; class of a presented request that was withdrawn, true = fast -/
  withdrawn : Option Bool := none
deriving DecidableEq, Repr

/-- A destination of a result still in flight (R298). -/
inductive Dest where
  | g (i : Fin 8)
  | win (i : Fin 136)
  | f (i : Fin 16)
  | t (i : Fin 8)
  | none
deriving DecidableEq, Repr

/-- A result in flight: how many further instructions pass before it is visible (R298). -/
inductive InFlight where
  | load (n : Nat) (d : Dest) (v : Word)
  | acc (n : Nat) (a : Bool) (v : BitVec 72)
  | bit (n : Nat) (b : BitVec 16) (v : Bool)
  | ctrl (n : Nat) (c : Fin 15) (v : Word)
  | ie (n : Nat) (v : Bool)
  | icMask (n : Nat) (k : Fin 32) (bits v : Word)
  | fdis (n : Nat) (v : Bool)
deriving DecidableEq, Repr

/-- How a core stands (R302–R305, R342). -/
inductive CoreRun where
  | inReset | running | waiting | halted | debug | debugWaiting | doubleTrap
deriving DecidableEq, Repr

/-- A taken or untaken transfer whose delay slot has not executed (R315), with the window base, st, lk and the results in flight from before it, from which a trap in the slot restores them (R302). -/
structure Slot where
  target : Option Word := none
  from_ : Word := 0
  retx : Bool := false
  base : Fin 17 := 0
  st : Word := 0
  lk : Word := 0
  flight : List InFlight := []
deriving DecidableEq, Repr

/-- A Camku core (files 12 and 13). -/
structure CoreState where
  /-- addresses; 12 R302 R305; reset empty; debug breakpoints, which the debug port sets -/
  bkpts : List Word := []
  /-- 8 × 32 bits; 12 R291; reset 0; g0–g7 -/
  g : Vector Word 8 := Vector.replicate 8 0
  /-- 136 × 32 bits; 12 R292; reset 0; the window file, octet o at 8 × o -/
  win : Vector Word 136 := Vector.replicate 136 0
  /-- 0–16; 12 R292; reset 0; octet of the window file that w0–w7 of the present window show -/
  base : Fin 17 := 0
  /-- 16 × 32 bits; 12 R291; reset 0; f0–f15 -/
  f : Vector Word 16 := Vector.replicate 16 0
  /-- 8 × 32 bits; 12 R291; reset 0; t0–t7 -/
  t : Vector Word 8 := Vector.replicate 8 0
  /-- 32 bits; 12 R291; reset 0; lk -/
  lk : Word := 0
  /-- 32 bits; 12 R304; reset 0; pc -/
  pc : Word := 0
  /-- 32 bits; 12 R293 R294; reset 0x0001_0000; st -/
  st : Word := 0x10000
  /-- 72 bits; 12 R291; reset 0; a0 as the last producer left it -/
  a0 : BitVec 72 := 0
  /-- 72 bits; 12 R291; reset 0; a1 as the last producer left it -/
  a1 : BitVec 72 := 0
  /-- 32 bits; 12 R291; reset 0; xs -/
  xs : Word := 0
  /-- 32 bits; 12 R291; reset 0; xd -/
  xd : Word := 0
  /-- 32 bits; 12 R291; reset 0; xc -/
  xc : Word := 0
  /-- 32 bits; 12 R294; reset 0; ipc -/
  ipc : Word := 0
  /-- 32 bits; 12 R294; reset 0; ist -/
  ist : Word := 0
  /-- 32 bits; 12 R294; reset 0; fpc -/
  fpc : Word := 0
  /-- 32 bits; 12 R294; reset 0; fst -/
  fst : Word := 0
  /-- 32 bits; 12 R294; reset 0; tpc -/
  tpc : Word := 0
  /-- 32 bits; 12 R294; reset 0; tst -/
  tst : Word := 0
  /-- 32 bits; 12 R294; reset 0; tcause -/
  tcause : Word := 0
  /-- 32 bits; 12 R294; reset 0; taddr -/
  taddr : Word := 0
  /-- 32 bits; 12 R294; reset 0x0000_0100; tvb -/
  tvb : Word := 0x100
  /-- 32 bits; 12 R294; reset 0; wstk -/
  wstk : Word := 0
  /-- 32 bits; 12 R294; reset 0; wlim -/
  wlim : Word := 0
  /-- 32 bits; 12 R294 R304; reset 0; rcause -/
  rcause : Word := 0
  /-- 32 bits; 12 R294; reset 0; ccnt -/
  ccnt : Word := 0
  /-- run state; 12 R305; reset in reset; how the core stands -/
  run : CoreRun := .inReset
  /-- record or none; 12 R298, 13 R315; reset none; the next instruction is a delay slot -/
  slot : Option Slot := none
  /-- list; 12 R298; reset empty; results in flight, oldest first -/
  flight : List InFlight := []
  /-- 32 Kbit; 12 R297; reset 0; private bit RAM, as bytes -/
  bits : Mem := []
  /-- 1 bit; 14 R342; reset 0; the core's heartbeat bit -/
  beat : Bool := false
  /-- 1 bit; 14 R342; reset 0; the core spent part of the period in WAIT -/
  waited : Bool := false
  /-- 1 bit; 14 R342; reset 1; the core has not beaten since its (re)load and is not judged -/
  grace : Bool := true
  /-- 1 bit; 14 R346; reset 0; DOWN -/
  down : Bool := false
  /-- 1 bit; 14 R346; reset 0; OUT -/
  out : Bool := false
  /-- 1 bit; 14 R346; reset 0; ECC_LAST -/
  eccLast : Bool := false
  /-- 1 bit; 14 R346; reset 0; MISS_EVT -/
  missEvt : Bool := false
  /-- ns; 14 R342; reset 0; DTIME of the last start, from which the 3 s without judgement count -/
  loadTime : Nat := 0
  /-- list of ns; 14 R347; reset empty; DTIME of the last restarts -/
  restarts : List Nat := []
  /-- list of ns; 14 R341; reset empty; DTIME of the last corrected errors -/
  ecc : List Nat := []
  /-- ns or none; 14 R349; reset none; DTIME until which a supervisor still counts as failed after its first heartbeat; absent = live -/
  failUntil : Option Nat := none
  /-- 1 bit; 14 R349; reset 0; a supervisor that missed a heartbeat counts as failed -/
  failed : Bool := false
  /-- 16 bits; 13 R326; reset 0; DEC_CTRL.VALID -/
  valid : BitVec 16 := 0
  /-- 4 bits; 13 R326; reset 0; DEC_CTRL.ERR -/
  err : BitVec 4 := 0
  /-- 4 bits; 13 R326; reset 0; DEC_CTRL.ERR_OP -/
  errOp : BitVec 4 := 0
  /-- 1 bit; 00 R4; reset 0; the image in the core is the base image, or one that reproduces it -/
  baseImg : Bool := false
  /-- 32 bits; 17 R404; reset 0; IMG_VER of the image the core runs -/
  imgVer : Word := 0
  /-- addresses; 14 R340; reset empty; words of the core's memories that hold a two-bit error -/
  eccBad : List Nat := []
  /-- 16 bits; 16 R394, 17 R396; reset 0; customer opcodes that the image in the core declares -/
  declared : BitVec 16 := 0
deriving DecidableEq, Repr

/-- What a reading agent's last latching reads captured (R436). -/
structure Latches where
  /-- 32 bits; 01 R12; reset 0; DTIME_HI -/
  dtimeHi : Word := 0
  /-- 24 × 32 bits; 10 R253; reset 0; CNTn_HI_SNAP -/
  snap : Vector Word 24 := Vector.replicate 24 0
  /-- 32 × 32 bits; 05 R130; reset 0; TALLY_Q_HI -/
  tallyHi : Vector Word 32 := Vector.replicate 32 0
  /-- 32 bits; 09 R231; reset 0; POSE_N -/
  poseN : Word := 0
  /-- 32 bits; 09 R231; reset 0; POSE_HDG -/
  poseHdg : Word := 0
  /-- 32 bits; 09 R231; reset 0; POSE_SPD -/
  poseSpd : Word := 0
  /-- 32 bits; 09 R228; reset 0; PPS_HI -/
  ppsHi : Word := 0
deriving DecidableEq, Repr

/-- A failure that a check finds (R393, R394). -/
structure CheckFail where
  code : Nat := 0
  lane : Nat := 0
  item : Nat := 0
deriving DecidableEq, Repr

/-- A check at RUN that runs (R392, R395): what it found of the settings at its start, and the PORT_EN bits it judged. -/
structure CheckJob where
  fails : List CheckFail := []
  ports : BitVec 32 := 0
deriving DecidableEq, Repr

/-- Power, clocks, operating state and device registers (files 01, 16, 19). -/
structure Dev where
  /-- 4 bits; 01 R15; reset BOOT; STATE -/
  state : DevState := .boot
  /-- transition; 01 R15; reset none; transition in progress -/
  trans : Transition := .none
  /-- 1 bit; 20 R446; reset 1 (the machine is powered right after reset); VSYS valid -/
  vsysOk : Bool := true
  /-- 1 bit; 20 R446; reset 0; VCORE in range -/
  vcoreOk : Bool := false
  /-- 1 bit; 20 R446; reset 0; VIO in range -/
  vioOk : Bool := false
  /-- 1 bit; 20 R446; reset 1 (DESIGN CHOICE, log 5); VCONN_SUP at least 4.75 V -/
  vconnSupOk : Bool := true
  /-- 1 bit; 16 R387; reset 0; RESET# is low -/
  resetLow : Bool := false
  /-- 1 bit; 01 R12; reset 0; XIN runs -/
  xin : Bool := false
  /-- 1 bit; 01 R12; reset 0; the PLL is locked -/
  pll : Bool := false
  /-- ns; 01 R12; reset 0; DTIME -/
  dtime : Nat := 0
  /-- ns; 10 R248; reset 0; part of a TCLK period elapsed since the last TCLK tick -/
  tclkPhase : Nat := 0
  /-- 10^-12 ns; 15 R368; reset 0; part of a nanosecond that the rate correction has added to DTIME -/
  dtFrac : Int := 0
  /-- 1 bit; 16 R384; reset 0; DEV_CTRL.RUN -/
  run : Bool := false
  /-- 1 bit; 16 R384; reset 0; DEV_CTRL.WATCH -/
  watch : Bool := false
  /-- 1 bit; 16 R384; reset 0; DEV_CTRL.MAP_KEEP -/
  mapKeep : Bool := false
  /-- 8 bits; 16 R384; reset 0; BOOT_CODE -/
  bootCode : Byte := 0
  /-- 1 bit; 16 R384; reset 0; DEGRADED -/
  degraded : Bool := false
  /-- check or none; 16 R384 R392 R395; reset none; the check at RUN that runs, with which CHECKING reads 1 -/
  check : Option CheckJob := none
  /-- 32 bits; 16 R384; reset 0; DEV_CHECK -/
  devCheck : Word := 0
  /-- 11 bits; 16 R385; reset 0; HOST_IRQ -/
  hostIrq : BitVec 11 := 0
  /-- 32 bits; 16 R385; reset 0x0000_07FF; HOST_IRQ_EN -/
  hostIrqEn : Word := 0x7FF
  /-- 2 bits; 19 R430; reset 0; TCLK_SEL -/
  tclkSel : BitVec 2 := 0
  /-- 14 bits; 19 R431; reset 0; VSYS_V -/
  vsysV : BitVec 14 := 0
  /-- 8 bits; 19 R431; reset 0x64; WARN_V -/
  warnV : Byte := 0x64
  /-- 1 bit; 19 R431; reset 0; WARN_EVT -/
  warnEvt : Bool := false
  /-- 1 bit; 19 R431, 12 R297; reset 0; dev.vsys_warn -/
  vsysWarn : Bool := false
  /-- ns or none; 05 R136; reset none; DTIME at which dev.vsys_warn last fell to 0 -/
  vsysRose : Option Nat := none
  /-- 32 bits; 14 R357; reset 0; EVT_LOG_HEAD -/
  logHead : Word := 0
  /-- 1 bit; 01 R12, 15 R369; reset 0; RUN has been set since power-up or RESET# -/
  everRun : Bool := false
  /-- state; 14 R349; reset none; the state a takeover returns to; absent = no takeover -/
  takeover : Option DevState := none
  /-- 8 bits; 16 R383; reset 0; ABORTED -/
  hspiAborted : Byte := 0
  /-- 8 bits; 16 R383; reset 0; REFUSED -/
  hspiRefused : Byte := 0
  /-- 4 bits; 16 R383; reset 0; LAST_CODE -/
  hspiLast : BitVec 4 := 0
  /-- bytes; 16 R379 R380; reset empty; what the device drove in the last HSPI transaction -/
  hspiOut : List Byte := []
  /-- 1 bit; 16 R379 R380; reset 0; after hspiOut the device drives every nibble as 0xF until HCS# rises -/
  hspiOnes : Bool := false
  /-- count; the MODEL's own field, not the spec's; reset 0 (DESIGN CHOICE, log 3); free values taken so far -/
  fresh : Nat := 0
deriving DecidableEq, Repr

/-- The bus and the budget arbiter of the device (file 08). -/
structure Bus where
  /-- 24 bits; 08 R202; reset 0; BUDGET_W -/
  budgetW : BitVec 24 := 0
  /-- 32 bits; 08 R203; reset 0x0A00_0000; BUS_VSNS_TH -/
  vsnsTh : Word := 0x0A000000
  /-- 32 bits; 08 R204; reset 0x0050_0A0A; BUS_VSNS_CTRL -/
  vsnsCtrl : Word := 0x00500A0A
  /-- 1 bit; 08 R205; reset 0; FRS_EVT -/
  frsEvt : Bool := false
  /-- 1 bit; 08 R205; reset 0; dev.frs_trig -/
  frs : Bool := false
  /-- 1 bit; 08 R205; reset 0; dev.bus_sag -/
  sag : Bool := false
  /-- 14 bits; 08 R205; reset 0; BUS_V -/
  busV : BitVec 14 := 0
  /-- 32 bits; 08 R218; reset 0x0014_0414; STAGGER_CTRL -/
  stagger : Word := 0x00140414
  /-- 24 bits; 08 R222; reset 0; ALLOC_SUM -/
  allocSum : BitVec 24 := 0
  /-- 1 bit; 08 R222; reset 0; FROZEN -/
  frozen : Bool := false
  /-- 1 bit; 08 R222; reset 0; SAG of BUDGET_EFF -/
  effSag : Bool := false
  /-- 1 bit; 08 R222; reset 0; CREDIT -/
  effCredit : Bool := false
  /-- 24 bits; 08 R222; reset 0; EFF_W -/
  effW : BitVec 24 := 0
  /-- requests; 08 R219 R220; reset empty; stagger requests that the hitch has received and places in the next budget frame: position, lane, T -/
  asked : List (Nat × Nat × Nat) := []
  /-- switches; 08 R219; reset empty; switches placed by the hitch: position, lane, T, slot -/
  placed : List (Nat × Nat × Nat × Nat) := []
  /-- CEIL list; 08 R212; reset empty; the hitch's ceilings of the other positions' lanes, with their held frames -/
  prev : List (Nat × Nat × Nat × Nat) := []
deriving DecidableEq, Repr

/-- The swath engine (file 09). -/
structure Swath where
  /-- 7 bits; 09 R224; reset 0x05; SWATH_GRID -/
  grid : Word := 5
  /-- 32 bits; 09 R224; reset 0; GRID_E0 -/
  e0 : Word := 0
  /-- 32 bits; 09 R224; reset 0; GRID_N0 -/
  n0 : Word := 0
  /-- 7 × 32 bits; 09 R226; reset 0; FIX_E, FIX_N, FIX_HDG, FIX_YAW, FIX_UNC, FIX_T_LO, FIX_T_HI -/
  fix : Vector Word 7 := Vector.replicate 7 0
  /-- 16 bits; 09 R226; reset 0; FIX_CNT -/
  fixCnt : BitVec 16 := 0
  /-- 4 bits; 09 R226; reset 0; RESULT -/
  fixResult : BitVec 4 := 0
  /-- 64 bits; 09 R228; reset 0; PPS capture -/
  pps : Nat := 0
  /-- 32 bits; 09 R229; reset 0x0000_3200; GS_CTRL -/
  gsCtrl : Word := 0x3200
  /-- 32 bits; 09 R229; reset 0; GS_CAL0 -/
  gsCal0 : Word := 0
  /-- 32 bits; 09 R229; reset 0; GS_CAL1 -/
  gsCal1 : Word := 0
  /-- 32 bits; 09 R233; reset 0x0000_1460; SWATH_CTRL -/
  ctrl : Word := 0x1460
  /-- 1 bit; 09 R233; reset 0; POSE_OK -/
  poseOk : Bool := false
  /-- 1 bit; 09 R232; reset 0; FIX_STALE -/
  stale : Bool := false
  /-- 1 bit; 09 R232; reset 0; DR_OUT -/
  drOut : Bool := false
  /-- 1 bit; 09 R233 R243; reset 0; POSE_LOST -/
  poseLost : Bool := false
  /-- 1 bit; 09 R233; reset 0; TILE_EVT -/
  tileEvt : Bool := false
  /-- 8 bits; 09 R233; reset 0; TILE_REQ -/
  tileReq : Byte := 0
  /-- 8 bits; 09 R233; reset 0; MARK_LOST -/
  markLost : Byte := 0
  /-- 2 × 16 bits signed; 09 R234; reset 0; WIN_TX, WIN_TY -/
  win : Int × Int := (0, 0)
  /-- 256 × 2 bits; 09 R234; reset 0; TILE_STATE of each slot -/
  tiles : Vector (BitVec 2) 256 := Vector.replicate 256 0
  /-- 256 × field tile; 09 R235; reset none; the field tile a Leaving or Present slot holds -/
  held : Vector (Option (Int × Int)) 256 := Vector.replicate 256 none
  /-- µm; 09 R231; reset 0; pose easting -/
  e : Int := 0
  /-- µm; 09 R231; reset 0; pose northing -/
  n : Int := 0
  /-- µrad; 09 R231; reset 0; heading -/
  hdg : Nat := 0
  /-- 1/1,000 of 1 µrad; 09 R230; reset 0; part of a µrad by which the heading has advanced already -/
  hdgFrac : Nat := 0
  /-- µrad/s; 09 R230; reset 0; yaw rate of the last fix -/
  yaw : Int := 0
  /-- 1 bit; 09 R231; reset 0; REV -/
  rev : Bool := false
  /-- 15 bits; 09 R231; reset 0; POSE_JUMP -/
  jump : Nat := 0
  /-- list; 09 R227; reset empty; the last 100 steps, newest first: distance in µm, heading change in 1/1,000 µrad -/
  steps : List (Int × Int) := []
  /-- 4 × count; 09 R230; reset 0; CAP_N of each ground-speed counter at the last step -/
  gsLast : Vector Byte 4 := Vector.replicate 4 0
  /-- 4 × (count or none); 09 R230; reset none; captured count of the last counted edge of each ground-speed input -/
  gsEdgeAt : Vector (Option Word) 4 := Vector.replicate 4 none
  /-- 4 × (ticks, edges); 09 R230; reset (0, 0); TCLK ticks and edges between the last two steps that counted edges on each input -/
  gsPeriod : Vector (Nat × Nat) 4 := Vector.replicate 4 (0, 0)
  /-- 4 × µm; 09 R230; reset 0; distance of each input past its last counted edge, as interpolated at the last step -/
  gsPast : Vector Nat 4 := Vector.replicate 4 0
  /-- steps; 09 R230; reset 0; steps since the last counted edge -/
  noEdge : Nat := 0
  /-- fix or none; 09 R226 R230; reset none; last accepted fix: E, N in mm and T in ns -/
  lastFix : Option (Int × Int × Nat) := none
  /-- mm/s; 09 R230; reset 0; speed between the last two accepted fixes -/
  fixSpeed : Nat := 0
  /-- 16 bits; 09 R244; reset 0; UNC of the last accepted fix -/
  unc : BitVec 16 := 0
  /-- addresses; 14 R340; reset empty; map words that hold a two-bit error -/
  eccBad : List Nat := []
  /-- 1 bit; 01 R20; reset 1; the swath map is powered -/
  powered : Bool := true
deriving DecidableEq, Repr

/-- Supervision and the warden (file 14). -/
structure Sup where
  /-- 32 bits; 14 R342; reset 0x0005_6400; SUP_CTRL -/
  ctrl : Word := 0x00056400
  /-- 32 bits; 14 R341; reset 0x03E8_0008; FW_CORE -/
  fwCore : Word := 0x03E80008
  /-- 4 bits; 14 R350; reset 0; FAIL_CAUSE -/
  failCause : BitVec 4 := 0
  /-- 8 bits; 14 R350; reset 0; TAKEOVERS -/
  takeovers : Byte := 0
  /-- 2 bits; 14 R350; reset 0; ATTEMPT -/
  attempt : BitVec 2 := 0
  /-- list of ns; 14 R349; reset empty; DTIME of the failed attempts -/
  fails : List Nat := []
  /-- ns; 14 R349; reset 0; DTIME of the takeover -/
  start : Nat := 0
  /-- list; 11 R282; reset empty; rewrites that wait for a held lock: from core, to core, group, 1 = return -/
  rewrites : List (CoreId × CoreId × GroupId × Bool) := []
  /-- list; 11 R281; reset empty; sources that a splice has moved, each with the group it was moved from -/
  moved : List (SourceId × GroupId) := []
  /-- addresses; 14 R340; reset empty; words of shared RAM whose corrected error has been logged -/
  eccLogged : List Nat := []
  /-- addresses; 14 R340; reset empty; words of shared RAM that hold a two-bit error -/
  eccShared : List Nat := []
deriving DecidableEq, Repr

/-- A tile under assembly from tether chunks (R367). -/
structure TileRx where
  tx : Int := 0
  ty : Int := 0
  got : List (Fin 128 × List Byte) := []
deriving DecidableEq, Repr

/-- What the upstream end of a link has measured with its timing markers (R368). -/
structure LinkTime where
  /-- 32 bits; 15 R368; reset 0; T_MARK: DTIME[31:0] at the last marker -/
  tMark : Word := 0
  /-- ps, at most 16; 15 R368; reset empty; one-way delays of the last frames, newest first -/
  delays : List Nat := []
deriving DecidableEq, Repr

/-- The tether (file 15). -/
structure Tether where
  /-- 32 bits; 15 R374; reset 0; TETHER_CTRL -/
  ctrl : Word := 0
  /-- 3 bits or none; 15 R362 R374; reset none; POS -/
  pos : Option (Fin 8) := none
  /-- 1 bit; 15 R374; reset 0; POS_ERR -/
  posErr : Bool := false
  /-- 4 bits; 15 R374; reset 0; N -/
  n : Fin 9 := 0
  /-- 1 bit; 15 R374; reset 0; HITCH -/
  hitch : Bool := false
  /-- 3 bits; 15 R374; reset 0; HITCH_POS -/
  hitchPos : Fin 8 := 0
  /-- 8 bits; 15 R374; reset 0; HITCH_VER -/
  hitchVer : Byte := 0
  /-- 1 bit; 15 R374; reset 0; SUCC -/
  succ : Bool := false
  /-- 1 bit; 15 R374; reset 0; EXCLUDED -/
  excluded : Bool := false
  /-- 1 bit; 15 R374; reset 0; ACQ -/
  acq : Bool := false
  /-- 1 bit; 15 R374; reset 0; TIME_LOCK -/
  timeLock : Bool := false
  /-- 1 bit; 15 R374; reset 0; TU_UP -/
  tuUp : Bool := false
  /-- 1 bit; 15 R374; reset 0; TD_UP -/
  tdUp : Bool := false
  /-- 10^-6 ppm signed; 15 R368 R374; reset 0; rate correction in force, which RATE shows in 0.01 ppm -/
  rate : Int := 0
  /-- 16 bits signed; 15 R374; reset 0; ERR -/
  err : BitVec 16 := 0
  /-- record; 15 R368; reset none; what the device has measured as upstream end of its TU link -/
  tuTime : LinkTime := {}
  /-- record; 15 R368; reset none; what the device has measured as upstream end of its TD link -/
  tdTime : LinkTime := {}
  /-- 1.25 ns or none; 15 R368; reset none; t2 of the marker that arrived last, until the frame with its T_MARK -/
  marked : Option Nat := none
  /-- 1 bit; 15 R368; reset 0; TIME_LOCK has been set since power-up or RESET# -/
  everLock : Bool := false
  /-- 1 bit; 15 R369; reset 0; DTIME lies apart from the neighbour's and cannot be stepped, so TIME_LOCK stays 0 -/
  apart : Bool := false
  /-- port; 15 R371; reset TU; the port that faces the hitch -/
  facing : Port := .tu
  /-- 1 bit; 15 R371; reset 0; the device follows the frames of another device's hitch -/
  heard : Bool := false
  /-- record or none; 15 R370; reset none; target and tag of a TUNNEL of this device's host that waits for its answer -/
  tunnelOut : Option (Fin 8 × Byte) := none
  /-- frames; 15 R371; reset 0; budget frames still to pass before a new hitch has results -/
  settling : Nat := 0
  /-- 512 bytes; 15 R365 R372; reset empty; CEIL and SLOT of every lane in the last downstream frame that carried results -/
  results : List (BitVec 12 × BitVec 4) := []
  /-- 1 bit; 15 R372; reset 0; the hitch has had an upstream frame on TU since it started its last frame -/
  upTu : Bool := false
  /-- 1 bit; 15 R372; reset 0; the hitch has had an upstream frame on TD since it started its last frame -/
  upTd : Bool := false
  /-- 0.1 W; 15 R372; reset 0; B_SEG -/
  bSeg : Nat := 0
  /-- frames; 08 R221; reset 0; consecutive frames without a result -/
  noResult : Nat := 0
  /-- 8 × slot; 15 R366 R372; reset none; last reported slot of each position -/
  slots : Vector (Option SlotReport) 8 := Vector.replicate 8 none
  /-- 8 × 1 bit; 15 R372; reset 0; a position whose slot is missing from the upstream frames -/
  missing : Vector Bool 8 := Vector.replicate 8 false
  /-- at most 512; 15 R367; reset empty; records that wait to be sent -/
  queue : List TetherRecord := []
  /-- list; 15 R367; reset empty; tiles under assembly -/
  tiles : List TileRx := []
  /-- frame or none; 15 R365; reset none; downstream frame last sent, by a hitch on TD -/
  down : Option DownFrame := none
  /-- frame or none; 15 R371; reset none; downstream frame that a hitch last sent on TU -/
  downTu : Option DownFrame := none
  /-- frame or none; 15 R366; reset none; upstream frame last sent -/
  up : Option UpFrame := none
  /-- list; 15 R364 R366 R376; reset empty; slots of the other devices in the last upstream frame sent whose CRC was good -/
  seen : List SlotReport := []
  /-- 8 × 8 bits; 15 R402 (17); reset none; version of each position as last reported -/
  versions : Vector (Option Byte) 8 := Vector.replicate 8 none
  /-- list; 15 R370; reset empty; what has been received of a tunnelled transaction: origin, tag, parts, data -/
  tunnelRx : List (Nat × Byte × Nat × List Byte) := []
deriving DecidableEq, Repr

/-- The mailbox (R388). -/
structure Mailbox where
  /-- 4 × 32 bits; 16 R388; reset 0; MBX_ARG0–3 -/
  arg : Vector Word 4 := Vector.replicate 4 0
  /-- 1 bit; 16 R388; reset 0; BUSY -/
  busy : Bool := false
  /-- 1 bit; 16 R388; reset 0; DONE -/
  done : Bool := false
  /-- 8 bits; 16 R388; reset 0; TAG -/
  tag : Byte := 0
  /-- 8 bits; 16 R388; reset 0; RESULT -/
  result : Byte := 0
  /-- 32 bits; 16 R388; reset 0; MBX_RES0 -/
  res0 : Word := 0
  /-- 32 bits; 16 R388; reset 0; MBX_RES1 -/
  res1 : Word := 0
  /-- 8 bits; 16 R388; reset 0; code of the running command -/
  code : Byte := 0
deriving DecidableEq, Repr

/-- The image engine (file 17). -/
structure Image where
  /-- 8 MiB; 17 R396; reset blank 0xFF (DESIGN CHOICE, log 6); code store, each byte held complemented so that an unlisted byte reads 0xFF -/
  store : Mem := []
  /-- bytes; 17 R398; reset 0; bytes accepted in the open write -/
  accepted : Nat := 0
  /-- 1 bit; 17 R405; reset 0; WRITING -/
  writing : Bool := false
  /-- 1 bit; 17 R405; reset 0; STORE_OK -/
  storeOk : Bool := false
  /-- 1 bit; 17 R405; reset 0; ACT_PEND -/
  actPend : Bool := false
  /-- 1 bit; 17 R405; reset 0; ACTIVATING -/
  activating : Bool := false
  /-- 3 bits; 17 R405; reset 0; ACT_CORE -/
  actCore : CoreId := 0
  /-- 32 bits; 17 R405; reset 0; IMG_STORE_VER -/
  storeVer : Word := 0
  /-- 32 bits; 17 R405; reset 0; IMG_RUN_VER -/
  runVer : Word := 0
  /-- 24 bits; 17 R405; reset 0; IMG_STORE_ABI -/
  storeAbi : Word := 0
  /-- 24 bits; 17 R405; reset 0; IMG_RUN_ABI -/
  runAbi : Word := 0
  /-- list of ns; 17 R405, 18 R419; reset empty; DTIME of authentication failures -/
  authFails : List Nat := []
deriving DecidableEq, Repr

/-- Fuses and the security block (file 18). -/
structure Security where
  /-- 512 × 39 bits; 18 R408; reset Config.shippedFuses (R409, with free vendor words, log 7); the fuse macro, kept across power cycles -/
  fuses : Vector (BitVec 39) 512 := Config.shippedFuses
  /-- 512 × 32 bits; 18 R412; reset 0; the shadow's used values -/
  shadow : Vector Word 512 := Vector.replicate 512 0
  /-- 512 × 2 bits; 18 R412; reset 0; FUSE_WSTAT -/
  wstat : Vector (BitVec 2) 512 := Vector.replicate 512 0
  /-- 32 bits or none; 18 R415; reset none; HW_TYPE in effect since BOOT -/
  hwType : Option Word := none
  /-- 64 bits or none; 18 R415; reset none; UNIT_ID in effect since BOOT -/
  unitId : Option (BitVec 64) := none
  /-- 32 bits; 18 R415; reset 0; LANE_DIS in effect since BOOT -/
  laneDis : Word := 0
  /-- 256 bits or none; 18 R411 R420; reset none; the unit key that the volatile key store holds -/
  key : Option (BitVec 256) := none
  /-- list of words; 18 R416; reset empty; words of TRIM, HW_TYPE and LANE_DIS that AUDIT found Uncorrectable, which fail closed from the next BOOT -/
  auditBad : List Nat := []
  /-- word list; 18 R414; reset empty; words whose verify failed, which cannot be programmed again -/
  spent : List Nat := []
  /-- 1 bit; 18 R419 R422; reset 0 (DESIGN CHOICE, log 2: the spec prints no reset value for it); TAMPER# was low when last detected -/
  tamperLow : Bool := false
  /-- 1 bit; 18 R419 R422; reset 0; a voltage glitch was detected and its condition may still hold -/
  vGlitch : Bool := false
  /-- 1 bit; 18 R419 R422; reset 0; a clock glitch was detected and its condition may still hold -/
  cGlitch : Bool := false
  /-- 1 bit; 18 R419 R422; reset 0 (DESIGN CHOICE, log 2: the spec prints no reset value for it); the package mesh was broken when last detected -/
  meshBroken : Bool := false
  /-- ns or none; 18 R426; reset none; DTIME of the last alarm acted on at level 2 or 3 -/
  alarmAt : Option Nat := none
  /-- policy and word, or none; 18 R420 R426; reset none; an alarm at level 1 has just reset the device: ALARM_POLICY before it, and DATA0 of its record -/
  alarmCut : Option (BitVec 12 × Word) := none
  /-- 1 bit; 18 R417; reset 0; KILLED -/
  killed : Bool := false
  /-- 12 bits; 18 R417; reset 0; VPROG_MV -/
  vprog : BitVec 12 := 0
  /-- 1 bit; 18 R417; reset 0; AUDITED -/
  audited : Bool := false
  /-- 2 bits; 18 R417; reset 0; LAST_LEVEL -/
  lastLevel : BitVec 2 := 0
  /-- 1 bit; 18 R417; reset 0; ZEROISED -/
  zeroised : Bool := false
  /-- 1 bit; 18 R417; reset 0; KILL_SET -/
  killSet : Bool := false
  /-- 8 bits; 18 R417; reset 0; ALARMS -/
  alarms : Byte := 0
  /-- 6 bits; 18 R417; reset 0; AUTH, DEBUG, CGLITCH, VGLITCH, MESH, TAMPER -/
  sources : BitVec 6 := 0
  /-- 12 bits; 18 R417; reset from the fuse; ALARM_POLICY -/
  policy : BitVec 12 := 0
  /-- 12 bits; 18 R417; reset 0; what the host last wrote to ALARM_POLICY since BOOT -/
  raised : BitVec 12 := 0
  /-- 2 bits; 18 R417; reset 0; AUTH_MODE -/
  authMode : BitVec 2 := 0
  /-- 8 × 32 bits; 18 R417; reset 0; DBG_PASS0–7 -/
  dbgPass : Vector Word 8 := Vector.replicate 8 0
  /-- 8 bits; 18 R417; reset 0; FAILS -/
  dbgFails : Byte := 0
  /-- ns or none; 18 R418; reset none; DTIME of the last failed unlock -/
  dbgLast : Option Nat := none
  /-- 1 bit; 18 R417; reset 0; UNLOCKED -/
  unlocked : Bool := false
deriving DecidableEq, Repr

/-- The volatile key store holds the unit key (R411). -/
def Security.keyHeld (x : Security) : Bool := x.key.isSome

/-- The whole machine. -/
structure State where
  /-- structure; 01 R15; as its fields; device -/
  dev : Dev := {}
  /-- 32 lanes; 00 "Hierarchy"; as its fields; P0–P31 -/
  lanes : Vector Lane 32 := Vector.ofFn fun (n : Fin 32) =>
    { cfg := { phaseOffset := BitVec.ofNat 32 (n.val * 0x80) }, conv := { phase := BitVec.ofNat 12 (n.val * 0x80) } }
  /-- 4 groups; 19 R432; as its fields; G0–G3 -/
  groups : Vector Group 4 := Vector.replicate 4 {}
  /-- 6 cores; 12 R291; as its fields; C0–C3, S0, S1 -/
  cores : Vector CoreState 6 := Vector.replicate 6 {}
  /-- 24 counters; 10 R247; as its fields; CNT0–CNT23 -/
  counters : Vector Counter 24 := Vector.ofFn fun (n : Fin 24) => { act := BitVec.ofNat 32 (n.val * 0x100) }
  /-- 32 bits; 10 R247; reset 0; SL_IN -/
  slIn : Word := 0
  /-- 1,024 sources; 11 R269 R270; reset as R270; IC_SRC -/
  srcs : Vector IcSrc 1024 := Vector.ofFn fun (s : Fin 1024) =>
    if s.val < 0x200 then
      if s.val % 16 ≤ 10 then { routeEn := true, cntEn := true, group := BitVec.ofNat 5 (s.val % 16), target := BitVec.ofNat 3 (s.val / 128) } else {}
    else if s.val ≤ 0x242 ∧ ¬(s.val = 0x203 ∨ s.val = 0x207 ∨ s.val = 0x20B ∨ s.val = 0x20F) then
      { routeEn := true, cntEn := true, group := 16, target := 4 }
    else {}
  /-- 6 blocks; 11 R285; as its fields; interrupt blocks -/
  ics : Vector IcCore 6 := Vector.replicate 6 {}
  /-- 7 copies; 19 R436; as its fields; latched words: 0 = host, 1 + t = core t -/
  latches : Vector Latches 7 := Vector.replicate 7 {}
  /-- structure; 08 R202; as its fields; bus and budget -/
  bus : Bus := {}
  /-- structure; 09 R233; as its fields; swath engine -/
  swath : Swath := {}
  /-- structure; 14 R346; as its fields; supervision -/
  sup : Sup := {}
  /-- structure; 15 R374; as its fields; tether -/
  tether : Tether := {}
  /-- structure; 16 R388; as its fields; mailbox -/
  mbx : Mailbox := {}
  /-- structure; 17 R405; as its fields; image engine -/
  image : Image := {}
  /-- structure; 18 R417; as its fields; security block -/
  sec : Security := {}
  /-- host address space; 19 R427; reset lists nothing, unlisted bytes read 0 (DESIGN CHOICE, log 4); shared RAM, swath map, core memories, vector tables and decode tables -/
  mem : Mem := []
  /-- queue; the block's waiting commands, first in first out; reset empty -/
  pending : List Instr := []
deriving DecidableEq, Repr

/-- The machine right after reset (R7): every field at its reset value. -/
def State.reset : State := {}

/-- Why a step stops with a fault. The spec gives the block no event after which it does nothing defined, so no command raises one: the only constructor stands for a command that is not well formed (WellFormed.lean), which no agent can send. Safe. -/
inductive Fault where
  /-- no meaning raises it: kept so that the type is inhabited; safe -/
  | illFormed
deriving DecidableEq, Repr

/-- Why a step is refused. -/
inductive Refusal where
  /-- an arm of exec whose command has no meaning yet; safe -/
  | notModelled (mnemonic : String)
deriving DecidableEq, Repr

end Sys2Proof.Machine
end

