-- ==== Sys2Proof/Machine/Ops.lean ====
section
/-! DEFINITION. The named operations every family uses: fields of words, memory, access to lanes, cores and groups, interrupt postings (R267–R271), HOST_IRQ (R385), event log records (R355–R358), fault windows (R337) and free values. -/

namespace Sys2Proof.Machine

/-- What a meaning answers. -/
abbrev Out := Host.Outcome State Fault Refusal

-- words and fields

/-- Bits [hi:lo] of a word, as a number. -/
def fld (w : Word) (hi lo : Nat) : Nat := (w.toNat / 2 ^ lo) % 2 ^ (hi - lo + 1)

/-- Bit n of a word. -/
def bitOf (w : Word) (n : Nat) : Bool := w.getLsbD n

/-- 1 for true, 0 for false. -/
def b2n (b : Bool) : Nat := if b then 1 else 0

/-- A word from (value, low bit) pairs of fields that do not overlap. -/
def packFields : List (Nat × Nat) → Word
  | [] => 0
  | (v, sh) :: r => BitVec.ofNat 32 (v * 2 ^ sh) ||| packFields r

/-- Replaces the bits of `mask` in `old` by those of `new`. -/
def mergeMask (mask old new : Word) : Word := (old &&& ~~~mask) ||| (new &&& mask)

/-- A mask of bits [hi:lo]. -/
def maskOf (hi lo : Nat) : Word := BitVec.ofNat 32 ((2 ^ (hi - lo + 1) - 1) * 2 ^ lo)

/-- Replaces bits [hi:lo] of w by v. -/
def setFld (w : Word) (hi lo v : Nat) : Word :=
  mergeMask (maskOf hi lo) w (BitVec.ofNat 32 (v * 2 ^ lo))

/-- Adds 1 to a byte that saturates at 255. -/
def satInc (b : Byte) : Byte := if b = 255 then 255 else b + 1

/-- A signed value of a word. -/
def sInt (w : Word) : Int := w.toInt

/-- The first n natural numbers below, as lane ids. -/
def allLanes : List LaneId := List.finRange 32

/-- The lanes of a group. -/
def lanesOf (g : GroupId) : List LaneId := allLanes.filter fun l => groupOf l = g

-- memory

/-- An address's byte; an unlisted address reads 0 (DESIGN CHOICE, log 4). -/
def memRead : Mem → Nat → Byte
  | [], _ => 0
  | (k, b) :: r, a => if k = a then b else memRead r a

/-- Inserts a cell at its place in a rising list, replacing a cell of the same address. -/
def memPut : Mem → Nat → Byte → Mem
  | [], a, v => [(a, v)]
  | (k, b) :: r, a, v =>
    if a < k then (a, v) :: (k, b) :: r
    else if a = k then (a, v) :: r
    else (k, b) :: memPut r a v

/-- Removes the cell of an address. -/
def memDrop : Mem → Nat → Mem
  | [], _ => []
  | (k, b) :: r, a => if k = a then r else (k, b) :: memDrop r a

/-- Writes a byte and keeps the canonical form: a byte equal to what an unlisted address reads is not listed. -/
def memWrite (m : Mem) (a : Nat) (v : Byte) : Mem := if v = 0 then memDrop m a else memPut m a v

/-- Whether every address of a memory lies above a bound, rising, with no byte equal to 0. -/
def memAbove : Option Nat → Mem → Bool
  | _, [] => true
  | lo, (k, b) :: r => (match lo with | none => true | some x => decide (x < k)) && decide (b ≠ 0) && memAbove (some k) r

/-- The canonical form of a memory: strictly rising addresses and no entry equal to what an unlisted address reads. -/
def Memory.wf (m : Mem) : Bool := memAbove none m

/-- n bytes from an address, as a little-endian number (R290). -/
def memReadN (m : Mem) (a : Nat) : Nat → Nat
  | 0 => 0
  | n + 1 => (memRead m a).toNat + 256 * memReadN m (a + 1) n

/-- Writes n bytes of a number, little-endian (R290). -/
def memWriteN (m : Mem) (a : Nat) (v : Nat) : Nat → Mem
  | 0 => m
  | n + 1 => memWriteN (memWrite m a (BitVec.ofNat 8 v)) (a + 1) (v / 256) n

/-- The little-endian word at an address. -/
def memRead32 (m : Mem) (a : Nat) : Word := BitVec.ofNat 32 (memReadN m a 4)

/-- Stores a little-endian word. -/
def memWrite32 (m : Mem) (a : Nat) (v : Word) : Mem := memWriteN m a v.toNat 4

/-- Stores a list of bytes in address order. -/
def memWriteList (m : Mem) (a : Nat) : List Byte → Mem
  | [] => m
  | b :: r => memWriteList (memWrite m a b) (a + 1) r

/-- n bytes in address order. -/
def memBytes (m : Mem) (a : Nat) : Nat → List Byte
  | 0 => []
  | n + 1 => memRead m a :: memBytes m (a + 1) n

/-- A memory without the cells of [lo, hi), which then read 0. -/
def memClear (m : Mem) (lo hi : Nat) : Mem := m.filter fun c => c.1 < lo || hi ≤ c.1

-- lanes, groups, cores

/-- The lane l. -/
def State.lane (s : State) (l : LaneId) : Lane := s.lanes.get l

/-- Replaces lane l. -/
def State.setLane (s : State) (l : LaneId) (x : Lane) : State := { s with lanes := s.lanes.set l.val x l.isLt }

/-- Changes lane l alone. -/
def State.modLane (s : State) (l : LaneId) (f : Lane → Lane) : State := s.setLane l (f (s.lane l))

/-- Changes the configuration words of lane l. -/
def State.modCfg (s : State) (l : LaneId) (f : LaneCfg → LaneCfg) : State := s.modLane l fun x => { x with cfg := f x.cfg }
/-- Changes the attach state of lane l. -/
def State.modCc (s : State) (l : LaneId) (f : CcLane → CcLane) : State := s.modLane l fun x => { x with cc := f x.cc }
/-- Changes the message layer of lane l. -/
def State.modPd (s : State) (l : LaneId) (f : PdLane → PdLane) : State := s.modLane l fun x => { x with pd := f x.pd }
/-- Changes the contract state of lane l. -/
def State.modCon (s : State) (l : LaneId) (f : ContractLane → ContractLane) : State := s.modLane l fun x => { x with con := f x.con }
/-- Changes the swap state of lane l. -/
def State.modSwap (s : State) (l : LaneId) (f : SwapLane → SwapLane) : State := s.modLane l fun x => { x with swap := f x.swap }
/-- Changes the tally of lane l. -/
def State.modTally (s : State) (l : LaneId) (f : TallyLane → TallyLane) : State := s.modLane l fun x => { x with tally := f x.tally }
/-- Changes the belay slice of lane l. -/
def State.modBelay (s : State) (l : LaneId) (f : BelayLane → BelayLane) : State := s.modLane l fun x => { x with belay := f x.belay }
/-- Changes the loop-engine channel of lane l. -/
def State.modConv (s : State) (l : LaneId) (f : ConvLane → ConvLane) : State := s.modLane l fun x => { x with conv := f x.conv }
/-- Changes the budget standing of lane l. -/
def State.modBudget (s : State) (l : LaneId) (f : BudgetLane → BudgetLane) : State := s.modLane l fun x => { x with budget := f x.budget }
/-- Changes the section of lane l. -/
def State.modSect (s : State) (l : LaneId) (f : SectLane → SectLane) : State := s.modLane l fun x => { x with sect := f x.sect }
/-- Changes the fault windows of lane l. -/
def State.modFw (s : State) (l : LaneId) (f : FwLane → FwLane) : State := s.modLane l fun x => { x with fw := f x.fw }

/-- The group g. -/
def State.group (s : State) (g : GroupId) : Group := s.groups.get g
/-- Changes group g alone. -/
def State.modGroup (s : State) (g : GroupId) (f : Group → Group) : State :=
  { s with groups := s.groups.set g.val (f (s.group g)) g.isLt }

/-- The core t. -/
def State.core (s : State) (t : CoreId) : CoreState := s.cores.get t
/-- Replaces core t. -/
def State.setCore (s : State) (t : CoreId) (c : CoreState) : State := { s with cores := s.cores.set t.val c t.isLt }
/-- Changes core t alone. -/
def State.modCore (s : State) (t : CoreId) (f : CoreState → CoreState) : State := s.setCore t (f (s.core t))

/-- The counter n. -/
def State.counter (s : State) (n : CounterId) : Counter := s.counters.get n
/-- Changes counter n alone. -/
def State.modCounter (s : State) (n : CounterId) (f : Counter → Counter) : State :=
  { s with counters := s.counters.set n.val (f (s.counter n)) n.isLt }

/-- The interrupt block of core t. -/
def State.ic (s : State) (t : CoreId) : IcCore := s.ics.get t
/-- Changes the interrupt block of core t alone. -/
def State.modIc (s : State) (t : CoreId) (f : IcCore → IcCore) : State :=
  { s with ics := s.ics.set t.val (f (s.ic t)) t.isLt }

/-- The source x. -/
def State.src (s : State) (x : SourceId) : IcSrc := s.srcs.get x
/-- Changes source x alone. -/
def State.modSrc (s : State) (x : SourceId) (f : IcSrc → IcSrc) : State :=
  { s with srcs := s.srcs.set x.val (f (s.src x)) x.isLt }

/-- Where an agent's latched copies stand (R436). -/
def agentIdx : Agent → Fin 7
  | .host => 0
  | .core t => ⟨t.val + 1, by omega⟩
/-- An agent's latched copies. -/
def State.latch (s : State) (a : Agent) : Latches := s.latches.get (agentIdx a)
/-- Changes an agent's latched copies alone. -/
def State.modLatch (s : State) (a : Agent) (f : Latches → Latches) : State :=
  { s with latches := s.latches.set (agentIdx a).val (f (s.latch a)) (agentIdx a).isLt }

/-- Changes the device registers. -/
def State.modDev (s : State) (f : Dev → Dev) : State := { s with dev := f s.dev }
/-- Changes the bus. -/
def State.modBus (s : State) (f : Bus → Bus) : State := { s with bus := f s.bus }
/-- Changes the swath engine. -/
def State.modSwath (s : State) (f : Swath → Swath) : State := { s with swath := f s.swath }
/-- Changes the tether. -/
def State.modTether (s : State) (f : Tether → Tether) : State := { s with tether := f s.tether }
/-- Changes the security block. -/
def State.modSec (s : State) (f : Security → Security) : State := { s with sec := f s.sec }
/-- Changes the image engine. -/
def State.modImage (s : State) (f : Image → Image) : State := { s with image := f s.image }
/-- Changes supervision. -/
def State.modSup (s : State) (f : Sup → Sup) : State := { s with sup := f s.sup }
/-- Changes the mailbox. -/
def State.modMbx (s : State) (f : Mailbox → Mailbox) : State := { s with mbx := f s.mbx }

/-- Applies a change for each element of a list, in order. -/
def State.forEach {α : Type} (s : State) (xs : List α) (f : State → α → State) : State := xs.foldl f s

/-- The next free value (log 3) and the state that has taken it. -/
def State.free (s : State) : BitVec 128 × State := (Config.free s.dev.fresh, s.modDev fun d => { d with fresh := d.fresh + 1 })

-- conditions used everywhere

/-- The entry to HALTED is in progress (R15, R352). -/
def Dev.halting (d : Dev) : Bool := match d.trans with | .halting _ => true | _ => false

/-- STATE is RUN or HOLDOVER. -/
def State.live (s : State) : Bool := s.dev.state = .run || s.dev.state = .holdover

/-- RWL fields are locked: RUN is set, or a check runs (R6, R392). -/
def State.locked (s : State) : Bool := s.dev.run || s.dev.check.isSome

/-- Whether a lane is fused off (R2, R410): its LANE_DIS bit in effect since BOOT. -/
def State.fusedOff (s : State) (l : LaneId) : Bool := bitOf s.sec.laneDis l.val

/-- hr_busy: a hard reset is in progress on the lane (R75). -/
def PdLane.hrBusy (p : PdLane) : Bool := p.hrPhase ≠ .idle

/-- The lane is in Attached.SRC or Attached.SNK (R42). -/
def CcLane.attached (c : CcLane) : Bool := c.st = .attachedSrc || c.st = .attachedSnk

/-- MODE of CC_CTRL (R25). -/
def LaneCfg.mode (c : LaneCfg) : Nat := fld c.ccCtrl 2 0

/-- Whether the lane is in a harness mode (R37). -/
def LaneCfg.harness (c : LaneCfg) : Bool := c.mode = 5 || c.mode = 6

/-- The device voltage of a contract in 5 mV units: VOLT, or 5.0 V while KIND = 3 (R148, R207). -/
def ContractLane.vc (c : ContractLane) : Nat := if c.kind = 3 then 1000 else c.volt.toNat

/-- The current in 10 mA units that RP_LEVEL advertises (R28, R67). -/
def LaneCfg.rpCurrent (c : LaneCfg) : Nat :=
  match fld c.ccCtrl 5 4 with | 0 => 90 | 1 => 150 | _ => 300

-- interrupt postings

/-- The posting of a source counted against it (R276). -/
def IcSrc.posted (x : IcSrc) : IcSrc :=
  if x.cntEn then (if x.count = 255 then { x with sat := true } else { x with count := x.count + 1 })
  else { x with pend := true }

/-- PEND of a source (R269). -/
def IcSrc.pending (x : IcSrc) : Bool := x.count ≠ 0 || (!x.cntEn && x.pend)

/-- Whether the mask bit of a source is set in a core's words. -/
def maskedIn (m : Vector Word 32) (x : SourceId) : Bool :=
  bitOf (m.get ⟨x.val / 32, by omega⟩) (x.val % 32)

/-- Whether a source would be deliverable to its core if IE were 1 and, for the fast class, FDIS were 0 (R272, R278). -/
def State.wakes (s : State) (t : CoreId) (x : SourceId) : Bool :=
  let c := s.src x
  c.pending && !c.active && c.target.toNat = t.val && !(s.ic t).holdRun.get ⟨c.group.toNat, by omega⟩
    && !bitOf (s.core t).st 2 && (c.fast || (!maskedIn (s.ic t).maskEff x && !bitOf (s.core t).st 1))

/-- Wakes a core from WAIT when a source of it is ready (R278), and its group with it (R17). -/
def State.wakeCore (s : State) (t : CoreId) : State :=
  if (s.core t).run = .waiting then s.modCore t fun c => { c with run := .running } else s

/-- Restarts an idle group's core and loop engine on an enabled doorbell while the PLL runs, and counts the exit (R17, R21, R432). A core held in reset has nothing to restart. -/
def State.wakeGroup (s : State) (t : CoreId) : State :=
  if h : t.val < 4 then
    let g : GroupId := ⟨t.val, h⟩
    if (s.group g).coreRun then s
    else if s.dev.pll && (s.core t).run ≠ .inReset then s.modGroup g fun x => { x with coreRun := true, leRun := true, wakes := x.wakes + 1 } else s
  else s

/-- A posting to a source by hardware: discarded while ROUTE_EN = 0 (R269), counted otherwise, with the wake of R278 and R17. -/
def State.post (s : State) (n : Nat) : State :=
  if h : n < 1024 then
    let x : SourceId := ⟨n, h⟩
    let c := s.src x
    if c.routeEn then
      let s1 := s.modSrc x IcSrc.posted
      if ht : c.target.toNat < 6 then
        let t : CoreId := ⟨c.target.toNat, ht⟩
        let s2 := s1.wakeGroup t
        if s2.wakes t x then s2.wakeCore t else s2
      else s1
    else s
  else s

/-- Posts the lane's source k (R268). -/
def State.postLane (s : State) (l : LaneId) (k : Nat) : State := s.post (16 * l.val + k)

/-- Sets a bit of HOST_IRQ (R385). -/
def State.irq (s : State) (n : Fin 11) : State := s.modDev fun d => { d with hostIrq := d.hostIrq ||| BitVec.ofNat 11 (2 ^ n.val) }

/-- HIRQ# is asserted: HOST_IRQ AND HOST_IRQ_EN is not 0, outside RESET# and BOOT (R385). -/
def State.hirq (s : State) : Bool :=
  s.dev.hostIrq &&& s.dev.hostIrqEn.truncate 11 ≠ 0 && !s.dev.resetLow && s.dev.state ≠ .boot

-- event log

/-- Kinds of an event record's SOURCE (R356). -/
inductive LogKind where
  | lane | group | core | device
deriving DecidableEq, Repr

/-- Byte 14 of a record (R356). -/
def logSource : LogKind → Nat → Nat
  | .lane, i => i
  | .group, i => 0x20 + i
  | .core, i => 0x40 + i
  | .device, _ => 0x60

/-- The host address of the event log region (R355). -/
def logBase : Nat := 0x2C0000

/-- Advances EVT_LOG_HEAD; each completed pass posts source 0x242 (R357). -/
def State.logAdvance (s : State) : State :=
  let h := s.dev.logHead + 1
  let s1 := s.modDev fun d => { d with logHead := h }
  if fld h 12 0 = 0 then s1.post 0x242 else s1

/-- Writes an event log record: COMPLETE, with COMMIT_UNC, LASTING and FROM_HW in `flags` (R356). -/
def State.logFlags (s : State) (flags : Nat) (code : Nat) (k : LogKind) (i : Nat) (d0 d1 d2 : Word) : State :=
  let a := logBase + 32 * (fld s.dev.logHead 12 0)
  let m0 := memWriteN s.mem a s.dev.dtime 8
  let m1 := memWrite32 m0 (a + 8) s.dev.logHead
  let m2 := memWriteN m1 (a + 12) code 2
  let m3 := memWriteN m2 (a + 14) (logSource k i) 1
  let m4 := memWriteN m3 (a + 15) (0x80 + flags) 1
  let m5 := memWrite32 m4 (a + 16) d0
  let m6 := memWrite32 m5 (a + 20) d1
  let m7 := memWrite32 m6 (a + 24) d2
  let m8 := memWrite32 m7 (a + 28) 0
  ({ s with mem := m8 }).logAdvance

/-- A record that a hardware agent writes (FROM_HW). -/
def State.log (s : State) (code : Nat) (k : LogKind) (i : Nat) (d0 d1 d2 : Word) : State := s.logFlags 0x10 code k i d0 d1 d2

/-- A record that a core writes. -/
def State.logSw (s : State) (code : Nat) (k : LogKind) (i : Nat) (d0 d1 d2 : Word) : State := s.logFlags 0 code k i d0 d1 d2

-- fault windows

/-- The events of a class that lie within an interval of `win` ns that ends at `now` (R337). -/
def recent (now win : Nat) (ts : List Nat) : List Nat := ts.filter fun t => now - t ≤ win

/-- The last 14 events, of which one at `now` is the last (R337). -/
def pushEvent (now : Nat) (ts : List Nat) : List Nat := (now :: ts).take 14

/-- Whether an event at `now` is the threshold-th within the window, tested against the events `ts` kept before it (R337). -/
def lastingNow (now win th : Nat) (ts : List Nat) : Bool := decide (th ≤ 1 + (recent now win ts).length)

/-- A power-on value for a fresh lane: its registers at reset (R7), with the carrier phase of its index (R173). -/
def laneReset (l : LaneId) : Lane :=
  { cfg := { phaseOffset := BitVec.ofNat 32 (l.val * 0x80) }, conv := { phase := BitVec.ofNat 12 (l.val * 0x80) } }

end Sys2Proof.Machine
end

