-- ==== Sys2Proof/Machine/Status.lean ====
section
/-! DEFINITION. The status words that registers report and event log records carry, composed from the state by the layout tables of each chapter, and the lane bits of the bit space (R42, R75, R110, R165, R198, R242). -/

namespace Sys2Proof.Machine

/-- CC_STATE's code (R28). -/
def ccCode : CcState → Nat
  | .disabled => 0 | .unattachedSrc => 1 | .attachWaitSrc => 2 | .attachedSrc => 3 | .unattachedSnk => 4
  | .attachWaitSnk => 5 | .attachedSnk => 6 | .trySrc => 7 | .tryWaitSnk => 8 | .unattachedWait => 9
  | .cutState => 10 | .watch => 11

/-- STATE's code (R15). -/
def devCode : DevState → Nat
  | .boot => 0 | .loader => 1 | .ready => 2 | .run => 3 | .watch => 4 | .holdover => 5 | .halted => 6

/-- SOP type's code (R56). -/
def sopCode : Sop → Nat
  | .sop => 0 | .sopP => 1 | .sopPP => 2

/-- CC_STATUS (R41). -/
def ccStatus (c : CcLane) : Word :=
  packFields [(b2n c.cableEpr, 18), (c.cableVmax.toNat, 16), (c.cableImax.toNat, 14), (b2n c.cableValid, 13),
    (b2n c.detachEvt, 12), (b2n c.attachEvt, 11), (b2n c.vconnOc, 10), (b2n c.cut, 9), (c.partnerRp.toNat, 7),
    (b2n c.vconnOn, 6), (b2n c.raSeen, 5), (b2n c.polarity, 4), (ccCode c.st, 0)]

/-- Number of data objects that a header names (PD header bits [14:12]). -/
def numObjs (h : BitVec 16) : Nat := (h.toNat / 4096) % 8

/-- Whether a header marks an extended message (PD header bit 15). -/
def isExtended (h : BitVec 16) : Bool := h.getLsbD 15

/-- HEAD_LEN of a slot: 4 for a marker, 2 + 4 × data objects for a message (R56). -/
def slotLen (r : RxSlot) : Nat := if r.marker then 4 else 2 + 4 * r.frame.objs.length

/-- PD_RX_STATUS (R56). -/
def rxStatus (p : PdLane) : Word :=
  packFields [(p.ovfCnt.toNat, 24), (b2n p.hrRcvd, 20), (b2n p.extUnchunked, 19), (b2n p.extAbort, 18),
    (b2n p.extTooBig, 17), (b2n p.ovf, 16),
    (match p.fifo with | [] => 0 | r :: _ => slotLen r, 8),
    (match p.fifo with | [] => 0 | r :: _ => sopCode r.frame.sop, 6),
    (match p.fifo with | [] => 0 | r :: _ => b2n r.marker, 5), (p.fifo.length, 0)]

/-- The bytes of a message in wire order: header, then objects (R55). -/
def frameBytes (f : Frame) : List Byte :=
  [f.header.truncate 8, (f.header >>> 8).truncate 8] ++
    f.objs.flatMap fun (w : Word) => [w.truncate 8, (w >>> 8).truncate 8, (w >>> 16).truncate 8, (w >>> 24).truncate 8]

/-- Little-endian word of the first four bytes of a list, absent bytes reading 0. -/
def wordAt (bs : List Byte) : Word :=
  let g (i : Nat) : Nat := match bs[i]? with | some b => b.toNat | none => 0
  BitVec.ofNat 32 (g 0 + 256 * g 1 + 65536 * g 2 + 16777216 * g 3)

/-- PD_RX_DATAk: word k of the head slot; words beyond HEAD_LEN read 0 (R55). -/
def rxData (p : PdLane) (k : Nat) : Word :=
  match p.fifo with
  | [] => 0
  | r :: _ => wordAt (((frameBytes r.frame).take (slotLen r)).drop (4 * k))

/-- PD_RX_TIME: DTIME_LO at the head slot's EOP (R54). -/
def rxTime (p : PdLane) : Word := match p.fifo with | [] => 0 | r :: _ => r.time

/-- PD_TX_CTRL (R61). -/
def txCtrlWord (cfg : LaneCfg) (p : PdLane) : Word := packFields [(p.nextTag.toNat, 12)] ||| (cfg.txCtrl &&& 0x33)

/-- PD_TX_STATUS (R61). -/
def txStatus (p : PdLane) : Word :=
  packFields [(p.hrCount.toNat, 22), (b2n p.hrDone, 21), (b2n p.txDone, 20), (p.lastTag.toNat, 12),
    (p.lastResult.toNat, 8), (p.lastRetries.toNat, 4), (p.queue.length, 0)]

/-- CONTRACT_ACTIVE (R84). -/
def contractActive (c : ContractLane) : Word :=
  packFields [(b2n c.valid, 31), (b2n c.epr, 30), (c.kind.toNat, 28), (c.objPos.toNat, 24), (c.volt.toNat, 10), (c.curr.toNat, 0)]

/-- OP_POINT: which of the two Twin contracts is in force (R97). -/
def opPoint (cfg : LaneCfg) (c : ContractLane) : Nat :=
  if !c.twinOn || c.kind = 1 || c.kind = 3 then 0
  else if fld cfg.twinRun 9 0 ≤ c.curr.toNat then 2
  else if c.curr.toNat ≤ fld cfg.twinStandby 9 0 then 1
  else 0

/-- CONTRACT_ARMED (R98). -/
def contractArmed (cfg : LaneCfg) (c : ContractLane) : Word :=
  packFields [(c.armState.toNat, 28), (c.armId.toNat, 24), (b2n c.target, 23), (opPoint cfg c, 20), (b2n c.tmLock, 19),
    (b2n c.twinOn, 18), (c.voidCause.toNat, 14), (c.voidCnt.toNat, 8), (c.switchCnt.toNat, 0)]

/-- The source deadline of a keep-alive kind, in ns (R85). -/
def kaDeadline (kind : BitVec 2) : Nat := if kind = 1 then 15000000000 else if kind = 2 then 900000000 else 0

/-- KA_STATUS (R87). -/
def kaStatus (now : Nat) (source : Bool) (c : ContractLane) : Word :=
  packFields [(c.kaKind.toNat, 30), (if source && c.kaKind ≠ 0 then (kaDeadline c.kaKind - (now - c.kaStart)) / 1000000 else 0, 0)]

/-- AUTH_STATUS (R424). -/
def authStatus (c : ContractLane) : Word := packFields [(c.authFails.toNat, 8), (b2n c.authRoot, 4), (c.authState.toNat, 0)]

/-- SWAP_STATUS (R108). -/
def swapStatus (w : SwapLane) : Word :=
  packFields [(w.last.toNat, 16), (b2n w.packHold, 12), (b2n w.frsArm, 11), (b2n w.frsCap, 10), (b2n w.holdOn, 9),
    (b2n w.evt, 8), (w.state.toNat, 4), (b2n w.vconnRole, 2), (b2n w.dataRole, 1), (b2n w.powerRole, 0)]

/-- The state of charge in 0.01 %, clamped to 0–10,000 and rounded down (R132). -/
def socValue (t : TallyLane) : Nat :=
  if t.lastAnchor = 0 || t.cap = 0 then 0xFFFF
  else
    let x := Int.fdiv (10000 * t.q) (1000 * t.cap.toNat) + (if t.lastAnchor = 1 then 10000 else 0)
    (Min.min (Max.max x 0) 10000).toNat

/-- TALLY_SOC (R130). -/
def tallySoc (t : TallyLane) : Word := BitVec.ofNat 32 (socValue t)

/-- TALLY_STATUS (R130). -/
def tallyStatus (t : TallyLane) : Word :=
  packFields [(t.jump.toNat, 16), (b2n t.sat, 11), (b2n t.capNew, 10), (b2n t.anchorEvt, 9), (b2n t.cv, 8), (t.lastAnchor.toNat, 6)]

/-- The power die of a lane is up: VCORE in range and its link carrying valid frames (R10). -/
def dieUp (s : State) (l : LaneId) : Bool := s.dev.vcoreOk && (s.group (groupOf l)).linkOk

/-- What the device presents on a CC pin (R27): one of the terminations, VCONN (R34) or the FRS signal (R119). `rp n` is Rp at level n: 0 = default USB, 1 = 1.5 A, 2 = 3.0 A. -/
inductive PinDrive where
  | opened | rp (level : Fin 3) | rd | vconn | low
deriving DecidableEq, Repr

/-- RP_LEVEL (R25); the reserved value 3 reads as 3.0 A, and no enabled lane holds it (R26). -/
def rpField (c : LaneCfg) : Fin 3 := match fld c.ccCtrl 5 4 with | 0 => 0 | 1 => 1 | _ => 2

/-- The Rp level of a lane that presents Rp: with an explicit contract SinkTxOk (3.0 A), or SinkTxNG (1.5 A) while ams_hold = 1; before one, RP_LEVEL, or 3.0 A on a lane that a PR_Swap made source (R25, R111, R115). -/
def rpDrive (x : Lane) : Fin 3 :=
  if x.con.valid then (if x.swap.amsHold then 1 else 2) else if x.swap.rpHigh then 2 else rpField x.cfg

/-- The pin HARN_PIN names (R25). -/
def harnPin (c : LaneCfg) : CcPin := if bitOf c.ccCtrl 3 then .cc2 else .cc1

/-- What a lane presents on a CC pin (R28, R33, R34, R37, R44). In WATCH a pin is open between probes (R45). -/
def pinDrive (x : Lane) (pin : CcPin) : PinDrive :=
  let unattached (d : PinDrive) : PinDrive := if x.cfg.harness && pin ≠ harnPin x.cfg then .opened else d
  match x.cc.st with
  | .unattachedSrc => unattached (.rp (rpField x.cfg))
  | .attachWaitSrc => unattached (.rp (rpField x.cfg))
  | .trySrc => unattached (.rp (rpField x.cfg))
  | .unattachedSnk => unattached .rd
  | .attachWaitSnk => unattached .rd
  | .tryWaitSnk => unattached .rd
  | .attachedSrc | .attachedSnk =>
    if decide (pin = .cc2) = x.cc.polarity then (if x.swap.frsSignal then .low else if x.swap.presentsRp then .rp (rpDrive x) else .rd)
    else if x.cc.vconnOn then .vconn else .opened
  | _ => .opened

/-- What a lane presents on a CC pin during its WATCH probe (R45). -/
def probeDrive (x : Lane) (pin : CcPin) : PinDrive :=
  if x.cfg.harness && pin ≠ harnPin x.cfg then .opened
  else if x.cfg.mode = 2 || x.cfg.mode = 6 then .rd else .rp 0

/-- V_hi of the voltage window in 0.01 mV (R148). A hold keeps VC, since it keeps KIND and VOLT (R119). -/
def windowHi (x : Lane) : Nat :=
  Min.min (Max.max x.con.vc x.conv.vs.toNat * 5 * (100 + fld x.cfg.ovpSet 3 0) + 50000)
    (Min.min (25000 * fld x.cfg.ovpSet 23 16) 6000000)

/-- V_lo of the voltage window in 0.01 mV (R148). -/
def windowLo (x : Lane) : Nat := (Min.min x.con.vc x.conv.vs.toNat * 25 * (40 - fld x.cfg.ovpSet 11 8) + 1) / 2 - 50000

/-- A path current, positive from the device to the partner, in the direction of the lane's power flow (R142). -/
def flowCurrent (x : Lane) (ma : Int) : Int := if x.swap.powerRole && !x.swap.holdOn then ma else -ma

/-- The lane is isolated: both path switches off and its stage stopped with its outputs low (R161). -/
def isolated (x : Lane) : Bool := x.belay.sw = 0 && !x.conv.on

/-- The lane is in safe state: isolated, VCONN off and no discharge running (R161). -/
def safe (x : Lane) : Bool := isolated x && !x.cc.vconnOn && !x.belay.dischIn && !x.belay.dischOut

/-- BELAY_STATUS of a lane on a die at DIE_TEMP `temp` (R164). -/
def belayStatus (temp : Byte) (x : Lane) : Word :=
  let b := x.belay
  packFields [(temp.toNat, 24), (b.cause.toNat, 20), (b2n b.latched, 19), (b2n (b.failA || b.failB), 18), (b2n b.failB, 17),
    (b2n b.failA, 16), (b2n b.disagree, 15), (b2n b.backfeed, 14), (b2n b.tripEvt, 13), (b2n b.thermWarn, 12), (b2n b.tripB, 11),
    (b2n b.tripA, 10), (b.stest.toNat, 8), (b2n b.dischIn, 6), (b2n b.dischOut, 5), (b2n b.settling, 4), (b2n (safe x), 3),
    (b2n (isolated x), 2), (b.sw.toNat, 0)]

/-- A path is opening at DTIME `now`: for 1 µs its lane is not yet isolated (R154, R164; DESIGN CHOICE, log 94). -/
def opening (now : Nat) (x : Lane) : Bool := x.belay.sw = 0 && x.belay.openedAt.any fun t => decide (now < t + 1000)

/-- BELAY_STATUS as a register reads it at DTIME `now`: SW shows opening, and ISO and SAFE 0, while the path opens (R154, R164). -/
def belayWord (now : Nat) (temp : Byte) (x : Lane) : Word :=
  let w := belayStatus temp x
  if opening now x then setFld w 3 0 3 else w

/-- CSTATE by the order 0, 4, 5, 6, 3, 1, 7, 2 (R196). -/
def cstate (c : ConvLane) : Nat :=
  if !c.on then 0 else if c.slew then 4 else if c.revStart then 5 else if c.rev then 6 else if c.fwdClamp then 3
  else if c.soft then 1 else if c.ramp then 7 else 2

/-- The REV bit: the stage is in reverse operation, in slew-bound control too (R196, "whatever its current"; DESIGN CHOICE, log 108). -/
def revBit (c : ConvLane) : Bool := c.on && (c.revStart || c.rev)

/-- CONV_STATUS (R196). -/
def convStatus (c : ConvLane) : Word :=
  packFields [(cstate c, 24), (c.ratio.toNat, 22), (b2n (revBit c), 21), (b2n c.ffAct, 20), (c.slewCnt.toNat, 8), (b2n c.slewTo, 0)]

/-- CONV_MEAS (R197). -/
def convMeas (c : ConvLane) : Word := packFields [(c.ilAvg.toNat, 16), (c.vsShown.toNat, 0)]

/-- LANE_ALLOC (R213). -/
def laneAlloc (b : BudgetLane) : Word := packFields [(b.shed.toNat, 29), (b.slot.toNat, 24), (b.ceil.toNat, 12), (b.alloc.toNat, 0)]

/-- SECT_MODE of a lane; 0 on a lane fused off (R237). -/
def sectMode (s : State) (l : LaneId) : Nat := if s.fusedOff l then 0 else fld (s.lane l).cfg.sectCtrl 1 0

/-- The level driven on SLn; 0 when SECT_MODE is 0 or 1 (R242). -/
def slLevel (cfg : LaneCfg) (x : SectLane) : Bool :=
  if fld cfg.sectCtrl 1 0 < 2 then false else x.lineOn != bitOf cfg.sectCtrl 2

/-- The level driven on ALTENn (R92, R391): as Row Link stands, what SLn would carry under SECT_MODE 2, or low; low outside RUN and HOLDOVER (R260). -/
def altenLevel (s : State) (l : LaneId) : Bool :=
  let x := s.lane l
  s.live && !s.fusedOff l && (match fld x.cfg.laneCtrl 5 4 with | 0 => x.con.rowLink | 1 => x.sect.lineOn != bitOf x.cfg.sectCtrl 2 | _ => false)

/-- SECT_STATUS (R242); no line is driven outside RUN and HOLDOVER (R260). -/
def sectStatus (live : Bool) (cfg : LaneCfg) (x : SectLane) : Word :=
  packFields [(x.blockPct.toNat, 24), (b2n x.shedMiss, 9), (b2n x.armMiss, 8), (b2n x.pending, 3), (b2n x.applied, 2),
    (b2n x.want, 1), (b2n (live && slLevel cfg x), 0)]

/-- FW_COUNT at DTIME `now` (R336). -/
def fwCount (now : Nat) (x : Lane) : Word :=
  let n (win : Nat) (ts : List Nat) : Nat := (recent now (win * 1000000) ts).length
  packFields [(b2n x.fw.protoLast, 18), (b2n x.fw.vconnLast, 17), (b2n x.belay.latched, 16),
    (n (fld x.cfg.fwWindow1 15 0) x.fw.proto, 8), (n (fld x.cfg.fwWindow0 31 16) x.fw.vconn, 4),
    (n (fld x.cfg.fwWindow0 15 0) x.fw.power, 0)]

/-- LIVE: PORT_EN = 1 with its check passed, and STATE is RUN or HOLDOVER (R434). -/
def laneLive (s : State) (l : LaneId) : Bool := (s.lane l).enabled && s.live && !s.fusedOff l

/-- The core that serves a group's lanes: its own, or after a splice the partner's (R343). -/
def serverOf (s : State) (g : GroupId) : CoreId := if (s.group g).spliced then coreOf (partnerOf g) else coreOf g

/-- Whether core t may write the writable lane bits of a lane (R297): its present policy core, S0 or S1. -/
def laneBitOwner (s : State) (t : CoreId) (l : LaneId) : Bool := decide (4 ≤ t.val) || serverOf s (groupOf l) = t

/-- A core runs the base image, or an image that reproduces it (R4). -/
def imageRuns (c : CoreState) : Bool := c.baseImg && (c.run = .running || c.run = .waiting)

/-- The base image serves a lane: it runs in the lane's policy core, and the auto-responder does not stand in for it (R4, R66). -/
def serves (s : State) (l : LaneId) : Bool := !(s.lane l).pd.arActive && imageRuns (s.core (serverOf s (groupOf l)))

/-- The lines answer at all: supplies, RESET#, and step 4 of the start (R377, R386, R387). -/
def hspiOn (s : State) : Bool := s.dev.vsysOk && s.dev.vioOk && !s.dev.resetLow && (s.dev.state ≠ .boot || s.dev.pll)

/-- A host access to a register has an effect: the lines answer, and the device is not in BOOT or HALTED (R377, R386, R439). -/
def hostServed (s : State) (a : Agent) : Bool := !(a = .host && (s.dev.state = .boot || s.dev.state = .halted || !hspiOn s))

/-- LIVE of LANE_STATUS (R434): PORT_EN = 1 with its check passed, in RUN or HOLDOVER. A lane that keeps its contract in HOLDOVER though PORT_EN has been cleared is not shown live. -/
def liveBit (s : State) (l : LaneId) : Bool := laneLive s l && bitOf (s.lane l).cfg.laneCtrl 0

/-- LANE_STATUS (R434). -/
def laneStatus (s : State) (l : LaneId) : Word :=
  let x := s.lane l
  let idx : Word := BitVec.ofNat 32 (l.val * 2 ^ 24)
  if s.fusedOff l then idx ||| 0x500
  else idx ||| packFields [(b2n (s.group (groupOf l)).spliced, 11), (b2n x.belay.latched, 9), (b2n (safe x && !opening s.dev.dtime x), 8),
    (b2n x.pd.arActive, 7), (b2n x.conv.on, 6), (b2n (x.belay.sw = 2), 5), (b2n x.con.twinOn, 4), (b2n x.con.valid, 3),
    (b2n (x.cc.attached && x.swap.powerRole), 2), (b2n x.cc.attached, 1), (b2n (liveBit s l), 0)]

/-- The lane bit at an offset; unnamed offsets read 0 (R42, R75, R110, R165, R198, R242, R297). -/
def laneBit (s : State) (l : LaneId) (o : Nat) : Bool :=
  let x := s.lane l
  if s.fusedOff l then false
  else match o with
  | 0 => x.cc.attached
  | 1 => x.cc.attached && x.swap.powerRole
  | 2 => x.cc.polarity
  | 3 => x.cc.vconnOn
  | 4 => x.cc.cut
  | 5 => x.cc.raSeen
  | 16 => x.pd.fifo.length ≠ 0
  | 17 => x.pd.queue.length = 2
  | 18 => x.pd.hrBusy
  | 19 => x.pd.arActive
  | 20 => x.pd.reasm.isSome
  | 24 => x.swap.amsHold
  | 25 => x.swap.frsArm
  | 26 => x.swap.state ≠ 0
  | 27 => x.swap.holdOn
  | 28 => x.swap.packHold
  | 32 => x.belay.sw = 2
  | 33 => x.belay.tripEvt
  | 34 => x.belay.latched
  | 35 => x.belay.failA || x.belay.failB
  | 36 => x.belay.thermWarn
  | 40 => x.conv.on
  | 41 => cstate x.conv = 3
  | 42 => cstate x.conv = 4
  | 43 => revBit x.conv
  | 44 => x.conv.ramp || x.conv.soft
  | 48 => x.sect.want
  | 49 => x.sect.applied
  | 50 => x.sect.pending
  | 51 => x.sect.armMiss
  | _ => false

/-- A word view of 32 lane bits: bit j is the lane bit at 32 × k + j (R435). -/
def laneBitsWord (s : State) (l : LaneId) (k : Nat) : Word :=
  (List.range 32).foldl (fun w j => if laneBit s l (32 * k + j) then w ||| BitVec.ofNat 32 (2 ^ j) else w) 0

/-- GRP_STATUS (R432). -/
def grpStatus (s : State) (g : GroupId) : Word :=
  let x := s.group g
  packFields [(x.dieTemp.toNat, 24), (((lanesOf g).filter (liveBit s)).length, 8),
    (if x.spliced then (partnerOf g).val else g.val, 4), (b2n x.orphan, 3), (b2n x.spliced, 2), (b2n x.leRun, 1), (b2n x.coreRun, 0)]

/-- Six bits, one per core. -/
def coreBits (s : State) (f : CoreState → Bool) : Nat :=
  (List.finRange 6).foldl (fun n t => n + (if f (s.core t) then 2 ^ t.val else 0)) 0

/-- Four bits, one per group. -/
def groupBits (s : State) (f : Group → Bool) : Nat :=
  (List.finRange 4).foldl (fun n g => n + (if f (s.group g) then 2 ^ g.val else 0)) 0

/-- SUP_STATUS (R346). -/
def supStatus (s : State) : Word :=
  packFields [(groupBits s Group.spliced, 28), (groupBits s Group.orphan, 24), (coreBits s CoreState.out, 18),
    (coreBits s CoreState.down, 12), (coreBits s CoreState.eccLast, 6), (coreBits s CoreState.missEvt, 0)]

/-- Failed attempts within the last 60 s (R350). -/
def wardenFails (s : State) : Nat := (recent s.dev.dtime 60000000000 s.sup.fails).length

/-- WARDEN_STATUS (R350). -/
def wardenStatus (s : State) : Word :=
  packFields [(s.sup.failCause.toNat, 16), (s.sup.takeovers.toNat, 8), (s.sup.attempt.toNat, 2), (wardenFails s % 4, 0)]

/-- TETHER_STATUS (R374). -/
def tetherStatus (s : State) : Word :=
  let t := s.tether
  packFields [(t.hitchVer.toNat, 24), (fld s.image.runAbi 23 16, 16), (b2n t.succ, 15), (b2n t.excluded, 14), (b2n t.acq, 13),
    (b2n t.timeLock, 12), (b2n t.hitch, 11), (t.hitchPos.val, 8), (t.n.val, 4), (b2n t.posErr, 3), ((t.pos.getD 0).val, 0)]

/-- TETHER_TIME (R374). -/
def tetherTime (t : Tether) : Word := packFields [(b2n t.tuUp, 31), (b2n t.tdUp, 30), ((BitVec.ofInt 14 (Int.fdiv t.rate 10000)).toNat, 16), (t.err.toNat, 0)]

/-- ALARM_STATUS (R417). -/
def alarmStatus (x : Security) : Word :=
  packFields [(x.lastLevel.toNat, 26), (b2n x.zeroised, 25), (b2n x.killSet, 24), (x.alarms.toNat, 16), (x.sources.toNat, 0)]

/-- Fuse words in a state (R412), saturating at 255. -/
def wstatCount (x : Security) (k : BitVec 2) : Nat := Min.min 255 (x.wstat.toList.filter (· = k)).length

/-- A fuse operation is in progress (R415): FUSE_PROGRAM or AUDIT runs. -/
def fuseBusy (s : State) : Bool := s.mbx.busy && (s.mbx.code = 0x20 || s.mbx.code = 0x21)

/-- FUSE_STATUS (R417). -/
def fuseStatus (s : State) : Word :=
  let x := s.sec
  packFields [(x.vprog.toNat, 20), (wstatCount x 3, 12), (wstatCount x 2, 4), (b2n x.audited, 3), (b2n x.killed, 2),
    (b2n s.dev.degraded, 1), (b2n (fuseBusy s), 0)]

/-- Authentication failures within the last 10 min by DTIME (R405, R419). -/
def authFailCount (s : State) : Nat := (recent s.dev.dtime 600000000000 s.image.authFails).length

/-- IMG_STATUS (R405). -/
def imgStatus (s : State) : Word :=
  let x := s.image
  packFields [(Min.min 255 (authFailCount s), 8), (x.actCore.val, 4), (b2n x.activating, 3), (b2n x.actPend, 2), (b2n x.storeOk, 1), (b2n x.writing, 0)]

/-- BUS_VSNS_STATUS (R205). -/
def busStatus (b : Bus) : Word := packFields [(b2n b.frsEvt, 18), (b2n b.frs, 17), (b2n b.sag, 16), (b.busV.toNat, 0)]

/-- BUDGET_EFF (R222). -/
def budgetEff (b : Bus) : Word := packFields [(b2n b.frozen, 31), (b2n b.effSag, 30), (b2n b.effCredit, 29), (b.effW.toNat, 0)]

/-- FIX_CTRL (R226). -/
def fixCtrl (x : Swath) : Word := packFields [(x.fixCnt.toNat, 16), (x.fixResult.toNat, 4)]

/-- SWATH_STATUS (R233). -/
def swathStatus (x : Swath) : Word :=
  packFields [(x.markLost.toNat, 24), (x.tileReq.toNat, 16), (b2n x.tileEvt, 4), (b2n (x.poseLost && bitOf x.ctrl 4), 3), (b2n x.drOut, 2), (b2n x.stale, 1), (b2n x.poseOk, 0)]

/-- SWATH_WIN (R234). -/
def swathWin (x : Swath) : Word := packFields [((BitVec.ofInt 16 x.win.2).toNat, 16), ((BitVec.ofInt 16 x.win.1).toNat, 0)]

/-- TILE_STATEk (R234). -/
def tileState (x : Swath) (k : Nat) : Word :=
  (List.range 16).foldl (fun w j => w ||| BitVec.ofNat 32 (((x.tiles.toList[16 * k + j]?).getD 0).toNat * 2 ^ (2 * j))) 0

/-- Ground speed in mm/s: the distance of the last 10 steps divided by 10 ms, 0 after STOP_T without an edge (R230). -/
def groundSpeed (x : Swath) : Nat :=
  let d := ((x.steps.take 10).foldl (fun a p => a + (Int.natAbs p.1 : Int)) 0).toNat
  if fld x.gsCtrl 3 0 ≠ 0 && 10 * fld x.gsCtrl 15 8 ≤ x.noEdge then 0 else d / 10

/-- POSE_SPD (R231). -/
def poseSpd (x : Swath) : Word := packFields [(b2n x.rev, 31), (Min.min x.jump 32767, 16), (Min.min (groundSpeed x) 65535, 0)]

/-- A pose coordinate in mm, from µm, rounded down. -/
def mmOf (v : Int) : Word := BitVec.ofInt 32 (Int.fdiv v 1000)

/-- DEV_STATUS (R384). -/
def devStatus (d : Dev) : Word := packFields [(d.bootCode.toNat, 8), (b2n d.degraded, 5), (b2n d.check.isSome, 4), (devCode d.state, 0)]

/-- DEV_CTRL (R384). -/
def devCtrl (d : Dev) : Word := packFields [(b2n d.mapKeep, 2), (b2n d.watch, 1), (b2n d.run, 0)]

/-- DEV_ID (R429): PART, the enabled lanes and DIE_STEP. -/
def devId (s : State) : Word :=
  packFields [(0x3248, 16), (if (allLanes.filter fun l => s.fusedOff l).length = 0 then 0x20 else 0x10, 8), (1, 4)]

/-- HSPI_STATUS (R383). -/
def hspiStatus (d : Dev) : Word := packFields [(d.hspiAborted.toNat, 16), (d.hspiRefused.toNat, 8), (d.hspiLast.toNat, 4)]

/-- VSYS_MON (R431). -/
def vsysMonWord (d : Dev) : Word := packFields [(d.vsysV.toNat, 16), (d.warnV.toNat, 8), (b2n d.warnEvt, 1), (b2n d.vsysWarn, 0)]

/-- MBX_STATUS (R388). -/
def mbxStatus (m : Mailbox) : Word := packFields [(b2n m.busy, 31), (b2n m.done, 30), (m.tag.toNat, 16), (m.result.toNat, 0)]

/-- CNTn_CTRL (R251). -/
def cntCtrl (c : Counter) : Word :=
  (c.ctrl &&& 0x003F0311) ||| packFields [(c.capN.toNat, 24), (c.claim.toNat, 22), (b2n c.peakF, 15), (b2n c.turnF, 14),
    (b2n c.bF, 13), (b2n c.aF, 12), (b2n c.down, 5)]

/-- IC_SRC (R269). -/
def icSrcWord (x : IcSrc) : Word :=
  packFields [(x.count.toNat, 24), (b2n x.active, 23), (b2n x.pending, 22), (b2n x.sat, 21), (b2n x.cntEn, 16), (x.group.toNat, 8),
    (b2n x.fast, 4), (b2n x.routeEn, 3), (x.target.toNat, 0)]

/-- IC_MLOCK (R285). -/
def mlockWord (c : IcCore) : Word := packFields [(b2n c.broken, 2), (b2n c.held, 1)]

/-- IC_STATUS (R285). -/
def icStatus (c : IcCore) : Word := packFields [(c.spliceGen.toNat, 24), (c.spurCnt.toNat, 16), (c.mispost.toNat, 8)]

/-- IC_HOLDk (R277). -/
def icHold (c : IcCore) (k : Fin 32) : Word := packFields [(b2n (c.holdRun.get k), 16), ((c.hold.get k).toNat, 0)]

/-- DEC_CTRL (R326). -/
def decCtrlWord (c : CoreState) : Word := packFields [(c.errOp.toNat, 20), (c.err.toNat, 16), (c.valid.toNat, 0)]

/-- DBG_CTRL (R417). -/
def dbgCtrl (x : Security) : Word := packFields [(x.dbgFails.toNat, 8), (b2n x.unlocked, 0)]

end Sys2Proof.Machine
end

