-- ==== Sys2Proof/Machine/Path.lean ====
section
/-! DEFINITION. The lane operations that the families share: loop-engine start and stop (R182–R189, R195), the path switches and their close requests (R139, R140, R465), fault windows (R337, R338), voiding a Twin arm (R101), the end of an attach (R40, R41, R50), hard reset requests (R69, R72), error recovery (R72) and belay trips (R155). -/

namespace Sys2Proof.Machine

-- limits and setpoints

/-- ⌈a / b⌉. -/
def ceilDiv (a b : Nat) : Nat := (a + b - 1) / b

/-- A value held between two bounds. -/
def clampNat (lo hi v : Nat) : Nat := Min.min hi (Max.max lo v)

/-- ILIM of a written value under the ceiling in force (R141). -/
def ilimStored (ceil v : Nat) : Nat :=
  if 10 ≤ ceil ∧ ceil ≤ 140 then Min.min ceil (Max.max 10 v) else clampNat 10 140 v

/-- Lane hardware's or the base image's write of ILIM alone (R141). -/
def State.writeIlim (s : State) (l : LaneId) (v : Nat) : State :=
  s.modCfg l fun c => { c with ilimSet := setFld c.ilimSet 7 0 (ilimStored (fld c.ilimSet 23 16) v) }

/-- 1.10 times a current of 10 mA units in 50 mA units, rounded up, at least 0.5 A (R143). -/
def ilimFor (i : Nat) : Nat := Max.max 10 (ceilDiv (i * 11) 50)

/-- SHED_ILIM as it acts: 1–9 act as 10 (R163). -/
def shedField (c : LaneCfg) : Nat :=
  let v := fld c.belayCtrl 23 16
  if v = 0 then 0 else Max.max 10 v

/-- ILIM_EFF, in 50 mA units: the least of ILIM and SHED_ILIM as the comparators hold it (R142, R144). -/
def ilimEff (x : Lane) : Nat :=
  let i := fld x.cfg.ilimSet 7 0
  if x.belay.shedApplied = 0 then i else Min.min i x.belay.shedApplied.toNat

/-- The forward current limit in force, in 10 mA units (R185). -/
def fwdLimit (x : Lane) : Nat :=
  let f := x.conv.fwdEff.toNat
  if shedField x.cfg = 0 then f else Min.min f (5 * shedField x.cfg)

/-- REV_ILIM in 10 mA units (R106). -/
def revIlim (c : LaneCfg) : Nat := fld c.swapCtrl 25 16

/-- Lane hardware's write of ILIM_FWD, in force at once (R199). -/
def State.setFwd (s : State) (l : LaneId) (v : Nat) : State :=
  let w := Min.min v 700
  (s.modCfg l fun c => { c with convIset := setFld c.convIset 9 0 w }).modConv l fun c => { c with fwdEff := BitVec.ofNat 10 w }

/-- The short-circuit limit in 50 mA units: 2 × ILIM_EFF, clamped at 14 A (R142). -/
def shortLimit (x : Lane) : Nat := Min.min (2 * ilimEff x) 280

/-- The stage stops: outputs low, CSTATE 0, any ramp, slew-bound interval or feed-forward abandoned (R195). -/
def ConvLane.stop (c : ConvLane) : ConvLane :=
  { c with on := false, soft := false, ramp := false, fwdClamp := false, floorClamp := false, slew := false, slewBack := false,
           slewHold := false, first := false, revStart := false, rev := false, down := false, fallen := false, ffAct := false, ffTerm := 0 }

/-- ILIM_REV takes effect: with 0 a stage in reverse does not run (R189). -/
def ConvLane.takeRev (c : ConvLane) (v : BitVec 10) : ConvLane :=
  let c := { c with revEff := v, revNow := Min.min c.revNow v.toNat }
  if (c.rev || c.revStart) && v = 0 then c.stop else c

/-- Lane hardware's write of ILIM_REV, in force at once (R199). -/
def State.setRev (s : State) (l : LaneId) (v : Nat) : State :=
  let w := Min.min v 700
  (s.modCfg l fun c => { c with convIset := setFld c.convIset 25 16 w }).modConv l fun c => c.takeRev (BitVec.ofNat 10 w)

/-- The stage moves VS from its present value toward a new VSET: a ramp, which is downward from the moment VS starts to fall until it completes (R183, R186, R201), and in R151 until CONTRACT_ACTIVE takes a contract. Before its first period has ended a stage has no VS to compare (R184). -/
def ConvLane.retarget (c : ConvLane) (v : BitVec 14) : ConvLane :=
  let c := { c with vsetEff := v }
  let falls := !c.first && decide (v.toNat < c.vs.toNat)
  if c.on && !c.rev && !c.revStart && c.vs ≠ v then { c with ramp := !c.soft, down := falls, fallen := falls } else c

/-- The rate of VS in 100 mV/ms: RAMP, or 1 V/ms in a soft start (R182, R184). -/
def ConvLane.vsRate (c : ConvLane) : Nat := if c.soft then 10 else c.rampEff.toNat

/-- VS after `dt` ns of a ramp or soft start: it moves toward VSET, and stands still while the port-side reference is clamped or the first period has not ended (R183, R184). -/
def ConvLane.moveVs (c : ConvLane) (dt : Nat) : ConvLane :=
  if !c.on || !(c.ramp || c.soft) || c.first || c.fwdClamp || c.floorClamp || c.vs = c.vsetEff then c
  else
    let acc := c.vsFrac + c.vsRate * dt
    let n := acc / 50000
    let v := if c.vs.toNat < c.vsetEff.toNat then Min.min c.vsetEff.toNat (c.vs.toNat + n) else Max.max c.vsetEff.toNat (c.vs.toNat - n)
    { c with vs := BitVec.ofNat 14 v, vsFrac := if v = c.vsetEff.toNat then 0 else acc % 50000 }

/-- ILIM_REV as ramped after `dt` ns of a reverse start, at 5 A/ms (R189). -/
def ConvLane.moveRev (c : ConvLane) (dt : Nat) : ConvLane :=
  if c.revStart then
    let acc := c.revFrac + dt
    { c with revNow := Min.min c.revEff.toNat (c.revNow + acc / 2000), revFrac := acc % 2000 }
  else c

/-- What passes in the engine in `dt` ns: the ramp of VS, of ILIM_REV and of a feed-forward step (R183, R184, R189, R193). -/
def ConvLane.elapse (c : ConvLane) (dt : Nat) : ConvLane :=
  let c1 := (c.moveVs dt).moveRev dt
  if c1.ffAct then { c1 with ffTime := Min.min c1.ffLen (c1.ffTime + dt) } else c1

/-- Lane hardware's write of VSET, limited by VCONV_MAX and in force at once (R182, R199). -/
def State.setVset (s : State) (l : LaneId) (v : Nat) : State :=
  let w := Min.min v (fld (s.lane l).cfg.vconvMax 13 0)
  (s.modCfg l fun c => { c with convVset := setFld c.convVset 13 0 w }).modConv l fun c => c.retarget (BitVec.ofNat 14 w)

/-- A current in 10 mA units as a stored loop state at output scale sh (R178, R184, R192). -/
def loopState (i : Int) (sh : Nat) : Int := i * 2 ^ 30 / 2 ^ sh

/-- The stage starts with its stored states cleared (R178); what it takes from its first period comes at the first valley (R181, R184), until when its outputs stay low, since the spec gives no duties for that time (DESIGN CHOICE, log 108). -/
def ConvLane.cleared (c : ConvLane) : ConvLane :=
  { c.stop with on := true, first := true, vu := [0, 0, 0], ve := [0, 0, 0], iu := 0, ie := 0, iRef := 0, d1 := 0, d2 := 0, d1Next := 0,
                d2Next := 0, slip := 0, inAt := none, outAt := none, vsFrac := 0, revNow := 0, revFrac := 0 }

/-- The ratio mode at start for a quotient num / den, or the mode that MODE_SEL names (R181). -/
def ratioStart (modeSel num den : Nat) : BitVec 2 :=
  match modeSel with
  | 1 => 0
  | 2 => 2
  | 3 => 1
  | _ => if 100 * num ≤ 85 * den then 0 else if 120 * den ≤ 100 * num then 2 else 1

/-- The group's loop engine runs while a stage of its lanes does (R17, R198). -/
def State.runEngine (s : State) (l : LaneId) : State := s.modGroup (groupOf l) fun g => { g with leRun := true }

/-- A soft start (R184), which a die that is out of VCORE or off its link does not make (R10, R11): VS, the ratio mode and the loop state come from the first period. -/
def State.softStart (s : State) (l : LaneId) : State :=
  if !dieUp s l then s
  else
    let s1 := (s.modConv l fun c => { c.cleared with soft := true }).runEngine l
    (s1.setVset l 1000).setFwd l (s.lane l).cfg.rpCurrent

/-- A reverse start; with ILIM_REV = 0 the stage does not run (R189). -/
def State.reverseStart (s : State) (l : LaneId) : State :=
  if (s.lane l).conv.revEff = 0 then s.modConv l ConvLane.stop
  else if !dieUp s l then s
  else (s.modConv l fun c => { c.cleared with revStart := true }).runEngine l

/-- Stops a lane's stage. -/
def State.stopStage (s : State) (l : LaneId) : State := s.modConv l ConvLane.stop

-- path switches

/-- Both switches open, as they are always driven together (R138); an opening as source discharges VBOUT, and VBIN is discharged (R162). Any close that lane hardware had asked for is dropped. -/
def State.openPath (s : State) (l : LaneId) : State :=
  let src := (s.lane l).swap.powerRole || (s.lane l).swap.presentsRp
  s.modBelay l fun b =>
    { b with sw := 0, openedAt := if b.sw ≠ 0 then some s.dev.dtime else b.openedAt, dischOut := b.dischOut || (src && b.sw ≠ 0), dischIn := b.dischIn || b.sw ≠ 0, settling := false, stest := 0,
             want := .none, testPassed := false, backfeedTries := 0, risen := false }

/-- The conditions of R139 that do not change while a close is held: state, PORT_EN and latch, on a die that is up (R10, R166). -/
def closeAllowed (s : State) (l : LaneId) : Bool := liveBit s l && !(s.lane l).belay.latched && dieUp s l

/-- Starts the pre-close test of a wanted close unless the die is in thermal shutdown or its restart wait, which hold it (R139, R152, R159). -/
def State.startClose (s : State) (l : LaneId) : State :=
  let b := (s.lane l).belay
  if b.want ≠ .none && b.sw = 0 && closeAllowed s l && !(s.group (groupOf l)).thermShut then
    s.modBelay l fun b => { b with stest := 3, testPassed := false }
  else s

/-- Lane hardware asks the belay to close the path (R139). -/
def State.askClose (s : State) (l : LaneId) (w : CloseWant) : State :=
  if closeAllowed s l && (s.lane l).belay.sw = 0 then
    (s.modBelay l fun b => { b with want := w, testPassed := false, backfeedTries := 0, tripOpen := false }).startClose l
  else s

/-- The levels that R139 asks of a close: as source VBOUT at most 0.8 V and VBIN at most 5.5 V with no discharge running, as sink VBOUT at least 4.0 V and within the window. -/
def levelsOk (b : BelayLane) : Bool :=
  match b.want with
  | .asSource => !b.voutHigh && !b.vinHigh && !b.dischIn
  | .asSink => b.voutOk
  | .none => false

/-- The gate ramp begins once the test has passed, the comparators have accepted their states and the levels allow it (R139, R140). -/
def State.tryRamp (s : State) (l : LaneId) : State :=
  let b := (s.lane l).belay
  if levelsOk b && b.testPassed && !b.settling && b.sw = 0 && closeAllowed s l && !b.failA && !b.failB
      && !(s.group (groupOf l)).thermShut then
    s.modBelay l fun b => { b with sw := 1 }
  else s

-- contracts

/-- CONTRACT_ACTIVE cleared: VALID, EPR, OBJ_POS, VOLT and CURR 0 and KIND 3 (R84). -/
def ContractLane.clearContract (c : ContractLane) : ContractLane :=
  { c with valid := false, epr := false, kind := 3, objPos := 0, volt := 0, curr := 0, rdo := 0, change := none, fall := none, step5 := false,
           holdT := none, capsDue := false, standbyWait := false }

/-- An arm is pending or armed (R98). -/
def armInForce (x : Lane) : Bool := x.con.armState = 1 || x.con.armState = 2

/-- A pending or armed Twin switch is voided (R100, R101, R155); a change of ARM_STATE posts the contract source (R268). -/
def State.voidArm (s : State) (l : LaneId) (cause : BitVec 2) : State :=
  if armInForce (s.lane l) then
    (s.modCon l fun c =>
      { c with armState := 4, voidCause := cause, voidCnt := if c.voidCnt = 63 then 63 else c.voidCnt + 1, armCmd := none,
               runStep := false }).postLane l 3
  else s

/-- The Urkai mode of the lane ends: arm voided, TWIN_ON, TM_LOCK and ALTENn low, hold agreement lapsed (R92, R93, R97, R101, R118, R121). A switch to STANDBY that has been made keeps its step 2 (R103), which the end of the contract drops. -/
def State.endUrkai (s : State) (l : LaneId) : State :=
  ((s.voidArm l 2).modCon l fun c =>
    { c with twinOn := false, tmLock := false, tmPhase := .idle, tmFails := 0, urkai := false, modeVdo := none, rowLink := false, armCmd := none,
             fallDue := false, twinOwed := [] }).modSwap l fun w => { w with frsArm := false, holdAgreed := false }

/-- The load of a section comes on or goes off at `time` (R241): APPLIED follows ON_LAT or OFF_LAT later, and a change that would follow after this one never shows. -/
def State.loadChanges (s : State) (l : LaneId) (time : Nat) (on : Bool) : State :=
  let c := (s.lane l).cfg
  let due := time + 100000 * (if on then fld c.sectLat 15 0 else fld c.sectLat 31 16)
  s.modSect l fun x => { x with loads := (x.loads.filter fun e => e.1 < due) ++ [(due, on)] }

/-- The load of a Twin lane goes off at the event itself, also where it is still coming on (R241). -/
def State.loadOff (s : State) (l : LaneId) : State :=
  if (s.lane l).con.twinOn && ((s.lane l).sect.applied || (s.lane l).sect.loads ≠ []) then s.loadChanges l s.dev.dtime false else s

/-- ARM_MISS (R242, R268). -/
def State.armMissed (s : State) (l : LaneId) : State :=
  if (s.lane l).sect.armMiss then s else (s.modSect l fun y => { y with armMiss := true }).postLane l 9

/-- The partner's Mode VDO, which a lane has while the partner is in the Urkai mode (R90, R239). -/
def ContractLane.vdo (c : ContractLane) : Option Word := if c.urkai then c.modeVdo else none

/-- Whether the partner is in the Urkai mode with PACK = 1 (R90). -/
def isPack (x : Lane) : Bool := match x.con.vdo with | some w => bitOf w 3 | none => false

-- fault windows

/-- The lane's fault classes (R336, R338). -/
inductive FaultClass where
  | power | vconn | proto
deriving DecidableEq, Repr

/-- The window of a class in ns, and its threshold (R336). -/
def faultLimits (c : LaneCfg) : FaultClass → Nat × Nat
  | .power => (fld c.fwWindow0 15 0 * 1000000, fld c.fwThresh 3 0)
  | .vconn => (fld c.fwWindow0 31 16 * 1000000, fld c.fwThresh 7 4)
  | .proto => (fld c.fwWindow1 15 0 * 1000000, fld c.fwThresh 11 8)

/-- The event times of a class with one more at `now` (R337). -/
def FwLane.push (f : FwLane) (k : FaultClass) (now : Nat) : FwLane :=
  match k with
  | .power => { f with power := pushEvent now f.power }
  | .vconn => { f with vconn := pushEvent now f.vconn }
  | .proto => { f with proto := pushEvent now f.proto }

/-- The event times of a class. -/
def FwLane.events (f : FwLane) : FaultClass → List Nat
  | .power => f.power
  | .vconn => f.vconn
  | .proto => f.proto

/-- DATA0 of record 0x0301 (R358). -/
def faultCode : FaultClass → Nat
  | .power => 0
  | .vconn => 1
  | .proto => 2

/-- Counts an event of a class; the answer is whether it is lasting, and a lasting classification writes record 0x0301 with LASTING (R337, R338, R356). -/
def State.countFault (s : State) (l : LaneId) (k : FaultClass) : Bool × State :=
  let s1 := s.modFw l fun f => f.push k s.dev.dtime
  let x := s1.lane l
  let lim := faultLimits x.cfg k
  let last := lastingNow s.dev.dtime lim.1 lim.2 ((s.lane l).fw.events k)
  if last then
    let s2 := s1.modFw l fun f => match k with | .vconn => { f with vconnLast := true } | .proto => { f with protoLast := true } | .power => f
    (true, s2.logFlags 0x30 0x0301 .lane l.val (BitVec.ofNat 32 (faultCode k)) (fwCount s.dev.dtime (s2.lane l)) 0)
  else (false, s1)

-- messages

/-- A message of the transmit queue ends with a result (R60, R61). -/
def State.endMessage (s : State) (l : LaneId) (tag : BitVec 4) (result : BitVec 3) (retries : Nat) : State :=
  (s.modPd l fun p => { p with txDone := true, lastTag := tag, lastResult := result, lastRetries := BitVec.ofNat 2 retries }).postLane l 2

/-- Retransmissions of the frame in flight, when it is the head message's (R61). -/
def headRetries (p : PdLane) : Nat :=
  match p.flight with
  | some f => if f.hw.isNone then f.tries - 1 else 0
  | none => 0

/-- Every queued message ends Aborted, oldest first, and hardware messages are dropped (R60, R71). -/
def State.abortQueue (s : State) (l : LaneId) : State :=
  let p := (s.lane l).pd
  let r := headRetries p
  let s1 := match p.queue with
    | [] => s
    | a :: rest => s.forEach (a :: rest) fun st m => st.endMessage l m.tag 4 (if m.tag = a.tag then r else 0)
  s1.modPd l fun p => { p with queue := [], hwq := [], flight := none, gateOpen := false, txChunk := none, txChunkWait := false }

/-- The receive FIFO and any reassembly are flushed (R71, R77). A reassembly that ends so sets no EXT_ABORT (R56 does not say; DESIGN CHOICE, log 108). -/
def State.flushRx (s : State) (l : LaneId) : State :=
  s.modPd l fun p => { p with fifo := [], unanswered := [], reasm := none }

/-- MessageID state of every SOP type cleared (R50). -/
def PdLane.clearIds (p : PdLane) : PdLane := { p with txId := Vector.replicate 3 0, rxId := Vector.replicate 3 none }

-- the end of an attach

/-- What ends with an attach: messages, MessageIDs, Urkai mode, contract, roles that an attach gave, VCONN, cable fields, path and stage, and the power counted for it (R35, R40, R41, R50, R60, R84, R97, R101, R108, R111, R118, R207). FRS_CAP keeps the last partner's value until a core writes it or the next Sink_Capabilities come, since R108 and R118 name no clear (DESIGN CHOICE, log 115). -/
def State.leaveAttached (s : State) (l : LaneId) : State :=
  let closed := (s.lane l).belay.sw ≠ 0
  let s1 := ((s.loadOff l).endUrkai l).abortQueue l
  let s2 := (s1.flushRx l).modPd l fun p =>
    { p.clearIds with hrPhase := .idle, hrThen := .normal, bist := .off, lastCaps := none, lastRequest := none, answeredCaps := none, arAsked := false,
                      acceptPending := false, reqAccept := false, inChange := false }
  let s3 := s2.modCon l fun c =>
    { c.clearContract with eprMode := false, kaKind := 0, eprEntry := 0, seq := .idle, seqTries := 0, seqRun := false, seqWait := false,
                           offer := [], rxCaps := none, authState := 0, frsAgain := false, ilimOwed := false }
  let s4 := (s3.openPath l).stopStage l
  let s5 := s4.modSwap l fun w =>
    { w with state := 0, holdOn := false, amsHold := false, vconnRole := false, presentsRp := false, ownPending := false, psSent := false,
             rpHigh := false, frsSignal := false, swapAccept := false, prAccept := false, ownVcs := false, vcsTried := false,
             packSeen := false, prDropped := false, stopOwed := false }
  let s6 := s5.modCc l fun c =>
    { c with polarity := false, raSeen := false, vconnOn := false, partnerRp := 0, cableValid := false, cableImax := 0, cableVmax := 0,
             cableEpr := false, debPin := none, held := false, attachVconn := false, vconnRetry := false, discRun := false, discTries := 0, discRepeat := false,
             discEpr := false }
  let s7 := s6.modFw l fun f => if f.vconnLast then { f with vconnLast := false, vconn := [] } else f
  let s8 := s7.modBudget l fun b => { b with counted := 0 }
  s8.modBelay l fun b => { b with closeRetry := false, leftAt := if closed then some s.dev.dtime else b.leftAt }

/-- The state that a lane not attached takes: the unattached state that MODE gives, Watch in WATCH, Cut where a cut is not yet cleared, or Disabled where the lane may not attach (R28, R29, R39, R43–R45, R157, R338). -/
def unattachedState (s : State) (l : LaneId) : CcState :=
  let x := s.lane l
  if s.dev.state = .watch then (if x.enabled && !s.fusedOff l then .watch else .disabled)
  else if !liveBit s l || s.dev.trans ≠ .none || x.belay.latched || x.fw.protoLast then .disabled
  else if x.cc.cut && x.cfg.harness then .cutState
  else match x.cfg.mode with
  | 1 => .unattachedSrc
  | 2 => .unattachedSnk
  | 3 => .unattachedSrc
  | 4 => .unattachedSrc
  | 5 => .unattachedSrc
  | 6 => .unattachedSnk
  | _ => .disabled

/-- Enters the unattached state (R40, R72). -/
def State.enterUnattached (s : State) (l : LaneId) : State :=
  let st := unattachedState s l
  s.modCc l fun c => { c with st := st, debPin := none, held := false }

/-- Every lane is in safe state with its CC pins open and no hard reset in progress (R15, R16). -/
def lanesDown (s : State) : Bool := allLanes.all fun l => safe (s.lane l) && (s.lane l).cc.st = .disabled && !(s.lane l).pd.hrBusy

/-- A mailbox command ends with a result (R388). -/
def State.mbxEnd (s : State) (r : Byte) : State :=
  (s.modMbx fun m => { m with busy := false, done := true, result := r }).irq 2

/-- RUN is cleared: hardware lets go of the counters that it claimed, and pending slot times are dropped (R262, R263). -/
def State.releaseCounters (s : State) : State :=
  { s with counters := s.counters.map fun (c : Counter) => { c with held := false, slots := [] } }

/-- STATE becomes READY (R16, R385): RUN and WATCH stand at 0, no lane is live, and only a device in RUN or HOLDOVER is hitch (R363). A RUN or WATCH that was stored while RUN's clearing was still in progress is dropped with it (DESIGN CHOICE, log 40). -/
def State.enterReady (s : State) : State :=
  let s1 : State := { s with lanes := s.lanes.map fun (x : Lane) => { x with enabled := false } }
  ((s1.releaseCounters.modDev fun d => { d with state := .ready, trans := .none, run := false, watch := false }).modTether fun t =>
    { t with hitch := false }).irq 0

/-- Entry to HALTED (R352): the cores are held in reset, a running mailbox command ends with 0x09, and record 0x0703 names the cause. -/
def State.enterHalted (s : State) (cause : Nat) : State :=
  let s1 : State := { s with cores := s.cores.map fun (c : CoreState) => { c with run := .inReset } }
  let s2 := (s1.modDev fun d => { d with state := .halted, trans := .none, takeover := none, watch := false }).modTether fun t => { t with hitch := false }
  let s3 := (if s2.mbx.busy then s2.mbxEnd 0x09 else s2).modImage fun x => { x with activating := false, actCore := 0 }
  (s3.irq 9).log 0x0703 .device 0 (BitVec.ofNat 32 cause) 0 0

/-- A transition to READY or HALTED completes once every lane is safe with its pins open (R15, R16); in HOLDOVER the one to READY waits (R22). -/
def State.settle (s : State) : State :=
  match s.dev.trans with
  | .stopping => if lanesDown s && s.dev.takeover.isNone then s.enterReady else s
  | .halting cause => if lanesDown s then s.enterHalted cause else s
  | _ => s

/-- Both CC pins open and CC_STATE Disabled (R43, R157, R338). -/
def State.disableLane (s : State) (l : LaneId) : State :=
  (s.leaveAttached l).modCc l fun c => { c with st := .disabled }

/-- A lane that a hard reset takes out of service ends Disabled (R43, R71, R351), unless it is live again by then: it enters the unattached state where PORT_EN was written 1 meanwhile (R43) and where its group has been taken (R351). -/
def State.endService (s : State) (l : LaneId) : State :=
  let s1 := s.disableLane l
  (if (s.group (groupOf l)).orphan then s1 else s1.enterUnattached l).settle

/-- A detach (R40). -/
def State.detachLane (s : State) (l : LaneId) : State :=
  ((s.leaveAttached l).modCc l fun c => { c with detachEvt := true, st := .unattachedWait }).postLane l 0

/-- A cut (R38). -/
def State.cutLane (s : State) (l : LaneId) : State :=
  let s1 := (s.leaveAttached l).modCc l fun c => { c with cut := true, st := .cutState }
  let s2 := (s1.postLane l 0).log 0x0102 .lane l.val (ccStatus (s1.lane l).cc) 0 0
  s2.irq 4

/-- A swap in progress ends with an outcome (R108). -/
def State.endSwap (s : State) (l : LaneId) (outcome : BitVec 4) : State :=
  (s.modSwap l fun w => { w with state := 0, last := outcome, evt := true }).postLane l 6

/-- PACK_HOLD of a lane whose partner has PACK = 1, in the Urkai mode or after leaving it (R126). -/
def State.packHold (s : State) (l : LaneId) : State :=
  if (s.lane l).swap.packSeen then s.modSwap l fun w => { w with packHold := true } else s

/-- Error recovery: record 0x0104, a PROTOCOL event, the attach ended with both pins open (R72, R108, R126, R338). -/
def State.errorRecovery (s : State) (l : LaneId) : State :=
  let s1 := s.log 0x0104 .lane l.val (txStatus (s.lane l).pd) 0 0
  let s2 := if (s.lane l).swap.state ≠ 0 then s1.endSwap l 8 else s1
  let s3 := s2.packHold l
  let (last, s4) := s3.countFault l .proto
  let s5 := s4.detachLane l
  if last then (s5.modCc l fun c => { c with st := .disabled }).irq 6 else s5

-- hard reset requests

/-- A hard reset request is taken: the lane ends the frame it is sending and signals (R69). -/
def PdLane.signal (p : PdLane) (next : HrThen) : PdLane :=
  { p with hrPhase := .signalling, hrThen := next, flight := p.flight.map fun f => { f with ended := true } }

/-- Lane hardware asks for Hard Reset: it joins one in progress, and a third without a contract is error recovery instead (R69, R72). -/
def State.hardReset (s : State) (l : LaneId) : State :=
  let x := s.lane l
  if !x.cc.attached || x.pd.hrBusy then s
  else if 2 ≤ x.pd.hrCount.toNat then s.errorRecovery l
  else s.modPd l fun p => p.signal .normal

/-- Hard Reset as part of clearing RUN or PORT_EN, watch entry, an orphaned group or an alarm: the lane ends Disabled after the discharge, or at once after the error recovery that replaces a third hard reset (R43, R71, R72, R351, R352). -/
def State.hardResetOff (s : State) (l : LaneId) : State :=
  let x := s.lane l
  if !x.cc.attached then s
  else if x.pd.hrBusy then s.modPd l fun p => { p with hrThen := .disable }
  else if 2 ≤ x.pd.hrCount.toNat then (s.errorRecovery l).modCc l fun c => { c with st := .disabled }
  else s.modPd l fun p => p.signal .disable

/-- A lane leaves service: with an explicit contract it is hard reset and discharged, without one its pins open at once (R16, R18, R43). -/
def State.leaveService (s : State) (l : LaneId) : State :=
  let x := s.lane l
  if x.cc.attached && x.con.valid then s.hardResetOff l
  else if x.cc.st = .disabled then s
  else s.disableLane l

-- trips

/-- Steps 5 and 6 of a trip: TRIP_EVT, record 0x0201, the fault window, LATCHED on a lasting class, and Hard Reset, which joins one in progress (R155, R157, R338). A latched lane opens its CC pins when the signalling completes: at once where it already has, or where none is signalled on a lane that no detach or cut has in hand. -/
def State.tripRecord (s : State) (l : LaneId) : State :=
  let was := (s.lane l).cc
  let s1 := (s.modBelay l fun b => { b with tripEvt := true }).postLane l 4
  let x := s1.lane l
  let s2 := s1.log 0x0201 .lane l.val (belayStatus (s1.group (groupOf l)).dieTemp x) (contractActive x.con) 0
  let (last, s3) := s2.countFault l .power
  let s4 :=
    if last && !x.belay.latched then
      let s5 := (s3.modBelay l fun b => { b with latched := true }).postLane l 4
      let y := s5.lane l
      (s5.logFlags 0x30 0x0202 .lane l.val (belayStatus (s5.group (groupOf l)).dieTemp y) 0 0).irq 5
    else s3
  let s6 := s4.hardReset l
  let y := s6.lane l
  let done := if y.pd.hrBusy then y.pd.hrPhase ≠ .signalling else was.attached || (was.st ≠ .cutState && was.st ≠ .unattachedWait)
  if y.belay.latched && done then s6.disableLane l else s6

/-- The place of a CAUSE in the order of R156. The order does not name CAUSE 9 and 10; they come last (DESIGN CHOICE, log 108). -/
def tripRank (c : BitVec 4) : Nat :=
  match c.toNat with | 8 => 0 | 7 => 1 | 1 => 2 | 2 => 3 | 3 => 4 | 5 => 5 | 6 => 6 | 4 => 7 | _ => 8

/-- The duration of an AON sample in ns (R153, R156). -/
def aonSample : Nat := 125

/-- CAUSE and the crossings of a trip (R155 step 1, R156): while the switches stand open by a trip, only a cause of the same AON sample that comes first in the order replaces it. -/
def BelayLane.record (y : BelayLane) (now : Nat) (cause : BitVec 4) (a b : Bool) : BelayLane :=
  if y.tripOpen then
    if now < y.tripAt + aonSample && tripRank cause < tripRank y.cause then { y with cause := cause, tripA := y.tripA || a, tripB := y.tripB || b }
    else y
  else { y with cause := cause, tripA := a, tripB := b, tripOpen := true, tripAt := now }

/-- Steps 1–4 of a trip: switches off, CAUSE and crossings captured, stage stopped, discharges (R155). -/
def State.tripPath (s : State) (l : LaneId) (cause : BitVec 4) (a b : Bool) : State :=
  let src := (s.lane l).swap.powerRole || (s.lane l).swap.presentsRp
  (((s.loadOff l).openPath l).stopStage l).modBelay l fun y =>
    { y.record s.dev.dtime cause a b with dischIn := true, dischOut := y.dischOut || src, leftAt := none }

/-- A belay trip (R155). -/
def State.trip (s : State) (l : LaneId) (cause : BitVec 4) (a b : Bool) : State :=
  ((s.tripPath l cause a b).voidArm l 2).tripRecord l

/-- A comparator of the lane crosses (R142, R148, R151, R156, R167): a trip while the path is not open, another cause of the same trip within one AON sample, and a trip of its own in the millisecond of a detach or cut that opened the path. -/
def State.crossing (s : State) (l : LaneId) (cause : BitVec 4) (a b : Bool) : State :=
  let y := (s.lane l).belay
  if y.sw ≠ 0 then s.trip l cause a b
  else if y.tripOpen then s.modBelay l fun y => y.record s.dev.dtime cause a b
  else if y.leftAt.any fun t => decide (s.dev.dtime < t + 1000000) then s.trip l cause a b
  else s

/-- Changes FAIL_A and FAIL_B; a change of DEGRADED posts the belay source (R160, R268). -/
def State.setFails (s : State) (l : LaneId) (a b : Bool) : State :=
  let o := (s.lane l).belay
  let s1 := s.modBelay l fun y => { y with failA := a, failB := b }
  if (o.failA || o.failB) = (a || b) then s1 else s1.postLane l 4

-- attach

/-- The conditions of R34 under which the lane applies VCONN, but for the attach as source; an isolated lane applies none (R10, R161, R446). -/
def vconnAllowed (s : State) (l : LaneId) : Bool :=
  let x := s.lane l
  bitOf x.cfg.ccCtrl 6 && x.cc.raSeen && s.dev.vconnSupOk && !x.cfg.harness && dieUp s l

/-- VCONN is applied where R34 allows it; its first application after attach gives the VCONN source role (R34, R108). -/
def State.applyVconn (s : State) (l : LaneId) : State :=
  if vconnAllowed s l && (s.lane l).cc.st = .attachedSrc then
    (s.modCc l fun c => { c with vconnOn := true, attachVconn := true }).modSwap l fun w => { w with vconnRole := true }
  else s

/-- The pin that carries CC in a harness mode, or the debounced pin (R33, R37). -/
def ccPinIsCc2 (x : Lane) (pin : CcPin) : Bool := if x.cfg.harness then bitOf x.cfg.ccCtrl 3 else pin = .cc2

/-- The cable fields that HARN_CABLE gives (R36, R41). -/
def harnessCable (c : LaneCfg) (cc : CcLane) : CcLane :=
  match fld c.ccCtrl 11 10 with
  | 0 => { cc with cableValid := true, cableImax := 1, cableVmax := 1, cableEpr := false }
  | 1 => { cc with cableValid := true, cableImax := 2, cableVmax := 1, cableEpr := false }
  | _ => { cc with cableValid := true, cableImax := 2, cableVmax := 3, cableEpr := true }

/-- The limits before a lane's first contract in its present role (R143, R189): as source ILIM at 1.10 times the current that RP_LEVEL advertises; as sink ILIM at 1.10 times REV_ILIM, and ILIM_REV at the lesser of REV_ILIM and what PARTNER_RP allows, which a hold has set already (R119). A core that does not serve the lane writes them when it resumes. -/
def State.baseLimits (s : State) (l : LaneId) : State :=
  let x := s.lane l
  let s1 := s.modCon l fun c => { c with ilimOwed := !serves s l }
  if !serves s l then s1
  else if x.swap.powerRole then s1.writeIlim l (ilimFor x.cfg.rpCurrent)
  else
    let s2 := s1.writeIlim l (ilimFor (revIlim x.cfg))
    if x.swap.holdOn then s2
    else s2.setRev l (Min.min (revIlim x.cfg) (match x.cc.partnerRp.toNat with | 1 => 90 | 2 => 150 | 3 => 300 | _ => 0))

/-- Entry to an attached state: orientation, roles, ATTACH_EVT, cleared counts and tally, VCONN and the close request (R30, R32, R33, R72, R108, R129, R143, R189, R337). -/
def State.attachAs (s : State) (l : LaneId) (src : Bool) (pin : CcPin) (ra : Bool) (rp : BitVec 2) : State :=
  let x := s.lane l
  let cfg := x.cfg
  let s1 := s.modCc l fun c =>
    let c1 := { c with st := if src then .attachedSrc else .attachedSnk, polarity := ccPinIsCc2 x pin, raSeen := ra && !cfg.harness,
                       partnerRp := if src then 0 else rp, attachEvt := true, debPin := none, held := false, attachSrc := src, attachVconn := false }
    if cfg.harness then harnessCable cfg c1 else c1
  let s2 := s1.modSwap l fun w => { w with powerRole := src, dataRole := src, presentsRp := src, holdOn := false, state := 0 }
  let s3 := s2.modPd l fun p => { p.clearIds with hrCount := 0 }
  let s4 := s3.modFw l fun f => { f with power := [], vconn := [], proto := [] }
  let s5 := s4.modTally l fun t =>
    { t with q := 0, qFrac := 0, thru := 0, thruFrac := 0, age := 0, ageStart := s.dev.dtime, lastAnchor := 0, sat := false, cv := false, cvDone := false,
             emptyDone := false }
  let s6 := (s5.modCon l fun c => { c with authFails := 0 }).postLane l 0
  let s7 := if src then s6.applyVconn l else s6
  (s7.baseLimits l).askClose l (if src then .asSource else .asSink)

end Sys2Proof.Machine
end

