-- ==== Sys2Proof/Machine/Loop.lean ====
section
/-! DEFINITION. Loop engines (file 07): carriers and PWM (R168–R173), the control loops at a carrier valley (R174–R178, R181, R188), slew-bound control (R190–R192), feed-forward (R193), clamps (R183, R185, R186), and the stores of CONV_VSET, CONV_ISET and PHASE_OFFSET (R173, R182, R185, R199). -/

namespace Sys2Proof.Machine

/-- A signed 64-bit value saturated (R178). -/
def sat64 (v : Int) : Int := Max.max (-(2 ^ 63)) (Min.min (2 ^ 63 - 1) v)

/-- A value clamped between two bounds. -/
def clampInt (lo hi v : Int) : Int := Max.max lo (Min.min hi v)

/-- A Q2.30 coefficient times a stored output in Q30. -/
def mulU (c : Word) (u : Int) : Int := c.toInt * u / 2 ^ 30

/-- A Q2.30 coefficient times an error with 8 fraction bits, in Q30. -/
def mulE (c : Word) (e : Int) : Int := c.toInt * e / 2 ^ 8

/-- Element n of a list of stored states, 0 beyond its end. -/
def nthInt (xs : List Int) (n : Nat) : Int := (xs[n]?).getD 0

-- samples

/-- An inductor current in 10 mA / 256 from its 12-bit code: 100 mV / RSH / 2,048 a step, with the 8 fraction bits of the loops (R175, R178, R187). -/
def ilFine (cfg : LaneCfg) (code : Int) : Int := clampInt (-2048) 2047 code * 12500 / fld cfg.convStage 15 9

/-- The same in whole 10 mA (R197). -/
def ilOf (cfg : LaneCfg) (code : Int) : Int := ilFine cfg code / 256

/-- The mean VBIN of the period just ended in 5 mV / 256 (R174). -/
def meanVbin (m : StageSample) : Nat := 256 * m.vbin.sum / m.vbin.length

/-- The mean VBIN in 5 mV units, the VOUT of R169. -/
def voutOf (m : StageSample) : Nat := meanVbin m / 256

/-- IL_MAX in 10 mA units (R175). -/
def ilMax (cfg : LaneCfg) : Int := fld cfg.convStage 31 24 * 10

-- loops

/-- The voltage loop's step: the new stored states, the clamp that holds, and the reference y in Q30 of 10 mA (R177, R178, R183, R185, R186). -/
def voltageLoop (cfg : LaneCfg) (c : ConvLane) (lo hi : Int) (vbin : Nat) : ConvLane × Int :=
  let sh := fld cfg.convLoop 19 16
  let e : Int := (c.vs.toNat : Int) * 256 - vbin
  let u := sat64 (mulU cfg.cv[4] (nthInt c.vu 0) + mulU cfg.cv[5] (nthInt c.vu 1) + mulU cfg.cv[6] (nthInt c.vu 2) + mulE cfg.cv[0] e
    + mulE cfg.cv[1] (nthInt c.ve 0) + mulE cfg.cv[2] (nthInt c.ve 1) + mulE cfg.cv[3] (nthInt c.ve 2))
  let y := clampInt (lo * 2 ^ 30) (hi * 2 ^ 30) (u * 2 ^ sh)
  ({ c with vu := [y / 2 ^ sh, nthInt c.vu 0, nthInt c.vu 1], ve := [e, nthInt c.ve 0, nthInt c.ve 1],
            fwdClamp := decide (hi * 2 ^ 30 < u * 2 ^ sh), floorClamp := decide (u * 2 ^ sh < lo * 2 ^ 30) }, y)

/-- The smallest share of a period that a switching leg may give a switch, in Q30: 20 ns, which is 16 steps, and the DEADTIME that is taken out of its on time (R171, R172), rounded up. -/
def dutyMin (cfg : LaneCfg) : Int := ceilDiv ((16 + fld cfg.convCtrl 15 8) * 2 ^ 30) (2 * Max.max 1 (fld cfg.convCtrl 27 16))

/-- The largest D2 in boost: 0.9, within the range of R171 (R176). -/
def boostMax (cfg : LaneCfg) : Int := Min.min (2 ^ 30 - dutyMin cfg) (2 ^ 30 * 9 / 10)

/-- The range of V_L that the clamped duties can apply, in Q30 of 10 mV (R169, R171, R176). VIN and VOUT are in 5 mV units. -/
def vlRange (cfg : LaneCfg) (ratio : BitVec 2) (vin vout : Nat) : Int × Int :=
  let one : Int := 2 ^ 30
  let dmin := dutyMin cfg
  let i : Int := vin
  let o : Int := vout
  match ratio.toNat with
  | 0 => ((dmin * i - o * one) / 2, ((one - dmin) * i - o * one) / 2)
  | 1 => ((dmin * i - o * one * 3 / 4) / 2, ((one - dmin) * i - o * one * 3 / 4) / 2)
  | _ => ((i * one - (one - dmin) * o) / 2, (i * one - (one - boostMax cfg) * o) / 2)

/-- The duties D1 and D2 in Q30 that apply V_L, in Q30 of 10 mV, in a ratio mode (R169, R176): a static leg has D1 = 1 or D2 = 0, and each other duty is clamped. -/
def duties (cfg : LaneCfg) (ratio : BitVec 2) (vl : Int) (vin vout : Nat) : Int × Int :=
  let one : Int := 2 ^ 30
  let clampD (d : Int) : Int := clampInt (dutyMin cfg) (one - dutyMin cfg) d
  match ratio.toNat with
  | 0 => (clampD ((2 * vl + vout * one) / vin), 0)
  | 1 => (clampD ((2 * vl + vout * one * 3 / 4) / vin), one / 4)
  | _ => (one, clampInt (dutyMin cfg) (boostMax cfg) (one - (vin * one - 2 * vl) / vout))

/-- 1 − D2 of the duties in force, in Q30 (R169, R177). -/
def oneMinusD2 (c : ConvLane) : Int := Max.max (2 ^ 30 / 10) (2 ^ 30 - c.d2)

/-- A port-side reference in Q30 of 10 mA as an inductor-current reference in 10 mA / 256, clamped at ±IL_MAX (R177, R199). -/
def inductorRef (cfg : LaneCfg) (c : ConvLane) (port : Int) : Int :=
  clampInt (-(ilMax cfg) * 256) (ilMax cfg * 256) (port * 256 / oneMinusD2 c)

/-- The current loop's step toward an inductor-current reference (R176, R178): the duties it computes take effect at the next valley (R174). -/
def currentLoop (cfg : LaneCfg) (c : ConvLane) (ref : Int) (m : StageSample) : ConvLane :=
  let sh := fld cfg.convLoop 23 20
  let e := ref - ilFine cfg m.code
  let r := vlRange cfg c.ratioNew m.vin (voutOf m)
  let u := sat64 (mulU cfg.ci[2] c.iu + mulE cfg.ci[0] e + mulE cfg.ci[1] c.ie)
  let y := clampInt r.1 r.2 (u * 2 ^ sh)
  let d := duties cfg c.ratioNew y m.vin (voutOf m)
  { c with iu := y / 2 ^ sh, ie := e, iRef := ref, d1Next := d.1, d2Next := d.2 }

/-- I_REV in 10 mA units for VIN and VOUT in 5 mV units (R188), within ILIM_REV as a reverse start has ramped it (R189). -/
def iRev (cfg : LaneCfg) (c : ConvLane) (vin vout : Nat) : Int :=
  let lim : Int := if c.revStart then c.revNow else c.revEff.toNat
  let a : Int := (fld cfg.convRev 13 0 : Int) - vin
  let f := fld cfg.convRev 29 16
  let b : Int := (vout : Int) - f
  let m := Min.min 200 (if f = 0 then a else Min.min a b)
  clampInt 0 lim (lim * m / 200)

/-- The ratio mode selected from M = num / den with the thresholds of R181. -/
def ratioNext (modeSel : Nat) (r : BitVec 2) (num den : Nat) : BitVec 2 :=
  match modeSel with
  | 1 => 0
  | 2 => 2
  | 3 => 1
  | _ =>
    match r.toNat with
    | 0 => if 85 * den < 100 * num then 1 else 0
    | 1 => if 100 * num < 80 * den then 0 else if 120 * den < 100 * num then 2 else 1
    | _ => if 100 * num < 115 * den then 1 else 2

/-- A carrier phase moved toward PH by at most 16 steps, the shorter way round (R173). -/
def phaseToward (p q : BitVec 12) : BitVec 12 :=
  let d := (q - p).toNat
  if d ≤ 16 then q
  else if d ≤ 2048 then p + 16
  else if 4080 ≤ d then q
  else p - 16

-- carriers and PWM

/-- The carrier period in fine steps of 156.25 ps: 2 × TOP × 8 (R171, R173). -/
def periodFine (cfg : LaneCfg) : Nat := 16 * Max.max 1 (fld cfg.convCtrl 27 16)

/-- The stack offset S in 1/4096 turn (R173). -/
def stackOffset (s : State) (l : LaneId) : Nat :=
  if bitOf (s.lane l).cfg.convCtrl 7 then
    (match s.tether.pos with | some k => k.val * 128 / s.tether.n.val | none => 0)
  else 0

/-- Fine steps since the last valley that R173 gives for a lane at the present DTIME. -/
def carrierDue (s : State) (l : LaneId) : Nat :=
  let p := periodFine (s.lane l).cfg
  (s.dev.dtime * 32 / 5 + p - p * (((s.lane l).conv.phase.toNat + stackOffset s l) % 4096) / 4096) % p

/-- Fine steps since the last valley of a lane's carrier: those of R173 and what the carrier stands ahead of them. -/
def carrierPos (s : State) (l : LaneId) : Nat :=
  (((carrierDue s l : Int) + (s.lane l).conv.slip) % periodFine (s.lane l).cfg).toNat

/-- The correction in a period of a carrier that stands `slip` fine steps ahead of the time of R173: at most four fine steps. -/
def carrierCorr (slip : Int) : Int := clampInt (-4) 4 (-slip)

/-- A difference of positions within a period of p, taken the shorter way round. -/
def halfTurn (p : Nat) (d : Int) : Int := if 2 * (d % p) ≤ p then d % p else d % p - p

/-- A change of DTIME's value, of the position or of N leaves every running carrier where it stands, and its corrections then bring it to the new time (R173). -/
def State.keepCarriers (s s1 : State) : State :=
  if s.dev.dtime = s1.dev.dtime && s.tether.pos = s1.tether.pos && s.tether.n = s1.tether.n then s1
  else s1.forEach allLanes fun st l =>
    if (s.lane l).conv.on then
      st.modConv l fun c => { c with slip := halfTurn (periodFine (s.lane l).cfg) (c.slip + carrierDue s l - carrierDue s1 l) }
    else st

/-- Where the rising carrier crosses TOP × (1 − D), to the nearest fine step (R171). -/
def edgeFine (cfg : LaneCfg) (d : Int) : Nat :=
  let h : Int := periodFine cfg / 2
  ((h * (2 ^ 30 - d) + 2 ^ 29) / 2 ^ 30).toNat

/-- The levels of the two switches of a leg, the one with duty D first, `pos` fine steps after the valley (R169, R171, R172). A leg at D = 0 or D = 1 is held static with no dead time; otherwise the first turns off where the falling count crosses the compare value, the second where the rising count does, and each turn-on waits DEADTIME (DEDUCED, log 76). -/
def legLevels (cfg : LaneCfg) (d : Int) (pos : Nat) : Bool × Bool :=
  if d ≤ 0 then (false, true)
  else if 2 ^ 30 ≤ d then (true, false)
  else
    let p := periodFine cfg
    let x := edgeFine cfg d
    let dt := 8 * fld cfg.convCtrl 15 8
    let q := if pos < x then pos + p else pos
    (decide (x + dt ≤ pos) && decide (pos < p - x), decide (p - x + dt ≤ q) && decide (q < p + x))

/-- The static switch state of slew-bound control (R191): whether A is on, and whether D is on. -/
def slewState (ratio : BitVec 2) (up : Bool) : Bool × Bool :=
  match ratio.toNat, up with
  | 0, true => (true, false)
  | 0, false => (false, false)
  | 1, true => (true, true)
  | 1, false => (false, false)
  | _, true => (true, true)
  | _, false => (true, false)

/-- Which switches the engine wants on: A, B, C, D (R11, R168–R171, R191, R195). -/
def legsWanted (s : State) (l : LaneId) : Bool × Bool × Bool × Bool :=
  let x := s.lane l
  let c := x.conv
  if !c.on || c.first then (false, false, false, false)
  else if c.slew && !c.slewHold then
    let k := slewState c.ratio (c.slewUp != c.slewBack)
    (k.1, !k.1, !k.2, k.2)
  else
    let a := legLevels x.cfg c.d1 (carrierPos s l)
    let d := legLevels x.cfg c.d2 (carrierPos s l)
    (a.1, a.2, d.2, d.1)

/-- A leg that changed over at `at_` still waits its DEADTIME (R172). -/
def legDead (cfg : LaneCfg) (now : Nat) (at_ : Option Nat) : Bool := at_.any fun t => decide (4 * (now - t) < 5 * fld cfg.convCtrl 15 8)

/-- Levels of PWMnA, PWMnB, PWMnC and PWMnD: those wanted, with DEADTIME behind each changeover of a leg outside its carrier too (R11, R168–R172, R191, R195). -/
def pwmLevels (s : State) (l : LaneId) : Bool × Bool × Bool × Bool :=
  let x := s.lane l
  let w := legsWanted s l
  let i := legDead x.cfg s.dev.dtime x.conv.inAt
  let o := legDead x.cfg s.dev.dtime x.conv.outAt
  (w.1 && !i, w.2.1 && !i, w.2.2.1 && !o, w.2.2.2 && !o)

/-- A step of the engine that changes what a leg's switches do starts that leg's DEADTIME (R172, R191). -/
def State.changeLegs (s s1 : State) (l : LaneId) : State :=
  let a := legsWanted s l
  let b := legsWanted s1 l
  s1.modConv l fun c =>
    { c with inAt := if a.1 = b.1 && a.2.1 = b.2.1 then c.inAt else some s.dev.dtime,
             outAt := if a.2.2 = b.2.2 then c.outAt else some s.dev.dtime }

-- the valley

/-- A stage begins its second period in a ratio mode, with the duties that hold the inductor current, V_L = 0, until the first computed ones take effect (R169, R176; the spec gives none; DESIGN CHOICE, log 108). -/
def ConvLane.openLegs (cfg : LaneCfg) (c : ConvLane) (ratio : BitVec 2) (m : StageSample) : ConvLane :=
  let d := duties cfg ratio 0 m.vin (voutOf m)
  { c with first := false, ratio := ratio, ratioNew := ratio, d1 := d.1, d2 := d.2 }

/-- What a stage takes from its first period (R181, R184, R186): a soft start VS, whether it then falls to VSET, and the loop state of the port-side current, and either direction the ratio mode. -/
def ConvLane.begin (cfg : LaneCfg) (c : ConvLane) (m : StageSample) : ConvLane :=
  let sel := fld cfg.convCtrl 1 0
  if c.rev || c.revStart then c.openLegs cfg (ratioStart sel (voutOf m) m.vin) m
  else
    let v := Min.min (voutOf m) (fld cfg.vconvMax 13 0)
    let u := loopState m.iport (fld cfg.convLoop 19 16)
    { c.openLegs cfg (ratioStart sel v m.vin) m with vs := BitVec.ofNat 14 v, down := decide (c.vsetEff.toNat < v), vu := [u, u, u] }

/-- A feed-forward term so far along its ramp, in 10 mA (R193). -/
def ffNow (c : ConvLane) : Int := if c.ffLen = 0 then c.ffTerm else c.ffTerm * c.ffTime / c.ffLen

/-- The loops' part of a valley with the measured values of its period (R174, R176–R178, R181, R188). In slew-bound control the loops do not update and the ratio is frozen (R190), but for the hold at IL_MAX (R191). -/
def valleyLoops (x : Lane) (c : ConvLane) (m : StageSample) : ConvLane :=
  let cfg := x.cfg
  if c.slew then
    (if c.slewHold then currentLoop cfg c ((if c.slewUp then ilMax cfg else -(ilMax cfg)) * 256) m else c)
  else
    let c0 := if c.first then c.begin cfg m else c
    let backward := c0.rev || c0.revStart
    let c1 := { c0 with ratioNew := ratioNext (fld cfg.convCtrl 1 0) c0.ratio (if backward then voutOf m else c0.vs.toNat) m.vin }
    if backward then currentLoop cfg c1 (inductorRef cfg c1 (-(iRev cfg c1 m.vin (voutOf m)) * 2 ^ 30)) m
    else
      let r := voltageLoop cfg c1 (if c1.down then -60 else -10) (fwdLimit x) (meanVbin m)
      currentLoop cfg r.1 (inductorRef cfg r.1 (r.2 + ffNow c1 * 2 ^ 30)) m

/-- A carrier valley with the measured values of its period (R171, R173, R174, R181, R197): the ratio mode and the duties computed at the last valley take effect, the carrier and its phase are corrected, the loops compute, and CONV_MEAS is refreshed. -/
def valley (x : Lane) (m : StageSample) : ConvLane :=
  let v := x.conv
  let k := carrierCorr v.slip
  if !v.on then v
  else
    let c := valleyLoops x
      { v with ilAvg := BitVec.ofInt 16 (ilOf x.cfg m.code), phase := phaseToward v.phase ((fld x.cfg.phaseOffset 11 0 : Nat) : BitVec 12),
               corr := k, slip := v.slip + k, ratio := v.ratioNew, d1 := v.d1Next, d2 := v.d2Next } m
    { c with vsShown := c.vs }

/-- A valley of a lane's carrier. -/
def State.valleyOf (s : State) (l : LaneId) (m : StageSample) : State := s.changeLegs (s.modConv l fun _ => valley (s.lane l) m) l

/-- The ratio threshold is crossed, and the stage changes mode at the valley (R181). -/
def execRatioModeChange (l : LaneId) (m : StageSample) (s : State) : Out := .next (s.valleyOf l m)

/-- The port-side reference reaches or leaves a clamp at the valley (R183, R185, R186): the forward limit is CSTATE 3, the floor leaves CSTATE 7. -/
def execCurrentLimit (l : LaneId) (m : StageSample) (s : State) : Out := .next (s.valleyOf l m)

-- slew-bound control

/-- The error that a sample shows for a kind: VS − VBIN in 5 mV, or the inductor-current reference less the current in 10 mA / 256 (R190). -/
def slewError (x : Lane) (kind : SlewKind) (m : SlewSample) : Int :=
  match kind with
  | .voltage => (x.conv.vs.toNat : Int) - m.vbin
  | .current => x.conv.iRef - ilFine x.cfg m.code

/-- The threshold of a kind in the units of its error: SLEW_ENTER_V in 50 mV, SLEW_ENTER_I in 50 mA (R180). -/
def slewThreshold (cfg : LaneCfg) : SlewKind → Nat
  | .voltage => 10 * fld cfg.convLoop 7 0
  | .current => 5 * 256 * fld cfg.convLoop 15 8

/-- Whether a stage enters slew-bound control of a kind on three consecutive samples at a DTIME (R180, R190). -/
def slewMay (x : Lane) (now : Nat) (kind : SlewKind) (m : SlewTriple) : Bool :=
  let v := x.conv
  let th := slewThreshold x.cfg kind
  let beyond (m : SlewSample) : Bool := decide (th < (slewError x kind m).natAbs)
  v.on && !v.slew && decide (v.slewFree ≤ now) && th ≠ 0 && beyond m.a && beyond m.b && beyond m.c &&
    match kind with
    | .voltage => !v.rev && !v.revStart && !v.soft
    | .current => true

/-- Three consecutive samples beyond a threshold: slew-bound control begins toward the sign of the error, and SLEW_CNT advances (R190, R191). -/
def execSlewEnter (l : LaneId) (kind : SlewKind) (m : SlewTriple) (s : State) : Out :=
  let x := s.lane l
  if slewMay x s.dev.dtime kind m then
    .next (s.changeLegs (s.modConv l fun v =>
      { v with slew := true, slewKind := kind, slewCnt := v.slewCnt + 1, slewUp := decide (0 < slewError x kind m.c), slewBack := false, slewHold := false,
               ratioNew := v.ratio, d1Next := v.d1, d2Next := v.d2 }) l)
  else .next s

/-- The inductor voltage of a static state in 5 mV units (R191). -/
def slewVolt (ratio : BitVec 2) (up : Bool) (vin vout : Nat) : Int :=
  match ratio.toNat, up with
  | 0, true => (vin : Int) - vout
  | 0, false => -(vout : Int)
  | 1, true => vin
  | 1, false => -(vout : Int)
  | _, true => vin
  | _, false => (vin : Int) - vout

/-- A value with the sign of a direction. -/
def signed (up : Bool) (v : Int) : Int := if up then v else -v

/-- Whether a remaining current change, in 10 mA / 256, is at most what a state brings in the 150 ns from sample to switch change: s(d) × t_lat (R191). -/
def withinLatency (cfg : LaneCfg) (volt rest : Int) : Bool := decide (rest * (4 * fld cfg.convStage 8 0) ≤ 3 * 256 * volt.natAbs)

/-- What slew-bound control does on a sample (R191). -/
inductive SlewAct where
  | stay | hold | turn | leave
deriving DecidableEq, Repr

/-- The pseudocode of R191 on one sample, in 10 mA / 256. i_tgt stays within the forward limit in force (R201). -/
def slewAct (x : Lane) (m : SlewSample) : SlewAct :=
  let cfg := x.cfg
  let c := x.conv
  let up := c.slewUp
  let il := ilFine cfg m.code
  let ild := m.ipath * 256 * 2 ^ 30 / oneMinusD2 c
  let tgt := Min.min c.iRef ((fwdLimit x : Int) * 256 * 2 ^ 30 / oneMinusD2 c)
  let volt (u : Bool) : Int := slewVolt c.ratio u m.vin m.vbin
  match c.slewKind with
  | .current => if withinLatency cfg (volt up) (signed up (tgt - il)) then .leave else .stay
  | .voltage =>
    if c.slewBack then (if withinLatency cfg (volt !up) (signed up (il - ild)) then .leave else .stay)
    else if 65536 * 50 * ((c.vs.toNat : Int) - m.vbin).natAbs * fld cfg.convStage 23 16 * (volt !up).natAbs ≤ fld cfg.convStage 8 0 * (il - ild).natAbs ^ 2 then .turn
    else if ilMax cfg * 256 ≤ il.natAbs then .hold
    else .stay

/-- leave(): the current loop takes the V_L that holds the present inductor current, which is 0, and the voltage loop the present port-side current; entry is blocked for 4 carrier periods (R190, R192). The duties in force before the interval hold until the next computed ones take effect, since the spec names none (DESIGN CHOICE, log 108). -/
def ConvLane.leaveSlew (cfg : LaneCfg) (now : Nat) (c : ConvLane) (m : SlewSample) : ConvLane :=
  let u := loopState m.ipath (fld cfg.convLoop 19 16)
  { c with slew := false, slewBack := false, slewHold := false, iu := 0, vu := [u, u, u], slewFree := now + 10 * fld cfg.convCtrl 27 16 }

/-- A sample in slew-bound control: the engine drives a state, holds the current at IL_MAX, turns to phase 2, or leaves (R191, R192). -/
def execLeave (l : LaneId) (m : SlewSample) (s : State) : Out :=
  let x := s.lane l
  if !x.conv.slew then .next s
  else
    let s1 := s.modConv l fun c =>
      match slewAct x m with
      | .stay => { c with slewHold := c.slewHold && decide (ilMax x.cfg * 256 ≤ (ilFine x.cfg m.code).natAbs) }
      | .hold => { c with slewHold := true }
      | .turn => { c with slewBack := true, slewHold := false }
      | .leave => c.leaveSlew x.cfg s.dev.dtime m
    .next (s.changeLegs s1 l)

/-- A slew-bound interval ends at 16 carrier periods: SLEW_TO, a record and the loop-engine source (R192, R268, R358). -/
def execSlewTo (l : LaneId) (m : SlewSample) (s : State) : Out :=
  if (s.lane l).conv.slew then
    let s1 := s.changeLegs (s.modConv l fun c => { c.leaveSlew (s.lane l).cfg s.dev.dtime m with slewTo := true }) l
    .next ((s1.log 0x0204 .lane l.val (convStatus (s1.lane l).conv) 0 0).postLane l 5)
  else .next s

-- feed-forward, ramps and setpoints

/-- The end of a feed-forward ramp: the whole term is added to the stored voltage-loop state (R193). -/
def execFfRampEnd (l : LaneId) (s : State) : Out :=
  let x := s.lane l
  if x.conv.ffAct then
    let t := loopState x.conv.ffTerm (fld x.cfg.convLoop 19 16)
    .next (s.modConv l fun c => { c with ffAct := false, ffTerm := 0, ffTime := 0, vu := c.vu.map (· + t) })
  else .next s

/-- A feed-forward step at a Twin switch (R193): the term is the difference of the Twin currents, negative toward STANDBY, and rises over FF_ON or FF_OFF. A switch while an earlier term still ramps drops that term and starts the new one from 0, since the spec says nothing of two (DESIGN CHOICE, log 115). -/
def State.feedForward (s : State) (l : LaneId) (toRun : Bool) : State :=
  let x := s.lane l
  let d : Int := (fld x.cfg.twinRun 9 0 : Int) - fld x.cfg.twinStandby 9 0
  let t := (if toRun then fld x.cfg.convFf 7 0 else fld x.cfg.convFf 15 8) * 100000
  if bitOf x.cfg.convFf 16 && x.conv.on then
    s.modConv l fun c => { c with ffAct := true, ffTerm := if toRun then d else -d, ffLen := t, ffTime := 0 }
  else s

/-- The ramp of a reverse start reaches ILIM_REV and CSTATE moves to reverse (R189, R196). -/
def execReverseRampEnd (l : LaneId) (s : State) : Out :=
  let c := (s.lane l).conv
  if c.revStart && c.revNow = c.revEff.toNat then .next (s.modConv l fun c => { c with revStart := false, rev := true }) else .next s

/-- A ramp or soft start is complete: the loop-engine source is posted (R183). -/
def State.rampDone (s : State) (l : LaneId) : State :=
  (s.modConv l fun c => { c with soft := false, ramp := false, down := false, floorClamp := false }).postLane l 5

/-- CONV_VSET as stored from a written word (R182): RAMP clamped to 1–250 and VSET to VCONV_MAX. -/
def convVsetStored (c : LaneCfg) (v : Word) : Word :=
  packFields [(clampNat 1 250 (fld v 23 16), 16), (Min.min (fld v 13 0) (fld c.vconvMax 13 0), 0)]

/-- CONV_ISET as stored: each limit at most 700 (R185). -/
def convIsetStored (v : Word) : Word := packFields [(Min.min (fld v 25 16) 700, 16), (Min.min (fld v 9 0) 700, 0)]

/-- The setpoint registers take effect in the engine (R189, R199). -/
def State.applySetpoints (s : State) (l : LaneId) : State :=
  let cfg := (s.lane l).cfg
  s.modConv l fun c =>
    { (c.retarget (BitVec.ofNat 14 (fld cfg.convVset 13 0))).takeRev (BitVec.ofNat 10 (fld cfg.convIset 25 16)) with
      rampEff := BitVec.ofNat 8 (fld cfg.convVset 23 16), fwdEff := BitVec.ofNat 10 (fld cfg.convIset 9 0) }

/-- A core's or the host's write of CONV_VSET: stored, and in force outside HOLDOVER (R182, R199). -/
def State.storeConvVset (s : State) (l : LaneId) (v : Word) : State :=
  let s1 := s.modCfg l fun c => { c with convVset := convVsetStored c v }
  if s.dev.state = .holdover then s1 else s1.applySetpoints l

/-- A core's or the host's write of CONV_ISET (R185, R199). -/
def State.storeConvIset (s : State) (l : LaneId) (v : Word) : State :=
  let s1 := s.modCfg l fun c => { c with convIset := convIsetStored v }
  if s.dev.state = .holdover then s1 else s1.applySetpoints l

/-- A write of PHASE_OFFSET: a running carrier moves at its valleys, a stopped one at once (R173). -/
def State.storePhase (s : State) (l : LaneId) (v : Word) : State :=
  let s1 := s.modCfg l fun c => { c with phaseOffset := v &&& 0xFFF }
  if (s.lane l).conv.on then s1 else s1.modConv l fun c => { c with phase := BitVec.ofNat 12 (fld v 11 0) }

end Sys2Proof.Machine
end

