-- ==== Sys2Proof/Machine/Belay.lean ====
section
/-! DEFINITION. The belay (file 06): closing the path (R139, R140, R465), comparators and trips (R142–R156, R167), temperature (R152), self-test (R158–R160), discharge (R162) and the stores of ILIM_SET and BELAY_CTRL (R141, R144, R163). -/

namespace Sys2Proof.Machine

-- closing

/-- Whether the polarity check is skipped: the path current lies within ±10 % of ILIM_EFF (R158). -/
def skipPolarity (x : Lane) (r : TestResult) : Bool := decide (10 * ((r.ma.natAbs : Int) - 50 * ilimEff x).natAbs ≤ 50 * ilimEff x)

/-- Whether OCP A, or B, passes a self-test on a lane (R158). -/
def passA (x : Lane) (r : TestResult) : Bool := r.aRef && (r.aPol || skipPolarity x r)
def passB (x : Lane) (r : TestResult) : Bool := r.bRef && (r.bPol || skipPolarity x r)

/-- The pre-close test ends (R140, R159, R160, R465): a pass enables the comparators, whose outputs are ignored at first; a failure is a trip with CAUSE 10, retried where it joins a hard reset. Where both OCP comparators fail it, R160 names CAUSE 9 in one row and 10 in another: the model gives 10 (DESIGN CHOICE, log 108). -/
def execPreCloseTest (l : LaneId) (r : TestResult) (s : State) : Out :=
  let b := (s.lane l).belay
  if b.stest ≠ 3 || b.want = .none then .next s
  else
    let a' := r.aRef && r.aPol
    let b' := r.bRef && r.bPol
    let s1 := s.setFails l (!a') (!b')
    if a' && b' && r.othersPass then
      .next (s1.modBelay l fun b => { b with stest := 0, testPassed := true, settling := true })
    else
      let busy := (s.lane l).pd.hrBusy
      let s2 := s1.trip l 10 false false
      .next (s2.modBelay l fun b => { b with closeRetry := busy && !b.latched })

/-- The level comparators as they stand at accepted VBOUT and VBIN (R139, R148, R153). -/
def BelayLane.levels (x : Lane) (b : BelayLane) (voutMv vinMv : Nat) : BelayLane :=
  { b with voutHigh := decide (800 < voutMv), vinHigh := decide (5500 < vinMv),
           voutOk := decide (4000 ≤ voutMv) && decide (windowLo x ≤ 100 * voutMv) && decide (100 * voutMv ≤ windowHi x) }

/-- A wanted close goes on at accepted levels: a source close with VBIN above 5.5 V runs the VBIN discharge first, one with VBOUT above 0.8 V sets BACKFEED (R139). -/
def State.closeAt (s : State) (l : LaneId) (voutMv vinMv : Nat) : State :=
  (s.modBelay l fun b =>
    let b := { b.levels (s.lane l) voutMv vinMv with settling := false }
    if b.want = .asSource then { b with dischIn := b.dischIn || b.vinHigh, backfeed := b.backfeed || b.voutHigh } else b).tryRamp l

/-- FAIL_A and FAIL_B after a self-test (R160): a new failure writes record 0x0203 and asserts HIRQ#, two failures trip the lane. -/
def State.testFails (s : State) (l : LaneId) (a b : Bool) : State :=
  let y := (s.lane l).belay
  let s1 := s.setFails l a b
  let s2 :=
    if (a && !y.failA) || (b && !y.failB) then
      ((s1.log 0x0203 .lane l.val (belayStatus (s1.group (groupOf l)).dieTemp (s1.lane l)) 0 0).irq 6)
    else s1
  if a && b then s2.trip l 9 false false else s2

/-- The self-test goes on with OCP B (R158 step 7), but ends where A is marked failed: both are never out of the trip path at once (R166 item 5). -/
def State.testB (s : State) (l : LaneId) : State :=
  let x := s.lane l
  if x.belay.failA then s.modBelay l fun b => { b with stest := 0, settling := false }
  else (s.modBelay l fun b => { b with stest := 2, settling := true }).testFails l false (!passB x x.belay.test)

/-- Comparators accept their states after the ignore period and eight agreeing samples (R153), which releases a close (R139). In a self-test the comparator under test rejoins the trip path, and after A the test of B begins (R158, R160). -/
def execComparatorAccept (v : LaneVolts) (s : State) : Out :=
  let l := v.lane
  let x := s.lane l
  let b := x.belay
  if b.sw = 0 && b.testPassed then .next (s.closeAt l v.voutMv v.vinMv)
  else if b.sw = 2 && b.stest = 1 then .next (s.testB l)
  else if b.sw = 2 && b.stest = 2 then .next (s.modBelay l fun b => { b with stest := 0, settling := false })
  else .next s

/-- The 100 ms check of a source close that found VBOUT above 0.8 V: BACKFEED while it is, with error recovery after 1 s, the tenth check, and the close once it is not (R139). -/
def execBackfeed (l : LaneId) (voutMv : Nat) (s : State) : Out :=
  let b := (s.lane l).belay
  if b.want = .asSource && b.sw = 0 && b.testPassed && !b.settling then
    if 800 < voutMv then
      let s1 := s.modBelay l fun b => { b with backfeed := true, voutHigh := true, backfeedTries := b.backfeedTries + 1 }
      if 10 ≤ b.backfeedTries + 1 then .next (s1.errorRecovery l) else .next s1
    else .next ((s.modBelay l fun b => { b with voutHigh := false }).tryRamp l)
  else .next s

/-- 100 ms after a failed close that joined a hard reset, lane hardware asks for the close again (R465). -/
def execPreCloseRetry (l : LaneId) (s : State) : Out :=
  let x := s.lane l
  if x.belay.closeRetry && !x.belay.latched && x.pd.hrBusy then
    .next ((s.modBelay l fun b => { b with closeRetry := false }).askClose l (if x.cc.attachSrc then .asSource else .asSink))
  else .next s

/-- The gate ramp ends: SW = 2, and the stage starts as source or, on a lane attached as sink, in reverse (R140, R184, R189, R194). -/
def execCloseComplete (l : LaneId) (s : State) : Out :=
  let x := s.lane l
  if x.belay.sw = 1 then
    let s1 := s.modBelay l fun b =>
      { b with sw := 2, want := .none, testPassed := false, backfeedTries := 0, closeRetry := false, risen := false, closedAt := s.dev.dtime }
    match x.belay.want with
    | .asSource => .next (s1.softStart l)
    | .asSink => if x.cc.st = .attachedSnk then .next (s1.reverseStart l) else .next s1
    | .none => .next s1
  else .next s

-- trips

/-- Crossings of OCP A, OCP B and the short-circuit comparator, with the path current in mA, positive from the device to the partner, that each senses within 2 µs (R142, R145, R156, R164): a comparator marked failed or under test is out of the trip path. DISAGREE shows one OCP comparator above its threshold with the other below it 2 µs later. -/
def execOcp (l : LaneId) (a b short : Int) (s : State) : Out :=
  let x := s.lane l
  let y := x.belay
  let beyond (v : Int) (lim : Nat) : Bool := decide ((50 * lim : Int) < flowCurrent x v)
  let a' := beyond a (ilimEff x) && !y.failA && y.stest ≠ 1
  let b' := beyond b (ilimEff x) && !y.failB && y.stest ≠ 2
  let short' := beyond short (shortLimit x)
  if a' || b' || short' then
    let both := !y.failA && !y.failB && y.stest ≠ 1 && y.stest ≠ 2
    let s1 := if y.sw ≠ 0 && both && a' ≠ b' then s.modBelay l fun y => { y with disagree := true } else s
    .next (s1.crossing l (if short' then 1 else 2) a' b')
  else .next s

/-- VBOUT, in mV, above V_hi (R148). -/
def execOvp (l : LaneVout) (s : State) : Out :=
  if windowHi (s.lane l.lane) < 100 * l.mv then .next (s.crossing l.lane 3 false false) else .next s

/-- A further cause on a path that a trip has opened: of one AON sample it may be the one that CAUSE records (R156). -/
def State.sampleCause (s : State) (l : LaneId) (cause : BitVec 4) : State :=
  if (s.lane l).belay.tripOpen && (s.lane l).belay.sw = 0 then s.modBelay l fun y => y.record s.dev.dtime cause false false else s

/-- Whether UVP applies: source with its path closed, no hold, and no current limit under a PPS contract (R149). -/
def uvpApplies (x : Lane) : Bool :=
  x.belay.sw = 2 && (x.swap.powerRole || x.swap.presentsRp) && !x.swap.holdOn && !(x.con.kind = 1 && cstate x.conv = 3)

/-- VBOUT, in mV, has stayed below V_lo for UVP_DWELL once it had risen above it, or has not risen 275 ms after a source close (R149). A VBOUT at or above V_lo ends the suspension. -/
def execUvp (v : LaneVout) (s : State) : Out :=
  let l := v.lane
  let x := s.lane l
  if !uvpApplies x then .next (if windowLo x ≤ 100 * v.mv then s else s.sampleCause l 4)
  else if windowLo x ≤ 100 * v.mv then .next (s.modBelay l fun b => { b with risen := true })
  else if x.belay.risen || decide (x.belay.closedAt + 275000000 ≤ s.dev.dtime) then .next (s.trip l 4 false false)
  else .next s

/-- The path is closed as source: POWER_ROLE = 1, or a PR_Swap to source has closed it before the roles change (R114, R151). -/
def sourceClosed (x : Lane) : Bool := x.swap.powerRole || (x.swap.presentsRp && x.swap.state = 2)

/-- The reverse-current limit in force, in mA (R151): a downward transition raises it from the moment VS starts to fall until CONTRACT_ACTIVE takes the new contract, whoever drives it. -/
def reverseLimit (x : Lane) : Nat := if sourceClosed x && (x.conv.down || x.conv.fallen) then 1000 else 200

/-- The reverse-current comparator trips the lane at a path current, in mA and positive toward the partner, against its power flow; the trip is suspended for a source while a hold is in force (R119, R151). A current at or below the limit less its tolerance is no crossing. -/
def execReverseCurrent (l : LaneId) (ma : Int) (s : State) : Out :=
  let x := s.lane l
  let against : Int := if sourceClosed x then -ma else ma
  if !(x.swap.holdOn && x.swap.powerRole) && decide ((3 * reverseLimit x : Int) < 4 * against) then .next (s.crossing l 5 false false)
  else .next s

/-- The path current has exceeded 5.0 A for too long (R146). -/
def execOverload (l : LaneId) (s : State) : Out :=
  if (s.lane l).belay.sw = 2 then .next (s.crossing l 6 false false) else .next (s.sampleCause l 6)

-- temperature; DIE_TEMP is the temperature plus 64 (R164)

/-- Sets THERM_WARN on a lane and posts a change (R152, R268). -/
def State.setThermWarn (s : State) (v : Bool) (l : LaneId) : State :=
  if (s.lane l).belay.thermWarn = v then s else (s.modBelay l fun b => { b with thermWarn := v }).postLane l 4

/-- A lane trips at 150 °C only while its path is not open or its VCONN is applied (R152, R155); a path that a trip of the same sample has opened may take the cause (R156). -/
def State.thermTrip (s : State) (l : LaneId) : State :=
  let x := s.lane l
  if x.belay.sw ≠ 0 || x.cc.vconnOn then (s.modCc l fun c => { c with vconnOn := false }).trip l 7 false false else s.sampleCause l 7

/-- What a die does at a temperature, given as DIE_TEMP (R152, R267): at or above 135 °C THERM_WARN on each of its lanes with a doorbell to the policy core and to S0, below 130 °C it clears; at or above 150 °C its active lanes trip and its switches stay open; below 125 °C the closes that were held proceed. -/
def State.dieTemp (s : State) (g : GroupId) (temp : Byte) : State :=
  let t := temp.toNat
  let s1 := s.modGroup g fun x => { x with dieTemp := temp, thermShut := decide (214 ≤ t) || (x.thermShut && decide (189 ≤ t)) }
  let s2 :=
    if 199 ≤ t then (s1.forEach (lanesOf g) fun st l => st.setThermWarn true l).post (0x200 + 4 * g.val + 2)
    else if t < 194 then s1.forEach (lanesOf g) fun st l => st.setThermWarn false l
    else s1
  if 214 ≤ t then s2.forEach (lanesOf g) fun st l => st.thermTrip l
  else if (s.group g).thermShut && t < 189 then s2.forEach (lanesOf g) fun st l => st.startClose l
  else s2

/-- A die's temperature passes a warning level (R152). -/
def execThermWarn (g : GroupId) (temp : Byte) (s : State) : Out := .next (s.dieTemp g temp)

/-- A die reaches 150 °C: thermal shutdown (R152, R155, R166). -/
def execThermalShutdown (g : GroupId) (temp : Byte) (s : State) : Out := .next (s.dieTemp g temp)

/-- A die falls below 125 °C after a thermal trip (R152). -/
def execThermalRestart (g : GroupId) (temp : Byte) (s : State) : Out := .next (s.dieTemp g temp)

-- self-test

/-- A self-test begins with OCP A out of the trip path (R158 steps 1–5): its outcome shows at 6 µs, and it rejoins once its state is accepted. While B is marked failed only B is tested, so that A stays in the trip path (R160, R166 item 5). -/
def State.selfTestRun (s : State) (l : LaneId) (r : TestResult) : State :=
  let x := s.lane l
  if x.belay.sw = 2 && x.belay.stest = 0 then
    if x.belay.failB then (s.modBelay l fun b => { b with stest := 2, settling := true, test := r }).testFails l false (!passB x r)
    else (s.modBelay l fun b => { b with stest := 1, settling := true, test := r }).testFails l (!passA x r) x.belay.failB
  else s

/-- The periodic self-test of R158; with STEST_PERIOD = 0 there is none. -/
def execSelfTest (l : LaneId) (r : TestResult) (s : State) : Out :=
  if fld (s.lane l).cfg.belayCtrl 11 8 ≠ 0 then .next (s.selfTestRun l r) else .next s

-- registers

/-- A write of ILIM_SET (R141): the ceiling where its RWL access allows, then ILIM against it. -/
def State.storeIlim (s : State) (l : LaneId) (v : Word) : State :=
  let old := fld (s.lane l).cfg.ilimSet 23 16
  let ceil := if s.locked then old else fld v 23 16
  s.modCfg l fun c => { c with ilimSet := packFields [(ceil, 16), (ilimStored ceil (fld v 7 0), 0)] }

/-- A write of SHED_ILIM (R144): the engine's limit follows at once; 0, or a value at or above ILIM, restores ILIM_EFF at once, and a lower limit reaches the comparators 1 ms later. -/
def State.storeShed (s : State) (l : LaneId) (v : Nat) : State :=
  let s1 := s.modCfg l fun c => { c with belayCtrl := setFld c.belayCtrl 23 16 v }
  let cfg := (s1.lane l).cfg
  if shedField cfg = 0 || fld cfg.ilimSet 7 0 ≤ shedField cfg then
    s1.modBelay l fun b => { b with shedApplied := BitVec.ofNat 8 (shedField cfg), shedPending := false }
  else s1.modBelay l fun b => { b with shedPending := true }

/-- 1 ms after a write of SHED_ILIM the belay limit follows (R144). -/
def execShedIlimBelay (l : LaneId) (s : State) : Out :=
  let x := s.lane l
  if x.belay.shedPending then
    .next (s.modBelay l fun b => { b with shedApplied := BitVec.ofNat 8 (shedField x.cfg), shedPending := false })
  else .next s

/-- LATCH_CLR = 1: LATCHED and the POWER count clear, and the lane enters the unattached state (R157, R337, R338). While the hard reset's signalling still runs, before the lane is Disabled, it only clears LATCHED and the hard reset goes on, since the spec does not say what follows then (DESIGN CHOICE, log 115). -/
def State.latchClear (s : State) (l : LaneId) : State :=
  let x := s.lane l
  if x.belay.latched then
    let s1 := ((s.modBelay l fun b => { b with latched := false }).modFw l fun f => { f with power := [] }).postLane l 4
    if x.cc.st = .disabled then s1.enterUnattached l else s1
  else s

/-- A write of BELAY_CTRL but for STEST_NOW, whose outcome is an input of its row (R163). -/
def State.storeBelayCtrl (s : State) (l : LaneId) (v : Word) : State :=
  let s1 := if s.locked then s else s.modCfg l fun c => { c with belayCtrl := setFld c.belayCtrl 11 8 (fld v 11 8) }
  let s2 := s1.storeShed l (fld v 23 16)
  if bitOf v 3 then s2.latchClear l else s2

end Sys2Proof.Machine
end

