-- ==== Sys2Proof/Machine/Link.lean ====
section
/-! DEFINITION. The message layer (file 03): message forms, SEND (R57, R58), the start of a frame (R48, R50, R59, R65), reception (R51–R56, R62–R65), the auto-responder (R66, R67, R464) and the extended buffers (R463). Message codes and object layouts are those of PD 3.1 (PRESUMED, log 20). -/

namespace Sys2Proof.Machine

-- message forms

/-- The message type of a header. -/
def msgType (h : BitVec 16) : Nat := h.toNat % 32

/-- The MessageID of a header. -/
def msgId (h : BitVec 16) : BitVec 3 := (h >>> 9).truncate 3

/-- A control message of a type. -/
def isCtl (f : Frame) (n : Nat) : Bool := !isExtended f.header && numObjs f.header = 0 && msgType f.header = n

/-- A data message of a type. -/
def isData (f : Frame) (n : Nat) : Bool := !isExtended f.header && numObjs f.header ≠ 0 && msgType f.header = n

/-- The first object, 0 where there is none. -/
def obj (f : Frame) (k : Nat) : Word := (f.objs[k]?).getD 0

/-- The extended header of an extended message. -/
def extHeader (f : Frame) : BitVec 16 := (obj f 0).truncate 16

/-- Chunked, Request Chunk, Chunk Number and Data Size of an extended header. -/
def exChunked (e : BitVec 16) : Bool := e.getLsbD 15
def exRequest (e : BitVec 16) : Bool := e.getLsbD 10
def exChunk (e : BitVec 16) : Nat := (e.toNat / 2048) % 16
def exSize (e : BitVec 16) : Nat := e.toNat % 512

/-- A header of Specification Revision 3.x; hardware writes its MessageID and roles (R50, R109). -/
def mkHeader (type n : Nat) : BitVec 16 := BitVec.ofNat 16 (0x80 + type + 4096 * n)

/-- A control message. -/
def ctl (n : Nat) : Frame := { header := mkHeader n 0 }

/-- A data message. -/
def dataMsg (n : Nat) (os : List Word) : Frame := { header := mkHeader n os.length, objs := os }

/-- An extended control message of a type: Data Size 2, the type and a zero byte. -/
def extCtl (t : Nat) : Frame := { header := mkHeader 16 1 ||| 0x8000, objs := [BitVec.ofNat 32 (0x8002 + 65536 * t)] }

/-- The payload bytes of an extended message's frame, behind its extended header. -/
def extBytes (f : Frame) : List Byte := (frameBytes f).drop 4

/-- A first chunk of an extended message: Chunked = 1, Chunk Number 0 and no Request Chunk (R62, R64). -/
def isChunk0 (f : Frame) : Bool :=
  isExtended f.header && exChunked (extHeader f) && !exRequest (extHeader f) && exChunk (extHeader f) = 0

/-- An Extended_Control message of a type (EPR_KeepAlive is type 3), in the chunked form that the lane handles (R62). -/
def isExtCtl (f : Frame) (t : Nat) : Bool := isChunk0 f && msgType f.header = 16 && ((extBytes f).headD 0).toNat = t

/-- A structured VDM. -/
def isSvdm (f : Frame) : Bool := isData f 15 && bitOf (obj f 0) 15

/-- SVID, command, Command Type and object position of a structured VDM. -/
def vdmSvid (f : Frame) : Nat := fld (obj f 0) 31 16
def vdmCmd (f : Frame) : Nat := fld (obj f 0) 4 0
def vdmType (f : Frame) : Nat := fld (obj f 0) 7 6

/-- Content of a message without MessageID and role bits (R66). -/
def sameContent (f g : Frame) : Bool :=
  let m : BitVec 16 := ~~~0x0F20
  f.sop = g.sop && f.header &&& m = g.header &&& m && f.objs = g.objs

/-- MessageID and role bits as hardware writes them (R50, R109). -/
def stampHeader (w : SwapLane) (kind : Sop) (id : BitVec 3) (h : BitVec 16) : BitVec 16 :=
  (h &&& ~~~0x0F20) ||| BitVec.ofNat 16 (id.toNat * 512) |||
    (if kind = .sop then BitVec.ofNat 16 (256 * b2n w.powerRole + 32 * b2n w.dataRole) else 0)

/-- An index for a SOP type. -/
def sopIdx (p : Sop) : Fin 3 :=
  match p with | .sop => 0 | .sopP => 1 | .sopPP => 2

-- power data objects

/-- A power data object as it is read (PD 3.1): voltages in 5 mV units, currents in 10 mA units, PDP in W. -/
inductive Pdo where
  | unused
  | fixed (v i : Nat)
  | pps (lo hi i : Nat)
  | avs (lo hi pdp : Nat)
  | other
deriving DecidableEq, Repr

/-- Reads a power data object. -/
def readPdo (w : Word) : Pdo :=
  if w = 0 then .unused
  else match fld w 31 30 with
  | 0 => .fixed (10 * fld w 19 10) (fld w 9 0)
  | 3 =>
    match fld w 29 28 with
    | 0 => .pps (20 * fld w 15 8) (20 * fld w 24 17) (5 * fld w 6 0)
    | 1 => .avs (20 * fld w 15 8) (20 * fld w 25 17) (fld w 7 0)
    | _ => .other
  | _ => .other

/-- A request data object read in the form of the offered object (R82, PD 3.1): voltage in 5 mV and operating current in 10 mA units. -/
def readRdo (p : Pdo) (r : Word) : Nat × Nat :=
  match p with
  | .fixed v _ => (v, fld r 19 10)
  | .pps _ _ _ => (4 * fld r 20 9, 5 * fld r 6 0)
  | .avs _ _ _ => (5 * fld r 20 9, 5 * fld r 6 0)
  | _ => (0, 0)

-- the receive FIFO

/-- A slot is filled, with its EOP time and the receive source (R54, R55, R268). -/
def State.fillSlot (s : State) (l : LaneId) (marker : Bool) (f : Frame) : State :=
  let t : Word := BitVec.ofNat 32 s.dev.dtime
  (s.modPd l fun p => { p with fifo := p.fifo ++ [{ marker := marker, frame := f, time := t }] }).postLane l 1

/-- A frame for which there is no room: OVF and OVF_CNT (R55). -/
def State.refuseFrame (s : State) (l : LaneId) : State :=
  (s.modPd l fun p => { p with ovf := true, ovfCnt := satInc p.ovfCnt }).postLane l 1

/-- POP releases the head slot (R56). -/
def State.popHead (s : State) (l : LaneId) : State := s.modPd l fun p => { p with fifo := p.fifo.drop 1 }

/-- The base image takes the message it has just received out of the FIFO. -/
def State.takeNewest (s : State) (l : LaneId) : State := s.modPd l fun p => { p with fifo := p.fifo.dropLast }

-- extended buffers

/-- A word of a 260-byte buffer at a byte offset; bytes at or above 260 read as 0 (R463). -/
def bufRead (m : Mem) (o : Nat) : Word :=
  wordAt ((List.range 4).map fun i => if o + i < 260 then memRead m (o + i) else 0)

/-- Writes a word to a 260-byte buffer; bytes at or above 260 ignore writes (R463). -/
def bufWrite (m : Mem) (o : Nat) (w : Word) : Mem :=
  (List.range 4).foldl (fun m i => if o + i < 260 then memWrite m (o + i) ((w >>> (8 * i)).truncate 8) else m) m

/-- The next value of OFFSET: it advances by 1 and never wraps (R463). -/
def advanceExt (w : Word) : Word := if fld w 8 2 = 0x7F then w else setFld w 8 2 (fld w 8 2 + 1)

/-- An access to PD_EXT_DATA: the value read, and the state with the word moved and OFFSET advanced (R463). -/
def State.extData (s : State) (l : LaneId) (wr : Option Word) : Word × State :=
  let x := s.lane l
  let o := 4 * fld x.cfg.extPtr 8 2
  let tx := bitOf x.cfg.extPtr 16
  let v := bufRead (if tx then x.pd.txBuf else x.pd.rxBuf) o
  let s1 := match wr with
    | none => s
    | some w => s.modPd l fun p => if tx then { p with txBuf := bufWrite p.txBuf o w } else { p with rxBuf := bufWrite p.rxBuf o w }
  (v, s1.modCfg l fun c => { c with extPtr := advanceExt c.extPtr })

-- sending

/-- The VDM header of a staged message, for R136. -/
def stagedVdm (d : Vector Word 8) : Word := (d[0] >>> 16) ||| (d[1] <<< 16)

/-- A staged REC_WRITE or REC_COMMIT, which lane hardware recognises by SVID and command (R136). -/
def isPackWrite (s : State) (l : LaneId) : Bool :=
  let d := (s.lane l).cfg.txData
  let h : BitVec 16 := d[0].truncate 16
  let v := stagedVdm d
  let c := fld v 4 0
  !isExtended h && msgType h = 15 && numObjs h ≠ 0 && bitOf v 15 && fld v 31 16 = fld s.sec.shadow[256] 15 0 && (c = 23 || c = 24) && fld v 7 6 = 0

/-- A SEND is refused (R58, R65, R136). -/
def sendRefused (s : State) (l : LaneId) : Bool :=
  let x := s.lane l
  let k := fld x.cfg.txCtrl 1 0
  let ext := bitOf x.cfg.txCtrl 4
  decide (2 ≤ x.pd.queue.length) || k = 3 || (k ≠ 0 && !x.swap.vconnRole) || x.pd.hrBusy
    || (ext && decide (260 < fld x.cfg.txData[0] 24 16)) || (ext && x.pd.queue.any (·.ext)) || (s.dev.vsysWarn && isPackWrite s l)

/-- The frame of a queued message that is not extended: header and the objects its header counts (R57). -/
def slotFrame (m : TxSlot) : Frame :=
  let d (k : Nat) : Word := (m.data[k]?).getD 0
  let h : BitVec 16 := (d 0).truncate 16
  { sop := m.sop, header := h, objs := (List.range (numObjs h)).map fun k => (d k >>> 16) ||| (d (k + 1) <<< 16) }

/-- A message of the queue is the control message n on SOP. -/
def slotIs (m : TxSlot) (n : Nat) : Bool := !m.ext && m.sop = .sop && isCtl (slotFrame m) n

/-- An Accept that a core sends to the partner's swap request or Request, the last message of the partner still unanswered, is that message's Accept whichever image sends it (R83, R114, R123, R124). -/
def State.swapSent (s : State) (l : LaneId) (m : TxSlot) : State :=
  match ((s.lane l).pd.unanswered.filter fun f => f.sop = .sop).getLast? with
  | some f =>
    if !slotIs m 3 then s
    else if isCtl f 10 then s.modSwap l fun w => { w with prAccept := true }
    else if isCtl f 9 && (s.lane l).swap.state = 0 then s.modSwap l fun w => { w with swapAccept := true, state := 6, frsArm := false }
    else if isCtl f 11 then s.modSwap l fun w => { w with swapAccept := true }
    else if isData f 2 || isData f 9 then s.modPd l fun p => { p with reqAccept := !p.acceptPending }
    else s
  | none => s

/-- SEND = 1 (R57, R58, R111): the staged message takes a slot and the tag in NEXT_TAG, or ends Refused with no slot taken. A Refused message takes no tag; LAST_TAG then shows NEXT_TAG, which does not advance (DESIGN CHOICE, log 77). -/
def State.sendStaged (s : State) (l : LaneId) : State :=
  let x := s.lane l
  if sendRefused s l then s.endMessage l x.pd.nextTag 5 0
  else
    let ams := bitOf x.cfg.txCtrl 5
    let m : TxSlot :=
      { tag := x.pd.nextTag, sop := (match fld x.cfg.txCtrl 1 0 with | 0 => .sop | 1 => .sopP | _ => .sopPP), ext := bitOf x.cfg.txCtrl 4,
        ams := ams, data := x.cfg.txData.toList }
    let s1 := (s.modPd l fun p => { p with queue := p.queue ++ [m], nextTag := p.nextTag + 1 }).swapSent l m
    if ams && x.swap.powerRole then s1.modSwap l fun w => { w with amsHold := true } else s1

/-- The staging words of a message: header, then objects, little-endian in wire order (R55, R57). -/
def stageWords (f : Frame) : Vector Word 8 := Vector.ofFn fun (k : Fin 8) => wordAt ((frameBytes f).drop (4 * k.val))

/-- The base image stages a message that is not extended and writes SEND = 1 (R57). -/
def State.imageSend (s : State) (l : LaneId) (ams : Bool) (f : Frame) : State :=
  (s.modCfg l fun c =>
    { c with txData := stageWords f, txCtrl := packFields [(b2n ams, 5), (sopCode f.sop, 0)] }).sendStaged l

/-- The base image stages an extended message of a payload and writes SEND = 1 (R65). While another extended message is queued the transmit buffer belongs to that one, and the SEND ends Refused. -/
def State.imageSendExt (s : State) (l : LaneId) (ams : Bool) (type : Nat) (payload : List Byte) : State :=
  let s1 := if (s.lane l).pd.queue.any (·.ext) then s else s.modPd l fun p => { p with txBuf := memWriteList p.txBuf 0 payload }
  let w0 : Word := BitVec.ofNat 32 ((mkHeader type 0).toNat + 0x8000 + 65536 * (0x8000 + payload.length))
  (s1.modCfg l fun c =>
    { c with txData := (Vector.replicate 8 0).set 0 w0, txCtrl := packFields [(b2n ams, 5), (1, 4)] }).sendStaged l

/-- Lane hardware sends a message with no slot and no tag. -/
def State.hwSend (s : State) (l : LaneId) (k : HwKind) (ams : Bool) (f : Frame) : State :=
  let s1 := s.modPd l fun p => { p with hwq := p.hwq ++ [{ kind := k, frame := f, ams := ams }] }
  if ams && (s.lane l).swap.powerRole then s1.modSwap l fun w => { w with amsHold := true } else s1

/-- Chunk k of a queued extended message (R65): Chunked = 1, its number, Data Size and b = min(26, Data Size − 26 × k) bytes with zero padding. -/
def chunkFrame (buf : Mem) (m : TxSlot) (k : Nat) : Frame :=
  let w := (m.data[0]?).getD 0
  let size := exSize ((w >>> 16).truncate 16)
  let b := Min.min 26 (size - 26 * k)
  let n := ceilDiv (2 + b) 4
  let e := 0x8000 + 2048 * (k % 16) + size
  let bytes : List Byte := [BitVec.ofNat 8 e, BitVec.ofNat 8 (e / 256)] ++ memBytes buf (26 * k) b
  { sop := m.sop, header := (w.truncate 16 &&& 0x0FFF) ||| BitVec.ofNat 16 (0x8000 + 4096 * n),
    objs := (List.range n).map fun i => wordAt (bytes.drop (4 * i)) }

/-- Chunks of an extended message of a Data Size. -/
def chunkCount (size : Nat) : Nat := Max.max 1 (ceilDiv size 26)

/-- Data Size of a queued extended message. -/
def slotSize (m : TxSlot) : Nat := exSize ((((m.data[0]?).getD 0) >>> 16).truncate 16)

/-- The collision gate lets a message through (R59). -/
def gateOk (x : Lane) (ams : Bool) : Bool :=
  !ams || x.pd.gateOpen || (!x.swap.powerRole && x.cc.partnerRp = 3)

/-- The first hardware message that no gate holds. -/
def firstHw (x : Lane) : Option HwMsg := x.pd.hwq.find? fun m => gateOk x m.ams

/-- A queued TWIN_ARM (R91), which waits for a Time Mark exchange to end (R105). -/
def isTwinArm (s : State) (m : TxSlot) : Bool :=
  let f := slotFrame m
  !m.ext && m.sop = .sop && isSvdm f && vdmSvid f = fld s.sec.shadow[256] 15 0 && vdmCmd f = 19 && vdmType f = 0

/-- The time on the wire of a message of n data objects, in ns: 64 preamble bits, SOP, 10 bits for each byte of header, objects and CRC, and EOP, at 300 kbit/s (PD 3.1, PRESUMED, log 20). -/
def frameTime (n : Nat) : Nat := (149 + 40 * n) * 10000 / 3

/-- What the EOP of the frame now sent fixes: t_mark of a TM_MARK (R93), the origin of the contract change of an Accept, which is in progress from then on (R83), and the time at which a PS_RDY moves a Twin lane's load (R241). -/
def State.stampEop (s : State) (l : LaneId) : State :=
  let x := s.lane l
  match x.pd.flight with
  | none => s
  | some fl =>
    let t := s.dev.dtime + frameTime fl.frame.objs.length
    match fl.hw with
    | some m => if m.kind = .tmMark then s.modCon l fun c => { c with tMark := t } else s
    | none =>
      if x.pd.acceptPending && fl.frame.sop = .sop && isCtl fl.frame 3 then
        s.modCon l fun c => { c with change := c.change.map fun d => { d with started := true, origin := t } }
      else if x.pd.reqAccept && fl.frame.sop = .sop && isCtl fl.frame 3 then s.modPd l fun p => { p with inChange := true }
      else if fl.frame.sop = .sop && isCtl fl.frame 6 then s.modCon l fun c => { c with psEop := t }
      else s

/-- A frame starts (R48, R50, R59, R65, R105): hardware messages first, then the head of the queue. A Soft_Reset taken for its first transmission clears the IDs of its SOP type. -/
def State.startFrame (s : State) (l : LaneId) : State :=
  let x := s.lane l
  let p := x.pd
  if !x.cc.attached || p.hrBusy || p.flight.isSome || p.bist = .carrier then s
  else match firstHw x with
  | some m =>
    let id := p.txId.get (sopIdx m.frame.sop)
    let f := { m.frame with header := stampHeader x.swap m.frame.sop id m.frame.header }
    (s.modPd l fun p => { p with hwq := p.hwq.erase m, flight := some { hw := some m, frame := f }, gateOpen := p.gateOpen && !m.ams }).stampEop l
  | none =>
    match p.queue with
    | [] => s
    | m :: rest =>
      if !gateOk x m.ams && !m.begun then s
      else if !m.begun && x.con.tmPhase ≠ .idle && isTwinArm s m then s
      else if m.ext && p.txChunkWait then s
      else
        let k := p.txChunk.getD 0
        let f0 := if m.ext then chunkFrame p.txBuf m k else slotFrame m
        let i := sopIdx m.sop
        let soft := isCtl f0 13 && !m.begun
        let txId := if soft then p.txId.set i.val 0 i.isLt else p.txId
        let rxId := if soft then p.rxId.set i.val none i.isLt else p.rxId
        let f := { f0 with header := stampHeader x.swap m.sop (txId.get i) f0.header }
        (s.modPd l fun p =>
          { p with queue := { m with begun := true } :: rest, flight := some { frame := f }, txId := txId, rxId := rxId,
                   txChunk := if m.ext then some k else none, gateOpen := false }).stampEop l

-- reassembly

/-- The base image answers a discarded or abandoned extended message with Not_Supported (R65). -/
def State.notSupported (s : State) (l : LaneId) (kind : Sop) : State :=
  if serves s l then s.imageSend l false { ctl 16 with sop := kind } else s

/-- A Chunk Request of an abandoned reassembly is not sent, and one in flight has no more to report (R63). -/
def PdLane.dropRequest (p : PdLane) : PdLane :=
  { p with hwq := p.hwq.filter fun m => m.kind ≠ .chunkRequest,
           flight := p.flight.map fun f => { f with hw := f.hw.map fun m => if m.kind = .chunkRequest then { m with kind := .answer } else m } }

/-- A reassembly is abandoned, and the base image answers its message with Not_Supported (R63, R65). -/
def State.abandonReasm (s : State) (l : LaneId) : State :=
  match (s.lane l).pd.reasm with
  | some r => ((s.modPd l fun p => { p.dropRequest with reasm := none, extAbort := true }).postLane l 1).notSupported l r.sop
  | none => s

/-- A Chunk Request for chunk k (R63). -/
def chunkRequestFrame (r : Reassembly) : Frame :=
  { sop := r.sop, header := (r.header &&& 0x00FF &&& ~~~0x20) ||| 0x9000, objs := [BitVec.ofNat 32 (0x8400 + 2048 * (r.next % 16))] }

/-- Payload bytes of chunk k go into the receive buffer (R62, R63). -/
def putChunk (buf : Mem) (k size : Nat) (f : Frame) : Mem :=
  memWriteList buf (26 * k) ((extBytes f).take (Min.min 26 (size - 26 * k)))

/-- Chunk k of a reassembly arrives (R63): the checks, then the next Chunk Request or the marker. A chunk 0 of another message is a chunk that fails the checks, and starts no reassembly of its own (DESIGN CHOICE, log 108). -/
def State.nextChunk (s : State) (l : LaneId) (r : Reassembly) (f : Frame) : State :=
  let e := extHeader f
  let b := Min.min 26 (r.size - 26 * r.next)
  if exChunk e = r.next && exSize e = r.size && f.objs.length = ceilDiv (2 + b) 4 then
    let s1 := s.modPd l fun p => { p with rxBuf := putChunk p.rxBuf r.next r.size f }
    if r.next + 1 < chunkCount r.size then
      let r1 := { r with next := r.next + 1, awaiting := false }
      (s1.modPd l fun p => { p with reasm := some r1 }).hwSend l .chunkRequest false (chunkRequestFrame r1)
    else
      (s1.modPd l fun p => { p with reasm := none }).fillSlot l true
        { sop := r.sop, header := r.header, objs := [r.extHeader.zeroExtend 32] }
  else s.abandonReasm l

/-- Chunk 0 of an extended message (R62). -/
def State.firstChunk (s : State) (l : LaneId) (f : Frame) : State :=
  let e := extHeader f
  if !exChunked e then ((s.modPd l fun p => { p with extUnchunked := true }).postLane l 1).notSupported l f.sop
  else if exChunk e ≠ 0 then (s.modPd l fun p => { p with extAbort := true }).postLane l 1
  else if 260 < exSize e then ((s.modPd l fun p => { p with extTooBig := true }).postLane l 1).notSupported l f.sop
  else
    let s1 := s.modPd l fun p => { p with rxBuf := putChunk p.rxBuf 0 (exSize e) f }
    if exSize e ≤ 26 then s1.fillSlot l true { f with objs := [e.zeroExtend 32] }
    else
      let r : Reassembly := { sop := f.sop, header := f.header, extHeader := e, size := exSize e }
      (s1.modPd l fun p => { p with reasm := some r }).hwSend l .chunkRequest false (chunkRequestFrame r)

-- the auto-responder

/-- PDO_TABLE0 as it is sent: the bits of R79 overridden. -/
def firstPdo (c : LaneCfg) : Word :=
  let w := c.pdo[0]
  let epr := (List.range 4).any fun k => c.pdo.toList.getD (7 + k) 0 ≠ 0
  mergeMask 0x27800000 w (packFields [(b2n (c.mode = 3 || c.mode = 4), 29), (b2n epr, 23)])

/-- The default list (R67). -/
def defaultCaps (c : LaneCfg) : Frame :=
  dataMsg 1 [mergeMask 0x000FFFFF (mergeMask 0xC0400000 (firstPdo c) 0) (packFields [(100, 10), (c.rpCurrent, 0)])]

/-- The operating current of a Request, read in the form of the object it names in its list (R67); an object not known is read as Fixed. -/
def requestedI (caps : Frame) (r : Word) : Nat :=
  match readPdo (obj caps (fld r 31 28 - 1)) with
  | .pps lo hi i => (readRdo (.pps lo hi i) r).2
  | .avs lo hi p => (readRdo (.avs lo hi p) r).2
  | _ => fld r 19 10

/-- The fallback Request to a capability list (R67). -/
def fallbackRequest (x : Lane) (caps : Frame) : Frame :=
  let offered := fld (obj caps 0) 9 0
  let i := Min.min offered (match x.pd.lastRequest with
    | some r => requestedI (x.pd.answeredCaps.getD {}) (obj r 0)
    | none => if revIlim x.cfg = 0 then 10 else revIlim x.cfg)
  dataMsg 2 [packFields [(1, 28), (1, 26), (i, 10), (i, 0)]]

/-- A received message of a kind that the table of R66 names. -/
def arNamed (x : Lane) (f : Frame) : Bool :=
  (f.sop = .sop && (isData f 2 || isData f 9 || isCtl f 10 || isCtl f 9 || isCtl f 11 || (isCtl f 7 && x.swap.powerRole) || isExtCtl f 3
    || isCtl f 13 || (isData f 1 && !x.swap.powerRole)))
  || (isSvdm f && vdmType f = 0)

/-- The last Source_Capabilities sent since attach, or the default list (R66). -/
def arCaps (x : Lane) : Frame := x.pd.lastCaps.getD (defaultCaps x.cfg)

/-- The auto-responder's answers to a named message (R66). -/
def arAnswers (x : Lane) (f : Frame) : List Frame :=
  if isSvdm f && vdmType f = 0 then [{ dataMsg 15 [obj f 0 ||| 0xC0] with sop := f.sop }]
  else if isData f 2 || isData f 9 || isCtl f 10 || isCtl f 9 || isCtl f 11 then [ctl 12]
  else if isCtl f 7 then [arCaps x]
  else if isExtCtl f 3 then [extCtl 4]
  else if isCtl f 13 then (if x.swap.powerRole then [ctl 3, arCaps x] else [ctl 3])
  else if isData f 1 then
    match x.pd.answeredCaps, x.pd.lastRequest with
    | some c, some r => if sameContent c f then [r] else [fallbackRequest x f]
    | _, _ => [fallbackRequest x f]
  else []

/-- A contract change is in progress (R83), whichever image sent its Accept. -/
def changeRuns (x : Lane) : Bool := x.con.change.any (·.started) || x.pd.inChange

/-- The auto-responder answers a message; a Soft_Reset during a contract change makes the lane signal Hard Reset (R66, R83). The Request that answers a sink's Source_Capabilities takes the place of one of the base image's own, and is made again when the core resumes (R67). -/
def State.arAnswer (s : State) (l : LaneId) (f : Frame) : State :=
  let x := s.lane l
  if isCtl f 13 && changeRuns x then s.hardReset l
  else
    let s1 := s.forEach (arAnswers x f) fun st g => st.hwSend l .answer false g
    if isData f 1 && !x.swap.powerRole then
      (s1.modCon l fun c => { c with rxCaps := some f, change := c.change.filter fun d => !d.asSink }).modPd l fun p => { p with arAsked := true }
    else s1

/-- The form in which the FIFO holds a message: an extended message stands as a marker with its extended header (R62). -/
def slotForm (f : Frame) : Frame := if isExtended f.header then { f with objs := [(extHeader f).zeroExtend 32] } else f

/-- While ar_active = 1 the unanswered messages are answered and leave the FIFO, but for those on whose SOP type a message already begun stands to answer them (R464). -/
def State.answerOpen (s : State) (l : LaneId) : State :=
  let p := (s.lane l).pd
  let begun : List Sop := (p.queue.filter fun m => m.begun).map (·.sop)
  let todo := p.unanswered.filter fun f => !begun.contains f.sop
  if !p.arActive || todo.isEmpty then s
  else
    (s.forEach todo fun st f => st.arAnswer l f).modPd l fun p =>
      { p with unanswered := p.unanswered.filter fun f => begun.contains f.sop,
               fifo := p.fifo.filter fun r => !((todo.map slotForm).contains r.frame) }

/-- ams_hold falls with an AMS_START message that is not Sent (R111), unless another one waits at the gate or for it, which holds Rp at SinkTxNG in its turn (R59). -/
def State.amsFail (s : State) (l : LaneId) : State :=
  let p := (s.lane l).pd
  if p.queue.any (·.ams) || p.hwq.any (·.ams) then s else s.modSwap l fun w => { w with amsHold := false }

/-- What a message that ends with a result other than Sent leaves behind: ams_hold falls where it was marked AMS_START (R111), an Accept that was not begun opens no contract change (R83) and none opens a swap (R123), and a request of the device's own is dropped (R67, R112). -/
def State.notSent (s : State) (l : LaneId) (m : TxSlot) : State :=
  let f := slotFrame m
  let s1 := if m.ams then s.amsFail l else s
  if m.ext || m.sop ≠ .sop then s1
  else if isCtl f 10 || isCtl f 11 then s1.modSwap l fun w => { w with ownPending := false, ownVcs := false, prDropped := w.prDropped || isCtl f 10 }
  else if isCtl f 3 then
    let s2 := (s1.modSwap l fun w => { w with prAccept := false, swapAccept := false, state := if w.state = 6 then 0 else w.state }).modPd l fun p =>
      { p with reqAccept := false }
    if m.begun then s2.modPd l fun p => { p with acceptPending := false }
    else if (s2.lane l).pd.acceptPending then
      ((s2.modPd l fun p => { p with acceptPending := false }).modCon l fun c => { c with change := none }).modBudget l fun b => { b with counted := 0 }
    else s2
  else if isData f 2 || isData f 9 then s1.modCon l fun c => { c with change := c.change.filter fun d => !d.asSink || d.started }
  else s1

/-- The head message ends with a result: the slot is freed, and ams_hold falls where an AMS_START message is not Sent (R60, R111). A message that ar_active found begun and that is not Sent leaves its answer to the auto-responder (R464). -/
def State.endHead (s : State) (l : LaneId) (result : BitVec 3) (retries : Nat) : State :=
  match (s.lane l).pd.queue with
  | [] => s
  | m :: rest =>
    let s1 := s.modPd l fun p =>
      { p with queue := rest, flight := p.flight.filter (·.hw.isSome), txChunk := none, txChunkWait := false, gateOpen := false }
    let s2 := if result ≠ 1 then (s1.notSent l m).answerOpen l else s1
    s2.endMessage l m.tag result retries

/-- ar_active rises (R464): queued messages not yet begun end Aborted, and unanswered messages are answered. -/
def State.raiseAr (s : State) (l : LaneId) : State :=
  let x := s.lane l
  if x.pd.arActive then s
  else
    let s1 := (s.modPd l fun p => { p with arActive := true }).postLane l 10
    let s2 := s1.forEach (x.pd.queue.filter fun m => !m.begun) fun st m =>
      ((st.modPd l fun p => { p with queue := p.queue.erase m }).notSent l m).endMessage l m.tag 4 0
    s2.answerOpen l

/-- ar_active falls (R68). Answers of the auto-responder that wait for the line and have not started are still sent (DESIGN CHOICE, log 78). -/
def State.dropAr (s : State) (l : LaneId) : State :=
  if (s.lane l).pd.arActive then (s.modPd l fun p => { p with arActive := false }).postLane l 10 else s

-- reception

/-- What became of a received frame. -/
inductive RxEnd where
  | ignored | withheld | duplicate | absorbed | answered | stored
deriving DecidableEq, Repr

/-- A Chunk Request of the partner (R65): the chunk it names goes out next, a wrong one ends the message Failed, and one that is not awaited has no effect. Its SOP type is not compared with the message's, nor a chunk's with its reassembly's (DESIGN CHOICE, log 79). -/
def State.chunkAsked (s : State) (l : LaneId) (f : Frame) : State :=
  let p := (s.lane l).pd
  if p.txChunkWait then
    let k := p.txChunk.getD 0 + 1
    if exChunk (extHeader f) = k then s.modPd l fun p => { p with txChunk := some k, txChunkWait := false }
    else s.endHead l 2 0
  else s

/-- An arrival ends the head message Discarded (R53, R65). -/
def State.discardHead (s : State) (l : LaneId) : State :=
  s.endHead l 3 (headRetries (s.lane l).pd)

/-- The keep-alive deadline restarts (R85): PPS on a Request, EPR on any message on SOP. An EPR_Request restarts no PPS deadline (DESIGN CHOICE, log 80). A frame whose GoodCRC is withheld and a repeated MessageID restart it too, since `State.receive` comes here before it tests for either (DESIGN CHOICE, log 108). -/
def State.keepAlive (s : State) (l : LaneId) (f : Frame) : State :=
  let k := (s.lane l).con.kaKind
  if (k = 1 && isData f 2) || (k = 2 && f.sop = .sop) then s.modCon l fun c => { c with kaStart := s.dev.dtime } else s

/-- Whether there is room for a frame (R55, R64): a slot, and for a chunk 0 that no reassembly takes a receive buffer that no marker holds. A message that the auto-responder answers, and no reassembly takes as a chunk, needs none. -/
def hasRoom (x : Lane) (f : Frame) : Bool :=
  (x.pd.arActive && arNamed x f && !(isExtended f.header && exChunked (extHeader f) && x.pd.reasm.isSome)) ||
    (decide (x.pd.fifo.length < 4) && !(isChunk0 f && x.pd.reasm.isNone && x.pd.fifo.any (·.marker)))

/-- The GoodCRC that answers a frame: it carries the received MessageID (R51, R109). -/
def ackFrame (x : Lane) (f : Frame) : Frame := { sop := f.sop, header := stampHeader x.swap f.sop (msgId f.header) (mkHeader 1 0) }

/-- A sink keeps the Source_Capabilities last received, which its next Request answers (R66, R67). -/
def State.noteCaps (s : State) (l : LaneId) (f : Frame) : State :=
  if isData f 1 && f.sop = .sop && !(s.lane l).swap.powerRole then s.modCon l fun c => { c with rxCaps := some f } else s

/-- A Soft_Reset voids an arm (R101); where no base image serves the lane its fallback is made when it resumes (R104). -/
def State.softVoid (s : State) (l : LaneId) : State :=
  let x := s.lane l
  (s.voidArm l 2).modCon l fun c => { c with fallDue := c.fallDue || (armInForce x && c.twinOn && !serves s l) }

/-- A frame of a correct CRC on SOP types the lane accepts (R49, R51–R56, R62–R66, R74, R101): its end, and the state after it. A repeated MessageID is acknowledged by R52 even where no slot is free (DESIGN CHOICE, log 81). A BIST message that R74 has the lane ignore is acknowledged and discarded, with the FIFO full too (DESIGN CHOICE, log 115). -/
def State.receive (s : State) (l : LaneId) (f : Frame) : RxEnd × State :=
  let x := s.lane l
  if !x.cc.attached || x.pd.bist = .carrier || (f.sop ≠ .sop && !x.swap.vconnRole) || isCtl f 1 then (.ignored, s)
  else
    let i := sopIdx f.sop
    let id := msgId f.header
    let chunkReq := isExtended f.header && exChunked (extHeader f) && exRequest (extHeader f)
    let s0 := (if chunkReq then s else s.discardHead l).keepAlive l f
    let s1 := s0.modPd l fun p => { p with ack := some (ackFrame x f) }
    let y := s1.lane l
    let soft := isCtl f 13
    if !soft && y.pd.rxId.get i = some id then (.duplicate, s1)
    else if !chunkReq && !isData f 3 && !hasRoom y f then (.withheld, (s1.modPd l fun p => { p with ack := none }).refuseFrame l)
    else
      let s2 := (if soft && f.sop = .sop then s1.softVoid l else s1).modPd l fun p =>
        if soft then { p with rxId := p.rxId.set i.val none i.isLt, txId := p.txId.set i.val 0 i.isLt }
        else { p with rxId := p.rxId.set i.val (some id) i.isLt }
      if chunkReq then (.absorbed, s2.chunkAsked l f)
      else if isData f 3 then
        let m := fld (obj f 0) 31 28
        let s3 := s2.abandonReasm l
        if x.pd.bist = .testData then (.absorbed, s3)
        else if x.con.valid && x.con.volt = 1000 && m = 5 then (.absorbed, s3.modPd l fun p => { p with bist := .carrier })
        else if x.con.valid && x.con.volt = 1000 && m = 8 then (.absorbed, s3.modPd l fun p => { p with bist := .testData })
        else (.absorbed, s3)
      else
        let z := s2.lane l
        let chunk := isExtended f.header && exChunked (extHeader f)
        if chunk && z.pd.reasm.isSome then
          match z.pd.reasm with
          | some r =>
            let s3 := s2.nextChunk l r f
            (if z.pd.fifo.length < (s3.lane l).pd.fifo.length then .stored else .absorbed, s3)
          | none => (.absorbed, s2)
        else
          let s3 := s2.abandonReasm l
          if z.pd.arActive && arNamed z f then (.answered, s3.arAnswer l f)
          else
            let s4 := if arNamed z f then s3.modPd l fun p => { p with unanswered := p.unanswered ++ [f] } else s3
            if isExtended f.header then
              let n := (s4.lane l).pd.fifo.length
              let s5 := s4.firstChunk l f
              (if n < (s5.lane l).pd.fifo.length then .stored else .absorbed, s5)
            else (.stored, (s4.fillSlot l false f).noteCaps l f)

/-- A message that the base image handles: received, taken out of the FIFO while its policy core serves the lane, and then acted on by `k`; a state in which the core does not serve keeps the message where reception left it. -/
def State.imageReceive (s : State) (l : LaneId) (f : Frame) (k : State → State) : State :=
  match s.receive l f with
  | (.stored, s1) => if serves s1 l then k (s1.takeNewest l) else s1
  | (_, s1) => s1

-- commands

/-- The line has been idle and the head frame starts (R48). -/
def execTransmitStart (l : LaneId) (s : State) : Out := .next (s.startFrame l)

/-- tSinkTx ends at the collision gate (R59). -/
def execSinkTx (l : LaneId) (s : State) : Out :=
  if (s.lane l).swap.amsHold then .next (s.modPd l fun p => { p with gateOpen := true }) else .next s

/-- 30 ms with no SOP message: ams_hold clears (R111). -/
def execAmsHoldTimeout (l : LaneId) (s : State) : Out := .next (s.modSwap l fun w => { w with amsHold := false })

/-- A Chunk Request of the partner (R65). -/
def execChunkRequest (l : LaneId) (f : Frame) (s : State) : Out := .next (s.receive l f).2

/-- 27 ms without the next chunk: the reassembly is abandoned (R63). -/
def execChunkSenderResponse (l : LaneId) (s : State) : Out :=
  if (s.lane l).pd.reasm.any (·.awaiting) then .next (s.abandonReasm l) else .next s

/-- 27 ms without a Chunk Request: the outgoing extended message ends Failed (R65). -/
def execChunkSenderRequest (l : LaneId) (s : State) : Out :=
  if (s.lane l).pd.txChunkWait then .next (s.endHead l 2 0) else .next s

/-- ar_active rises (R464). -/
def execArActiveRise (l : LaneId) (s : State) : Out := .next (s.raiseAr l)

/-- The BIST carrier ends (R74). -/
def execBistCarrierEnd (l : LaneId) (s : State) : Out :=
  .next (s.modPd l fun p => if p.bist = .carrier then { p with bist := .off } else p)

/-- A write of HARD_RESET = 1, or another named cause (R69, R72). -/
def execHardReset (l : LaneId) (s : State) : Out := .next (s.hardReset l)

/-- The partner's Rp level changes: PARTNER_RP of an attached sink (R41, R59). -/
def execPartnerRpChange (l : LaneId) (level : Fin 4) (s : State) : Out :=
  let x := s.lane l
  if x.cc.attached && !x.swap.presentsRp then .next (s.modCc l fun c => { c with partnerRp := BitVec.ofNat 2 level.val }) else .next s

/-- Discover Identity on SOP' (R36). -/
def cableIdentity : Frame := { dataMsg 15 [0xFF00A001] with sop := .sopP }

/-- The base image starts cable discovery (R36). -/
def State.startDiscovery (s : State) (l : LaneId) (epr : Bool) : State :=
  (s.modCc l fun c => { c with discRun := true, discTries := 1, discEpr := epr }).imageSend l false cableIdentity

/-- Cable Reset: acted on by a VCONN source outside a hard reset; SOP' and SOP'' state is cleared, their queued messages end Aborted, and while VCONN is on the base image repeats discovery at once (R36, R73, R111). -/
def State.cableReset (s : State) (l : LaneId) : State :=
  let x := s.lane l
  if x.swap.vconnRole && !x.pd.hrBusy && x.cc.attached then
    let ms := x.pd.queue.filter fun m => m.sop ≠ .sop
    let headGone := match x.pd.queue with | m :: _ => m.sop ≠ .sop | [] => false
    let r := headRetries x.pd
    let s1 := s.modPd l fun p =>
      { p with queue := p.queue.filter fun m => m.sop = .sop, flight := if headGone then p.flight.filter (·.hw.isSome) else p.flight,
               txChunk := if headGone then none else p.txChunk, txChunkWait := !headGone && p.txChunkWait,
               txId := (p.txId.set 1 0).set 2 0, rxId := (p.rxId.set 1 none).set 2 none }
    let s2 := s1.forEach ms fun st m => (st.notSent l m).endMessage l m.tag 4 (if x.pd.queue.head? = some m then r else 0)
    let s3 := s2.modCc l fun c =>
      { c with cableValid := false, discRepeat := c.discRepeat || c.vconnOn, discRun := c.discRun || c.vconnOn, discTries := if c.vconnOn then 0 else c.discTries }
    if x.cc.vconnOn && serves s l then s3.startDiscovery l x.cc.discEpr else s3
  else s

end Sys2Proof.Machine
end

