-- ==== Sys2Proof/Machine/Contract.lean ====
section
/-! DEFINITION. Contracts (file 04): capability lists (R79, R81), Requests and contract changes (R82, R83), keep-alive (R85, R86), EPR entry (R88), the Urkai mode (R89–R92), the Time Mark (R93), the Twin Contract (R97–R104) and the base image's authentication exchange (R423–R425). Rules of the base image hold while the lane's policy core serves it (R4). -/

namespace Sys2Proof.Machine

/-- The low and high words of a device time. -/
def loWord (t : Nat) : Word := BitVec.ofNat 32 t
def hiWord (t : Nat) : Word := BitVec.ofNat 32 (t / 2 ^ 32)

-- power data objects

/-- V × I in 0.1 W, rounded down (DESIGN CHOICE, log 22), from 5 mV and 10 mA units. -/
def deciWatt (v i : Nat) : Nat := v * i / 2000

/-- Largest current of an entry in 10 mA units; for AVS the lesser of 5 A and PDP / minimum voltage (R80). -/
def pdoMaxI : Pdo → Nat
  | .fixed _ i => i
  | .pps _ _ i => i
  | .avs lo _ p => if lo = 0 then 0 else Min.min 500 (p * 20000 / lo)
  | _ => 0

/-- Largest voltage of an entry. -/
def pdoMaxV : Pdo → Nat
  | .fixed v _ => v
  | .pps _ hi _ => hi
  | .avs _ hi _ => hi
  | _ => 0

/-- Largest power of an entry in 0.1 W (R212). -/
def pdoPower : Pdo → Nat
  | .fixed v i => deciWatt v i
  | .pps _ hi i => deciWatt hi i
  | .avs _ _ p => 10 * p
  | _ => 0

/-- The cable voltage recorded, in 5 mV units (R36, R41). -/
def cableV (c : CcLane) : Nat := match c.cableVmax.toNat with | 2 => 6000 | 3 => 10000 | _ => 4000

/-- The cable current recorded, in 10 mA units (R36, R41). -/
def cableI (c : CcLane) : Nat := if c.cableImax = 2 then 500 else 300

/-- One entry as steps 1–6 of R81 leave it; 0 where it is dropped. `k` is its slot, `twin` the Twin cap with the voltage in force, `ceil` the ceiling in 0.1 W. -/
def trimEntry (k : Nat) (cv ci : Nat) (twin : Option (Nat × Nat)) (ceil : Nat) (w : Word) : Word :=
  match readPdo w with
  | .fixed v i =>
    let i1 := Min.min i ci
    let i2 := match twin with | some (t, _) => Min.min i1 t | none => i1
    let i3 := if v = 0 then 0 else Min.min i2 (ceil * 2000 / v)
    if k = 0 then setFld w 9 0 (Max.max 10 i3)
    else if cv < v || i3 < 10 then 0
    else setFld w 9 0 i3
  | .pps lo hi i =>
    let hi1 := Min.min hi cv
    let i1 := Min.min i ci
    let i2 := match twin with | some (t, _) => Min.min i1 t | none => i1
    let i3 := if hi1 = 0 then 0 else Min.min i2 (ceil * 2000 / hi1)
    if cv < lo || i3 / 5 * 5 < 10 then 0
    else setFld (setFld w 24 17 (hi1 / 20)) 6 0 (i3 / 5)
  | .avs lo hi p =>
    let hi1 := Min.min hi cv
    let p1 := Min.min p (ci * lo / 20000)
    let p2 := match twin with | some (t, v) => Min.min p1 (ceilDiv (t * v) 20000) | none => p1
    let p3 := Min.min p2 (ceil / 10)
    if cv < lo || p3 < 1 then 0
    else setFld (setFld w 25 17 (hi1 / 20)) 7 0 p3
  | _ => 0

/-- Whether AUTH_MODE 2 restricts the partner to the 5 V entry (R425). -/
def authRestricted (s : State) (l : LaneId) : Bool := s.sec.authMode = 2 && (s.lane l).con.authState ≠ 2

/-- The objects of a capability list, by position, with trailing unused positions left out (R79, R81, R425). -/
def buildList (s : State) (l : LaneId) (epr : Bool) (cap : Option Nat) : List Word :=
  let x := s.lane l
  let twin := cap.map fun t => (t, x.con.volt.toNat)
  let one (k : Nat) (w : Word) : Word :=
    if authRestricted s l && k ≠ 0 then 0
    else trimEntry k (cableV x.cc) (cableI x.cc) twin x.budget.ceil.toNat (if k = 0 then firstPdo x.cfg else w)
  let ws := (List.range 11).map fun k => one k (x.cfg.pdo.toList.getD k 0)
  let cut (n : Nat) (os : List Word) : List Word :=
    os.take (Max.max n ((List.range os.length).foldl (fun m i => if os.getD i 0 ≠ 0 then i + 1 else m) 0))
  if epr then cut 7 ws else cut 0 (ws.take 7)

/-- The Twin cap for a wanted state of the section (R97). -/
def twinCap (x : Lane) (run : Bool) : Option Nat :=
  if x.con.twinOn then some (if run then fld x.cfg.twinRun 9 0 else fld x.cfg.twinStandby 9 0) else none

/-- The base image sends a capability list (R81, R88, R97), but none while discovery repeats after a cable reset (R36). The list becomes the lane's offer when it is sent (R82), and its ceiling is the one that R217 compares with from the moment it is built, also where it then ends Discarded or Failed (DESIGN CHOICE, log 115). -/
def State.sendCaps (s : State) (l : LaneId) (run : Bool) : State :=
  let x := s.lane l
  let os := buildList s l x.con.eprMode (twinCap x run)
  let s1 := s.modCon l fun c => { c with capsCeil := x.budget.ceil, holdT := none }
  if x.cc.discRepeat then s1
  else if x.con.eprMode then
    s1.imageSendExt l true 17 (os.flatMap fun (w : Word) => [w.truncate 8, (w >>> 8).truncate 8, (w >>> 16).truncate 8, (w >>> 24).truncate 8])
  else s1.imageSend l x.con.valid (dataMsg 1 os)

/-- The capability list that follows the present decision of the section (R97). -/
def State.sendCapsNow (s : State) (l : LaneId) : State := s.sendCaps l (s.lane l).sect.want

-- allocation

/-- STANDBY and RUN power at VOLT, in 0.1 W (R102, R207). -/
def standbyPower (x : Lane) : Nat := deciWatt x.con.vc (fld x.cfg.twinStandby 9 0)
def runPower (x : Lane) : Nat := deciWatt x.con.vc (fld x.cfg.twinRun 9 0)

/-- The lane's allocation by the first matching row of R207, in 0.1 W, and the count that R83 holds through a change. -/
def allocation (s : State) (l : LaneId) : Nat :=
  let x := s.lane l
  if !x.cc.attached || !laneLive s l || x.swap.packHold then 0
  else if !x.swap.powerRole || x.swap.holdOn then 0
  else
    let base :=
      if x.con.kind = 3 then deciWatt 1000 x.cfg.rpCurrent
      else if x.con.armState = 1 || x.con.armState = 2 then Max.max (standbyPower x) (runPower x)
      else Max.max 5 (deciWatt x.con.volt.toNat x.con.curr.toNat)
    Max.max base x.budget.counted

-- requests

/-- KIND of an offered object (R84). -/
def pdoKind : Pdo → BitVec 2
  | .fixed _ _ => 0
  | .pps _ _ _ => 1
  | .avs _ _ _ => 2
  | _ => 3

/-- What the base image answers to a Request (R82). -/
inductive ReqAnswer where
  | softReset | reject | wait | waitAndList | accept
deriving DecidableEq, Repr

/-- The first matching row of R82. -/
def judgeRequest (s : State) (l : LaneId) (f : Frame) : ReqAnswer :=
  let x := s.lane l
  let r := obj f 0
  let pos := fld r 31 28
  let o := x.con.offer.getD (pos - 1) 0
  let p := readPdo o
  let (v, i) := readRdo p r
  if isData f 9 ≠ x.con.eprMode then .softReset
  else if pos = 0 || o = 0 then .reject
  else if isData f 9 && obj f 1 ≠ o then .reject
  else if (match p with | .avs _ _ pdp => decide (20000 * pdp < v * i) | _ => decide (pdoMaxI p < i)) then .reject
  else if (match p with
    | .pps lo hi _ => decide (v < lo ∨ hi < v)
    | .avs lo hi _ => decide (v < lo ∨ hi < v ∨ v % 20 ≠ 0)
    | _ => false) then .reject
  else if x.cc.discRepeat && (decide (300 < i) || decide (4000 < v)) then .wait
  else if x.con.armState = 1 || x.con.armState = 2 then .wait
  else if x.budget.ceil.toNat * 2000 < v * i && x.con.vc * (if x.con.kind = 3 then x.cfg.rpCurrent else x.con.curr.toNat) < v * i
    then .waitAndList
  else .accept

/-- The contract change that an accepted Request opens (R83). -/
def changeOf (x : Lane) (f : Frame) : Change :=
  let r := obj f 0
  let pos := fld r 31 28
  let p := readPdo (x.con.offer.getD (pos - 1) 0)
  let (v, i) := readRdo p r
  { epr := x.con.eprMode, kind := pdoKind p, objPos := BitVec.ofNat 4 pos, volt := BitVec.ofNat 14 v, curr := BitVec.ofNat 10 i }

/-- The base image clears ams_hold after the last message of a sequence (R111), unless the next sequence waits to be sent. -/
def State.amsEnd (s : State) (l : LaneId) : State := if serves s l then s.amsFail l else s

/-- The base image answers a Request (R82, R83): an Accept opens the change, counts the larger power and records Capability Mismatch. -/
def State.answerRequest (s : State) (l : LaneId) (f : Frame) : State :=
  let x := s.lane l
  match judgeRequest s l f with
  | .softReset => s.imageSend l false (ctl 13)
  | .reject => s.imageSend l false (ctl 4)
  | .wait => s.imageSend l false (ctl 12)
  | .waitAndList => (s.imageSend l false (ctl 12)).sendCapsNow l
  | .accept =>
    let c := changeOf x f
    let s1 := if bitOf (obj f 0) 26 then s.logSw 0x0105 .lane l.val (obj f 0) 0 0 else s
    let s2 := s1.modCon l fun y => { y with change := some c, rdo := obj f 0 }
    let s3 := s2.modBudget l fun b => { b with counted := Max.max (allocation s l) (Max.max 5 (deciWatt c.volt.toNat c.curr.toNat)) }
    (s3.modPd l fun p => { p with acceptPending := true }).imageSend l false (ctl 3)

/-- The current in force before a change: the contract's, or what RP_LEVEL advertises. -/
def presentI (x : Lane) : Nat := if x.con.valid then x.con.curr.toNat else x.cfg.rpCurrent

/-- The ILIM that R143 gives a contract of a KIND and current on the lane: the TW_ILIM of a Twin lane's RUN or STANDBY contract, of which a PPS contract is neither (R97). -/
def contractIlim (x : Lane) (kind : BitVec 2) (i : Nat) : Nat :=
  if x.con.twinOn && kind ≠ 1 && fld x.cfg.twinRun 9 0 ≤ i then fld x.cfg.twinRun 23 16
  else if x.con.twinOn && kind ≠ 1 && i ≤ fld x.cfg.twinStandby 9 0 then fld x.cfg.twinStandby 23 16
  else ilimFor i

/-- PS_RDY of a contract change is queued (R83 step 3). -/
def State.queuePsRdy (s : State) (l : LaneId) : State :=
  (s.modCon l fun c => { c with change := c.change.map fun d => { d with ready := true, held := false } }).imageSend l false (ctl 6)

/-- Which way a contract change moves a Twin lane's load at PS_RDY (R97, R241). -/
def loadChange (x : Lane) (i : Nat) : Option Bool :=
  if !x.con.twinOn then none
  else
    let run := fld x.cfg.twinRun 9 0
    let was := decide (run ≤ x.con.curr.toNat)
    let now := decide (run ≤ i)
    if was = now then none else some now

/-- LOAD_ON and LOAD_OFF of the partner in ns, or a default where no Mode VDO is held (R90, R239). -/
def loadOnNs (x : Lane) (d : Nat) : Nat := match x.con.vdo with | some w => 100000 * fld w 31 24 | none => d
def loadOffNs (x : Lane) (d : Nat) : Nat := match x.con.vdo with | some w => 100000 * fld w 23 16 | none => d

/-- The partner moves its load at a Twin switch or at a PS_RDY's EOP, `t` (R241): it comes on LOAD_ON later, or goes off LOAD_OFF + 10 µs later; a post whose time has come is no longer pending (R242). -/
def State.loadMoves (s : State) (l : LaneId) (t : Nat) (on : Bool) : State :=
  let x := s.lane l
  (s.modSect l fun y => { y with pending := y.pending && decide (s.dev.dtime < y.postT2) }).loadChanges l
    (t + if on then loadOnNs x 0 else loadOffNs x 0 + 10000) on

/-- VBUS is within the new range: PS_RDY is queued (R83 step 3), or held where the change answers a fallback that has its instant still to come (R104). -/
def State.psReady (s : State) (l : LaneId) : State :=
  let x := s.lane l
  match x.con.change with
  | some d =>
    if x.con.holdT.isSome && (loadChange x d.curr.toNat).isSome then s.modCon l fun c => { c with change := some { d with held := true } }
    else s.queuePsRdy l
  | none => s

/-- A held PS_RDY goes out at its instant T, within the 1 ms of R104, and at latest 285 ms after the Accept's EOP (R83). -/
def State.releaseReady (s : State) (l : LaneId) : State :=
  let x := s.lane l
  if x.con.change.any (fun d => d.held && (decide (d.origin + 284000000 ≤ s.dev.dtime)
      || x.con.holdT.all fun t => decide (t ≤ s.dev.dtime + frameTime 0))) && serves s l then s.queuePsRdy l
  else s

/-- A change of neither voltage nor current (R83). -/
def sameContract (c : ContractLane) (d : Change) : Bool := c.valid && d.volt = c.volt && d.curr = c.curr

/-- The Accept of a Request has drawn its GoodCRC: a Request that changes neither voltage nor current gets PS_RDY directly (R83). -/
def State.acceptSent (s : State) (l : LaneId) : State :=
  let s1 := s.modPd l fun p => { p with acceptPending := false }
  match (s.lane l).con.change with
  | some d => if sameContract (s.lane l).con d then s1.queuePsRdy l else s1
  | none => s1

/-- tSrcTransition ends (R83 step 2): rising limits are applied and the voltage transition begins; where no voltage changes VBUS is in range at once. -/
def execSrcTransition (l : LaneId) (s : State) : Out :=
  let x := s.lane l
  match x.con.change with
  | some d =>
    if d.started && !d.moving && !d.ready && !d.asSink && serves s l then
      let s1 := s.modCon l fun c => { c with change := some { d with moving := true } }
      let s2 := if presentI x < d.curr.toNat then (s1.writeIlim l (contractIlim x d.kind d.curr.toNat)).setFwd l d.curr.toNat else s1
      let s3 := s2.setVset l d.volt.toNat
      if (s3.lane l).conv.ramp then .next s3 else .next (s3.psReady l)
    else .next s
  | none => .next s

/-- KA_KIND of a contract (R85). -/
def kaOf (epr : Bool) (kind : BitVec 2) : BitVec 2 := if kind = 1 then 1 else if epr then 2 else 0

/-- CONTRACT_ACTIVE takes the new contract (R83 step 4, R72, R84, R85, R131), whose PS_RDY ended at `t`; falling limits and the count of the larger power wait for step 5. -/
def State.contractTakes (s : State) (l : LaneId) (t : Nat) : State :=
  let x := s.lane l
  match x.con.change with
  | none => s
  | some d =>
    let falls := d.curr.toNat < presentI x
    let s1 := s.modCon l fun c =>
      { c with valid := true, epr := d.epr, kind := d.kind, objPos := d.objPos, volt := d.volt, curr := d.curr, change := none,
               kaKind := kaOf d.epr d.kind, kaStart := s.dev.dtime, holdT := none, step5 := !sameContract c d,
               fall := if falls then some (BitVec.ofNat 8 (contractIlim x d.kind d.curr.toNat), d.curr) else none }
    let s2 := s1.modPd l fun p => { p with hrCount := 0 }
    let s3 := (s2.modTally l fun t => { t with cv := false, cvDone := false }).modConv l fun c => { c with fallen := false }
    let s4 := if sameContract x.con d then s3.modBudget l fun b => { b with counted := 0 } else s3
    match loadChange x d.curr.toNat with
    | some on => s4.loadMoves l t on
    | none => s4

/-- 30 ms after the PS_RDY's GoodCRC falling limits take their values, and the allocation counts the new contract (R83 step 5). -/
def execContractLimitFall (l : LaneId) (s : State) : Out :=
  if (s.lane l).con.step5 && serves s l then
    let s1 := (s.modCon l fun y => { y with step5 := false, fall := none }).modBudget l fun b => { b with counted := 0 }
    match (s.lane l).con.fall with
    | some (i, c) => .next ((s1.writeIlim l i.toNat).setFwd l c.toNat)
    | none => .next s1
  else .next s

/-- A Request or EPR_Request (R82). -/
def execRequest (l : LaneId) (f : Frame) (s : State) : Out :=
  .next (s.imageReceive l f fun t => if (isData f 2 || isData f 9) && (t.lane l).swap.powerRole then t.answerRequest l f else t)

/-- Record 0x0502 of a shed measure, with SHED (R213, R215, R358). -/
def State.shedRecord (s : State) (l : LaneId) (k : BitVec 3) : State :=
  let s1 := s.modBudget l fun b => { b with shed := k }
  s1.logSw 0x0502 .lane l.val (laneAlloc (s1.lane l).budget) 0 0

/-- The fallback of R104: a capability list with the Twin cap of the wanted contract, whose PS_RDY is held to T, or, with RENEG_LEAD = 0, record 0x0501 and ARM_MISS. Where the arm was a shed to STANDBY, the list with the STANDBY cap is the next measure of R215, whatever RENEG_LEAD. A core that does not serve the lane falls back when it resumes. Every arm that fails falls back, also one that the host wrote, of which R104 does not speak (DESIGN CHOICE, log 115). -/
def State.fallback (s : State) (l : LaneId) : State :=
  let x := s.lane l
  if !x.con.twinOn || x.con.fellBack || x.pd.hrBusy then s
  else if !serves s l then s.modCon l fun c => { c with fallDue := true }
  else
    let s0 := s.modCon l fun c => { c with fellBack := true, fallDue := false }
    if (x.budget.shed = 1 || x.budget.shed = 4) && !x.con.armedTarget && opPoint x.cfg x.con = 2 then
      ((s0.sendCaps l false).shedRecord l 2).modBudget l fun b => { b with shed := if x.budget.shed = 4 then 4 else 2, shedVoid := true }
    else if fld x.cfg.umodeCtrl 23 16 ≠ 0 then
      (s0.sendCaps l x.con.armedTarget).modCon l fun c => { c with holdT := some x.con.armT }
    else
      let s1 := s0.logSw 0x0501 .lane l.val (contractArmed x.cfg x.con) (loWord x.con.armT) (hiWord x.con.armT)
      s1.armMissed l

/-- A Soft_Reset (R83, R101, R104): it voids an arm, whose base image falls back; during a contract change the lane signals Hard Reset, otherwise it is accepted and a source sends its list, which is the fallback's own where there is one. -/
def execSoftReset (l : LaneId) (f : Frame) (s : State) : Out :=
  .next (s.imageReceive l f fun t =>
    if isCtl f 13 then
      if changeRuns (t.lane l) then t.hardReset l
      else
        let t1 := t.imageSend l false { ctl 3 with sop := f.sop }
        if (t.lane l).swap.powerRole && f.sop = .sop then
          if armInForce (s.lane l) then
            if fld (t.lane l).cfg.umodeCtrl 23 16 ≠ 0 then t1.fallback l else (t1.sendCapsNow l).fallback l
          else t1.sendCapsNow l
        else t1
    else t)

/-- Get_Source_Cap of a partner to a source lane (R66, R81). -/
def execGetSourceCap (l : LaneId) (f : Frame) (s : State) : Out :=
  .next (s.imageReceive l f fun t => if isCtl f 7 && (t.lane l).swap.powerRole then t.sendCapsNow l else t)

-- sink contracts

/-- The words of a buffer, as objects. -/
def bufObjects (m : Mem) (n : Nat) : List Word := (List.range n).map fun k => bufRead m (4 * k)

/-- The Fixed object of the highest voltage at most VCONV_MAX: position and object (R116). -/
def bestFixed (vmax : Nat) (os : List Word) : Option (Nat × Word) :=
  (List.range os.length).foldl (fun b k =>
    match readPdo (os.getD k 0) with
    | .fixed v _ =>
      if vmax < v then b
      else match b with
        | some (_, w) => if pdoMaxV (readPdo w) < v then some (k + 1, os.getD k 0) else b
        | none => some (k + 1, os.getD k 0)
    | _ => b) none

/-- The base image requests from a partner's capability list with operating current REV_ILIM, capped at the offered current (R116). -/
def State.requestAsSink (s : State) (l : LaneId) (os : List Word) : State :=
  let x := s.lane l
  match bestFixed (fld x.cfg.vconvMax 13 0) os with
  | none => s
  | some (pos, w) =>
    let p := readPdo w
    let i := Min.min (revIlim x.cfg) (pdoMaxI p)
    let r := packFields [(pos, 28), (i, 10), (i, 0)]
    let d : Change :=
      { epr := x.con.eprMode, kind := 0, objPos := BitVec.ofNat 4 pos, volt := BitVec.ofNat 14 (pdoMaxV p), curr := BitVec.ofNat 10 i, asSink := true }
    let s1 := s.modCon l fun c => { c with change := some d, rdo := r }
    if x.con.eprMode then s1.imageSend l false (dataMsg 9 [r, w]) else s1.imageSend l false (dataMsg 2 [r])

/-- EPR_Mode of an action with data (PD 3.1). -/
def eprModeMsg (action data : Nat) : Frame := dataMsg 10 [packFields [(action, 24), (data, 16)]]

/-- The base image's part of a capability list at a lane that is sink (R116): where the source offers EPR the lane first enters EPR mode, but never with a partner that AUTH_MODE 2 restricts (R425). -/
def State.onSourceCaps (s : State) (l : LaneId) (f : Frame) : State :=
  let x := s.lane l
  if x.swap.powerRole || x.swap.holdOn then s
  else if isData f 1 then
    if bitOf (obj f 0) 23 && !x.con.eprMode && x.con.eprEntry = 0 && !authRestricted s l then
      (s.modCon l fun c => { c with eprEntry := 1 }).imageSend l true (eprModeMsg 1 0)
    else s.requestAsSink l f.objs
  else if isExtended f.header && msgType f.header = 17 then s.requestAsSink l (bufObjects x.pd.rxBuf (exSize (extHeader f) / 4))
  else s

/-- Source_Capabilities, or EPR_Source_Capabilities (R116). -/
def execSourceCapabilities (l : LaneId) (f : Frame) (s : State) : Out := .next (s.imageReceive l f fun t => t.onSourceCaps l f)

/-- The contract as sink comes into force at the source's PS_RDY: the stage draws at most REV_ILIM in reverse (R116, R143, R189). -/
def State.sinkContract (s : State) (l : LaneId) : State :=
  match (s.lane l).con.change with
  | some d =>
    if d.asSink then
      let s1 := s.contractTakes l s.dev.dtime
      let s2 := s1.modCon l fun c => { c with fall := none, eprEntry := 0 }
      let r := revIlim (s.lane l).cfg
      ((s2.writeIlim l (ilimFor r)).setRev l r).reverseStart l
    else s
  | none => s

-- keep-alive

/-- EPR_KeepAlive of the partner (R85): the deadline restarts at reception, and the answer is EPR_KeepAlive_Ack. -/
def execEprKeepalive (l : LaneId) (f : Frame) (s : State) : Out :=
  .next (s.imageReceive l f fun t => if isExtCtl f 3 then t.imageSendExt l false 16 [4, 0] else t)

/-- A source's keep-alive deadline expires: the contract source is posted and the lane signals Hard Reset (R85, R268). -/
def execKeepaliveMissed (l : LaneId) (s : State) : Out :=
  let x := s.lane l
  if x.con.kaKind ≠ 0 && x.swap.powerRole && !x.swap.holdOn then .next ((s.postLane l 3).hardReset l) else .next s

/-- A sink's keep-alive timer ends (R86). -/
def execSinkKeepalive (l : LaneId) (s : State) : Out :=
  let x := s.lane l
  if x.swap.powerRole || !x.con.valid || x.swap.holdOn then .next s
  else if x.con.kaKind = 2 then .next (s.hwSend l (.keepalive false) false (extCtl 3))
  else if x.con.kaKind = 1 then
    match x.pd.lastRequest with
    | some r => .next (s.hwSend l (.keepalive false) false r)
    | none => .next s
  else .next s

-- EPR entry

/-- The failure reason of EPR entry judged at step 1 of R88, in the order listed; none where entry goes on. The cable reason is judged later. -/
def eprRefusal (s : State) (l : LaneId) : Option Nat :=
  let x := s.lane l
  if !x.con.valid || !bitOf x.con.rdo 22 then some 3
  else if (List.range 4).all (fun k => x.cfg.pdo.toList.getD (7 + k) 0 = 0) then some 5
  else if !x.swap.vconnRole && !(x.cfg.harness && fld x.cfg.ccCtrl 11 10 = 2) then some 2
  else if x.budget.ceil.toNat < 1000 || authRestricted s l then some 4
  else none

/-- Step 4 of R88: Enter Succeeded, or Enter Failed with the cable reason. -/
def State.eprDecide (s : State) (l : LaneId) : State :=
  let s1 := s.modCon l fun c => { c with eprEntry := if (s.lane l).cc.cableEpr then 2 else 0 }
  if (s.lane l).cc.cableEpr then s1.imageSend l false (eprModeMsg 3 0) else s1.imageSend l false (eprModeMsg 4 1)

/-- The base image's part of an EPR_Mode from the partner (R88, R116, R425). -/
def State.onEprMode (s : State) (l : LaneId) (f : Frame) : State :=
  let x := s.lane l
  if !isData f 10 then s
  else match fld (obj f 0) 31 24 with
  | 1 =>
    if !x.swap.powerRole then s
    else match eprRefusal s l with
      | some r => s.imageSend l false (eprModeMsg 4 r)
      | none =>
        let s1 := (s.modCon l fun c => { c with eprEntry := 1 }).imageSend l false (eprModeMsg 2 0)
        if !x.cc.cableValid && x.cc.vconnOn then s1.startDiscovery l true else s1.eprDecide l
  | 3 => if x.swap.powerRole || authRestricted s l then s else s.modCon l fun c => { c with eprMode := true, eprEntry := 0 }
  | 4 =>
    if x.swap.powerRole then s
    else
      let s1 := s.modCon l fun c => { c with eprEntry := 0 }
      match x.con.rxCaps with
      | some g => s1.requestAsSink l g.objs
      | none => s1
  | 5 =>
    let s1 := s.modCon l fun c => { c with eprMode := false, eprEntry := 0, kaKind := if c.kind = 1 then 1 else 0 }
    if x.swap.powerRole then s1.sendCapsNow l else s1
  | _ => s

/-- EPR_Mode from the partner (R88, R116). -/
def execEprMode (l : LaneId) (f : Frame) (s : State) : Out := .next (s.imageReceive l f fun t => t.onEprMode l f)

-- Urkai messages

/-- PD_SVID; absent as 0 when the field is 0 or 0xFF00 (R410). -/
def pdSvid (s : State) : Nat :=
  let v := fld s.sec.shadow[256] 15 0
  if v = 0xFF00 then 0 else v

/-- A structured VDM REQ on SOP with version 2.0 and object position p (R91). -/
def vdmReq (svid cmd p : Nat) (vdos : List Word) : Frame :=
  dataMsg 15 (packFields [(svid, 16), (1, 15), (1, 13), (p, 8), (cmd, 0)] :: vdos)

/-- An answer to a structured VDM: the same header with a Command Type. -/
def vdmAnswer (f : Frame) (type : Nat) (vdos : List Word) : Frame :=
  { dataMsg 15 (setFld (obj f 0) 7 6 type :: vdos) with sop := f.sop }

/-- A command of the base image's sequence is sent and awaits its answer (R89). -/
def State.seqSend (s : State) (l : LaneId) (k : UrkaiStep) (f : Frame) : State :=
  (s.modCon l fun c => { c with seq := k, seqWait := true, seqTries := if c.seq = k then c.seqTries + 1 else 1,
                                packRead := c.packRead || k = .recRead }).imageSend l true f

/-- The command of a step (R89, R91, R117, R118, R135). -/
def seqFrame (s : State) (l : LaneId) : UrkaiStep → Frame
  | .identity => vdmReq 0xFF00 1 0 []
  | .svids => vdmReq 0xFF00 2 0 []
  | .modes => vdmReq (pdSvid s) 3 0 []
  | .enterMode => vdmReq (pdSvid s) 4 1 []
  | .exitMode => vdmReq (pdSvid s) 5 1 []
  | .twinSet => vdmReq (pdSvid s) 18 1 [BitVec.ofNat 32 (fld (s.lane l).cfg.twinStandby 9 0), BitVec.ofNat 32 (fld (s.lane l).cfg.twinRun 9 0)]
  | .sinkCap => ctl 8
  | .holdSet => vdmReq (pdSvid s) 21 1 [BitVec.ofNat 32 (revIlim (s.lane l).cfg)]
  | .recRead => vdmReq (pdSvid s) 22 1 [0]
  | .recWrite => vdmReq (pdSvid s) 23 1 [0, (s.lane l).con.recValue]
  | .recCommit => vdmReq (pdSvid s) 24 1 [0]
  | _ => ctl 0

/-- Sends the command of a step. -/
def State.seqStep (s : State) (l : LaneId) (k : UrkaiStep) : State := s.seqSend l k (seqFrame s l k)

/-- A Security_Request of the authentication exchange (R424; message forms of the USB Type-C Authentication specification, PRESUMED, log 20). -/
def State.authSend (s : State) (l : LaneId) (k : UrkaiStep) (bytes : List Byte) : State :=
  (s.modCon l fun c => { c with seq := k, seqWait := true, seqTries := 1 }).imageSendExt l true 8 bytes

/-- Whether an authentication root slot is present (R410, R423). -/
def rootPresent (s : State) (first : Nat) : Bool := (List.range 8).all fun k => let w := s.sec.wstat.toList.getD (first + k) 0; w = 1 || w = 2

/-- dev.vsys_warn has stayed 0 for 1 s (R136). -/
def vsysCalm (s : State) : Bool := !s.dev.vsysWarn && s.dev.vsysRose.all fun t => decide (t + 1000000000 ≤ s.dev.dtime)

/-- A pack write that waits is begun: one of a capacity learned while another command waited for its answer (R135), or one that was cancelled, once dev.vsys_warn has stayed 0 for 1 s (R136). -/
def State.recNext (s : State) (l : LaneId) : State :=
  let c := (s.lane l).con
  if c.recRetry && c.urkai && !c.seqWait && vsysCalm s && serves s l then (s.modCon l fun c => { c with recRetry := false }).seqStep l .recWrite
  else s

/-- The authentication exchange ends with a state, in AUTH_STATUS and record 0x0806 (R424). -/
def State.authEnd (s : State) (l : LaneId) (st : BitVec 4) (root : Bool) : State :=
  let s1 := (s.amsEnd l).modCon l fun c =>
    { c with seq := .done, seqWait := false, authState := st, authRoot := root, authFails := if st = 3 then satInc c.authFails else c.authFails,
             authChain := [], authAsked := [] }
  let s2 := s1.logSw 0x0806 .lane l.val (authStatus (s1.lane l).con) 0 0
  (if st = 2 && s.sec.authMode = 2 && (s.lane l).swap.powerRole then s2.sendCapsNow l else s2).recNext l

/-- With AUTH_MODE 1 or 2 a partner with an explicit contract is still to be authenticated (R424). -/
def authDue (s : State) (l : LaneId) : Bool :=
  (s.sec.authMode = 1 || s.sec.authMode = 2) && (s.lane l).con.authState = 0 && (s.lane l).con.valid

/-- The authentication exchange starts with GET_DIGESTS, or ends at once with no root present (R424). -/
def State.authBegin (s : State) (l : LaneId) : State :=
  if !rootPresent s 138 && !rootPresent s 146 then s.authEnd l 5 false
  else (s.modCon l fun c => { c with authState := 1 }).authSend l .digests [0x01, 0x81, 0, 0]

/-- The sequence of R89 ends; with AUTH_MODE 1 or 2 the authentication exchange follows (R424), and then a pack write that waited (R135). -/
def State.seqEnd (s : State) (l : LaneId) : State :=
  let s1 := (s.amsEnd l).modCon l fun c => { c with seq := .done, seqWait := false }
  if authDue s l then s1.authBegin l else s1.recNext l

/-- The steps that follow the Twin set-up on a pack lane: Get_Sink_Cap (R118), or the end. -/
def State.seqPack (s : State) (l : LaneId) : State := if isPack (s.lane l) then s.seqStep l .sinkCap else s.seqEnd l

/-- What follows a command that ends without its ACK. R89 ends its own steps there; the pack steps of R118 and R135 do not depend on TWIN_SET, nor REC_READ on Get_Sink_Cap and HOLD_SET. -/
def State.seqNext (s : State) (l : LaneId) : State :=
  let c := (s.lane l).con
  match c.seq with
  | .twinSet => s.seqPack l
  | .sinkCap => if c.packRead then s.seqEnd l else s.seqStep l .recRead
  | .holdSet => if c.packRead then s.seqEnd l else s.seqStep l .recRead
  | _ => s.seqEnd l

/-- The base image starts the sequence of R89 once a source and DFP holds its first explicit contract. A lane of another role has no sequence, and its partner's authentication follows the contract at once (R424). -/
def execUrkaiDiscovery (l : LaneId) (s : State) : Out :=
  let x := s.lane l
  if x.con.valid && serves s l && x.cc.attached then
    if x.swap.powerRole && x.swap.dataRole then
      .next (if x.con.seqRun then s else (s.modCon l fun c => { c with seqRun := true }).seqStep l .identity)
    else .next (if authDue s l && !x.con.seqWait then s.authBegin l else s)
  else .next s

/-- Twin applies: the Mode VDO offers Twin Contract and Time Mark with TWIN_EN = 1 (R89). -/
def twinOffered (x : Lane) (m : Word) : Bool := bitOf m 1 && bitOf m 2 && bitOf x.cfg.umodeCtrl 0

/-- Row Link applies: the Mode VDO has RL_CAP with ROWLINK_EN = 1 (R89, R92). -/
def rowLinkOffered (x : Lane) (m : Word) : Bool := bitOf m 0 && bitOf x.cfg.umodeCtrl 1

/-- The partner shows its Mode VDO (R90), with PACK among its bits (R126). -/
def State.learnModes (s : State) (l : LaneId) (m : Word) : State :=
  (s.modCon l fun c => { c with modeVdo := some m }).modSwap l fun w => { w with packSeen := bitOf m 3 }

/-- The partner ACKs Enter Mode: the lane is in the Urkai mode, whichever image asked for it (R92, R93, R118). -/
def State.urkaiEntered (s : State) (l : LaneId) : State :=
  (s.modCon l fun c => { c with urkai := true, packRead := false }).modSwap l fun w => { w with holdAgreed := false }

/-- The base image's part of the ACK to Enter Mode: ALTENn may be driven high (R92); TWIN_SET or the pack steps follow (R89, R118). -/
def State.enterUrkai (s : State) (l : LaneId) : State :=
  let x := s.lane l
  let m := x.con.modeVdo.getD 0
  let s1 := s.modCon l fun c => { c with rowLink := rowLinkOffered x m, seqWait := false }
  if twinOffered x m then s1.seqStep l .twinSet else s1.seqPack l

/-- The base image's part of the ACK to TWIN_SET: the feed-forward set-up and a capability list follow (R97, R193). -/
def State.twinSetUp (s : State) (l : LaneId) : State :=
  let x := s.lane l
  let m := x.con.modeVdo.getD 0
  let s1 := s.modCon l fun c => { c with seqWait := false }
  let s2 := s1.modCfg l fun c => { c with convFf := packFields [(1, 16), (fld m 23 16, 8), (fld m 31 24, 0)] }
  (s2.sendCapsNow l).seqPack l

/-- The partner ACKs the device's Exit Mode (R92, R93, R97, R105). -/
def State.exitUrkai (s : State) (l : LaneId) : State := ((s.endUrkai l).modCon l fun c => { c with seqWait := false, seq := .done }).amsEnd l

/-- A lane with PD_SVID present and a structured VDM answer of it to a command. -/
def urkaiAnswer (s : State) (f : Frame) (cmd : Nat) : Bool := isSvdm f && f.sop = .sop && pdSvid s ≠ 0 && vdmSvid f = pdSvid s && vdmCmd f = cmd && vdmType f ≠ 0

/-- An answer to the command of the sequence that is not an ACK: a BUSY is repeated up to three sends, anything else ends the command (R89). The commands of R117 and R135 repeat on BUSY as those of the sequence do, REC_WRITE and REC_COMMIT excepted (DEDUCED, log 89). -/
def State.seqRefused (s : State) (l : LaneId) (f : Frame) : State :=
  let c := (s.lane l).con
  if vdmType f = 3 && c.seqTries < 3 then s.seqStep l c.seq else s.seqNext l

/-- The conditions under which frs_arm may be set (R118). -/
def frsMay (x : Lane) : Bool :=
  x.swap.powerRole && x.con.valid && bitOf x.cfg.swapCtrl 0 && x.swap.holdAgreed && x.swap.state = 0 && !x.swap.packHold && !x.pd.hrBusy

/-- A core write of 1 to frs_arm (R118). -/
def State.armFrs (s : State) (l : LaneId) : State := if frsMay (s.lane l) then s.modSwap l fun w => { w with frsArm := true } else s

/-- Answers to the sequence's commands (R89, R118, R135). The hold current that an ACK to HOLD_SET echoes and the record index that one to REC_READ echoes are not compared (DESIGN CHOICE, log 108). -/
def State.seqAnswer (s : State) (l : LaneId) (f : Frame) : State :=
  let x := s.lane l
  if !x.con.seqWait then s
  else match x.con.seq with
  | .identity => if vdmType f = 1 then s.seqStep l .svids else s.seqRefused l f
  | .svids =>
    if vdmType f = 1 then
      if pdSvid s ≠ 0 && f.objs.tail.any (fun (w : Word) => fld w 31 16 = pdSvid s || fld w 15 0 = pdSvid s) then s.seqStep l .modes else s.seqEnd l
    else s.seqRefused l f
  | .modes =>
    if vdmType f = 1 then
      let m := obj f 1
      if (rowLinkOffered x m || twinOffered x m) && !authRestricted s l then s.seqStep l .enterMode else s.seqEnd l
    else s.seqRefused l f
  | .enterMode => if vdmType f = 1 then s.enterUrkai l else s.seqRefused l f
  | .exitMode => if vdmType f = 1 then s.exitUrkai l else s.seqRefused l f
  | .twinSet => if vdmType f = 1 then s.twinSetUp l else s.seqRefused l f
  | .holdSet =>
    if vdmType f = 1 then
      (s.armFrs l).seqNext l
    else s.seqRefused l f
  | .recRead =>
    if vdmType f = 1 then
      let v := obj f 2
      let s1 := s.logSw 0x0403 .lane l.val 0 v 0
      (if x.tally.cap = 0 && v ≠ 0 then s1.modTally l fun t => { t with cap := v } else s1).seqEnd l
    else s.seqRefused l f
  | .recWrite => if vdmType f = 1 then s.seqStep l .recCommit else s.seqEnd l
  | _ => s

/-- A failed exchange: TM_LOCK falls at the second in a row (R93). -/
def State.tmFailed (s : State) (l : LaneId) : State :=
  s.modCon l fun c => { c with tmPhase := .idle, tmFails := c.tmFails + 1, tmLock := c.tmLock && decide (c.tmFails + 1 < 2) }

/-- A Time Mark exchange under way fails, and a sequence that a TWIN_ARM or TWIN_DISARM opened has had its last message (R93, R111). -/
def State.twinTimeout (s : State) (l : LaneId) : State :=
  let c := (s.lane l).con
  let s1 := if c.tmPhase ≠ .idle then s.tmFailed l else s
  if c.armCmd.isSome then s1.amsEnd l else s1

/-- 27 ms with no answer end what awaits one on the lane: a Time Mark exchange (R93), a TWIN_ARM or TWIN_DISARM (R111), and the command of the sequence (R89, R91, R136, R424). An unanswered REC_COMMIT is recorded commit-uncertain, and an unanswered GET_DIGESTS ends the exchange unsupported. The row does not say which of several it ends: all (DESIGN CHOICE, log 116). -/
def execUrkaiResponseTimeout (l : LaneId) (s0 : State) : Out :=
  let c := (s0.lane l).con
  let s := s0.twinTimeout l
  if c.seqWait && serves s l then
    match c.seq with
    | .recCommit =>
      .next ((((s.logFlags 0x40 0x0404 .lane l.val 0 c.recValue 1).modCon l fun c => { c with seq := .done, seqWait := false }).amsEnd l).recNext l)
    | .digests => .next (s.authEnd l 4 false)
    | .certificate => .next (s.authEnd l 3 false)
    | .challenge => .next (s.authEnd l 3 false)
    | _ => .next (s.seqNext l)
  else .next s

/-- The Length of a certificate chain, which its first two bytes give (USB Type-C Authentication specification, PRESUMED, log 11). -/
def chainLength (c : List Byte) : Nat := (c.getD 0 0).toNat + 256 * (c.getD 1 0).toNat

/-- The next part of the chain of slot 0 (R424): its header of 4 bytes first, which gives the Length, then at most 240 bytes at a time. -/
def State.askChain (s : State) (l : LaneId) : State :=
  let c := (s.lane l).con.authChain
  let n := if c.length < 4 then 4 - c.length else Min.min 240 (chainLength c - c.length)
  s.authSend l .certificate
    [0x01, 0x82, 0, 0, BitVec.ofNat 8 c.length, BitVec.ofNat 8 (c.length / 256), BitVec.ofNat 8 n, BitVec.ofNat 8 (n / 256)]

/-- The bytes of a digest, most significant first (FIPS 180-4). -/
def digestBytes (h : BitVec 256) : List Byte := (List.range 32).map fun i => (h >>> (8 * (31 - i))).truncate 8

/-- A digest as eight fuse words: its bytes in order, little-endian in each word. -/
def digestWords (h : BitVec 256) : List Word := (List.range 8).map fun k => wordAt ((digestBytes h).drop (4 * k))

/-- The slot whose root a chain's root certificate matches (R423): a present one that equals its SHA-256. -/
def chainSlot (s : State) (chain : List Byte) : Option Bool :=
  let d := Config.sha256 (Config.chainRoot chain)
  let holds (first : Nat) : Bool := rootPresent s first && digestWords d = (s.sec.shadow.toList.drop first).take 8
  if holds 138 then some false else if holds 146 then some true else none

/-- A certificate chain is valid (R423): its root is a trust anchor, and every signature in it verifies. -/
def chainValid (s : State) (chain : List Byte) : Bool :=
  (chainSlot s chain).isSome && (Config.chainLinks chain).all fun k => Config.ecdsaVerify k.1 (Config.sha256 k.2.1) k.2.2

/-- Bytes of the signature that ends a CHALLENGE_AUTH. -/
def authSignature : Nat := 64

/-- A CHALLENGE_AUTH verifies with the leaf certificate's key (R424): its signature stands over the CHALLENGE and the rest of the answer (USB Type-C Authentication specification, PRESUMED, log 11). -/
def challengeHolds (chain asked answer : List Byte) : Bool :=
  decide (authSignature < answer.length) && answer.getD 1 0 = 0x03
    && Config.ecdsaVerify (Config.chainLeaf chain) (Config.sha256 (asked ++ answer.take (answer.length - authSignature)))
      (answer.drop (answer.length - authSignature))

/-- CHALLENGE with a 32-byte nonce of the security block's random source (R424). -/
def State.authChallenge (s : State) (l : LaneId) : State :=
  let (a, s1) := s.free
  let (b, s2) := s1.free
  let bytes (n : BitVec 128) : List Byte := (List.range 16).map fun i => ((n >>> (8 * i)).truncate 8 : Byte)
  let q : List Byte := [0x01, 0x83, 0, 0] ++ bytes a ++ bytes b
  (s2.modCon l fun c => { c with authAsked := q }).authSend l .challenge q

/-- An answer of the partner to Security_Requests of the exchange, or its Not_Supported (R424). A chain that is not valid ends the exchange as soon as it has been read. -/
def State.authAnswer (s : State) (l : LaneId) (f : Frame) (supported : Bool) : State :=
  let c := (s.lane l).con
  let body := memBytes (s.lane l).pd.rxBuf 0 (exSize (extHeader f))
  match c.seq with
  | .digests => if supported then (s.modCon l fun c => { c with authChain := [] }).askChain l else s.authEnd l 4 false
  | .certificate =>
    let part := body.drop 4
    let chain := c.authChain ++ part
    if !supported || part = [] || body.getD 1 0 ≠ 0x02 then s.authEnd l 3 false
    else
      let s1 := s.modCon l fun c => { c with authChain := chain }
      if chain.length < 4 || chain.length < chainLength chain then s1.askChain l
      else if chainValid s chain then s1.authChallenge l
      else s1.authEnd l 3 false
  | .challenge =>
    if supported && challengeHolds c.authChain c.authAsked body then s.authEnd l 2 ((chainSlot s c.authChain).getD false) else s.authEnd l 3 false
  | _ => s

/-- A Security_Request of the partner is answered with Not_Supported (R423). -/
def execSecurityRequest (l : LaneId) (f : Frame) (s : State) : Out :=
  .next (s.imageReceive l f fun t => if isExtended f.header && msgType f.header = 8 then t.imageSend l false (ctl 16) else t)

/-- The device's identity VDOs (R89). -/
def identityVdos (s : State) : List Word :=
  [packFields [(2, 21), (pdSvid s, 0)], 0, packFields [(0x3248, 16), (fld s.image.runVer 31 16, 0)]]

/-- A structured VDM REQ of the partner (R89): Discover Identity and Discover SVIDs are ACKed, every other command is NAKed, also those that R89 does not name (DESIGN CHOICE, log 86). -/
def State.answerVdm (s : State) (l : LaneId) (f : Frame) : State :=
  if isSvdm f && vdmType f = 0 && f.sop = .sop then
    if vdmCmd f = 1 && vdmSvid f = 0xFF00 then s.imageSend l false (vdmAnswer f 1 (identityVdos s))
    else if vdmCmd f = 2 && vdmSvid f = 0xFF00 then s.imageSend l false (vdmAnswer f 1 [0])
    else s.imageSend l false (vdmAnswer f 2 [])
  else s

/-- Discover Identity, or another structured VDM REQ, of the partner (R89). -/
def execDiscoverIdentity (l : LaneId) (f : Frame) (s : State) : Out := .next (s.imageReceive l f fun t => t.answerVdm l f)

/-- An answer of PD_SVID to a command with a part of lane hardware, `hw`, at its ACK, which needs no core, and a part of the base image, which takes the message where the core serves. -/
def State.urkaiReceive (s : State) (l : LaneId) (f : Frame) (cmd : Nat) (hw image : State → State) : State :=
  match s.receive l f with
  | (.stored, s1) =>
    let s2 := if urkaiAnswer s1 f cmd && vdmType f = 1 then hw s1 else s1
    if serves s2 l then (let t := s2.takeNewest l; if urkaiAnswer t f cmd then image t else t) else s2
  | (_, s1) => s1

/-- An answer to Enter Mode: the lane is in the Urkai mode at its ACK (R92, R93). -/
def execEnterModeAck (l : LaneId) (f : Frame) (s : State) : Out :=
  .next (s.urkaiReceive l f 4 (fun t => t.urkaiEntered l) fun t => if (t.lane l).con.seq = .enterMode then t.seqAnswer l f else t)

/-- An answer to the device's Exit Mode: the Urkai mode ends at its ACK (R93, R97, R105); ALTENn is the core's to drive low (R92). -/
def execExitModeAck (l : LaneId) (f : Frame) (s : State) : Out :=
  let link := (s.lane l).con.rowLink
  .next (s.urkaiReceive l f 5 (fun t => (t.endUrkai l).modCon l fun c => { c with rowLink := link })
    fun t => if vdmType f = 1 then t.exitUrkai l else t)

/-- An answer to TWIN_SET: TWIN_ON at its ACK (R97). -/
def execTwinSetAck (l : LaneId) (f : Frame) (s : State) : Out :=
  .next (s.urkaiReceive l f 18 (fun t => t.modCon l fun c => { c with twinOn := c.twinOn || c.urkai })
    fun t => if (t.lane l).con.seq = .twinSet then t.seqAnswer l f else t)

-- Time Mark

/-- A Time Mark exchange may start (R93). -/
def tmMay (s : State) (l : LaneId) : Bool :=
  let x := s.lane l
  bitOf (x.con.vdo.getD 0) 2 && x.swap.powerRole && fld x.cfg.umodeCtrl 11 8 ≠ 0 && x.pd.queue.isEmpty && x.pd.fifo.isEmpty
    && x.pd.reasm.isNone && !x.pd.hrBusy && x.con.tmPhase = .idle && !(x.pd.hwq.any fun m => m.kind = .tmMark) && s.live

/-- A TM_PERIOD has passed: lane hardware sends TM_MARK (R91, R93). -/
def execTimeMark (l : LaneId) (s : State) : Out :=
  if tmMay s l then
    let q := (s.lane l).con.tmSeq + 1
    .next ((s.modCon l fun c => { c with tmSeq := q }).hwSend l .tmMark true (vdmReq (pdSvid s) 16 1 [q.zeroExtend 32]))
  else .next s

/-- The partner's answer to TM_MARK: after an ACK TM_FOLLOW carries t_mark (R93). -/
def State.tmMarkAnswer (s : State) (l : LaneId) (f : Frame) : State :=
  let c := (s.lane l).con
  if c.tmPhase ≠ .markSent then s
  else if vdmType f = 1 then s.hwSend l .tmFollow false (vdmReq (pdSvid s) 17 1 [c.tmSeq.zeroExtend 32, loWord c.tMark, hiWord c.tMark])
  else s.tmFailed l

/-- The partner's answer to TM_FOLLOW sets or clears TM_LOCK (R93). The sequence number that the ACK echoes is not compared (DESIGN CHOICE, log 87). -/
def State.tmFollowAnswer (s : State) (l : LaneId) (f : Frame) : State :=
  let c := (s.lane l).con
  if c.tmPhase ≠ .followSent then s
  else if vdmType f = 1 then
    let v := obj f 1
    let ok := bitOf v 0 && decide (fld v 15 8 ≤ 20)
    s.modCon l fun c => { c with tmPhase := .idle, tmFails := 0, tmLock := ok }
  else s.tmFailed l

/-- The answer to TM_FOLLOW, which lane hardware consumes (R93). -/
def execTmFollowAck (l : LaneId) (f : Frame) (s : State) : Out :=
  match s.receive l f with
  | (.stored, s1) => if urkaiAnswer s1 f 17 then .next ((s1.takeNewest l).tmFollowAnswer l f) else .next s1
  | (_, s1) => .next s1

-- Twin switches

/-- T of the arm, from ARM_TIME_HI and ARM_TIME_LO (R98). -/
def armTime (c : LaneCfg) : Nat := c.armTimeHi.toNat * 2 ^ 32 + c.armTimeLo.toNat

/-- A write of ARM = 1 is refused with VOID_CAUSE 3 (R99). -/
def armRefused (s : State) (l : LaneId) (target : Bool) : Bool :=
  let x := s.lane l
  let t := armTime x.cfg
  let op := opPoint x.cfg x.con
  !x.con.twinOn || !x.con.tmLock || decide (t < s.dev.dtime + 5000000) || decide (s.dev.dtime + 2000000000 < t) || op = (if target then 2 else 1)
    || op = 0 || x.pd.hrBusy || !(x.cc.attached && x.swap.powerRole)

/-- TWIN_ARM or TWIN_DISARM of the base image, carrying the register's values (R91, R98). A core that does not serve the lane sends it when it resumes. -/
def State.sendTwin (s : State) (l : LaneId) (cmd : BitVec 5) : State :=
  if serves s l then
    let c := (s.lane l).con
    let s1 := s.modCon l fun c => { c with armCmd := some cmd }
    if cmd = 19 then
      s1.imageSend l true (vdmReq (pdSvid s) 19 1 [packFields [(b2n c.target, 8), (c.armId.toNat, 0)], loWord c.armT, hiWord c.armT])
    else s1.imageSend l true (vdmReq (pdSvid s) 20 1 [packFields [(c.armId.toNat, 0)]])
  else s.modCon l fun c => { c with twinOwed := c.twinOwed ++ [cmd] }

/-- An arm in force is voided, and the base image falls back (R101, R104). -/
def State.voidBack (s : State) (l : LaneId) (cause : BitVec 2) : State :=
  if armInForce (s.lane l) then (s.voidArm l cause).fallback l else s

/-- DISARM = 1 (R98, R99, R101): ARM_STATE keeps, the source is posted and the base image sends TWIN_DISARM while an arm is in force. -/
def State.disarm (s : State) (l : LaneId) : State :=
  let c := (s.lane l).con
  if c.armState = 1 || c.armState = 2 then (s.postLane l 3).sendTwin l 20 else s

/-- ARM = 1 (R98, R99), with the ARM_ID and TARGET written. -/
def State.arm (s : State) (l : LaneId) (id : BitVec 4) (target : Bool) : State :=
  let c := (s.lane l).con
  if c.armState = 1 || c.armState = 2 then s
  else
    let bad := armRefused s l target
    let s1 := s.modCon l fun c =>
      { c with armId := id, target := target, armedId := id, armedTarget := target, armT := armTime (s.lane l).cfg, armAt := s.dev.dtime, fellBack := false, fallDue := false,
               twinOwed := [] }
    if bad then
      let s2 := s1.modCon l fun c => { c with armState := 4, voidCause := 3, voidCnt := if c.voidCnt = 63 then 63 else c.voidCnt + 1 }
      (if c.armState = 4 then s2 else s2.postLane l 3).fallback l
    else ((s1.modCon l fun c => { c with armState := 1 }).postLane l 3).sendTwin l 19

/-- A write of CONTRACT_ARMED stores ARM_ID and TARGET (R6, R98), then acts as DISARM, then as ARM, which takes them for its arm (R99). -/
def State.storeArmed (s : State) (l : LaneId) (v : Word) : State :=
  let s0 := s.modCon l fun c => { c with armId := BitVec.ofNat 4 (fld v 27 24), target := bitOf v 23 }
  let s1 := if bitOf v 17 then s0.disarm l else s0
  if bitOf v 16 then s1.arm l (BitVec.ofNat 4 (fld v 27 24)) (bitOf v 23) else s1

/-- The partner's answer to TWIN_ARM, which lane hardware recognises by SVID, command and ARM_ID (R98, R100). -/
def State.twinArmAnswer (s : State) (l : LaneId) (f : Frame) : State :=
  let c := (s.lane l).con
  if c.armState ≠ 1 then s
  else if vdmType f = 1 then
    if fld (obj f 1) 3 0 = c.armedId.toNat && decide (s.dev.dtime + 100000 ≤ c.armT) then
      (s.modCon l fun c => { c with armState := 2, armCmd := none }).postLane l 3
    else s
  else (s.voidArm l 1).fallback l

/-- An answer to TWIN_ARM (R100). -/
def execTwinArmAck (l : LaneId) (f : Frame) (s : State) : Out :=
  match s.receive l f with
  | (.stored, s1) =>
    if urkaiAnswer s1 f 19 then .next ((if serves s1 l then (s1.takeNewest l).amsEnd l else s1).twinArmAnswer l f) else .next s1
  | (_, s1) => .next s1

/-- An answer to TWIN_DISARM: an ACK at least 100 µs before T cancels the switch (R101). -/
def State.twinDisarmAnswer (s : State) (l : LaneId) (f : Frame) : State :=
  let c := (s.lane l).con
  if (c.armState = 1 || c.armState = 2) && vdmType f = 1 && fld (obj f 1) 3 0 = c.armedId.toNat && decide (s.dev.dtime + 100000 ≤ c.armT) then
    (s.modCon l fun c => { c with armState := 5, armCmd := none }).postLane l 3
  else s

/-- An answer to TWIN_DISARM (R101). -/
def execTwinDisarmAck (l : LaneId) (f : Frame) (s : State) : Out :=
  match s.receive l f with
  | (.stored, s1) =>
    if urkaiAnswer s1 f 20 then .next ((if serves s1 l then (s1.takeNewest l).amsEnd l else s1).twinDisarmAnswer l f) else .next s1
  | (_, s1) => .next s1

/-- T − 100 µs with ARM_STATE still 1 (R100): the sequence of its TWIN_ARM is over (R111), and the fallback of R104 follows. -/
def execArmDeadline (l : LaneId) (s : State) : Out :=
  if (s.lane l).con.armState = 1 then .next ((s.amsEnd l).voidBack l 2) else .next s

/-- What arms left to the base image while the core did not serve (R98, R104): the TWIN_ARM and TWIN_DISARM of the arm still in force, and the fallback of a voided one. An arm that was voided meanwhile draws no message (DESIGN CHOICE, log 109). -/
def State.armResume (s : State) (l : LaneId) : State :=
  let c := (s.lane l).con
  if !serves s l then s
  else
    let s1 := s.modCon l fun c => { c with twinOwed := [], fallDue := false }
    if armInForce (s.lane l) then s1.forEach c.twinOwed fun st cmd => st.sendTwin l cmd
    else if c.fallDue then s1.fallback l
    else s1

/-- 40 ms after the ARM write with ARM_STATE still 1 the base image writes DISARM and falls back (R104). -/
def State.armLate (s : State) (l : LaneId) : State :=
  let c := (s.lane l).con
  if c.armState = 1 && !c.fellBack && decide (c.armAt + 40000000 ≤ s.dev.dtime) && serves s l then (s.disarm l).fallback l else s

/-- Whether the first step of a switch may be done (R103). -/
def switchMay (x : Lane) : Bool := x.belay.sw = 2 && !x.pd.hrBusy

/-- Step 1 of a switch to RUN: the RUN limits (R103). A SHED_ILIM written within the last millisecond holds ILIM_EFF from here on (R167). -/
def State.runLimits (s0 : State) (l : LaneId) : State :=
  let x := s0.lane l
  let s := if x.belay.shedPending then
      s0.modBelay l fun b => { b with shedApplied := BitVec.ofNat 8 (shedField x.cfg), shedPending := false }
    else s0
  ((s.writeIlim l (fld x.cfg.twinRun 23 16)).setFwd l (fld x.cfg.twinRun 9 0)).modCon l fun c => { c with runStep := true }

/-- T − 10 µs before an armed switch to RUN (R103). -/
def execRunLimit (l : LaneId) (s : State) : Out :=
  let x := s.lane l
  if x.con.armState = 2 && x.con.armedTarget && !x.con.runStep then
    if switchMay x then .next (s.runLimits l) else .next (s.voidBack l 2)
  else .next s

/-- The capability list that a Twin switch owed while the core did not serve (R105). -/
def State.capsResume (s : State) (l : LaneId) : State :=
  let x := s.lane l
  if x.con.capsDue && serves s l then (s.modCon l fun c => { c with capsDue := false }).sendCaps l (opPoint x.cfg x.con = 2) else s

/-- The switch itself: CURR, ARM_STATE 3, SWITCH_CNT and the contract source (R103), the feed-forward (R193) and the load (R241); the base image then sends the list of the new contract (R97), when it resumes if it does not serve now (R105). -/
def State.switchNow (s : State) (l : LaneId) (run : Bool) : State :=
  let x := s.lane l
  let i := if run then fld x.cfg.twinRun 9 0 else fld x.cfg.twinStandby 9 0
  let s1 := s.modCon l fun c =>
    { c with curr := BitVec.ofNat 10 i, armState := 3, switchCnt := c.switchCnt + 1, runStep := false, standbyWait := !run, armCmd := none }
  let s2 := (s1.postLane l 3).feedForward l run
  let s3 := s2.loadMoves l s.dev.dtime run
  let s4 := s3.modTally l fun t => { t with cv := false, cvDone := false }
  let s5 := if run then s4 else s4.modBudget l fun b => { b with counted := deciWatt x.con.vc x.con.curr.toNat }
  if serves s5 l then s5.sendCaps l run else s5.modCon l fun c => { c with capsDue := true }

/-- T of an armed switch (R103). -/
def execTwinSwitch (l : LaneId) (s : State) : Out :=
  let x := s.lane l
  if x.con.armState = 2 then
    if x.con.armedTarget && x.con.runStep then .next (s.switchNow l true)
    else if switchMay x then .next ((if x.con.armedTarget then s.runLimits l else s).switchNow l x.con.armedTarget)
    else .next (s.voidBack l 2)
  else .next s

/-- LOAD_OFF + 10 µs after a switch to STANDBY the limits fall (R103). -/
def execStandbyLimit (l : LaneId) (s : State) : Out :=
  let x := s.lane l
  if x.con.standbyWait then
    let s1 := (s.writeIlim l (fld x.cfg.twinStandby 23 16)).setFwd l (fld x.cfg.twinStandby 9 0)
    .next ((s1.modCon l fun c => { c with standbyWait := false }).modBudget l fun b => { b with counted := 0 })
  else .next s

end Sys2Proof.Machine
end

