-- ==== Sys2Proof/Machine/Message.lean ====
section
/-! DEFINITION. What ends a message (R53, R60, R63, R65, R86), what a Sent message does (R83, R88, R101, R114, R123, R124, R216, R464), reception of messages with no row of their own (R51–R56, R36, R89, R93), cable discovery (R36), and hard resets (R69–R72, R125, R126, R157, R162, R338). -/

namespace Sys2Proof.Machine

-- cable discovery

/-- Discovery has ended: EPR entry goes on (R88), or on a source the first capability list follows (R30, R36). -/
def State.discoveryEnd (s : State) (l : LaneId) : State :=
  let c := (s.lane l).cc
  let s1 := (s.modCc l fun c => { c with discRun := false, discTries := 0, discRepeat := false, discEpr := false }).amsEnd l
  if c.discEpr then s1.eprDecide l else if (s.lane l).swap.powerRole then s1.sendCapsNow l else s1

/-- The cable fields of a Discover Identity ACK (R36; VDO layout of PD 3.1, PRESUMED, log 20); absent where the product is no cable. -/
def cableFields (f : Frame) (c : CcLane) : Option CcLane :=
  let kind := fld (obj f 1) 29 27
  let w := obj f 4
  if kind = 3 || kind = 4 then
    some { c with cableValid := true, cableImax := if fld w 6 5 = 2 then 2 else 1,
                  cableVmax := match fld w 10 9 with | 0 => 1 | 3 => 3 | _ => 2,
                  cableEpr := bitOf w 17 }
  else none

/-- The cable is recorded as not discovered, and discovery has ended (R36). -/
def State.discoveryFails (s : State) (l : LaneId) : State :=
  (s.modCc l fun c => { c with cableValid := false, cableImax := 0, cableVmax := 0, cableEpr := false }).discoveryEnd l

/-- The answer to Discover Identity on SOP' (R36): a cable VDO is recorded, a NAK ends discovery, a BUSY counts as no answer. An ACK of a product that is no cable, which the table does not name, ends discovery as a NAK does (DESIGN CHOICE, log 115). -/
def State.discAnswer (s : State) (l : LaneId) (f : Frame) : State :=
  if vdmCmd f ≠ 1 then s
  else if vdmType f = 1 then
    match cableFields f (s.lane l).cc with
    | some c => (s.modCc l fun _ => c).discoveryEnd l
    | none => s.discoveryFails l
  else if vdmType f = 2 then s.discoveryFails l
  else s

/-- 27 ms without an answer to Discover Identity: three attempts at most (R36). -/
def execDiscoveryResponseTimeout (l : LaneId) (s : State) : Out :=
  let c := (s.lane l).cc
  if c.discRun && serves s l then
    if c.discTries < 3 && c.vconnOn then .next ((s.modCc l fun c => { c with discTries := c.discTries + 1 }).imageSend l false cableIdentity)
    else .next (s.discoveryFails l)
  else .next s

/-- The base image asks for VCONN: the lane meets R34 without the VCONN source role, and its cable has not been discovered (R124). It asks once for each attach or hard reset. -/
def vcsWanted (s : State) (l : LaneId) : Bool :=
  let x := s.lane l
  vconnAllowed s l && x.cc.st = .attachedSrc && !x.swap.vconnRole && !x.cc.cableValid && !x.fw.vconnLast && !x.swap.vcsTried && x.swap.state = 0

/-- What the base image sends once VBUS stands at vSafe5V and no contract is in force: VCONN_Swap where it needs the VCONN source role first, which opens a sequence of its own (R111, R112), Discover Identity while VCONN is on and the cable is unknown, otherwise the first capability list (R30, R36, R37, R71, R124). -/
def State.firstCaps (s : State) (l : LaneId) : State :=
  let x := s.lane l
  if !serves s l || !x.swap.powerRole || x.con.valid then s
  else if vcsWanted s l then (s.modSwap l fun w => { w with vcsTried := true }).imageSend l true (ctl 11)
  else if x.cc.vconnOn && !x.cc.cableValid then s.startDiscovery l false
  else s.sendCapsNow l

-- Sent

/-- The objects of a capability list as it is sent: those of Source_Capabilities, or of an EPR_Source_Capabilities in the transmit buffer. -/
def sentList (p : PdLane) (f : Frame) : Option (List Word) :=
  if isData f 1 then some f.objs
  else if isExtended f.header && msgType f.header = 17 then some (bufObjects p.txBuf (exSize (extHeader f) / 4))
  else none

/-- What every message that is Sent leaves, from the queue or from hardware: answers (R464), the last lists and Requests (R66, R86), the offer of a capability list (R82), which voids an arm (R101, R104), and the deadline of a reduced list (R216). -/
def State.sentAny (s : State) (l : LaneId) (f : Frame) : State :=
  let s1 := s.modPd l fun p => { p with unanswered := p.unanswered.filter fun g => g.sop ≠ f.sop }
  if f.sop ≠ .sop then s1
  else
    let caps := isData f 1
    let s2 := if caps then s1.modPd l fun p => { p with lastCaps := some f } else s1
    let s3 := if isData f 2 then s2.modPd l fun p => { p with lastRequest := some f, answeredCaps := (s.lane l).con.rxCaps } else s2
    match sentList (s.lane l).pd f with
    | some os =>
      let s4 := (s3.modCon l fun c => { c with offer := os, capsTime := s.dev.dtime }).voidBack l 2
      s4.modBudget l fun b => { b with deadline := b.deadline || b.shed = 2 || b.shed = 4 }
    | none => s3

/-- A VCONN_Swap starts at its Accept (R124): a lane that is to become VCONN source applies VCONN where R34 still allows it, but not after a lasting overcurrent (R35). -/
def State.startVcs (s : State) (l : LaneId) : State :=
  let take := !(s.lane l).swap.vconnRole
  let s1 := s.modSwap l fun w => { w with swapAccept := false, ownVcs := false, state := 5, vcsTake := take, psSent := false, frsArm := false }
  if take && vconnAllowed s l && !(s.lane l).fw.vconnLast then s1.modCc l fun c => { c with vconnOn := true } else s1

/-- FRS is armed afresh at the first contract after the return from a hold (R122, R118). -/
def State.frsAfresh (s : State) (l : LaneId) : State :=
  let c := (s.lane l).con
  if c.frsAgain && c.valid && isPack (s.lane l) && !c.seqWait && serves s l then
    (s.modCon l fun c => { c with frsAgain := false }).seqStep l .sinkCap
  else s

/-- An Accept of the queue has drawn its GoodCRC: a contract change begins (R83), a DR_Swap is done (R123), a VCONN_Swap starts (R124). -/
def State.acceptDone (s0 : State) (l : LaneId) : State :=
  let s := s0.modPd l fun p => { p with reqAccept := false }
  let x := s.lane l
  if x.pd.acceptPending then s.acceptSent l
  else if x.swap.swapAccept && x.swap.state = 6 then
    let s1 := s.modSwap l fun w => { w with swapAccept := false, dataRole := !w.dataRole }
    (s1.endSwap l 3).logSw 0x0106 .lane l.val (swapStatus ((s1.endSwap l 3).lane l).swap) 0 0
  else if x.swap.swapAccept then
    s.startVcs l
  else s

/-- What a Sent message of the queue does. The PS_RDY of a contract change ends it, whichever image sent it (R83). The list that follows Enter Succeeded is the base image's, and waits for it to resume where it does not serve (R88). The device's own PR_Swap or VCONN_Swap that draws no answer stays pending until a hard reset or the end of the attach, since the spec gives no time-out (DESIGN CHOICE, log 115). -/
def State.sentQueue (s : State) (l : LaneId) (f : Frame) : State :=
  let x := s.lane l
  let s1 := s.sentAny l f
  if f.sop ≠ .sop then s1
  else if isCtl f 3 then s1.acceptDone l
  else if isCtl f 6 then
    let s2 := s1.modPd l fun p => { p with inChange := false }
    if x.con.change.any (·.ready) then ((s2.contractTakes l x.con.psEop).amsEnd l).frsAfresh l else s2
  else if isCtl f 4 || isCtl f 12 then s1.amsEnd l
  else if isCtl f 10 then s1.modSwap l fun w => { w with ownPending := true }
  else if isCtl f 11 then s1.modSwap l fun w => { w with ownVcs := true }
  else if isCtl f 13 then s1.voidBack l 2
  else if isData f 10 && fld (obj f 0) 31 24 = 3 then
    let s2 := s1.modCon l fun c => { c with eprMode := true, eprEntry := 0, capsDue := c.capsDue || !serves s l }
    if serves s l then s2.sendCapsNow l else s2
  else s1

/-- A hardware message ends Sent, or Failed (R60, R63, R86, R93, R115). The PS_RDY that ends a VCONN_Swap ends the sequence (R111). A swap's own PS_RDY that ends Failed leaves SWAP_STATE and the roles as they are, since the spec does not say what follows (DESIGN CHOICE, log 115). -/
def State.hwDone (s : State) (l : LaneId) (m : HwMsg) (sent : Bool) : State :=
  let s0 := if sent then s.sentAny l m.frame else s
  match m.kind with
  | .answer => if sent && isCtl m.frame 6 then s0.amsEnd l else s0
  | .chunkRequest =>
    if sent then s0.modPd l fun p => { p with reasm := p.reasm.map fun r => { r with awaiting := true } } else s0.abandonReasm l
  | .tmMark => if sent then s0.modCon l fun c => { c with tmPhase := .markSent } else (s0.tmFailed l).amsFail l
  | .tmFollow => if sent then s0.modCon l fun c => { c with tmPhase := .followSent } else s0.tmFailed l
  | .keepalive again =>
    if sent then s0
    else if !again then s0.hwSend l (.keepalive true) false m.frame
    else
      let (last, s1) := s0.countFault l .proto
      if last then (s1.hardReset l).irq 6 else s1
  | .swapAccept =>
    if sent && (s.lane l).swap.state = 4 then
      (s0.modSwap l fun w => { w with presentsRp := false }).hwSend l .swapPsRdy false (ctl 6)
    else s0
  | .swapPsRdy =>
    if !sent then s0
    else
      let w := (s.lane l).swap
      if w.state = 2 then
        let s1 := ((s0.modSwap l fun w => { w with powerRole := true, holdOn := false }).modCon l fun c =>
          { c.clearContract with kaKind := 0, eprMode := false, eprEntry := 0, offer := [], frsAgain := isPack (s.lane l) }).endSwap l 1
        let s2 := ((s1.modTally l fun t => { t with cv := false, cvDone := false }).modBudget l fun b => { b with counted := 0 }).amsEnd l
        let s3 := s2.baseLimits l
        if serves s3 l then s3.sendCapsNow l else s3
      else
        let s1 := s0.modSwap l fun w => { w with psSent := true }
        if w.state = 1 then s1.postLane l 6 else s1

/-- A GoodCRC arrives (R50, R53, R60, R65): one that does not match counts as none, and so does one to a frame that a hard reset has ended (R69). LAST_RETRIES of an extended message counts the retransmissions of its last chunk alone (DESIGN CHOICE, log 85). -/
def execGoodcrcReceived (l : LaneId) (kind : Sop) (id : BitVec 3) (s : State) : Out :=
  match (s.lane l).pd.flight with
  | none => .next s
  | some fl =>
    if fl.ended || fl.frame.sop ≠ kind || msgId fl.frame.header ≠ id then .next s
    else
      let i := sopIdx kind
      let s1 := s.modPd l fun p => { p with txId := p.txId.set i.val (p.txId.get i + 1) i.isLt }
      match fl.hw with
      | some m => .next ((s1.modPd l fun p => { p with flight := none }).hwDone l m true)
      | none =>
        match (s.lane l).pd.queue with
        | [] => .next (s1.modPd l fun p => { p with flight := none })
        | m :: _ =>
          let s2 := s1.modPd l fun p => { p with txTime := BitVec.ofNat 32 s.dev.dtime }
          let k := (s.lane l).pd.txChunk.getD 0
          if m.ext && k + 1 < chunkCount (slotSize m) then
            .next (s2.modPd l fun p => { p with flight := none, txChunkWait := true })
          else .next ((s2.endHead l 1 (fl.tries - 1)).sentQueue l fl.frame)

/-- 1.0 ms without a GoodCRC: the frame is sent again, at most twice, and then ends Failed (R53). -/
def execGoodcrcTimeout (l : LaneId) (s : State) : Out :=
  match (s.lane l).pd.flight with
  | none => .next s
  | some fl =>
    if fl.ended then .next s
    else if fl.tries < 3 then .next ((s.modPd l fun p => { p with flight := some { fl with tries := fl.tries + 1 } }).stampEop l)
    else match fl.hw with
      | some m => .next ((s.modPd l fun p => { p with flight := none }).hwDone l m false)
      | none => .next (s.endHead l 2 2)

-- reception

/-- A stored answer that a running exchange of the base image or of hardware awaits, and that no row of its own delivers: it is taken out of the FIFO and acted on. The partner's Accept of the lane's own VCONN_Swap starts the swap without the core (R124), and a Mode VDO is learned by lane hardware (R90). -/
def State.takeAnswer (s0 : State) (l : LaneId) (f : Frame) : State :=
  let s := if urkaiAnswer s0 f 3 && vdmType f = 1 then s0.learnModes l (obj f 1) else s0
  let x := s.lane l
  let c := x.con
  let expected : UrkaiStep → Nat
    | .identity => 1 | .svids => 2 | .modes => 3 | .recRead => 22 | .recWrite => 23 | _ => 0
  if urkaiAnswer s f 16 then (s.takeNewest l).tmMarkAnswer l f
  else if x.swap.ownVcs && isCtl f 3 then (if serves s l then s.takeNewest l else s).startVcs l
  else if !serves s l then s
  else if isSvdm f && f.sop = .sopP && vdmType f ≠ 0 && x.cc.discRun then (s.takeNewest l).discAnswer l f
  else if isSvdm f && f.sop = .sop && vdmType f ≠ 0 && c.seqWait && expected c.seq ≠ 0 && vdmCmd f = expected c.seq then
    (s.takeNewest l).seqAnswer l f
  else if isExtended f.header && msgType f.header = 9 && c.seqWait && (c.seq = .digests || c.seq = .certificate || c.seq = .challenge) then
    (s.takeNewest l).authAnswer l f true
  else if isCtl f 16 && c.seqWait && (c.seq = .digests || c.seq = .certificate || c.seq = .challenge) then
    (s.takeNewest l).authAnswer l f false
  else if c.seqWait && c.seq = .sinkCap && (isCtl f 4 || isCtl f 12 || isCtl f 16) then (s.takeNewest l).seqNext l
  else if c.change.any (·.asSink) && isCtl f 3 then
    (s.takeNewest l).modCon l fun c => { c with change := c.change.map fun d => { d with started := true } }
  else if c.change.any (fun d => d.asSink && !d.started) && (isCtl f 4 || isCtl f 12) then
    (s.takeNewest l).modCon l fun c => { c with change := none }
  else s

/-- A frame of a correct CRC on an accepted SOP type arrives (R51). -/
def execMessageReceived (l : LaneId) (f : Frame) (s : State) : Out :=
  match s.receive l f with
  | (.stored, s1) => .next (s1.takeAnswer l f)
  | (_, s1) => .next s1

-- hard reset

/-- The VCONN source role of the attach, which a lasting VCONN classification has taken since (R35, R108, R125). -/
def vconnAtAttach (x : Lane) : Bool := x.cc.attachVconn && !x.fw.vconnLast

/-- What the completion of signalling ends on the lane (R50, R71, R84, R85, R89, R93, R97, R101, R111, R118, R126, R424). -/
def State.resetMessages (s : State) (l : LaneId) : State :=
  let s1 := (((((s.loadOff l).packHold l).endUrkai l).abortQueue l).flushRx l)
  let s2 := s1.modPd l fun p =>
    { p.clearIds with hrCount := if p.hrCount = 3 then 3 else p.hrCount + 1, bist := .off, acceptPending := false, reqAccept := false, inChange := false }
  let s3 := s2.modCon l fun c =>
    { c.clearContract with kaKind := 0, eprMode := false, eprEntry := 0, seq := .idle, seqTries := 0, seqRun := false, seqWait := false,
                           offer := [], rxCaps := none, authState := 0, frsAgain := false }
  let s4 := s3.modSwap l fun w => { w with amsHold := false, frsArm := false, ownPending := false, psSent := false, frsSignal := false,
                                           swapAccept := false, prAccept := false, ownVcs := false, vcsTried := false, rpHigh := false,
                                           prDropped := false, stopOwed := false }
  let s5 := s4.modCc l fun c => { c with discRun := false, discTries := 0, discRepeat := false, discEpr := false }
  let s6 := s5.modTally l fun t => { t with cv := false, cvDone := false }
  (s6.modBudget l fun b => { b with counted := 0 }).postLane l 2

/-- Roles return to those of the attach (R125). -/
def State.attachRoles (s : State) (l : LaneId) : State :=
  let x := s.lane l
  let s1 := if x.swap.state ≠ 0 then s.endSwap l 7 else s
  let s2 := ((s1.stopStage l).openPath l).modBelay l fun b => { b with dischOut := true }
  s2.modSwap l fun w =>
    { w with holdOn := false, rpHigh := false, powerRole := x.cc.attachSrc, dataRole := x.cc.attachSrc, presentsRp := x.cc.attachSrc,
             vconnRole := vconnAtAttach x }

/-- A hard reset that ends the lane's service (R43, R71): it is part of it, or PORT_EN has been cleared since. -/
def resetEnds (x : Lane) : Bool := x.pd.hrThen = .disable || !bitOf x.cfg.laneCtrl 0

/-- Signalling is complete (R71, R125, R126, R157, R338). A lane that supplies VBUS opens its pins only once VBUS is discharged (R43). -/
def State.hardResetDone (s : State) (l : LaneId) : State :=
  let x := s.lane l
  let s1 := s.resetMessages l
  if x.belay.latched || x.fw.protoLast then ((if x.swap.state ≠ 0 then s1.endSwap l 7 else s1).disableLane l).settle
  else
    let moved := x.swap.state ≠ 0 || x.swap.holdOn || x.swap.powerRole ≠ x.cc.attachSrc || x.swap.dataRole ≠ x.cc.attachSrc
      || x.swap.vconnRole ≠ vconnAtAttach x
    let s2 := if moved then s1.attachRoles l else s1
    let s3 := s2.baseLimits l
    if x.cc.attachSrc then
      let s4 := s3.modCc l fun c => { c with vconnOn := false }
      s4.modPd l fun p => { p with hrPhase := if moved then .vbusOff else .psWait }
    else if resetEnds x then
      if (s3.lane l).belay.dischOut then s3.modPd l fun p => { p with hrPhase := .vbusOff, hrThen := .disable } else s3.endService l
    else ((s3.stopStage l).openPath l).modPd l fun p => { p with hrPhase := .sinkWait }

/-- Signalling ends, or 4.5 ms pass (R71). -/
def execHardResetComplete (l : LaneId) (s : State) : Out :=
  if (s.lane l).pd.hrPhase = .signalling then .next (s.hardResetDone l) else .next s

/-- A Hard Reset ordered set arrives (R70): HR_RCVD, and the reset is acted on; it joins one that is past its signalling. -/
def execHardResetReceived (l : LaneId) (s : State) : Out :=
  let x := s.lane l
  if x.cc.attached then
    let s1 := (s.modPd l fun p => { p with hrRcvd := true }).postLane l 1
    if x.pd.hrPhase = .idle || x.pd.hrPhase = .signalling then .next (s1.hardResetDone l) else .next s1
  else .next s

/-- VBUS of a source in a hard reset is below vSafe0V (R71 step 3): tSrcRecover runs, or the lane ends Disabled. -/
def State.vbusGone (s : State) (l : LaneId) : State :=
  if resetEnds (s.lane l) then s.endService l
  else s.modPd l fun p => { p with hrPhase := .srcRecover }

/-- tPSHardReset ends: the path opens and the stage stops (R71 step 2). Where a trip has opened the path before and VBOUT is discharged, VBUS is at vSafe0V already. -/
def execPsHardReset (l : LaneId) (s : State) : Out :=
  if (s.lane l).pd.hrPhase = .psWait then
    let s1 := (s.openPath l).stopStage l
    if (s1.lane l).belay.dischOut then .next (s1.modPd l fun p => { p with hrPhase := .vbusOff }) else .next (s1.vbusGone l)
  else .next s

/-- A discharge reaches its end level (R162): in a hard reset of a source VBUS is below vSafe0V (R71 step 3), and a close that waits for VBIN proceeds (R139). -/
def execDischargeEnd (l : LaneId) (side : PathSide) (s : State) : Out :=
  let x := s.lane l
  match side with
  | .vbin =>
    if x.belay.dischIn then .next (((s.modBelay l fun b => { b with dischIn := false, vinHigh := false }).tryRamp l).settle) else .next s
  | .vbout =>
    if x.belay.dischOut then
      let s1 := s.modBelay l fun b => { b with dischOut := false, voutHigh := false }
      if x.pd.hrPhase = .vbusOff then .next (s1.vbusGone l) else .next s1.settle
    else .next s

/-- tSrcRecover ends: lane hardware asks for the close and the soft start (R71 step 4). -/
def execSrcRecover (l : LaneId) (s : State) : Out :=
  if (s.lane l).pd.hrPhase = .srcRecover then
    .next ((s.modPd l fun p => { p with hrPhase := .rising }).askClose l .asSource)
  else .next s

/-- The hard reset sequence has completed: hr_busy falls and HR_DONE is set, with the transmit doorbell (R61, R71, R268). -/
def State.hardResetEnd (s : State) (l : LaneId) : State :=
  (s.modPd l fun p => { p with hrPhase := .idle, hrThen := .normal, hrDone := true }).postLane l 2

/-- VCONN returns on a lane that still holds the role, or takes it in a running VCONN_Swap (R35, R71 step 5), where its power die is up (R10, R446). A lane that attached while VCONN_SUP was low has no role, and the supply's return alone gives it no VCONN (DESIGN CHOICE, log 83). -/
def State.vconnBack (s : State) (l : LaneId) : State :=
  let x := s.lane l
  if (x.swap.vconnRole || (x.swap.state = 5 && x.swap.vcsTake && vconnAllowed s l)) && s.dev.vconnSupOk && !x.fw.vconnLast && x.cc.attached && dieUp s l then
    s.modCc l fun c => { c with vconnOn := true, vconnRetry := false }
  else s

/-- VBIN, in mV, lies within R183's band around VSET: 1 % of it and 50 mV. -/
def vbinSettled (x : ConvLane) (mv : Nat) : Bool :=
  let v := 5 * x.vsetEff.toNat
  let d := if v < mv then mv - v else v - mv
  decide (100 * d ≤ v + 5000)

/-- VS reaches VSET with VBIN settled (R183), or a soft start ends (R184): it completes step 5 of a hard reset (R71), the return of the source role (R115), the voltage transition of a contract change (R83 step 3) or the start of an attach (R30). The row says that the band has held for its 100 µs, and brings the VBIN at their end. -/
def execRampComplete (v : LaneVbin) (s : State) : Out :=
  let l := v.lane
  let x := s.lane l
  if !x.conv.on || !(x.conv.soft || x.conv.ramp) || x.conv.vs ≠ x.conv.vsetEff || !vbinSettled x.conv v.mv then .next s
  else
    let s1 := s.rampDone l
    if x.pd.hrPhase = .rising then
      .next (((s1.hardResetEnd l).vconnBack l).firstCaps l)
    else if x.swap.state = 2 && x.conv.soft then .next (s1.hwSend l .swapPsRdy false (ctl 6))
    else if x.con.change.any (fun d => d.moving && !d.ready) && serves s l then .next (s1.psReady l)
    else if x.conv.soft then .next (s1.firstCaps l)
    else .next s1

/-- VBUS has returned at a sink in a hard reset (R71 sink step 3): the belay accepts it and the path closes. -/
def State.sinkReturn (s : State) (l : LaneId) : State := (s.hardResetEnd l).askClose l .asSink

/-- VBUS is again at least 4.0 V after its fall in a sink's hard reset (R71). -/
def execSinkVbusReturn (l : LaneId) (vbusMv : Nat) (s : State) : Out :=
  if (s.lane l).pd.hrPhase = .sinkWait && 4000 ≤ vbusMv then .next (s.sinkReturn l) else .next s

/-- 1.5 s of a sink's hard reset have passed (R71 sink step 4). -/
def execSinkHardResetTimeout (l : LaneId) (vbusMv : Nat) (s : State) : Out :=
  if (s.lane l).pd.hrPhase = .sinkWait then
    if 4000 ≤ vbusMv then .next (s.sinkReturn l)
    else .next ((s.modPd l fun p => { p with hrPhase := .idle, hrThen := .normal }).detachLane l)
  else .next s

end Sys2Proof.Machine
end

