-- ==== Sys2Proof/Machine/Attach.lean ====
section
/-! DEFINITION. Attach, orientation, VCONN and detach (file 02): toggling (R29), attach as source and sink (R30–R33, R37, R46), VCONN (R34, R35), cut and detach (R38–R40), and attach detection in WATCH (R19, R45). -/

namespace Sys2Proof.Machine

/-- Whether a termination is Rp, and its level as PARTNER_RP codes it (R41). -/
def rpOf : CcTerm → BitVec 2
  | .rp n => BitVec.ofNat 2 (n.val + 1)
  | _ => 0

/-- The one pin that satisfies a test: in harness modes the HARN_PIN pin only, otherwise exactly one of the two (R30, R32, R37). -/
def onePin (cfg : LaneCfg) (f : CcTerm → Bool) (cc1 cc2 : CcTerm) : Option CcPin :=
  if cfg.harness then
    (if bitOf cfg.ccCtrl 3 then (if f cc2 then some .cc2 else none) else (if f cc1 then some .cc1 else none))
  else if f cc1 && !f cc2 then some .cc1
  else if f cc2 && !f cc1 then some .cc2
  else none

/-- The termination on a pin. -/
def onPin (p : CcPin) (cc1 cc2 : CcTerm) : CcTerm :=
  match p with
  | .cc1 => cc1
  | .cc2 => cc2

/-- The other pin. -/
def otherPin : CcPin → CcPin
  | .cc1 => .cc2
  | .cc2 => .cc1

/-- Whether a termination is Rd. -/
def isRd (t : CcTerm) : Bool := t = .rd

/-- Whether a termination is Rp. -/
def isRp (t : CcTerm) : Bool := rpOf t ≠ 0

/-- Rd on both pins or Ra on both: no attach, but the lane stays in AttachWait.SRC (R31). -/
def isAccessory (cfg : LaneCfg) (cc1 cc2 : CcTerm) : Bool :=
  !cfg.harness && ((cc1 = .rd && cc2 = .rd) || (cc1 = .ra && cc2 = .ra))

/-- A debounce that has ended leads to the attached state while STATE is RUN and, as sink, VBUS is present (R32, R46). -/
def State.tryAttach (s : State) (l : LaneId) : State :=
  let c := (s.lane l).cc
  match c.debPin with
  | some p =>
    if !c.held || s.dev.state ≠ .run then s
    else if c.st = .attachWaitSrc || c.st = .trySrc then s.attachAs l true p c.debRa 0
    else if (c.st = .attachWaitSnk || c.st = .tryWaitSnk) && c.debVbus then s.attachAs l false p false c.debRp
    else s
  | none => s

/-- The duty timer of an unattached lane ends (R29). -/
def execDrpToggle (l : LaneId) (s : State) : Out :=
  let x := s.lane l
  if x.cfg.mode = 3 || x.cfg.mode = 4 then
    match x.cc.st with
    | .unattachedSrc => .next (s.modCc l fun c => { c with st := .unattachedSnk })
    | .unattachedSnk => .next (s.modCc l fun c => { c with st := .unattachedSrc })
    | _ => .next s
  else .next s

/-- Unattached.SRC sees Rd on exactly one pin, or a termination of R31 (R30, R31). A termination of R31 that turns into Rd on exactly one pin within tPDDebounce starts the debounce in AttachWait.SRC at once, without passing Unattached.SRC (DESIGN CHOICE, log 108). -/
def execAttachWaitSrc (l : LaneId) (cc1 cc2 : CcTerm) (s : State) : Out :=
  let x := s.lane l
  let p := onePin x.cfg isRd cc1 cc2
  if (x.cc.st = .unattachedSrc || x.cc.st = .attachWaitSrc) && (p.isSome || isAccessory x.cfg cc1 cc2) then
    .next (s.modCc l fun c => { c with st := .attachWaitSrc, debPin := p, held := false })
  else .next s

/-- Unattached.SNK sees Rp on exactly one pin (R32). -/
def execAttachWaitSnk (l : LaneId) (cc1 cc2 : CcTerm) (s : State) : Out :=
  let x := s.lane l
  let p := onePin x.cfg isRp cc1 cc2
  if (x.cc.st = .unattachedSnk || x.cc.st = .attachWaitSnk) && p.isSome then
    .next (s.modCc l fun c => { c with st := .attachWaitSnk, debPin := p, held := false })
  else .next s

/-- The debounce has run with the termination held (R30, R32, R37): attach as source, as sink with VBUS, or Try.SRC in MODE 4. -/
def execCcDebounce (l : LaneId) (cc1 cc2 : CcTerm) (vbusMv : Nat) (s : State) : Out :=
  let x := s.lane l
  match x.cc.st with
  | .attachWaitSrc =>
    match onePin x.cfg isRd cc1 cc2 with
    | some p =>
      if x.cc.debPin = some p then
        .next ((s.modCc l fun c => { c with held := true, debRa := decide (onPin (otherPin p) cc1 cc2 = .ra) }).tryAttach l)
      else .next s
    | none => .next s
  | .attachWaitSnk =>
    match onePin x.cfg isRp cc1 cc2 with
    | some p =>
      if x.cc.debPin = some p then
        if x.cfg.mode = 4 && s.dev.state = .run then .next (s.modCc l fun c => { c with st := .trySrc })
        else
          .next ((s.modCc l fun c =>
            { c with held := true, debRp := rpOf (onPin p cc1 cc2), debVbus := decide (4000 ≤ vbusMv) }).tryAttach l)
      else .next s
    | none => .next s
  | _ => .next s

/-- A termination has been absent for tPDDebounce in AttachWait (R30–R32); in Try.SRC or TryWait.SNK a debounce that has ended and waits for RUN or VBUS is dropped (R46). -/
def execTerminationLost (l : LaneId) (s : State) : Out :=
  match (s.lane l).cc.st with
  | .attachWaitSrc => .next (s.modCc l fun c => { c with st := .unattachedSrc, debPin := none, held := false })
  | .attachWaitSnk => .next (s.modCc l fun c => { c with st := .unattachedSnk, debPin := none, held := false })
  | .trySrc => .next (s.modCc l fun c => { c with debPin := none, held := false })
  | .tryWaitSnk => .next (s.modCc l fun c => { c with debPin := none, held := false })
  | _ => .next s

/-- Rd has been held for tTryCCDebounce in Try.SRC (R32). -/
def execTryCcDebounce (l : LaneId) (cc1 cc2 : CcTerm) (s : State) : Out :=
  let x := s.lane l
  match onePin x.cfg isRd cc1 cc2 with
  | some p =>
    if x.cc.st = .trySrc then
      .next ((s.modCc l fun c => { c with debPin := some p, held := true, debRa := decide (onPin (otherPin p) cc1 cc2 = .ra) }).tryAttach l)
    else .next s
  | none => .next s

/-- tDRPTry ends with no Rd (R32). -/
def execDrpTry (l : LaneId) (s : State) : Out :=
  if (s.lane l).cc.st = .trySrc && !(s.lane l).cc.held then .next (s.modCc l fun c => { c with st := .tryWaitSnk }) else .next s

/-- Rp has been held for tPDDebounce in TryWait.SNK (R32). -/
def execTrywaitDebounce (l : LaneId) (cc1 cc2 : CcTerm) (vbusMv : Nat) (s : State) : Out :=
  let x := s.lane l
  match onePin x.cfg isRp cc1 cc2 with
  | some p =>
    if x.cc.st = .tryWaitSnk then
      .next ((s.modCc l fun c =>
        { c with debPin := some p, held := true, debRp := rpOf (onPin p cc1 cc2), debVbus := decide (4000 ≤ vbusMv) }).tryAttach l)
    else .next s
  | none => .next s

/-- tTryTimeout ends without Attached.SNK (R32). -/
def execTryTimeout (l : LaneId) (s : State) : Out :=
  if (s.lane l).cc.st = .tryWaitSnk then .next (s.modCc l fun c => { c with st := .unattachedSnk, debPin := none, held := false })
  else .next s

/-- VBUS rises to at least 4.0 V on a lane that waits as sink (R32, R114): the lane attaches, or the belay closes its path. -/
def execSinkVbusPresent (l : LaneId) (vbusMv : Nat) (s : State) : Out :=
  let x := s.lane l
  if vbusMv < 4000 then .next s
  else if x.cc.st = .attachWaitSnk || x.cc.st = .tryWaitSnk then .next ((s.modCc l fun c => { c with debVbus := true }).tryAttach l)
  else if x.cc.attached && !x.swap.powerRole && !x.swap.presentsRp && x.swap.state = 0 && x.belay.want = .none && !x.pd.hrBusy then
    .next (s.askClose l .asSink)
  else .next s

-- detach and cut

/-- Whether the termination alone decides: a swap is in progress or the role differs from that of the attach (R120). -/
def judgedOnCc (x : Lane) : Bool := x.swap.state ≠ 0 || x.swap.powerRole ≠ x.cc.attachSrc

/-- A loss of the partner that is a detach (R40, R120): outside harness modes any; in a harness mode only the fall of VBUS at a sink that has not swapped. A sink judged on VBUS does not detach during a hard reset. -/
def detachCounts (x : Lane) : Bool :=
  x.cc.attached &&
    (if x.cfg.harness then !x.cc.attachSrc && !judgedOnCc x && !x.pd.hrBusy
     else x.cc.attachSrc || judgedOnCc x || !x.pd.hrBusy)

/-- The partner is gone (R40). -/
def execDetach (l : LaneId) (s : State) : Out := if detachCounts (s.lane l) then .next (s.detachLane l) else .next s

/-- The discharges after a detach have ended (R40 step 5). -/
def execUnattachedWaitEnd (l : LaneId) (s : State) : Out :=
  if (s.lane l).cc.st = .unattachedWait then
    .next ((s.modBelay l fun b => { b with dischOut := false }).enterUnattached l).settle
  else .next s

/-- A harness CC conductor is lost (R38). -/
def execCut (l : LaneId) (s : State) : Out :=
  if (s.lane l).cc.attached && (s.lane l).cfg.harness then .next (s.cutLane l) else .next s

/-- CUT written 1 by the host (R39). -/
def State.cutClear (s : State) (l : LaneId) : State :=
  let s1 := s.modCc l fun c => { c with cut := false }
  if (s.lane l).cc.st = .cutState then s1.enterUnattached l else s1

-- VCONN

/-- VCONN has been taken off for want of its supply within the last 10 µs (R462). -/
def supJustLow (s : State) (c : CcLane) : Bool := c.supLowAt.any fun t => decide (s.dev.dtime ≤ t + 10000)

/-- VCONN overcurrent (R35, R338): the switch opens, and the window decides between a retry and the loss of the role; discovery ends with the cable not discovered (R46). With VCONN_SUP falling at the same time both act: VCONN_OC is set and the event counts in the lane's window (R462). -/
def execVconnOc (l : LaneId) (s : State) : Out :=
  let x := s.lane l
  if x.cc.vconnOn || supJustLow s x.cc then
    let s1 := (s.modCc l fun c => { c with vconnOn := false, vconnOc := true, supLowAt := none }).postLane l 0
    let (last, s2) := s1.countFault l .vconn
    let s3 :=
      if last then (s2.modSwap l fun w => { w with vconnRole := false }).modCc l fun c => { c with vconnRetry := false }
      else s2.modCc l fun c => { c with vconnRetry := true }
    if x.cc.discRun then
      let s4 := s3.modCc l fun c => { c with cableValid := false, cableImax := 0, cableVmax := 0, cableEpr := false }
      if serves s4 l then .next (s4.discoveryEnd l) else .next (s4.modCc l fun c => { c with discRun := false, discTries := 0, discRepeat := false })
    else .next s3
  else .next s

/-- 20 ms after a transient overcurrent (R35). -/
def execVconnReapply (l : LaneId) (s : State) : Out :=
  if (s.lane l).cc.vconnRetry && !(s.lane l).pd.hrBusy then .next ((s.modCc l fun c => { c with vconnRetry := false }).vconnBack l)
  else .next s

/-- VCONN_SUP falls below 4.75 V (R35). -/
def execVconnSupLow (s : State) : Out :=
  let s1 := s.modDev fun d => { d with vconnSupOk := false }
  .next ((s1.forEach allLanes fun st l =>
    if (st.lane l).cc.vconnOn then st.modCc l fun c => { c with vconnOn := false, supLowAt := some s.dev.dtime } else st).log 0x0103 .device 0 0 0 0)

/-- VCONN_SUP has stayed at 4.75 V or more for 20 ms (R35). -/
def execVconnSupRestored (s : State) : Out :=
  let s1 := s.modDev fun d => { d with vconnSupOk := true }
  .next (s1.forEach allLanes fun st l => if (st.lane l).pd.hrBusy || (st.lane l).cc.vconnRetry then st else st.vconnBack l)

-- WATCH

/-- An attach reported in WATCH (R19, R45). -/
def State.watchAttach (s : State) (l : LaneId) : State :=
  let s1 := (s.modCc l fun c => { c with attachEvt := true }).postLane l 0
  (s1.log 0x0101 .lane l.val (ccStatus (s1.lane l).cc) 0 0).irq 3

/-- A cut reported in WATCH (R38, R45). -/
def State.watchCut (s : State) (l : LaneId) : State :=
  let s1 := (s.modCc l fun c => { c with cut := true }).postLane l 0
  (s1.log 0x0102 .lane l.val (ccStatus (s1.lane l).cc) 0 0).irq 4

/-- A lane's probe in the WATCH cycle (R45): two cycles make the baseline, then two equal probes report a change. A termination that the baseline finds on a lane that entered the watch with no partner came during the entry, and is reported (R23). Where the first two cycles differ, the second gives the baseline, and a CUT that still stands reports no further cut: R45 says neither (DESIGN CHOICE, log 115). -/
def execWatchProbe (l : LaneId) (cc1 cc2 : CcTerm) (s : State) : Out :=
  let x := s.lane l
  if x.cc.st ≠ .watch then .next s
  else
    let seen (t : CcTerm) : Bool := if x.cfg.mode = 2 || x.cfg.mode = 6 then isRp t else isRd t
    let p := if x.cfg.harness then seen (if bitOf x.cfg.ccCtrl 3 then cc2 else cc1) else seen cc1 || seen cc2
    let run := if x.cc.probeCycles ≠ 0 && p = x.cc.probeLast then x.cc.probeRun + 1 else 1
    let n := Min.min 2 x.cc.probeCycles
    let s1 := s.modCc l fun c =>
      { c with probeCycles := Min.min 2 (n + 1), probeLast := p, probeRun := run, probeBase := if n < 2 then p else c.probeBase }
    if run ≠ 2 then .next s1
    else if n < 2 then .next (if p && !x.cc.entrySeen then s1.watchAttach l else s1)
    else if p then .next (s1.watchAttach l)
    else if x.cfg.harness && x.cc.probeBase && !x.cc.cut then .next (s1.watchCut l)
    else .next s1

end Sys2Proof.Machine
end

