-- ==== Sys2Proof/Machine/Swap.lean ====
section
/-! DEFINITION. Role swaps (file 05): PR_Swap (R112–R116), fast role swap (R117–R122), DR_Swap and VCONN_Swap (R123, R124), and what ends a pack's hold-off (R126). -/

namespace Sys2Proof.Machine

/-- The base image takes a message that lane hardware has acted on out of the FIFO. -/
def State.takeServed (s : State) (l : LaneId) : State := if serves s l then s.takeNewest l else s

-- PR_Swap

/-- Answers to swap requests (R113, R123, R124). -/
inductive SwapAnswer where
  | wait | reject | accept
deriving DecidableEq, Repr

/-- The first matching row of R113. -/
def judgePrSwap (x : Lane) : SwapAnswer :=
  if x.swap.state ≠ 0 || x.con.armState = 1 || x.con.armState = 2 || x.pd.hrBusy then .wait
  else if !bitOf x.cfg.swapCtrl 1 || x.cfg.mode = 1 || x.cfg.mode = 2 || !isPack x then .reject
  else if x.swap.powerRole && revIlim x.cfg = 0 then .reject
  else if x.swap.packHold then .reject
  else .accept

/-- The base image answers a swap request: Wait, Reject or Accept. -/
def State.answerSwap (s : State) (l : LaneId) : SwapAnswer → State
  | .wait => s.imageSend l false (ctl 12)
  | .reject => s.imageSend l false (ctl 4)
  | .accept => s.imageSend l false (ctl 3)

/-- A PR_Swap of the partner (R112, R113): the device drops a request of its own. -/
def execPrSwap (l : LaneId) (f : Frame) (s : State) : Out :=
  .next (s.imageReceive l f fun t =>
    if !isCtl f 10 then t
    else
      let r := judgePrSwap (t.lane l)
      let t1 := t.modSwap l fun w =>
        { w with prDropped := w.prDropped || w.ownPending, ownPending := false, prAccept := w.prAccept || decide (r = .accept) }
      t1.answerSwap l r)

/-- A sequence of the partner is under way (R112): a message of it awaits its answer, the Accept of a VCONN_Swap or DR_Swap waits for its GoodCRC, a contract change runs, or the partner enters EPR mode (R88). -/
def partnerBusy (x : Lane) : Bool :=
  (x.pd.unanswered.any fun f => f.sop = .sop) || x.swap.swapAccept || x.con.change.isSome || x.pd.inChange
    || (x.swap.powerRole && x.con.eprEntry ≠ 0)

/-- The base image sends PR_Swap, while the conditions of R113 would give Accept, and neither a request of its own nor the partner's is under way; one that it has dropped is not queued again while the partner's sequence runs (R112). -/
def State.sendPrSwap (s : State) (l : LaneId) : State :=
  let x := s.lane l
  if serves s l && x.cc.attached && judgePrSwap x = .accept && !x.swap.ownPending && !x.swap.prAccept
      && !(x.pd.queue.any fun m => slotIs m 10) && !(x.swap.prDropped && partnerBusy x) then
    (s.modSwap l fun w => { w with prDropped := false }).imageSend l true (ctl 10)
  else s

/-- The Accept of a PR_Swap has been exchanged: step 1 as initial source (R114) or as initial sink (R115). -/
def execPrSwapAccept (l : LaneId) (s : State) : Out :=
  let x := s.lane l
  if (x.swap.prAccept || x.swap.ownPending) && x.cc.attached && x.swap.state = 0 && !x.pd.hrBusy then
    let s1 := (s.modSwap l fun w => { w with prAccept := false, ownPending := false, psSent := false, frsArm := false }).modTally l fun t =>
      { t with cv := false, cvDone := false }
    if x.swap.powerRole then .next (s1.modSwap l fun w => { w with state := 1 })
    else .next ((s1.modSwap l fun w => { w with state := 2, holdOn := false }).stopStage l)
  else .next s

/-- The partner answers the lane's own PR_Swap or VCONN_Swap with Reject or Wait (R108, R115): lane hardware records it, and the base image goes on with the first capabilities where VCONN was to come before them (R124). -/
def execSwapRefused (l : LaneId) (f : Frame) (s : State) : Out :=
  match s.receive l f with
  | (.stored, s1) =>
    let w := (s1.lane l).swap
    if (w.ownPending || w.ownVcs) && (isCtl f 4 || isCtl f 12) then
      let s2 := s1.takeServed l
      let s3 := ((s2.modSwap l fun w => { w with ownPending := false, ownVcs := false }).endSwap l (if isCtl f 4 then 5 else 6)).amsEnd l
      .next (if w.ownVcs then s3.firstCaps l else s3)
    else .next s1
  | (_, s1) => .next s1

/-- tSrcTransition ends (R114 step 2). -/
def execSwapSrcTransition (l : LaneId) (s : State) : Out :=
  let w := (s.lane l).swap
  if w.state = 1 && w.presentsRp then
    .next (((s.stopStage l).openPath l).modBelay l fun b => { b with dischOut := true })
  else .next s

/-- VBUS is below vSafe0V (R114 steps 3 and 4): Rd is presented and PS_RDY is sent. -/
def execSwapVsafe0v (l : LaneId) (s : State) : Out :=
  let x := s.lane l
  if x.swap.state = 1 && x.swap.presentsRp && x.belay.sw = 0 then
    let s1 := (s.modBelay l fun b => { b with dischOut := false }).modSwap l fun w => { w with presentsRp := false }
    .next (s1.hwSend l .swapPsRdy false (ctl 6))
  else .next s

/-- The lane's own Request has been accepted, so that the source's PS_RDY brings the contract (R116). -/
def sinkReady (x : Lane) : Bool := x.con.change.any fun d => d.asSink && d.started

/-- What the partner's PS_RDY does (R83, R114 step 5, R115 step 2, R116, R119 step 9, R124 step 2b). A contract as sink is the base image's to make, which leaves the message in the FIFO until it serves the lane (R22, R66). PARTNER_RP of a sink that becomes source keeps its last value (DESIGN CHOICE, log 82). -/
def State.partnerReady (s : State) (l : LaneId) : State :=
  let x := s.lane l
  let w := x.swap
  if w.state = 1 && !w.presentsRp then
    let s1 := s.modSwap l fun w => { w with powerRole := false, frsArm := false }
    let s2 := (s1.modCon l fun c => { c.clearContract with kaKind := 0, eprMode := false, eprEntry := 0, offer := [] }).modBudget l fun b =>
      { b with counted := 0 }
    ((s2.endSwap l 1).baseLimits l).amsEnd l
  else if w.state = 2 && !w.presentsRp then
    (((s.openPath l).modSwap l fun w => { w with presentsRp := true, rpHigh := true }).postLane l 6).askClose l .asSource
  else if w.state = 4 && w.psSent then
    (((s.modSwap l fun w => { w with powerRole := false }).modCon l fun c => { c with eprMode := false }).endSwap l 2).baseLimits l
  else if w.state = 5 && !w.vcsTake then s.modSwap l fun w => { w with psSent := true }
  else if sinkReady x && serves s l then s.sinkContract l
  else s

/-- The partner's PS_RDY arrives (R114). -/
def execPsRdy (l : LaneId) (f : Frame) (s : State) : Out :=
  match s.receive l f with
  | (.stored, s1) => if isCtl f 6 then .next ((s1.takeServed l).partnerReady l) else .next s1
  | (_, s1) => .next s1

/-- tPSSourceOn ends without the partner's PS_RDY (R114). -/
def execPsSourceOn (l : LaneId) (s : State) : Out :=
  let w := (s.lane l).swap
  if w.state = 1 && !w.presentsRp then .next (s.errorRecovery l) else .next s

/-- tPSSourceOff ends without the partner's PS_RDY (R115). -/
def execPsSourceOff (l : LaneId) (s : State) : Out :=
  let w := (s.lane l).swap
  if w.state = 2 && !w.presentsRp then .next (s.errorRecovery l) else .next s

-- fast role swap

/-- A core writes frs_arm = 1 (R110, R118); a write of a core that may not write the lane's bits is ignored (R297). -/
def execFrsArm (t : CoreId) (l : LaneId) (s : State) : Out := if !laneBitOwner s t l || s.fusedOff l then .next s else .next (s.armFrs l)

/-- The base image's part of the pack's Sink_Capabilities (R118): FRS_CAP, and HOLD_SET where FRS is enabled; otherwise what follows Get_Sink_Cap, where the pack record is read once in the Urkai mode (R135). -/
def State.onSinkCaps (s : State) (l : LaneId) (f : Frame) : State :=
  if !isData f 4 then s
  else
    let cap := decide (fld (obj f 0) 24 23 ≠ 0)
    let s1 := s.modSwap l fun w => { w with frsCap := cap }
    if (s.lane l).con.seqWait && (s.lane l).con.seq = .sinkCap then
      if cap && bitOf (s.lane l).cfg.swapCtrl 0 then s1.seqStep l .holdSet else s1.seqNext l
    else s1

/-- The pack's Sink_Capabilities (R118). -/
def execSinkCapabilities (l : LaneId) (f : Frame) (s : State) : Out := .next (s.imageReceive l f fun t => t.onSinkCaps l f)

/-- The base image's part of an answer to HOLD_SET (R118). -/
def State.onHoldSet (s : State) (l : LaneId) (f : Frame) : State :=
  if urkaiAnswer s f 21 && (s.lane l).con.seq = .holdSet then s.seqAnswer l f else s

/-- An answer to HOLD_SET: the hold current is agreed at its ACK, whichever image sent it (R118). -/
def execHoldSetAck (l : LaneId) (f : Frame) (s : State) : Out :=
  .next (s.urkaiReceive l f 21 (fun t => t.modSwap l fun w => { w with holdAgreed := w.holdAgreed || (s.lane l).con.urkai }) fun t => t.onHoldSet l f)

/-- An armed lane signals FRS (R119 step 2), but not one that has tripped (R167). -/
def State.signalFrs (s : State) (l : LaneId) : State :=
  let x := s.lane l
  if x.swap.frsArm && !x.belay.tripOpen && !x.belay.deferred && x.swap.state = 0 && !x.swap.packHold && !x.pd.hrBusy then
    (((s.stopStage l).modSwap l fun w => { w with frsArm := false, state := 3, holdOn := true, frsSignal := true, stopOwed := false }).modTally l fun t =>
      { t with cv := false, cvDone := false }).postLane l 6
  else s

/-- The bus falls through the FRS threshold (R119, R205). -/
def execFrsTrig (s : State) : Out :=
  if s.bus.frs || fld s.bus.vsnsTh 11 0 = 0 then .next s
  else
    let s1 := (s.modBus fun b => { b with frs := true, frsEvt := true }).post 0x219
    .next (s1.forEach allLanes fun st l => st.signalFrs l)

/-- tFRSwapTx ends (R119 step 3). -/
def execFrsSwapTx (l : LaneId) (s : State) : Out :=
  if (s.lane l).swap.frsSignal then .next (s.modSwap l fun w => { w with frsSignal := false }) else .next s

/-- 250 µs after the crossing (R119 step 5): at 90 % of the contract voltage or more the stage enters reverse mode at the hold current. `vbus` is in mV. -/
def execFrsHoldCheck (l : LaneId) (vbus : Nat) (s : State) : Out :=
  let x := s.lane l
  if x.swap.state = 3 && !x.conv.on && 45 * x.con.vc ≤ 10 * vbus then
    let r := revIlim x.cfg
    .next (((s.setRev l r).reverseStart l).modCon l fun c => { c with curr := BitVec.ofNat 10 r, kaKind := 0 })
  else .next s

/-- FR_Swap arrives (R119 steps 6 and 7); outside SWAP_STATE 3 the lane signals Hard Reset (R128). -/
def execFrSwap (l : LaneId) (f : Frame) (s : State) : Out :=
  match s.receive l f with
  | (.stored, s1) =>
    if isCtl f 19 then
      let s2 := s1.takeServed l
      if (s.lane l).swap.state = 3 then
        .next ((s2.modSwap l fun w => { w with state := 4, psSent := false, frsSignal := false }).hwSend l .swapAccept false (ctl 3))
      else .next (s2.hardReset l)
    else .next s1
  | (_, s1) => .next s1

/-- A step of R119 has not come in time. -/
def execFrsTimeout (l : LaneId) (s : State) : Out :=
  let w := (s.lane l).swap
  if w.state = 3 || w.state = 4 then .next (s.hardReset l) else .next s

/-- The bus rises above FRS_V + HYST (R205). -/
def execFrsTrigClear (s : State) : Out := .next (s.modBus fun b => { b with frs := false })

/-- The bus has stayed above the FRS threshold plus hysteresis for 5 s: the base image ends the hold (R122). -/
def execHoldEnd (l : LaneId) (s : State) : Out :=
  let w := (s.lane l).swap
  if w.holdOn && !w.powerRole && w.state = 0 && !s.bus.frs then .next (s.sendPrSwap l) else .next s

/-- PACK_HOLD's 2 s end (R126). -/
def execPackHoldEnd (l : LaneId) (s : State) : Out := .next (s.modSwap l fun w => { w with packHold := false })

/-- PRS_REQ = 1: ignored while SWAP_STATE is not 0 (R106, R113). -/
def State.prsReq (s : State) (l : LaneId) : State := if (s.lane l).swap.state ≠ 0 then s else s.sendPrSwap l

-- DR_Swap and VCONN_Swap

/-- The answer to a DR_Swap (R123). -/
def judgeDrSwap (x : Lane) : SwapAnswer :=
  if x.swap.state ≠ 0 then .wait
  else if x.con.urkai || !bitOf x.cfg.swapCtrl 3 then .reject
  else .accept

/-- A DR_Swap of the partner (R123). -/
def execDrSwap (l : LaneId) (f : Frame) (s : State) : Out :=
  .next (s.imageReceive l f fun t =>
    if !isCtl f 9 then t
    else
      let r := judgeDrSwap (t.lane l)
      let t1 := if r = .accept then t.modSwap l fun w => { w with swapAccept := true, state := 6, frsArm := false } else t
      t1.answerSwap l r)

/-- The answer to a VCONN_Swap (R124). -/
def judgeVconnSwap (s : State) (l : LaneId) : SwapAnswer :=
  let x := s.lane l
  if x.swap.state ≠ 0 then .wait
  else if !bitOf x.cfg.swapCtrl 2 then .reject
  else if !x.swap.vconnRole && (!vconnAllowed s l || x.cc.st ≠ .attachedSrc || x.fw.vconnLast) then .reject
  else .accept

/-- A VCONN_Swap of the partner (R124). -/
def execVconnSwap (l : LaneId) (f : Frame) (s : State) : Out :=
  .next (s.imageReceive l f fun t =>
    if !isCtl f 11 then t
    else
      let r := judgeVconnSwap t l
      let t1 := if r = .accept then t.modSwap l fun w => { w with swapAccept := true } else t
      t1.answerSwap l r)

/-- VCONN is stable: PS_RDY is sent and the role taken (R124 step 3a); after a VCONN_Swap of the base image's own, cable discovery follows. -/
def execVconnStable (l : LaneId) (s : State) : Out :=
  let w := (s.lane l).swap
  if w.state = 5 && w.vcsTake && (s.lane l).cc.vconnOn then
    let s1 := ((s.hwSend l .answer false (ctl 6)).modSwap l fun w => { w with vconnRole := true }).endSwap l 4
    .next (if w.vcsTried then s1.firstCaps l else s1)
  else .next s

/-- tVCONNSourceTimeout ends (R124): the lane keeps VCONN and signals Hard Reset. -/
def execVconnSourceTimeout (l : LaneId) (s : State) : Out :=
  let w := (s.lane l).swap
  if w.state = 5 && !w.vcsTake && !w.psSent then .next (s.hardReset l) else .next s

/-- tVCONNSourceOff ends (R124 step 3b), and with it the sequence (R111). -/
def execVconnSourceOff (l : LaneId) (s : State) : Out :=
  let w := (s.lane l).swap
  if w.state = 5 && !w.vcsTake && w.psSent then
    .next ((((s.modCc l fun c => { c with vconnOn := false }).modSwap l fun w => { w with vconnRole := false }).endSwap l 4).amsEnd l)
  else .next s

end Sys2Proof.Machine
end

