-- ==== Sys2Proof/Machine/Tally.lean ====
section
/-! DEFINITION. The charge tally (R129–R133) and the pack record (R135, R136). -/

namespace Sys2Proof.Machine

/-- The limits of TALLY_Q (R129). -/
def qMax : Int := 2 ^ 39 - 1
def qMin : Int := -(2 ^ 39)

/-- Charge in 2^-24 µA·s added to the tally, with its magnitude added to TALLY_THRU (R129, R130). TALLY_Q is the sum rounded down, and its fraction is kept. -/
def TallyLane.charge (t : TallyLane) (dq : Int) : TallyLane :=
  let sum := t.q * 2 ^ 24 + t.qFrac + dq
  let q := Int.fdiv sum (2 ^ 24)
  let out := decide (q < qMin) || decide (qMax < q)
  let m := t.thruFrac + dq.natAbs
  { t with q := clampInt qMin qMax q, qFrac := if out then 0 else (sum - q * 2 ^ 24).toNat, sat := t.sat || out,
           thru := Min.min 0xFFFFFFFF (t.thru + m / (1000 * 2 ^ 24)), thruFrac := m % (1000 * 2 ^ 24) }

/-- Seconds since the last anchor, or since attach (R130). On a lane that has not attached since reset they count from DTIME 0 (DESIGN CHOICE, log 108). -/
def TallyLane.ageAt (t : TallyLane) (now : Nat) : Nat := Min.min 0xFFFFFF ((now - t.ageStart) / 1000000000)

/-- The capacity that an anchor of a kind learns (R133): it follows one of the opposite kind, without saturation, with the sign of the swing. -/
def learned (t : TallyLane) (kind : BitVec 2) : Option Nat :=
  let full := decide (kind = 1)
  if t.sat || t.lastAnchor = 0 || full = decide (t.lastAnchor = 1) then none
  else if (full && 0 < t.q) || (!full && t.q < 0) then some ((t.q.natAbs + 500) / 1000)
  else none

/-- The base image starts the write of a capacity (R135, R136): with VSYS low, with another command waiting for its answer, or while the core does not serve, it is begun later. -/
def State.packWrite (s : State) (l : LaneId) (v : Nat) : State :=
  let x := s.lane l
  if isPack x then
    let s1 := s.modCon l fun c => { c with recValue := BitVec.ofNat 32 v }
    if s.dev.vsysWarn || x.con.seqWait || !serves s l then s1.modCon l fun c => { c with recRetry := true }
    else s1.seqStep l .recWrite
  else s

/-- An anchor (R131–R133): JUMP with the old capacity, or a free value where the state of charge was not known (log 23), the learned capacity, the counts cleared and records 0x0401 and 0x0402; a hold ends its reverse stage at an empty anchor (R122, R194), which a core that does not serve the lane does when it resumes. -/
def State.anchor (s : State) (l : LaneId) (kind : BitVec 2) : State :=
  let t := (s.lane l).tally
  let old := socValue t
  let new : Nat := if kind = 1 then 10000 else 0
  let (v, s0) := if old = 0xFFFF then s.free else (0, s)
  let jump : BitVec 8 := if old = 0xFFFF then v.truncate 8 else BitVec.ofInt 8 (Int.tdiv ((new : Int) - old) 100)
  let thru : Word := BitVec.ofNat 32 t.thru
  let age : Word := BitVec.ofNat 32 (t.ageAt s.dev.dtime)
  let s1 := (s0.modTally l fun t =>
    { t with q := 0, qFrac := 0, thru := 0, thruFrac := 0, age := 0, ageStart := s.dev.dtime, sat := false, lastAnchor := kind, anchorEvt := true,
             jump := jump, cvDone := t.cvDone || decide (kind = 1), emptyDone := t.emptyDone || decide (kind = 3) }).postLane l 7
  let s2 := match learned t kind with
    | some c =>
      let s3 := (s1.modTally l fun t => { t with cap := BitVec.ofNat 32 c, capNew := true }).postLane l 7
      ((s3.log 0x0401 .lane l.val (tallyStatus (s3.lane l).tally) thru age).log 0x0402 .lane l.val (BitVec.ofNat 32 c) 0 0).packWrite l c
    | none => s1.log 0x0401 .lane l.val (tallyStatus (s1.lane l).tally) thru age
  if kind ≠ 1 && (s.lane l).swap.holdOn then
    if serves s l then s2.stopStage l else s2.modSwap l fun w => { w with stopOwed := true }
  else s2

/-- CV has held for TALLY_FULL_T (R131). -/
def execFullAnchor (l : LaneId) (s : State) : Out :=
  let x := s.lane l
  if x.tally.cv && !x.tally.cvDone && x.cfg.tallyFullT ≠ 0 then .next (s.anchor l 1) else .next s

/-- VBUS has stayed below TALLY_EMPTY_V for 100 ms (R131). -/
def execEmptyAnchor (l : LaneId) (s : State) : Out :=
  let x := s.lane l
  if !x.swap.powerRole && x.cc.attached && x.cfg.tallyEmptyV ≠ 0 && !x.tally.emptyDone then .next (s.anchor l 3) else .next s

/-- CLR = 1 (R130). -/
def State.tallyClear (s : State) (l : LaneId) : State :=
  s.modTally l fun t => { t with q := 0, qFrac := 0, thru := 0, thruFrac := 0, age := 0, ageStart := s.dev.dtime, lastAnchor := 0, sat := false }

/-- The base image's part of a Battery_Status (R131): Battery Present Capacity 0 with the battery present makes it write EMPTY_MARK. -/
def State.onBattery (s : State) (l : LaneId) (f : Frame) : State :=
  if isData f 5 && fld (obj f 0) 31 16 = 0 && bitOf (obj f 0) 9 then s.anchor l 2 else s

/-- A Battery_Status of the partner (R131). -/
def execBatteryStatus (l : LaneId) (f : Frame) (s : State) : Out := .next (s.imageReceive l f fun t => t.onBattery l f)

/-- The base image's part of an answer to REC_COMMIT (R135, R136): committed at an ACK, not written otherwise. The record index that the ACK echoes is not compared (DESIGN CHOICE, log 108). -/
def State.onRecCommit (s : State) (l : LaneId) (f : Frame) : State :=
  let c := (s.lane l).con
  if urkaiAnswer s f 24 && c.seqWait && c.seq = .recCommit then
    (s.logSw 0x0404 .lane l.val 0 c.recValue (if vdmType f = 1 then 0 else 1)).seqEnd l
  else s

/-- An answer to REC_COMMIT (R135, R136). -/
def execRecCommitAck (l : LaneId) (f : Frame) (s : State) : Out := .next (s.imageReceive l f fun t => t.onRecCommit l f)

/-- A message of the queue is the command `cmd` of PD_SVID, as the base image sends it (R117). -/
def isUrkaiReq (s : State) (cmd : Nat) (m : TxSlot) : Bool :=
  let f := slotFrame m
  !m.ext && m.sop = .sop && isSvdm f && vdmSvid f = pdSvid s && vdmCmd f = cmd && vdmType f = 0

/-- A queued message that has not begun is taken back: it ends Aborted (R60). -/
def State.cancelQueued (s : State) (l : LaneId) (p : TxSlot → Bool) : State :=
  s.forEach ((s.lane l).pd.queue.filter fun m => !m.begun && p m) fun st m =>
    ((st.modPd l fun q => { q with queue := q.queue.erase m }).notSent l m).endMessage l m.tag 4 0

/-- dev.vsys_warn = 1: each uncommitted pack write of the base image is classified (R136). One that is not begun, queued or not, is cancelled and queued again later; one whose REC_COMMIT has not been sent is interrupted. Record 0x0404 has the codes 0 and 1 alone (R358), and 'Not sent' takes 1 as 'Not committed' does (DESIGN CHOICE, log 88). -/
def State.freezePackWrite (s : State) (l : LaneId) : State :=
  let c := (s.lane l).con
  let waits (cmd : Nat) : Bool := (s.lane l).pd.queue.any fun m => !m.begun && isUrkaiReq s cmd m
  if !serves s l then s
  else if c.seqWait && c.seq = .recWrite then
    if waits 23 then
      (((s.cancelQueued l (isUrkaiReq s 23)).logSw 0x0404 .lane l.val 0 c.recValue 1).modCon l fun c =>
        { c with seq := .done, seqWait := false, recRetry := true }).amsEnd l
    else ((s.logSw 0x0404 .lane l.val 0 c.recValue 1).modCon l fun c => { c with seq := .done, seqWait := false }).amsEnd l
  else if c.seqWait && c.seq = .recCommit && waits 24 then
    (((s.cancelQueued l (isUrkaiReq s 24)).logSw 0x0404 .lane l.val 0 c.recValue 1).modCon l fun c =>
      { c with seq := .done, seqWait := false }).amsEnd l
  else if c.recRetry then s.logSw 0x0404 .lane l.val 0 c.recValue 1
  else s

end Sys2Proof.Machine
end

