-- ==== Sys2Proof/Machine/Counters.lean ====
section
/-! DEFINITION. The counters (file 10): counting (R248–R250), compare matches and pin actions (R257–R260), chaining and snapshots (R253), capture (R255), staggered sets (R261), the counters claimed at RUN (R262, R263) and the stores of their registers. -/

namespace Sys2Proof.Machine

-- fields

/-- EN, MODE, CLK_SRC and SET_LEN of CNTn_CTRL (R251). -/
def Counter.en (c : Counter) : Bool := bitOf c.ctrl 0
def Counter.upDown (c : Counter) : Bool := bitOf c.ctrl 4
def Counter.clkSrc (c : Counter) : Nat := fld c.ctrl 9 8
def Counter.setLen (c : Counter) : Nat := fld c.ctrl 19 16

/-- Sets EN. -/
def Counter.setEn (c : Counter) (v : Bool) : Counter := { c with ctrl := setFld c.ctrl 0 0 (b2n v) }

/-- CAP_SRC and LINK of CNTn_ACT (R256). -/
def Counter.capSrc (c : Counter) : Nat := fld c.act 17 15
def Counter.link (c : Counter) : Nat := fld c.act 12 8

/-- A counter index, where a number names one. -/
def counterOf (n : Nat) : Option CounterId := if h : n < 24 then some ⟨n, h⟩ else none

-- one tick

/-- A tick's move: the counter after it, whether it moved down, its turn and its peak (R249, R250). A TOP written on the tick of the peak waits for the next up slope (R266). -/
def Counter.move (c0 : Counter) : Counter × Bool × Bool × Bool :=
  let c := if c0.down || c0.topWait then { c0 with topWait := false } else { c0 with topEff := c0.top }
  let v := c.val.toNat
  let top := c.topEff.toNat
  if c.down then
    if v = 0 then ({ c with down := false, topEff := c.top, val := 1 }, false, false, decide (c.top = 1))
    else if v = 1 then ({ c with val := 0, down := false, topEff := c.top }, true, true, false)
    else ({ c with val := c.val - 1 }, true, false, false)
  else if top < v then ({ c with val := c.val - 1, down := true, slopeTop := c.val }, true, false, true)
  else if v = top then
    if c.upDown then
      if top = 1 then ({ c with val := 0, slopeTop := c.val }, true, true, false)
      else ({ c with val := c.val - 1, down := true, slopeTop := c.val }, true, false, false)
    else ({ c with val := 0 }, false, true, false)
  else ({ c with val := c.val + 1 }, false, false, decide (v + 1 = top))

/-- Hardware keeps the counter as one of the arbiter's, from RUN until RUN is cleared (R263). -/
def Counter.arbiter (c : Counter) : Bool := c.claim = 3 && c.held

/-- Whether DIR_A or DIR_B allows a direction (R256, R257); the arbiter's counters match A counting up (R263). -/
def Counter.dirAllows (c : Counter) (b down : Bool) : Bool :=
  let d := if b then fld c.act 3 2 else if c.arbiter then 1 else fld c.act 1 0
  (d = 3) || (d = 1 && !down) || (d = 2 && down)

/-- Whether compare B is idle because the counter captures (R256). -/
def Counter.bIdle (c : Counter) : Bool := c.capSrc ≠ 0

/-- Whether a value lies in the part of the present slope already travelled (R258). -/
def Counter.travelled (c : Counter) (x : Word) : Bool :=
  if c.down then decide (c.val.toNat ≤ x.toNat) && decide (x.toNat ≤ Max.max c.topEff.toNat c.slopeTop.toNat)
  else decide (x.toNat ≤ c.val.toNat)

/-- A pin action on a level (R256, R260). -/
def pinAction (k : Nat) (level : Bool) : Bool :=
  match k with
  | 1 => true
  | 2 => false
  | 3 => !level
  | _ => level

/-- Posts counter n's source k (R252). -/
def State.postCnt (s : State) (n : CounterId) (k : Nat) : State := s.post (0x300 + 4 * n.val + k)

-- the arbiter's slots (R263)

/-- ns per TCLK tick (R13, R248). -/
def tclkNs (s : State) : Nat := if s.dev.tclkSel = 1 then 40 else 125

/-- DTIME of the last TCLK tick. -/
def tickTime (s : State) : Nat := s.dev.dtime - s.dev.tclkPhase

/-- The count of a slot time: VAL plus the ticks from the last tick to T′, rounded down, with DTIME and VAL of that one tick (R263). -/
def slotCount (s : State) (c : Counter) (t : Nat) : Word := c.val + BitVec.ofInt 32 (Int.fdiv ((t : Int) - tickTime s) (tclkNs s))

/-- The first pending slot time of a counter has passed: its tick is the present one or an earlier one (R258, R263). -/
def slotPassed (s : State) (c : Counter) : Bool := c.slots.head?.any fun e => decide (e.1 < tickTime s + tclkNs s)

/-- CMPA takes the next pending slot time of a slot counter (R263). -/
def State.loadSlot (s : State) (n : CounterId) : State :=
  match (s.counter n).slots with
  | [] => s
  | (t, _, _) :: _ => if (s.counter n).arbiter then s.modCounter n fun c => { c with cmpANew := some (slotCount s c t) } else s

/-- An edge of a section line joins a slot counter's pending times, in order of time (R240, R263). -/
def insertSlot (e : Nat × LaneId × Bool) : List (Nat × LaneId × Bool) → List (Nat × LaneId × Bool)
  | [] => [e]
  | x :: r => if e.1 < x.1 then e :: x :: r else x :: insertSlot e r

/-- A section line takes a level: its load comes on or goes off with the edge (R240, R241). The post is no longer pending, unless a Twin contract carries its other part in SECT_MODE 3. In SECT_MODE 1 the edge is ALTENn's alone (R391, log 119). -/
def State.lineEdge (s : State) (l : LaneId) (v : Bool) : State :=
  let x := s.lane l
  let s1 := s.modSect l fun y => { y with lineOn := v, pending := y.pending && (sectMode s l = 1 || (sectMode s l = 3 && x.con.twinOn)) }
  if x.sect.lineOn = v || sectMode s l = 1 then s1 else s1.loadChanges l s.dev.dtime v

/-- The slot time of a slot counter: every line attached to the first pending T′, to the same tick or to a time already passed takes its level, and the next T′ is loaded (R263). -/
def State.fireSlot (s : State) (n : CounterId) : State :=
  match (s.counter n).slots with
  | [] => s
  | (t, l, v) :: r =>
    let c := s.counter n
    let due (e : Nat × LaneId × Bool) : Bool := e.1 = t || decide (e.1 ≤ s.dev.dtime) || slotCount s c e.1 = slotCount s c t
    let s1 := s.forEach (((t, l, v) :: r).filter due) fun st e => st.lineEdge e.2.1 e.2.2
    (s1.modCounter n fun c => { c with slots := r.filter fun e => !due e }).loadSlot n

/-- A switch of lane l's line at time t is attached to slot k (R240, R263). -/
def State.attachSlot (s : State) (k t : Nat) (l : LaneId) (v : Bool) : State :=
  match counterOf (fld s.bus.stagger 20 16 + k) with
  | some n => (s.modCounter n fun c => { c with slots := insertSlot (t, l, v) c.slots }).loadSlot n
  | none => s

/-- A pending switch of lane l's line is withdrawn, and the slot counter that held it takes the next pending time (R240, R263). -/
def State.dropSlots (s : State) (l : LaneId) : State :=
  s.forEach ((List.finRange 24).filter fun n => (s.counter n).slots.any fun e => e.2.1 = l) fun st n =>
    (st.modCounter n fun c => { c with slots := c.slots.filter fun e => e.2.1 ≠ l }).loadSlot n

-- matches

/-- Written compares that are still pending are taken without a match: none fires for a value that the starting count has passed (R260). -/
def Counter.settleCmp (c : Counter) : Counter :=
  { c with cmpA := c.cmpANew.getD c.cmpA, cmpB := c.cmpBNew.getD c.cmpB, cmpANew := none, cmpBNew := none }

/-- EN rises, and the level takes PIN_INIT (R260). -/
def Counter.start (c : Counter) : Counter := { c.settleCmp.setEn true with level := bitOf c.act 25 }

/-- A match of A or B (R257–R260): flag, source, pin action, match action; on a slot counter the lines of the slot. -/
def State.matchAct (s : State) (n : CounterId) (b : Bool) : State :=
  let c := s.counter n
  let pin := if b then fld c.act 23 22 else fld c.act 21 20
  let act := if b then fld c.act 7 6 else fld c.act 5 4
  let s1 := (s.modCounter n fun c =>
    { c with aF := c.aF || !b, bF := c.bF || b, level := if bitOf c.act 31 then pinAction pin c.level else c.level,
             val := if act = 1 then 0 else c.val, down := if act = 1 then false else c.down }).postCnt n (b2n b)
  let s2 :=
    if c.link = n.val then s1
    else match counterOf c.link with
      | some m =>
        if act = 2 then
          s1.modCounter m fun d => if d.en then d else d.start
        else if act = 3 then s1.modCounter m fun d => { d with resetNext := true }
        else s1
      | none => s1
  if !b && c.arbiter then s2.fireSlot n else s2

/-- The flags and sources of a turn and a peak (R249, R252). -/
def State.turnPeak (s : State) (n : CounterId) (turn peak : Bool) : State :=
  let s1 := if turn then (s.modCounter n fun c => { c with turnF := true }).postCnt n 2 else s
  if peak then (s1.modCounter n fun c => { c with peakF := true, peakAt := some s.dev.dtime }).postCnt n 3 else s1

/-- One tick of counter n (R248–R250, R257–R259, R266): pending writes take effect, the counter moves where `go` holds and it ran before the tick (`en`), matches act, and a reset that a linked counter asked for before the tick (`rst`) comes last. A slot counter's late match goes by its slot time, which the wrap of VAL does not touch (R263). The answer is whether it turned. -/
def State.stepCounter (s : State) (n : CounterId) (en rst go : Bool) : Bool × State :=
  let c0 := s.counter n
  let newA := c0.cmpANew.getD c0.cmpA
  let newB := c0.cmpBNew.getD c0.cmpB
  let passed := if c0.arbiter && !c0.slots.isEmpty then c0.cmpANew.isSome && slotPassed s c0 else decide (newA ≠ c0.cmpA) && c0.travelled newA
  let lateA := en && passed && c0.dirAllows false c0.down
  let lateB := en && newB ≠ c0.cmpB && c0.travelled newB && c0.dirAllows true c0.down && !c0.bIdle
  let c1 := { c0 with cmpA := newA, cmpB := newB, cmpANew := none, cmpBNew := none, valNew := none }
  let (c2, moved, down, turn, peak) : Counter × Bool × Bool × Bool × Bool :=
    match c0.valNew with
    | some v => ({ c1 with val := v, topEff := if c1.down then c1.topEff else c1.top, topWait := false }, false, false, false, false)
    | none => if go && en then (let m := c1.move; (m.1, true, m.2.1, m.2.2.1, m.2.2.2)) else (c1, false, false, false, false)
  let hitA := lateA || (moved && c2.val = newA && c2.dirAllows false down)
  let hitB := lateB || (moved && c2.val = newB && c2.dirAllows true down && !c2.bIdle)
  let resets := (hitA && fld c2.act 5 4 = 1) || (hitB && fld c2.act 7 6 = 1)
  let turn' := turn && !resets
  let s1 := (s.modCounter n fun _ => c2).turnPeak n turn' peak
  let s2 := if hitA then s1.matchAct n false else s1
  let s3 := if hitB then s2.matchAct n true else s2
  let s4 := if rst then s3.modCounter n fun c => { c with val := 0, down := false } else s3
  (turn', s4)

/-- The counters from a list in ascending order tick once; a counter with CLK_SRC = 1 moves with its lower neighbour's turn (R253). What a counter asks of its linked counter acts at the next tick, so EN and resets are those of `old`, the state before the tick (R259). -/
def State.tickFrom (s old : State) (tclk prevTurn : Bool) : List CounterId → State
  | [] => s
  | n :: r =>
    let k := (s.counter n).clkSrc
    let go := (k = 0 && tclk) || (k = 1 && prevTurn && n.val ≠ 0)
    if tclk || go then
      let p := s.stepCounter n (old.counter n).en (tclk && (old.counter n).resetNext) go
      p.2.tickFrom old tclk p.1 r
    else s.tickFrom old tclk false r

/-- A TCLK tick (R248). -/
def State.tclkTick (s : State) : State :=
  (s.forEach ((List.finRange 24).filter fun n => (s.counter n).resetNext) fun st n => st.modCounter n fun c => { c with resetNext := false }).tickFrom s true
    false (List.finRange 24)

/-- The counters above n, which a turn of n clocks while they are chained. -/
def above (n : CounterId) : List CounterId := (List.finRange 24).filter fun m => n.val < m.val

-- commands

/-- A counter turns (R249). -/
def execTurnEvent (n : CounterId) (s : State) : Out :=
  let c := s.counter n
  if c.en then
    let s1 := (s.modCounter n fun c => { c with val := 0, down := false, topEff := c.top }).turnPeak n true false
    .next (s1.tickFrom s1 false true (above n))
  else .next s

/-- A counter reaches TOP counting up (R249). -/
def execPeakEvent (n : CounterId) (s : State) : Out :=
  let c := s.counter n
  if c.en && !c.down then
    .next ((s.modCounter n fun c => { c with val := c.top, topEff := c.top }).turnPeak n false true)
  else .next s

/-- VAL reaches a compare value (R257): a value above TOP matches only during a turn down from above TOP, and B is idle while the counter captures. -/
def execCompareMatch (n : CounterId) (b : Bool) (s : State) : Out :=
  let c := s.counter n
  let x := if b then c.cmpB else c.cmpA
  if c.en && c.dirAllows b c.down && !(b && c.bIdle) && (decide (x.toNat ≤ c.topEff.toNat) || (c.down && decide (x.toNat ≤ c.slopeTop.toNat))) then
    .next ((s.modCounter n fun c => { c with val := x }).matchAct n b)
  else .next s

/-- Whether CAP_EDGE selects a level change; 3 acts as 0 (R256). -/
def edgeCounts (c : Counter) (rising : Bool) : Bool :=
  match fld c.act 19 18 with
  | 1 => !rising
  | 2 => true
  | _ => rising

/-- The captured count (R255). -/
def capturedCount (c : Counter) : Word :=
  if c.upDown then c.val
  else
    let m := c.topEff.toNat + 1
    BitVec.ofNat 32 ((c.val.toNat + m - fld c.cap 15 8 % m) % m)

/-- An accepted level change at a counter's capture input (R255). -/
def execCapture (n : CounterId) (rising : Bool) (s : State) : Out :=
  let c := s.counter n
  if c.capSrc = 0 || 5 < c.capSrc then .next s
  else
    let s1 := if c.capSrc = 5 then { s with slIn := setFld s.slIn (fld c.act 30 26) (fld c.act 30 26) (b2n rising) } else s
    if !edgeCounts c rising then .next s1
    else if c.presc < fld c.cap 7 0 then .next (s1.modCounter n fun c => { c with presc := c.presc + 1 })
    else
      let s2 := (s1.modCounter n fun c =>
        { c with presc := 0, cmpB := capturedCount c, capN := c.capN + 1, bF := true }).postCnt n 1
      if c.clkSrc = 2 then
        let p := s2.stepCounter n c.en false true
        .next (p.2.tickFrom s2 false p.1 (above n))
      else .next s2

/-- 1 ms before a pending slot time the count is computed again (R263). -/
def execSlotTimeConversion (n : CounterId) (s : State) : Out := .next (s.loadSlot n)

-- registers

/-- Host writes to a counter that hardware has claimed are ignored while STATE is RUN (R264). -/
def cntWritable (s : State) (a : Agent) (n : CounterId) : Bool := !(a = .host && s.dev.state = .run && 2 ≤ (s.counter n).claim.toNat)

/-- A write of CNTn_VAL (R250). -/
def State.storeCntVal (s : State) (a : Agent) (n : CounterId) (v : Word) : State :=
  if cntWritable s a n then s.modCounter n fun c => { c with valNew := some v } else s

/-- The members of the set that n leads (R261). -/
def setMembers (s : State) (n : CounterId) : List CounterId :=
  (List.finRange 24).filter fun m => n.val < m.val && m.val < n.val + (s.counter n).setLen

/-- A write of TOP at a time: one on the tick of the peak leaves the peak, and acts from the next up slope (R250, R266). -/
def Counter.setTop (c : Counter) (now : Nat) (w : Word) : Counter :=
  { c with top := w, topWait := c.topWait || (c.peakAt.any (fun t => decide (t = now)) && !c.down && c.val = c.topEff) }

/-- A write of CNTn_TOP: 0 stores 1, and a running set's leader writes every member's (R247, R250, R261). -/
def State.storeCntTop (s : State) (a : Agent) (n : CounterId) (v : Word) : State :=
  if cntWritable s a n then
    let w : Word := if v = 0 then 1 else v
    let s1 := s.modCounter n fun c => c.setTop s.dev.dtime w
    if (s.counter n).en then s1.forEach (setMembers s n) fun st m => st.modCounter m fun c => c.setTop s.dev.dtime w else s1
  else s

/-- A write of CNTn_CMPA or CNTn_CMPB (R247, R258). -/
def State.storeCntCmp (s : State) (a : Agent) (n : CounterId) (b : Bool) (v : Word) : State :=
  if cntWritable s a n then
    s.modCounter n fun c => if b then (if c.bIdle then c else { c with cmpBNew := some v }) else { c with cmpANew := some v }
  else s

/-- A member of a starting set: member k of N loaded at its cycle position (R261). -/
def Counter.joinSet (c lead : Counter) (k n : Nat) : Counter :=
  let top := lead.top.toNat
  let period := if lead.upDown then 2 * top else top + 1
  let p := k * period / n
  let ctrl := setFld (setFld c.ctrl 9 8 lead.clkSrc) 4 4 (b2n lead.upDown)
  { { c with ctrl := ctrl }.start with
    top := lead.top, topEff := lead.top, valNew := none, topWait := false,
    val := BitVec.ofNat 32 (if lead.upDown && top < p then 2 * top - p else p),
    down := lead.upDown && decide (top < p), slopeTop := lead.top }

/-- EN of a leader rises: the whole set starts on one tick (R261). -/
def State.startSet (s : State) (n : CounterId) : State :=
  let lead := s.counter n
  s.forEach (n :: setMembers s n) fun st m => st.modCounter m fun c => c.joinSet lead (m.val - n.val) lead.setLen

/-- A write of CNTn_CTRL (R251, R260, R261): W1C flags, the RWL fields where unlocked, MODE and EN. -/
def State.storeCntCtrl (s : State) (a : Agent) (n : CounterId) (v : Word) : State :=
  if cntWritable s a n then
    let old := s.counter n
    let mask : Word := if s.locked then 0x11 else 0x3F0311
    let s1 := s.modCounter n fun c =>
      { c with ctrl := mergeMask mask c.ctrl v, peakF := c.peakF && !bitOf v 15, turnF := c.turnF && !bitOf v 14,
               bF := c.bF && !bitOf v 13, aF := c.aF && !bitOf v 12 }
    let c := s1.counter n
    if c.en && !old.en then
      (if 2 ≤ c.setLen then s1.startSet n else s1.modCounter n Counter.start)
    else if !c.en && 2 ≤ c.setLen then s1.forEach (setMembers s1 n) fun st m => st.modCounter m fun c => c.setEn false
    else s1
  else s

/-- A write of CNTn_ACT (R256); a write of CAP_SRC restarts the prescaler (R255). -/
def State.storeCntAct (s : State) (a : Agent) (n : CounterId) (v : Word) : State :=
  if cntWritable s a n then
    let mask : Word := if s.locked then 0x02FC00FF else 0xFEFF9FFF
    s.modCounter n fun c => { c with act := mergeMask mask c.act v, presc := if s.locked then c.presc else 0 }
  else s

/-- A write of CNTn_CAP (R254, R255). -/
def State.storeCntCap (s : State) (a : Agent) (n : CounterId) (v : Word) : State :=
  if cntWritable s a n then
    let f := fld v 15 8
    s.modCounter n fun c => { c with cap := packFields [(if f = 0 then 1 else f, 8), (fld v 7 0, 0)], presc := 0 }
  else s

/-- CNT(m+1)_VAL latched into CNTm_HI_SNAP; CNT23 has none (R247, R253). -/
def snapAt (s : State) (lat : Latches) (m : CounterId) : Latches :=
  match counterOf (m.val + 1) with
  | some up => { lat with snap := lat.snap.set m.val (s.counter up).val m.isLt }
  | none => lat

/-- Whether counter m counts the turns of its lower neighbour (R253). -/
def chained (s : State) (m : CounterId) : Bool := (s.counter m).clkSrc = 1

/-- The snapshots of the counters above, while the chain is unbroken (R253). -/
def snapAbove (s : State) (lat : Latches) : List CounterId → Latches
  | [] => lat
  | m :: r => if chained s m && (counterOf (m.val + 1)).any (chained s) then snapAbove s (snapAt s lat m) r else lat

/-- A read of CNTn_VAL latches the words of its chain (R253). -/
def snapChain (s : State) (n : CounterId) (lat : Latches) : Latches := snapAbove s (snapAt s lat n) (above n)

/-- A read of CNTn_VAL by an agent: the count, and the state with its snapshot latched (R253, R436). -/
def State.readCntVal (s : State) (a : Agent) (n : CounterId) : Word × State := ((s.counter n).val, s.modLatch a fun l => snapChain s n l)

-- claims at RUN

/-- The GS input that claims counter n, where one does (R229, R262). -/
def gsClaim (s : State) (n : CounterId) : Option Nat :=
  (List.range 4).find? fun k => bitOf s.swath.gsCtrl k && fld s.swath.gsCtrl 20 16 + k = n.val

/-- Whether the arbiter claims counter n (R219, R263). -/
def slotClaim (s : State) (n : CounterId) : Bool :=
  fld s.bus.stagger 20 16 ≤ n.val && n.val < fld s.bus.stagger 20 16 + fld s.bus.stagger 11 8

/-- Whether counter n belongs to a set whose leader the program claims (R265). -/
def setClaim (s : State) (n : CounterId) : Bool :=
  (List.finRange 24).any fun m => fld (s.counter m).ctrl 21 20 = 1 && m.val < n.val && n.val < m.val + (s.counter m).setLen

/-- A passed check claims every counter (R251, R262, R263, R265); the prescalers restart (R255). -/
def State.claimCounters (s : State) : State :=
  s.forEach (List.finRange 24) fun st n =>
    st.modCounter n fun c0 =>
      let c := { c0 with presc := 0 }
      let run := c.settleCmp
      match gsClaim s n with
      | some k =>
        { run with claim := 2, held := true, top := 0xFFFFFFFF, topEff := 0xFFFFFFFF, ctrl := mergeMask 0x311 c.ctrl 1,
                   act := mergeMask 0x800380FF c.act (packFields [(k + 1, 15)]) }
      | none =>
        if slotClaim s n then
          { run with claim := 3, held := true, top := 0xFFFFFFFF, topEff := 0xFFFFFFFF, ctrl := mergeMask 0x311 c.ctrl 1 }
        else if fld c.ctrl 21 20 = 1 || setClaim s n then { c with claim := 1, held := false }
        else { c with claim := 0, held := false }

end Sys2Proof.Machine
end

