-- ==== Sys2Proof/Machine/Budget.lean ====
section
/-! DEFINITION. The power budget (file 08): measurement and tally in a budget frame (R129, R131, R205, R208, R431), arbitration (R209, R212, R372), ceilings and what the base image does with them (R102, R214–R217), shedding (R215, R216), and staggered switches (R219). Powers are in 0.1 W. -/

namespace Sys2Proof.Machine

-- claims

/-- What a lane puts into arbitration (R212, R220). -/
structure LaneClaim where
  pos : Nat := 0
  lane : Nat := 0
  prio : Nat := 0
  floor : Nat := 0
  want : Nat := 0
  twin : Bool := false
  prev : Nat := 0
  held : Nat := 0
  alloc : Nat := 0
  credit : Nat := 0
  ceil : Int := 0
deriving DecidableEq, Repr

/-- A lane that is source for the arbiter (R207, R212, R126). -/
def budgetSource (s : State) (l : LaneId) : Bool :=
  let x := s.lane l
  x.cc.attached && laneLive s l && x.swap.powerRole && !x.swap.holdOn && !x.swap.packHold

/-- The largest power of a lane's PDO table, by R212. -/
def tablePower (c : LaneCfg) : Nat := c.pdo.toList.foldl (fun m w => Max.max m (pdoPower (readPdo w))) 0

/-- Floor of a lane (R212). -/
def laneFloor (s : State) (l : LaneId) : Nat :=
  let x := s.lane l
  let least := 10 * fld x.cfg.laneBudget 8 0
  if !budgetSource s l then 0
  else if x.con.twinOn then Max.max least (standbyPower x)
  else if x.con.kind = 3 then allocation s l
  else Max.max least 5

/-- Want of a lane (R212). -/
def laneWant (s : State) (l : LaneId) : Nat :=
  let x := s.lane l
  let most := fld x.cfg.laneBudget 20 12
  if !budgetSource s l then 0
  else if x.con.twinOn then (if x.sect.want then runPower x else laneFloor s l)
  else if x.con.kind = 3 then allocation s l
  else if most ≠ 0 then 10 * most
  else tablePower x.cfg

/-- Credit of a lane that measures power p from its partner (R208). -/
def laneCredit (x : Lane) (p : Nat) : Nat :=
  if revBit x.conv && !x.swap.packHold then Min.min p (deciWatt x.con.vc (fld x.cfg.convIset 25 16)) else 0

/-- The allocation that counts in the budget: frozen in HOLDOVER (R22, R46), and while FROZEN no release is counted until arbitration resumes (R221). -/
def countedAlloc (s : State) (l : LaneId) : Nat :=
  let old := (s.lane l).budget.alloc.toNat
  if s.dev.state = .holdover then old
  else if s.bus.frozen then Max.max old (allocation s l)
  else allocation s l

/-- The device's own position, or 0 (R362). -/
def ownPos (s : State) : Nat := (s.tether.pos.getD 0).val

/-- Claims of the device's own lanes, in ascending order. -/
def ownClaims (s : State) : List LaneClaim :=
  allLanes.map fun l =>
    let x := s.lane l
    { pos := ownPos s, lane := l.val, prio := fld x.cfg.laneBudget 26 24, floor := laneFloor s l, want := laneWant s l, twin := x.con.twinOn,
      prev := x.budget.ceil.toNat, held := x.budget.held, alloc := countedAlloc s l, credit := x.budget.credit }

/-- The tether version of the running image (R373). -/
def ownVersion (s : State) : Nat := fld s.image.runAbi 23 16

/-- Whether two tether versions differ by more than 1 (R373). -/
def versionsApart (a b : Nat) : Bool := decide (a + 1 < b) || decide (b + 1 < a)

/-- Whether a reported device is arbitrated for: present, in RUN or HOLDOVER, not excluded (R363, R373). -/
def slotServed (s : State) (r : SlotReport) : Bool :=
  !s.tether.missing.get ⟨r.pos.val, r.pos.isLt⟩ && (r.state = 3 || r.state = 5) && !versionsApart r.version.toNat (ownVersion s)

/-- The previous ceiling and hold of another device's lane. -/
def prevOf (s : State) (p n : Nat) : Nat × Nat :=
  match s.bus.prev.find? fun e => e.1 = p && e.2.1 = n with
  | some e => e.2.2
  | none => (0, 0)

/-- Claims of another device's slot. -/
def slotClaims (s : State) (r : SlotReport) : List LaneClaim :=
  (List.range r.lanes.length).map fun n =>
    match r.lanes[n]? with
    | some x =>
      { pos := r.pos.val, lane := n, prio := x.prio.toNat, floor := if x.enabled then x.floor.toNat else 0,
        want := if x.enabled then x.want.toNat else 0, twin := x.twin, prev := (prevOf s r.pos.val n).1, held := (prevOf s r.pos.val n).2,
        alloc := x.alloc.toNat, credit := x.credit.toNat }
    | none => { pos := r.pos.val, lane := n }

/-- The slots of the other positions. -/
def otherSlots (s : State) : List SlotReport := s.tether.slots.toList.filterMap fun r => r.filter fun r => r.pos.val ≠ ownPos s

/-- Claims of the whole stack, by ascending position and lane. -/
def stackClaims (s : State) : List LaneClaim :=
  let others := (otherSlots s).filter (slotServed s)
  ((others.filter fun r => r.pos.val < ownPos s).flatMap (slotClaims s)) ++ ownClaims s
    ++ ((others.filter fun r => ownPos s < r.pos.val).flatMap (slotClaims s))

/-- "In order": by descending PRIO, then as listed (R212). -/
def inOrder (cs : List LaneClaim) : List LaneClaim := (List.range 8).flatMap fun k => cs.filter fun c => c.prio = 7 - k

/-- Allocations that count without arbitration: devices gone missing, excluded or not in service (R372, R373). -/
def idleAlloc (s : State) : Nat :=
  (((otherSlots s).filter fun r => !slotServed s r).flatMap fun r => r.lanes.map fun x => x.alloc.toNat).sum

/-- Sag declared anywhere in the stack (R209). -/
def stackSag (s : State) : Bool := s.bus.sag || (otherSlots s).any (·.busSag)

/-- B_EFF in 0.1 W (R209), bounded by B_SEG on a successor hitch (R372). -/
def effBudget (s : State) (cs : List LaneClaim) : Nat :=
  let w := s.bus.budgetW.toNat
  let base := if stackSag s then w * fld s.bus.vsnsCtrl 23 16 / 10 else 10 * w
  let b := base + (cs.map (·.credit)).sum
  if s.tether.succ then Min.min b s.tether.bSeg else b

/-- Budget frames in 1 s. -/
def holdFrames : Nat := 10000

/-- A want as a hold bounds it (R212). -/
def heldWant (want prev held : Nat) : Nat := if held ≠ 0 then Min.min want prev else want

/-- Budget frames of hold that remain after a frame's ceiling (R212): a ceiling cut below the want starts 1 s anew. -/
def heldNext (ceil : Int) (want prev held : Nat) : Nat := if ceil < want && ceil < prev then holdFrames else held - 1

/-- The first pass of R212: floors in order. -/
def grantFloors (b : Int) : List LaneClaim → Int × List LaneClaim
  | [] => (b, [])
  | c :: r =>
    let g := Min.min (c.floor : Int) (Max.max b 0)
    let p := grantFloors (b - g) r
    (p.1, { c with want := heldWant c.want c.prev c.held, ceil := g } :: p.2)

/-- The second pass of R212: wants in order, and the holds. -/
def grantWants (b : Int) : List LaneClaim → List LaneClaim
  | [] => []
  | c :: r =>
    let extra := (c.want : Int) - c.ceil
    let g := if c.twin then (if extra ≤ b then extra else 0) else Min.min extra b
    let ceil := c.ceil + g
    { c with ceil := ceil, held := heldNext ceil c.want c.prev c.held } :: grantWants (b - g) r

/-- Every lane's ceiling (R212). -/
def arbitrate (b : Int) (cs : List LaneClaim) : List LaneClaim :=
  let p := grantFloors b (inOrder cs)
  grantWants p.1 p.2

-- staggered switches

/-- T′ (R219), rounded down to whole nanoseconds. -/
def staggerTime (ctrl : Word) (t slot : Nat) : Nat :=
  let n : Int := fld ctrl 11 8
  let w : Int := 100000 * fld ctrl 7 0
  if n = 0 then t else ((t : Int) + Int.fdiv ((2 * slot - (n - 1)) * w) (2 * n)).toNat

/-- Switches of a bin placed in a slot (R219). -/
def binLoad (placed : List (Nat × Nat × Nat × Nat)) (bin slot : Nat) : Nat :=
  (placed.filter fun e => e.2.2.1 / 1000000 = bin && e.2.2.2 = slot).length

/-- The slot of a bin that holds the fewest switches, the lowest on a tie (R219). -/
def pickSlot (placed : List (Nat × Nat × Nat × Nat)) (bin slots : Nat) : Nat :=
  (List.range slots).foldl (fun best k => if binLoad placed bin k < binLoad placed bin best then k else best) 0

/-- The core that does the arbiter's work: S0, or S1 while S0 is DOWN or OUT (R220, R348). -/
def arbiterCore (s : State) : CoreId := if (s.core 4).down || (s.core 4).out then 5 else 4

/-- The hitch arbitrates: in RUN, while the base image runs in the core that does it (R4, R22, R348). -/
def arbiterRuns (s : State) : Bool := s.tether.hitch && s.dev.state = .run && imageRuns (s.core (arbiterCore s))

/-- The hitch places a switch (R219); switches of bins that have passed are dropped from its list. A switch that has its slot already keeps it. -/
def State.placeSwitch (s : State) (pos lane t : Nat) : Nat × State :=
  match s.bus.placed.find? fun e => e.1 = pos && e.2.1 = lane && e.2.2.1 = t with
  | some e => (e.2.2.2, s)
  | none =>
    let live := s.bus.placed.filter fun e => s.dev.dtime / 1000000 ≤ e.2.2.1 / 1000000
    let k := pickSlot live (t / 1000000) (fld s.bus.stagger 11 8)
    (k, s.modBus fun b => { b with placed := live ++ [(pos, lane, t, k)] })

/-- The base image arms a Twin switch for a time (R98, R104). -/
def State.armFor (s : State) (l : LaneId) (run : Bool) (t : Nat) : State :=
  if serves s l then
    let id := ((s.lane l).con.armId + 1).toNat
    (s.modCfg l fun c => { c with armTimeLo := loWord t, armTimeHi := hiWord t }).storeArmed l
      (packFields [(id, 24), (b2n run, 23), (1, 16)])
  else s

/-- Whether SECT_MODE switches the lane's contract, or its section line (R237). -/
def sectTwin (s : State) (l : LaneId) : Bool := sectMode s l = 1 || sectMode s l = 3
def sectLine (s : State) (l : LaneId) : Bool := sectMode s l = 2 || sectMode s l = 3

/-- Whether the section's edges switch a line: SLn, or ALTENn, which carries with ALTEN_FN 1 what SLn would carry under SECT_MODE 2 (R391; on a lane of SECT_MODE 1 too, log 119). -/
def edgesSwitch (s : State) (l : LaneId) : Bool := sectLine s l || (sectMode s l = 1 && fld (s.lane l).cfg.laneCtrl 5 4 = 1)

/-- A switch of a lane to RUN at T′ (R219, R240): in SECT_MODE 1 and 3, or after a shed (R217), the arm where CEIL covers the RUN power (R102), which is otherwise awaited; in SECT_MODE 2 and 3 the line. -/
def State.switchOn (s : State) (l : LaneId) (t slot : Nat) : State :=
  let x := s.lane l
  let arms := x.con.twinOn && (sectTwin s l || x.budget.rearm)
  let short := decide (x.budget.ceil.toNat < runPower x)
  let s1 := (s.modSect l fun y => { y with postT2 := t, ceilWait := arms && short, ceilShort := arms && short }).modBudget l fun b => { b with rearm := false }
  let s2 := if arms && !short then s1.armFor l true t else s1
  if edgesSwitch s l then s2.attachSlot slot t l true else s2

/-- The slot of a stagger request has been given (R219). -/
def State.giveSlot (s : State) (l : LaneId) (slot : Nat) : State :=
  match (s.lane l).budget.staggerReq with
  | some t =>
    let t2 := staggerTime s.bus.stagger t slot
    (s.modBudget l fun b => { b with staggerReq := none, slot := BitVec.ofNat 4 slot }).switchOn l t2 slot
  | none => s

/-- A switch to RUN wanted at T: reported to the hitch for its slot, or made at T where there is no stagger or the device is FROZEN (R218, R219, R221). -/
def State.requestOn (s : State) (l : LaneId) (t : Nat) : State :=
  if fld s.bus.stagger 11 8 = 0 || s.bus.frozen then s.switchOn l t 0
  else s.modBudget l fun b => { b with staggerReq := some t }

-- ceilings

/-- The base image sends a new list to a source that is not Twin when its ceiling has risen enough and no list went out within the last second (R217). While a contract change is in progress it waits, which R217 does not say (DESIGN CHOICE, log 115). -/
def State.capsRefresh (s : State) (l : LaneId) : State :=
  let x := s.lane l
  let old := x.con.capsCeil.toNat
  if serves s l && x.swap.powerRole && x.con.valid && !x.con.twinOn && !x.swap.holdOn && !s.bus.frozen
      && old + Max.max 50 (ceilDiv old 10) ≤ x.budget.ceil.toNat && x.con.capsTime + 1000000000 ≤ s.dev.dtime && x.con.change.isNone then
    s.sendCapsNow l
  else s

/-- CEIL covers the lane's want again: SHED_ILIM = 0, SHED = 0, and a Twin lane whose section is on is armed for RUN 50 ms later (R217). -/
def State.unshed (s : State) (l : LaneId) : State :=
  let x := s.lane l
  if serves s l && !s.bus.frozen && x.budget.shed ≠ 0 && laneWant s l ≤ x.budget.ceil.toNat then
    let s1 := (s.storeShed l 0).modBudget l fun b => { b with shed := 0, deadline := false, shedVoid := false }
    if x.con.twinOn && x.sect.want && opPoint x.cfg x.con ≠ 2 then
      (s1.modBudget l fun b => { b with rearm := true }).requestOn l (s.dev.dtime + 50000000)
    else s1
  else s

/-- A pending post for on whose Twin switch could not be armed for want of CEIL is armed once CEIL covers the RUN power, or falls back when its answer can no longer arrive in time (R240). -/
def State.lateArm (s : State) (l : LaneId) : State :=
  let x := s.lane l
  if serves s l && x.sect.ceilWait && x.con.twinOn && x.sect.want && x.sect.pending && !armInForce x
      && opPoint x.cfg x.con = 1 && runPower x ≤ x.budget.ceil.toNat && s.dev.dtime ≤ x.sect.postT2 then
    let s1 := s.modSect l fun y => { y with ceilWait := false }
    if s.dev.dtime + 40000000 ≤ x.sect.postT2 then s1.armFor l true x.sect.postT2
    else (s1.modCon l fun c => { c with armedTarget := true, armT := x.sect.postT2, fellBack := false }).fallback l
  else s

/-- A lane's new ceiling (R213, R214, R217, R240). -/
def State.takeCeil (s : State) (l : LaneId) (v : BitVec 12) : State :=
  if (s.lane l).budget.ceil = v then (s.unshed l).capsRefresh l
  else ((((s.modBudget l fun b => { b with ceil := v }).postLane l 8).unshed l).lateArm l).capsRefresh l

/-- A stagger request that waits when FROZEN sets is made at its T, unstaggered (R221). -/
def State.unstagger (s : State) (l : LaneId) : State :=
  match (s.lane l).budget.staggerReq with
  | some t => (s.modBudget l fun b => { b with staggerReq := none }).switchOn l t 0
  | none => s

/-- FROZEN changes (R221, R267). -/
def State.setFrozen (s : State) (v : Bool) : State :=
  if s.bus.frozen = v then s
  else
    let s1 := (s.modBus fun b => { b with frozen := v }).post 0x21D
    if v then s1.forEach allLanes State.unstagger else s1

/-- The result of a frame for a lane of a device that is not the hitch: the hold that R212 gives it, which a successor takes up (R221), and its ceiling. -/
def State.followCeil (s : State) (l : LaneId) (v : BitVec 12) : State :=
  let b := (s.lane l).budget
  let h := heldNext (v.toNat : Int) (heldWant (laneWant s l) b.ceil.toNat b.held) b.ceil.toNat b.held
  (s.modBudget l fun y => { y with held := h }).takeCeil l v

/-- The base image's acts on a lane whose instant is no command of its own, taken at the budget frame (DESIGN CHOICE, log 90): the 40 ms of an arm (R104), a held PS_RDY (R104), the list owed for a switch (R105), a pack write whose second has passed (R136) and a risen ceiling (R217). -/
def State.laneClock (s : State) (l : LaneId) : State := ((((s.armLate l).releaseReady l).capsResume l).recNext l).capsRefresh l

-- commands

/-- The CV condition of R131; a swap breaks it (R128). -/
def cvNow (x : Lane) (m : LaneSample) : Bool :=
  x.swap.powerRole && x.cc.attached && x.swap.state = 0 && x.cfg.tallyFullI ≠ 0 && cstate x.conv = 2 && decide (0 ≤ m.current) && decide (m.current ≤ (x.cfg.tallyFullI.toNat : Int))

/-- What a lane measures in a frame (R129–R131, R208). -/
def measureLane (now : Nat) (x : Lane) (m : LaneSample) : Lane :=
  let cv := cvNow x m
  let above := decide (x.cfg.tallyEmptyV.toNat < m.vbus)
  let t := x.tally.charge m.charge
  let n := if above then Min.min holdFrames (t.aboveFrames + 1) else 0
  { x with
    tally := { t with cv := cv, cvDone := t.cvDone && cv, aboveFrames := n, age := t.ageAt now,
                      emptyDone := t.emptyDone && !x.swap.powerRole && decide (n < holdFrames) },
    budget := { x.budget with credit := laneCredit x m.power },
    belay := { x.belay with risen := x.belay.risen || (x.belay.sw = 2 && decide (windowLo x ≤ 500 * m.vbus)) } }

/-- The measurements of a budget frame (R129, R149, R205, R208, R431). -/
def State.measure (s : State) (b : BusSample) : State :=
  let s1 := (s.modBus fun y => { y with busV := b.busV }).modDev fun d => { d with vsysV := b.vsysV }
  let s2 := s1.forEach allLanes fun st l => st.modLane l fun x => measureLane s.dev.dtime x (b.lanes.getD l.val {})
  s2.forEach allLanes fun st l => st.modBudget l fun y => { y with alloc := BitVec.ofNat 12 (Min.min 4095 (countedAlloc s2 l)) }

/-- The stagger requests of a frame are placed in the order of R212, those of the own lanes and those received since the last frame (R219). -/
def State.placeAll (s : State) (cs : List LaneClaim) : State :=
  let s1 := s.forEach cs fun st c =>
    if h : c.pos = ownPos s ∧ c.lane < 32 then
      let l : LaneId := ⟨c.lane, h.2⟩
      match (st.lane l).budget.staggerReq with
      | some t => let p := st.placeSwitch c.pos c.lane t; p.2.giveSlot l p.1
      | none => st
    else st.forEach (st.bus.asked.filter fun e => e.1 = c.pos && e.2.1 = c.lane) fun u e => (u.placeSwitch e.1 e.2.1 e.2.2).2
  s1.modBus fun b => { b with asked := [] }

/-- The hitch receives a stagger request: it waits for the next budget frame (R219, R220). -/
def State.askSwitch (s : State) (pos lane t : Nat) : State :=
  if fld s.bus.stagger 11 8 = 0 || s.bus.asked.contains (pos, lane, t) then s else s.modBus fun b => { b with asked := b.asked ++ [(pos, lane, t)] }

/-- The ceilings that the hitch has computed: its own lanes take theirs, and the others' go out with the next frame (R212, R214, R222). -/
def State.applyResults (s : State) (cs : List LaneClaim) : State :=
  let out := cs.filter fun c => c.pos ≠ ownPos s
  let s1 := s.modBus fun b => { b with prev := out.map fun c => (c.pos, c.lane, c.ceil.toNat, c.held) }
  (s1.forEach cs fun st c =>
    if c.pos ≠ ownPos s then st
    else if h : c.lane < 32 then
      let l : LaneId := ⟨c.lane, h⟩
      (st.modBudget l fun b => { b with held := c.held }).takeCeil l (BitVec.ofNat 12 (Min.min 4095 c.ceil.toNat))
    else st)

/-- A budget frame (R212): every device measures, and a hitch in RUN whose image is the base image's, and which has sent its first frame (R371), arbitrates for the stack (R4) and places the switches of the frame (R219). FROZEN ends with the frame in which arbitration resumes, and the releases of its time are counted in it (R221). The hitch posts the budget frame source (R267). -/
def execBudgetFrame (b : BusSample) (s : State) : Out :=
  let runs := arbiterRuns s && decide (s.tether.settling < 2)
  let s0 := s.forEach allLanes State.laneClock
  let s1 := (if runs then s0.setFrozen false else s0).measure b
  if s.tether.hitch && s.dev.state = .run && !runs then
    .next ((s1.modTether fun t => { t with settling := if 2 ≤ t.settling then t.settling - 1 else t.settling }).post 0x21B)
  else if runs then
    let cs := stackClaims s1
    let idle := idleAlloc s1
    let eff := effBudget s1 cs
    let rs := arbitrate ((eff : Int) - idle) cs
    let s2 := s1.modBus fun y =>
      { y with effW := BitVec.ofNat 24 (eff / 10), effSag := stackSag s1, effCredit := cs.any fun c => c.credit ≠ 0,
               allocSum := BitVec.ofNat 24 ((cs.map (·.alloc)).sum + idle) }
    .next ((((s2.modTether fun t => { t with settling := 0 }).post 0x21B).applyResults rs).placeAll (inOrder cs))
  else .next s1

/-- A device receives CEIL and SLOT of its lanes from the hitch (R214, R219, R221); one that is EXCLUDED keeps its ceilings (R373), and so does one in HOLDOVER (R22) or under SOLO (R374). -/
def execArbitrationResult (results : List (BitVec 12 × BitVec 4)) (s : State) : Out :=
  if s.tether.hitch || s.tether.excluded || bitOf s.tether.ctrl 0 || s.dev.state = .holdover then .next s
  else
    let s1 := ((s.modTether fun t => { t with noResult := 0 }).setFrozen false).post 0x21C
    .next (s1.forEach allLanes fun st l =>
      match results[l.val]? with
      | some r => (st.followCeil l r.1).giveSlot l r.2.toNat
      | none => st)

/-- Three frames without a result (R221). A hitch that arbitrates computes its own results. -/
def execFrozen (s : State) : Out :=
  if arbiterRuns s then .next s else .next (s.setFrozen true)

/-- Sag is declared or ends (R205, R267). -/
def State.setSag (s : State) (v : Bool) : State :=
  if s.bus.sag = v then s else (s.modBus fun b => { b with sag := v }).post 0x218

/-- Every sample has been below SAG_V for SAG_DWELL (R205). -/
def execBusSag (s : State) : Out := if fld s.bus.vsnsTh 23 12 = 0 then .next s else .next (s.setSag true)

/-- Every sample has been above SAG_V + HYST for RECOVER (R205). -/
def execSagEnd (s : State) : Out := .next (s.setSag false)

/-- The SHED_ILIM that covers a ceiling (R216): CEIL / VOLT rounded down to 50 mA, at least 1. -/
def shedValue (x : Lane) : Nat := clampNat 1 255 (x.budget.ceil.toNat * 400 / Max.max 1 x.con.vc)

/-- SHED_MISS of a section that a measure moves to STANDBY (R242, R268). -/
def State.setShedMiss (s : State) (l : LaneId) : State :=
  if (s.lane l).sect.shedMiss then s else (s.modSect l fun x => { x with shedMiss := true }).postLane l 9

/-- The measure of the first row of R215 that matches but for the floor. -/
def State.shedStep (s : State) (l : LaneId) : State :=
  let x := s.lane l
  let armed := armInForce x && x.con.armedTarget
  let t := s.dev.dtime + 50000000
  if x.con.twinOn && armed then (s.disarm l).shedRecord l 1
  else if x.con.twinOn && opPoint x.cfg x.con = 2 then
    let s1 := s.modCfg l fun c => { c with armTimeLo := loWord t, armTimeHi := hiWord t }
    if !armRefused s1 l false && x.budget.shed ≠ 2 && !x.budget.shedVoid then ((s1.armFor l false t).setShedMiss l).shedRecord l 1
    else ((s.sendCaps l false).setShedMiss l).shedRecord l 2
  else (s.sendCapsNow l).shedRecord l 2

/-- CEIL lies below what the lane draws or is to draw (R215). -/
def shedNeeded (s : State) (l : LaneId) : Bool :=
  let x := s.lane l
  let run := x.con.twinOn && (opPoint x.cfg x.con = 2 || (armInForce x && x.con.armedTarget))
  budgetSource s l && (decide (x.budget.ceil.toNat < allocation s l) || (run && decide (x.budget.ceil.toNat < runPower x)))

/-- The base image sheds a lane (R215); nothing is shed by the budget while FROZEN (R221). -/
def execShedMeasure (l : LaneId) (s : State) : Out :=
  if serves s l && !s.bus.frozen && shedNeeded s l then
    let s1 := s.shedStep l
    if (s.lane l).budget.ceil.toNat < laneFloor s l then .next ((s1.storeShed l (shedValue (s1.lane l))).shedRecord l 4)
    else .next s1
  else .next s

/-- The deadline of a reduced list ends (R216). -/
def execShedDeadline (l : LaneId) (s : State) : Out :=
  let x := s.lane l
  if x.budget.deadline then
    let s1 := s.modBudget l fun b => { b with deadline := false }
    if serves s l && !s.bus.frozen && x.budget.ceil.toNat < allocation s l then
      .next ((s1.storeShed l (shedValue x)).modBudget l fun b => { b with shed := 3 })
    else .next s1
  else .next s

/-- A write of BUS_BUDGET (R202, R372): 0 is ignored in RUN; a host write clears SUCC and lets missing devices go. -/
def State.storeBudget (s : State) (a : Agent) (v : Word) : State :=
  let w : BitVec 24 := v.truncate 24
  if w = 0 && s.dev.state = .run then s
  else
    let s1 := s.modBus fun b => { b with budgetW := w }
    if a = .host then
      s1.modTether fun t =>
        { t with succ := false, slots := Vector.ofFn (fun (p : Fin 8) => if t.missing.get p then none else t.slots.get p),
                 missing := Vector.replicate 8 false }
    else s1

/-- The hitch receives a stagger request of a position (R219): it is placed in the next budget frame, and its slot returns with the result. In HOLDOVER the arbiter is stopped, and the request waits (R22). -/
def execStaggerRequest (pos : Fin 8) (l : LaneId) (time : Nat) (s : State) : Out :=
  if s.tether.hitch && fld s.bus.stagger 11 8 ≠ 0 then
    if pos.val = ownPos s then .next (s.modBudget l fun b => { b with staggerReq := some time })
    else .next (s.askSwitch pos.val l.val time)
  else .next s

-- versions

/-- The version test of R373: a device whose running image is too far from its hitch is EXCLUDED, with record 0x0903, and its lanes stay as under FROZEN. Before an image runs there is nothing to test. -/
def State.testVersion (s : State) : State :=
  if s.dev.state = .boot || s.dev.state = .loader || s.dev.state = .halted then s
  else
    let bad := s.tether.heard && !s.tether.hitch && versionsApart s.tether.hitchVer.toNat (ownVersion s)
    let s1 := s.modTether fun t => { t with excluded := bad }
    if bad && !s.tether.excluded then (s1.log 0x0903 .device 0 0 0 0).setFrozen true else s1

/-- The running image's version has changed: a hitch is its own HITCH_VER (R374), and the test of R373 is made. -/
def State.versionMoved (s : State) : State :=
  (s.modTether fun t => if t.hitch then { t with hitchVer := BitVec.ofNat 8 (ownVersion s) } else t).testVersion

end Sys2Proof.Machine
end

