-- ==== Sys2Proof/Machine/Swath.lean ====
section
/-! DEFINITION. The swath engine (file 09): fixes and dead reckoning (R226–R232), the map window and its tiles (R225, R234–R236), section decisions and posts (R237–R240, R466), the applied state and marks (R241), and what the tether brings (R243). Positions are in µm, headings in µrad, times in ns. -/

namespace Sys2Proof.Machine

-- arithmetic

/-- Integer square root, rounded down, of a number below 2^84. -/
def isqrt (n : Nat) : Nat := (List.range 42).foldl (fun r k => if (r + 2 ^ (41 - k)) * (r + 2 ^ (41 - k)) ≤ n then r + 2 ^ (41 - k) else r) 0

/-- The length of a vector. -/
def lengthOf (a b : Int) : Nat := isqrt (a * a + b * b).toNat

/-- One turn in µrad (R226). -/
def turnUrad : Nat := 6283185

/-- The sum of 24 terms of a sine or cosine series at x, both scaled by 2^60, from a first term; `k` is 1 for the sine and 0 for the cosine. -/
def trigSum (x first : Int) (k : Nat) : Int :=
  ((List.range 24).foldl (fun (p : Int × Int) (i : Nat) =>
    (Int.tdiv (-(Int.tdiv (p.1 * x) (2 ^ 60) * x)) (2 ^ 60 * ((2 * i + 1 + k) * (2 * i + 2 + k))), p.2 + p.1)) (first, 0)).2

/-- An angle in µrad as a radian count scaled by 2^60; an angle beyond a turn is taken modulo the turn. -/
def radians60 (a : Int) : Int := Int.tdiv ((if a.natAbs ≤ turnUrad then a else a % turnUrad) * 2 ^ 60) 1000000

/-- Sine and cosine of an angle in µrad, scaled by 2^30 and rounded to the nearest (R238; the rounding is the model's, log 91). -/
def sinOf (a : Int) : Int := Int.fdiv (trigSum (radians60 a) (radians60 a) 1 + 2 ^ 29) (2 ^ 30)
def cosOf (a : Int) : Int := Int.fdiv (trigSum (radians60 a) (2 ^ 60) 0 + 2 ^ 29) (2 ^ 30)

/-- A length times a scaled sine, rounded down. -/
def scaled (d s : Int) : Int := Int.fdiv (d * s) (2 ^ 30)

/-- A pose: easting, northing, heading in µrad, and the 1/1,000 µrad beyond it. -/
structure Pose where
  e : Int := 0
  n : Int := 0
  hdg : Int := 0
  frac : Int := 0
deriving DecidableEq, Repr

/-- A move along the mean heading of the step (R230), which turns by `dh` in 1/1,000 µrad. -/
def Pose.move (p : Pose) (d dh : Int) (back : Bool) : Pose :=
  let h := 1000 * p.hdg + p.frac
  let m := Int.fdiv (h + Int.fdiv dh 2) 1000
  let x := if back then -d else d
  { e := p.e + scaled x (sinOf m), n := p.n + scaled x (cosOf m), hdg := Int.fdiv (h + dh) 1000 % turnUrad, frac := (h + dh) % 1000 }

/-- The present pose. -/
def Swath.pose (x : Swath) : Pose := { e := x.e, n := x.n, hdg := x.hdg, frac := x.hdgFrac }

/-- Takes a pose. -/
def Swath.setPose (x : Swath) (p : Pose) : Swath := { x with e := p.e, n := p.n, hdg := p.hdg.toNat, hdgFrac := p.frac.toNat }

/-- pose(t + h): carried forward by h ns along an arc at the present ground speed and yaw rate (R239). The chord of an arc of angle a and length d is d · sin(a/2) / (a/2). -/
def Swath.poseAhead (x : Swath) (h : Nat) : Pose :=
  let d : Int := groundSpeed x * h / 1000000
  let a : Int := Int.fdiv (x.yaw * h) 1000000
  let half := a.natAbs / 2000
  let chord := if half = 0 then d else Int.fdiv (d * sinOf half * 1000000) (2 ^ 30 * half)
  x.pose.move chord a x.rev

-- SWATH_CTRL

/-- Fields of SWATH_CTRL (R233). -/
def Swath.en (x : Swath) : Bool := bitOf x.ctrl 0
def Swath.master (x : Swath) : Bool := bitOf x.ctrl 2
def Swath.fromHitch (x : Swath) : Bool := bitOf x.ctrl 4
def Swath.exclHard (x : Swath) : Bool := bitOf x.ctrl 5
def Swath.fallback (x : Swath) : Nat := fld x.ctrl 7 6
def Swath.minSpd (x : Swath) : Nat := fld x.ctrl 23 16

/-- The cell edge in µm (R224). -/
def cellUm (x : Swath) : Int := 10000 * Max.max 1 (fld x.grid 6 0)

-- cells and tiles

/-- The cell of a point (R225). -/
def cellAt (x : Swath) (e n : Int) : Int × Int :=
  (Int.fdiv (e - 1000 * x.e0.toInt) (cellUm x), Int.fdiv (n - 1000 * x.n0.toInt) (cellUm x))

/-- The field tile of a cell (R225). -/
def tileOf (c : Int × Int) : Int × Int := (Int.fdiv c.1 256, Int.fdiv c.2 256)

/-- The slot of a field tile (R225). -/
def slotOf (t : Int × Int) : Fin 256 := ⟨((t.2 % 16) * 16 + t.1 % 16).toNat % 256, Nat.mod_lt _ (by decide)⟩

/-- The host address of a slot (R225). -/
def slotBase (k : Fin 256) : Nat := 0x400000 + k.val * 0x4000

/-- Whether a field tile lies in the window (R234). -/
def inWindow (x : Swath) (t : Int × Int) : Bool :=
  decide (x.win.1 ≤ t.1) && decide (t.1 < x.win.1 + 16) && decide (x.win.2 ≤ t.2) && decide (t.2 < x.win.2 + 16)

/-- Whether a field tile is Present (R234). -/
def tilePresent (x : Swath) (t : Int × Int) : Bool := x.tiles.get (slotOf t) = 1 && x.held.get (slotOf t) = some t

/-- The host address of a cell's byte and its shift (R225). -/
def cellPlace (c : Int × Int) : Nat × Nat :=
  let px := (c.1 % 256).toNat
  let py := (c.2 % 256).toNat
  (slotBase (slotOf (tileOf c)) + py * 64 + px / 4, 2 * (px % 4))

/-- A cell's value as decisions read it: 3 outside Present slots, in a word with a two-bit error, and while the map is unpowered (R225, R234, R340). -/
def cellValue (s : State) (c : Int × Int) : Nat :=
  let p := cellPlace c
  if !tilePresent s.swath (tileOf c) || s.swath.eccBad.contains (p.1 / 4 * 4) || !s.swath.powered then 3
  else (memRead s.mem p.1).toNat / 2 ^ p.2 % 4

/-- Adds to MARK_LOST, which saturates at 255 (R233). -/
def State.markLost (s : State) : State := s.modSwath fun x => { x with markLost := satInc x.markLost }

/-- A mark on a cell: value 0 becomes 1; a mark on a tile not Present is dropped and counted (R241). The answer is whether the cell changed. -/
def State.markCell (s : State) (c : Int × Int) : Bool × State :=
  if !tilePresent s.swath (tileOf c) then (false, s.markLost)
  else if cellValue s c = 0 then
    let p := cellPlace c
    (true, { s with mem := memWrite s.mem p.1 (BitVec.ofNat 8 ((memRead s.mem p.1).toNat + 2 ^ p.2)) })
  else (false, s)

/-- TILE_EVT, HOST_IRQ.TILE and source 0x222 (R235, R267). -/
def State.tileEvt (s : State) : State := ((s.modSwath fun x => { x with tileEvt := true }).irq 7).post 0x222

/-- The field tile that slot k stands for in a window whose corner is w (R234). -/
def windowTile (w : Int × Int) (k : Fin 256) : Int × Int :=
  (w.1 + ((k.val % 16 : Nat) - w.1) % 16, w.2 + ((k.val / 16 : Nat) - w.2) % 16)

/-- A slot's state after the corner has moved to w (R235). -/
def slotMoved (x : Swath) (w : Int × Int) (k : Fin 256) : BitVec 2 :=
  let st := x.tiles.get k
  if st = 0 then 0
  else if x.held.get k = some (windowTile w k) then 1 else 2

/-- The corner moves to w (R235). -/
def State.moveWindow (s : State) (w : Int × Int) : State :=
  let tiles : Vector (BitVec 2) 256 := Vector.ofFn fun k => slotMoved s.swath w k
  let left := (List.finRange 256).any fun k => tiles.get k = 2 && s.swath.tiles.get k = 1
  let s1 := s.modSwath fun x => { x with win := w, tiles := tiles }
  if left then s1.tileEvt else s1

/-- One axis of the corner that keeps the reference tile at a relative position of 6–9 (R235). -/
def axisCorner (w t : Int) : Int := if 10 ≤ t - w then t - 9 else if t - w ≤ 5 then t - 6 else w

/-- The window follows the reference point (R235). -/
def State.followWindow (s : State) : State :=
  let t := tileOf (cellAt s.swath s.swath.e s.swath.n)
  let w := (axisCorner s.swath.win.1 t.1, axisCorner s.swath.win.2 t.2)
  if w = s.swath.win then s else s.moveWindow w

/-- The window at the first pose after EN, with every slot Absent (R235). -/
def Swath.openWindow (x : Swath) : Swath :=
  let t := tileOf (cellAt x x.e x.n)
  { x with win := (t.1 - 8, t.2 - 8), tiles := Vector.replicate 256 0, held := Vector.replicate 256 none }

/-- Slots that are Absent or Leaving (R233). -/
def tileReqCount (x : Swath) : Nat := Min.min 255 (x.tiles.toList.filter (· ≠ 1)).length

-- tether records

/-- Whether the device has a neighbour to send records to. -/
def tetherLinked (s : State) : Bool := !bitOf s.tether.ctrl 0 && (s.tether.tuUp || s.tether.tdUp)

/-- Records join the queue, where at most 512 wait (R367). What becomes of tunnel records and tile chunks that find it full the manual does not say: they are dropped (DESIGN CHOICE, log 112). -/
def State.queueRecords (s : State) (rs : List TetherRecord) : State := s.modTether fun t => { t with queue := t.queue ++ rs.take (512 - t.queue.length) }

/-- A mark of this device joins the queue; one that finds 512 records waiting is dropped and counted (R367). -/
def State.queueMark (s : State) (r : TetherRecord) : State :=
  if !tetherLinked s then s
  else if 512 ≤ s.tether.queue.length then s.markLost
  else s.queueRecords [r]

-- fixes

/-- RESULT of a commit: the first condition that holds, in the order 6, 5, 2, 3, 4 (R226). -/
def fixVerdict (s : State) : Nat :=
  let x := s.swath
  let t := x.fix[6].toNat * 2 ^ 32 + x.fix[5].toNat
  if !x.en || !s.live then 6
  else if turnUrad < fld x.fix[2] 22 0 || 2000000 < x.fix[3].toInt.natAbs then 5
  else if t + 100000000 < s.dev.dtime then 2
  else if s.dev.dtime + 1000000 < t then 3
  else match x.lastFix with
    | some (_, _, u) => if t < u + 19000000 then 4 else 1
    | none => 1

/-- The speed in mm/s between two fixes (R230). -/
def speedBetween (a : Int × Int × Nat) (e n : Int) (t : Nat) : Nat := lengthOf (e - a.1) (n - a.2.1) * 1000000000 / Max.max 1 (t - a.2.2)

/-- A fix's pose carried through the stored steps that followed its time (R227). -/
def propagate (x : Swath) (p : Pose) (k : Nat) (yaw : Int) (back : Bool) : Pose :=
  (x.steps.take k).reverse.foldl (fun q st => q.move st.1 yaw back) p

/-- An accepted fix (R227, R232). With POSE_SRC = 1 the hitch's pose stands in place of the device's own fixes (R243). -/
def Swath.accept (x : Swath) (now : Nat) : Swath :=
  let e := x.fix[0].toInt
  let n := x.fix[1].toInt
  let t := x.fix[6].toNat * 2 ^ 32 + x.fix[5].toNat
  let back := bitOf x.fix[4] 31
  let y := { x with fixCnt := x.fixCnt + 1, unc := BitVec.ofNat 16 (fld x.fix[4] 15 0), lastFix := some (e, n, t),
                    fixSpeed := if x.fromHitch then x.fixSpeed else match x.lastFix with | some a => speedBetween a e n t | none => 0 }
  if x.fromHitch then y
  else
    let p := propagate x { e := 1000 * e, n := 1000 * n, hdg := fld x.fix[2] 22 0 } (Min.min 100 ((now - t) / 1000000)) x.fix[3].toInt back
    let jump := if x.poseOk then Min.min 32767 (lengthOf (p.e - x.e) (p.n - x.n) / 1000) else 0
    let z := ({ y with yaw := x.fix[3].toInt, rev := back, jump := jump, stale := false, drOut := false, poseOk := true }).setPose p
    if x.poseOk then z else z.openWindow

/-- COMMIT = 1 (R226, R227): RESULT is written and posts source 0x221; a refused fix changes nothing else. -/
def State.fixCommit (s : State) : State :=
  let r := fixVerdict s
  let s1 := s.modSwath fun x => { (if r = 1 then x.accept s.dev.dtime else x) with fixResult := BitVec.ofNat 4 r }
  s1.post 0x221

/-- The pose that the hitch broadcasts (R243, R365), taken by a device with POSE_SRC = 1. -/
def State.takePose (s : State) (p : PoseReport) : State :=
  let x := s.swath
  if x.en && x.fromHitch && s.live then
    let y := ({ x with yaw := p.yaw, rev := p.rev, fixSpeed := p.spd, noEdge := 0, stale := false, drOut := false, poseLost := false, poseOk := true,
                       steps := List.replicate 10 ((p.spd : Int), p.yaw) }).setPose { e := 1000 * p.e, n := 1000 * p.n, hdg := p.hdg }
    let s1 := s.modSwath fun _ => if x.poseOk then y else y.openWindow
    if x.poseLost then s1.post 0x224 else s1
  else s

-- dead reckoning

/-- The counter of ground-speed input k (R229). -/
def gsCounter (s : State) (k : Nat) : Counter :=
  match counterOf (fld s.swath.gsCtrl 20 16 + k) with
  | some n => s.counter n
  | none => {}

/-- The captured edges that input k's counter counts (R229, R255). -/
def gsCapN (s : State) (k : Nat) : Byte := (gsCounter s k).capN

/-- Ground speed starts anew from the present edge counts. -/
def State.startGs (s : State) : State :=
  s.modSwath fun x =>
    { x with gsLast := Vector.ofFn fun (k : Fin 4) => gsCapN s k.val, gsEdgeAt := Vector.replicate 4 none,
             gsPeriod := Vector.replicate 4 (0, 0), gsPast := Vector.replicate 4 0 }

/-- CAL of ground-speed input k in µm (R229). -/
def gsCal (x : Swath) : Nat → Nat
  | 0 => fld x.gsCal0 15 0
  | 1 => fld x.gsCal0 31 16
  | 2 => fld x.gsCal1 15 0
  | _ => fld x.gsCal1 31 16

/-- Edges counted on input k since the last step (R230). -/
def gsEdges (s : State) (k : Fin 4) : Nat := (gsCapN s k.val - s.swath.gsLast.get k).toNat

/-- The enabled ground-speed inputs. -/
def gsInputs (x : Swath) : List (Fin 4) := (List.finRange 4).filter fun k => bitOf x.gsCtrl k.val

/-- The captured count of the last edge on input k, once one has been counted (R230, R255). -/
def gsEdgeAt (s : State) (k : Fin 4) : Option Word :=
  if gsEdges s k = 0 then s.swath.gsEdgeAt.get k else some (gsCounter s k.val).cmpB

/-- TCLK ticks and edges from which input k's period is taken: those of the last step that counted edges, from the edge before it (R230). -/
def gsPeriod (s : State) (k : Fin 4) : Nat × Nat :=
  if gsEdges s k = 0 then s.swath.gsPeriod.get k
  else match s.swath.gsEdgeAt.get k with
    | some t => (((gsCounter s k.val).cmpB - t).toNat, gsEdges s k)
    | none => (0, 0)

/-- How far input k has moved past its last edge, in µm: the time since the edge at the last period's speed, and no further than the next edge (R230; the interpolation is the model's, log 93). -/
def gsPast (s : State) (k : Fin 4) : Nat :=
  let p := gsPeriod s k
  match gsEdgeAt s k with
  | some t => if p.1 = 0 then 0 else Min.min (gsCal s.swath k.val) (((gsCounter s k.val).val - t).toNat * gsCal s.swath k.val * p.2 / p.1)
  | none => 0

/-- The distance of a step on input k in µm: its counted edges times CAL, interpolated at both ends of the step (R230). -/
def gsDistance (s : State) (k : Fin 4) : Int := gsEdges s k * gsCal s.swath k.val + gsPast s k - s.swath.gsPast.get k

/-- The distance of a step in µm (R230): the mean over the enabled inputs, or with none the speed between the last two fixes times 1 ms. -/
def stepDistance (s : State) : Int :=
  match gsInputs s.swath with
  | [] => s.swath.fixSpeed
  | ks => Int.fdiv (ks.map (gsDistance s)).sum ks.length

/-- One dead-reckoning step (R230, R243), whose heading advances by YAW × 1 ms, which is YAW in 1/1,000 µrad: a device that takes the hitch's pose moves only once it has lost it. -/
def State.deadReckon (s : State) : State :=
  let x := s.swath
  let edge := (gsInputs x).any fun k => gsEdges s k ≠ 0
  let y := { x with gsLast := Vector.ofFn fun (k : Fin 4) => gsCapN s k.val, gsEdgeAt := Vector.ofFn (gsEdgeAt s),
                    gsPeriod := Vector.ofFn (gsPeriod s), gsPast := Vector.ofFn (gsPast s) }
  if x.fromHitch && !x.poseLost then s.modSwath fun _ => y
  else
    let d := stepDistance s
    let z := { y with steps := ((d, x.yaw) :: x.steps).take 100, noEdge := if edge then 0 else x.noEdge + 1 }
    s.modSwath fun _ => if x.poseOk then z.setPose (x.pose.move d x.yaw x.rev) else z

-- sections

/-- ON_LAT and OFF_LAT in ns (R237). -/
def onLat (c : LaneCfg) : Nat := 100000 * fld c.sectLat 15 0
def offLat (c : LaneCfg) : Nat := 100000 * fld c.sectLat 31 16

/-- Whether a lane's decisions lead its contract: SECT_MODE 1, or 3 while a Mode VDO is held (R239). -/
def leadsTwin (s : State) (l : LaneId) : Bool := sectMode s l = 1 || (sectMode s l = 3 && (s.lane l).con.vdo.isSome)

/-- P in ns (R239). -/
def postLead (s : State) (l : LaneId) : Nat := if leadsTwin s l then 1000000 * fld (s.lane l).cfg.umodeCtrl 23 16 + 40000000 else 2000000

/-- L_on and L_off in ns (R239). -/
def latOn (s : State) (l : LaneId) : Nat := (if leadsTwin s l then loadOnNs (s.lane l) 0 else 0) + onLat (s.lane l).cfg
def latOff (s : State) (l : LaneId) : Nat := (if leadsTwin s l then loadOffNs (s.lane l) 0 + 10000 else 0) + offLat (s.lane l).cfg

/-- A point of a section's application line at offset `off` µm to the right of its centre, where `f` is the direction of travel (sin θ, cos θ) scaled by 2^30 (R238). -/
def linePoint (c : LaneCfg) (p : Pose) (f : Int × Int) (off : Int) : Int × Int :=
  let fa := 1000 * c.sectFa.toInt
  let r := 1000 * c.sectGeoLat.toInt + off
  (p.e + scaled fa f.1 + scaled r f.2, p.n + scaled fa f.2 - scaled r f.1)

/-- The direction of travel f of a pose (R238). -/
def Pose.forward (p : Pose) : Int × Int := (sinOf p.hdg, cosOf p.hdg)

/-- Half the width in µm. -/
def halfWidth (c : LaneCfg) : Int := 500 * fld c.sectW 15 0

/-- The ends of the application line (R238). -/
def lineEnds (c : LaneCfg) (p : Pose) : Int × Int × Int × Int :=
  let a := linePoint c p p.forward (-halfWidth c)
  let b := linePoint c p p.forward (halfWidth c)
  (a.1, a.2, b.1, b.2)

/-- The samples of a section at a pose (R238). -/
def samples (s : State) (c : LaneCfg) (p : Pose) : List Nat :=
  let w := fld c.sectW 15 0
  let n := ceilDiv (1000 * w) (cellUm s.swath).toNat
  let f := p.forward
  (List.range n).map fun i =>
    let q := linePoint c p f (Int.fdiv ((2 * i + 1) * 500 * w) n - halfWidth c)
    cellValue s (cellAt s.swath q.1 q.2)

/-- The blocked fraction b in percent (R238). -/
def blocked (vs : List Nat) : Nat := if vs.length = 0 then 0 else 100 * (vs.filter (· ≠ 0)).length / vs.length

/-- The decision of R239 for a lane whose samples at pose(t + h) are vs. With OVL_PCT = 0 any blocked sample counts (R466), also one of so many that b rounds down to 0 (R238; DEDUCED, log 117). -/
def decide1 (s : State) (l : LaneId) (vs : List Nat) : Bool :=
  let x := s.lane l
  let y := s.swath
  let b := blocked vs
  let ovl := fld x.cfg.sectCtrl 22 16
  let force := fld x.cfg.sectCtrl 9 8
  let none0 := vs.all (· = 0)
  let n1 :=
    if ovl = 0 then none0
    else if x.sect.want then !((ovl < 100 && ovl < b) || b = 100)
    else decide (b ≤ ovl - 5)
  let n2 :=
    if force = 1 then false
    else if force = 2 then true
    else if !y.poseOk || !y.master || y.rev || groundSpeed y < 100 * y.minSpd then false
    else if y.drOut && y.fallback ≠ 0 then y.fallback = 2
    else if y.drOut then x.sect.want
    else n1
  if y.exclHard && vs.contains 2 then false else n2

/-- The state in force of a section: RUN on a Twin lane that its contract switches, else the level of its line. -/
def inForce (s : State) (l : LaneId) : Bool :=
  let x := s.lane l
  if sectTwin s l && x.con.twinOn then opPoint x.cfg x.con = 2
  else if sectLine s l then x.sect.lineOn
  else false

/-- Nothing new is posted in HOLDOVER, or while the lane is served by its auto-responder (R246). The image does not matter: section lines switch in hardware (R240), and what a Twin switch needs of the base image is done only while it runs (R4). -/
def postMay (s : State) (l : LaneId) : Bool := s.dev.state = .run && !(s.lane l).pd.arActive

/-- post(l, new, T) (R240, R104, R239): a switch to RUN is spread by the stagger, a switch off is made at T; a post for on that no contract and no line can carry out sets ARM_MISS. -/
def State.postSwitch (s : State) (l : LaneId) (on : Bool) (t : Nat) : State :=
  if !postMay s l then s
  else
    let s1 := (s.modSect l fun x => { x with pending := true, postT := t, postT2 := t }).postLane l 9
    let twin := sectTwin s1 l && (s1.lane l).con.twinOn
    if !twin && !sectLine s1 l then
      let s2 := if on then s1.armMissed l else s1
      if edgesSwitch s2 l then s2.attachSlot 0 t l on else s2
    else if on then s1.requestOn l t
    else
      let s2 := if twin then s1.armFor l false t else s1
      if edgesSwitch s2 l then s2.attachSlot 0 t l false else s2

/-- A pending post is cancelled by a contrary decision (R240), but where nothing new is posted: armed switches and programmed line edges then execute (R246). -/
def State.cancelPost (s : State) (l : LaneId) : State :=
  if !postMay s l then s else
  let s1 := if sectTwin s l && (s.lane l).con.twinOn then s.disarm l else s
  ((s1.dropSlots l).modBudget l fun b => { b with staggerReq := none }).modSect l fun x => { x with pending := false, ceilWait := false, ceilShort := false }

/-- The evaluation of a section at step time t (R239, R240, R466). -/
def State.evalSection (s : State) (l : LaneId) : State :=
  if sectMode s l = 0 then s
  else
    let x := s.lane l
    let t := s.dev.dtime
    let p := postLead s l
    let h := p + (if x.sect.want then latOff s l else latOn s l) + 500000
    let vs := samples s x.cfg (s.swath.poseAhead h)
    let new := decide1 s l vs
    let s1 := s.modSect l fun y => { y with blockPct := BitVec.ofNat 8 (blocked vs), want := new }
    if new ≠ x.sect.want then
      let s2 := if x.sect.pending then s1.cancelPost l else s1
      if inForce s2 l ≠ new then s2.postSwitch l new (t + p) else s2
    else if !x.sect.pending && inForce s1 l ≠ new && x.sect.postT < t then s1.postSwitch l new (t + p)
    else s1

/-- At resume every section whose want differs from its state in force is posted for now + P (R246). -/
def State.repostSection (s : State) (l : LaneId) : State :=
  let x := (s.lane l).sect
  if s.swath.en && sectMode s l ≠ 0 && !x.pending && inForce s l ≠ x.want then s.postSwitch l x.want (s.dev.dtime + postLead s l) else s

-- marks

/-- Twice the signed area of a triangle. -/
def cross (a b p : Int × Int) : Int := (b.1 - a.1) * (p.2 - a.2) - (b.2 - a.2) * (p.1 - a.1)

/-- Whether a point lies on a segment, ends included. -/
def onSegment (a b p : Int × Int) : Bool :=
  cross a b p = 0 && decide (Min.min a.1 b.1 ≤ p.1) && decide (p.1 ≤ Max.max a.1 b.1) && decide (Min.min a.2 b.2 ≤ p.2) && decide (p.2 ≤ Max.max a.2 b.2)

/-- Whether an edge passes a point's height to its right. -/
def passesRight (a b p : Int × Int) : Bool :=
  (decide (a.2 ≤ p.2) && decide (p.2 < b.2) && decide (0 < cross a b p)) || (decide (b.2 ≤ p.2) && decide (p.2 < a.2) && decide (cross a b p < 0))

/-- Whether a point lies in the quadrilateral a, b, c, d, edges included (DESIGN CHOICE, log 117): an odd number of its edges pass to the right, which holds in both parts of a crossed one. -/
def inQuad (a b c d p : Int × Int) : Bool :=
  let es := [(a, b), (b, c), (c, d), (d, a)]
  (es.any fun e => onSegment e.1 e.2 p) || (es.filter fun e => passesRight e.1 e.2 p).length % 2 = 1

/-- The integers from a to b. -/
def intRange (a b : Int) : List Int := (List.range (b + 1 - a).toNat).map fun k => a + k

/-- The cells whose centres lie in the quadrilateral that a line swept from one step to the next, row by row (R241). -/
def sweptCells (x : Swath) (o w : Int × Int × Int × Int) : List (Int × Int) :=
  let a := (o.1, o.2.1)
  let b := (o.2.2.1, o.2.2.2)
  let c := (w.2.2.1, w.2.2.2)
  let d := (w.1, w.2.1)
  let es := [a.1, b.1, c.1, d.1]
  let ns := [a.2, b.2, c.2, d.2]
  let lo := cellAt x (es.foldl Min.min a.1) (ns.foldl Min.min a.2)
  let hi := cellAt x (es.foldl Max.max a.1) (ns.foldl Max.max a.2)
  (intRange lo.2 hi.2).flatMap fun j =>
    ((intRange lo.1 hi.1).map fun i => (i, j)).filter fun k =>
      let p := (1000 * x.e0.toInt + k.1 * cellUm x + cellUm x / 2, 1000 * x.n0.toInt + k.2 * cellUm x + cellUm x / 2)
      inQuad a b c d p

/-- Adds a marked cell to the run-length records of a step (R243). -/
def addRun (rs : List (Int × Int × Nat × Nat × Nat)) (c : Int × Int) : List (Int × Int × Nat × Nat × Nat) :=
  let t := tileOf c
  let col := (c.1 % 256).toNat
  let row := (c.2 % 256).toNat
  match rs with
  | (tx, ty, r, f, n) :: rest =>
    if tx = t.1 && ty = t.2 && r = row && f + n = col then (tx, ty, r, f, n + 1) :: rest else (t.1, t.2, row, col, 1) :: rs
  | [] => [(t.1, t.2, row, col, 1)]

/-- Marks a list of cells and sends the runs that changed over the tether (R241, R243). -/
def State.markCells (s : State) (cs : List (Int × Int)) : State :=
  let r := cs.foldl (fun (a : State × List (Int × Int × Nat × Nat × Nat)) c =>
    let p := a.1.markCell c
    (p.2, if p.1 then addRun a.2 c else a.2)) (s, [])
  r.1.forEach r.2.reverse fun st e => st.queueMark (.mark e.1 e.2.1 (BitVec.ofNat 8 e.2.2.1) (BitVec.ofNat 8 e.2.2.2.1) e.2.2.2.2)

/-- Marks what an applied section's line swept since the last step (R241). -/
def State.markSection (s : State) (l : LaneId) : State :=
  if sectMode s l = 0 || !s.swath.poseOk then s
  else
    let x := s.lane l
    let w := lineEnds x.cfg s.swath.pose
    let s1 := s.modSect l fun y => { y with line := some w }
    match x.sect.line with
    | some o => if x.sect.applied then s1.markCells (sweptCells s.swath o w) else s1
    | none => s1

/-- With no stagger slots no counter is claimed for the section lines, and the line switches whose time has come are made at the step (R219, R240). -/
def State.dueLines (s : State) : State :=
  if fld s.bus.stagger 11 8 ≠ 0 then s
  else match counterOf (fld s.bus.stagger 20 16) with
    | none => s
    | some n =>
      let due := (s.counter n).slots.filter fun e => e.1 ≤ s.dev.dtime
      (s.forEach due fun st e => st.lineEdge e.2.1 e.2.2).modCounter n fun c => { c with slots := c.slots.filter fun e => s.dev.dtime < e.1 }

-- commands

/-- The 1 ms swath step (R230, R235, R239, R241), with EN = 1 in RUN or HOLDOVER. -/
def execSwathStep (_ : Unit) (s : State) : Out :=
  if s.swath.en && s.live then
    let s1 := s.deadReckon
    let s2 := if s1.swath.poseOk then s1.followWindow else s1
    let s3 := s2.modSwath fun x => { x with tileReq := if x.poseOk then BitVec.ofNat 8 (tileReqCount x) else 0 }
    let s4 := s3.dueLines.forEach allLanes State.evalSection
    .next ((s4.forEach allLanes State.markSection).post 0x220)
  else .next s.dueLines

/-- A rising edge of POSPPS (R228). -/
def execPospps (s : State) : Out := .next ((s.modSwath fun x => { x with pps := s.dev.dtime }).post 0x223)

/-- No fix, or no pose of the hitch, for 200 ms (R232). -/
def execFixStale (s : State) : Out := if s.swath.en then .next (s.modSwath fun x => { x with stale := true }) else .next s

/-- No fix for DR_LIMIT (R232). -/
def execDrOut (s : State) : Out := if s.swath.en then .next (s.modSwath fun x => { x with drOut := true }) else .next s

/-- No pose of the hitch for 3 ms (R243). -/
def execPoseLost (s : State) : Out :=
  if s.swath.en && s.swath.fromHitch && !s.swath.poseLost then .next ((s.modSwath fun x => { x with poseLost := true }).post 0x224) else .next s

/-- A contract change that moves the lane's load is under way (R97, R104). -/
def loadMoving (x : Lane) : Bool := x.con.change.any fun d => (loadChange x d.curr.toNat).isSome

/-- A post's time passes (R240, R242). A post for on that it finds unapplied sets SHED_MISS where CEIL did not cover the RUN power, then or when the post was placed; any other Twin switch that is neither made, nor armed, nor under way by a fallback sets ARM_MISS. -/
def execPostLapse (l : LaneId) (s : State) : Out :=
  let x := s.lane l
  if x.sect.pending && x.sect.postT2 ≤ s.dev.dtime then
    let s1 := (s.modSect l fun y => { y with pending := false, ceilWait := false, ceilShort := false }).modBudget l fun b =>
      { b with staggerReq := none }
    if sectTwin s l && x.con.twinOn && x.con.armState ≠ 2 && opPoint x.cfg x.con ≠ (if x.sect.want then 2 else 1) then
      if x.sect.want && (x.sect.ceilShort || (!loadMoving x && decide (x.budget.ceil.toNat < runPower x))) then .next (s1.setShedMiss l)
      else if loadMoving x then .next s1
      else .next (s1.armMissed l)
    else .next s1
  else .next s

/-- ON_LAT or OFF_LAT after the load changed, for the earliest change that APPLIED still follows (R241). -/
def execApplied (l : LaneId) (s : State) : Out :=
  match (s.lane l).sect.loads with
  | [] => .next s
  | (_, v) :: r =>
    let s1 := s.modSect l fun x => { x with applied := v, loads := r }
    if (s.lane l).sect.applied = v then .next s1 else .next (s1.postLane l 9)

/-- A write of SECT_CTRL (R237): FORCE, where 3 stores 0, and the RWL fields where unlocked. -/
def State.storeSectCtrl (s : State) (l : LaneId) (v : Word) : State :=
  let w := if fld v 9 8 = 3 then setFld v 9 8 0 else v
  s.modCfg l fun c => { c with sectCtrl := mergeMask (if s.locked then 0x300 else 0x007F0307) c.sectCtrl w }

/-- Every slot becomes Absent, which is an event where one was not (R235). -/
def State.dropTiles (s : State) : State :=
  let s1 := s.modSwath fun x => { x with tiles := Vector.replicate 256 0, held := Vector.replicate 256 none }
  if s.swath.tiles.toList.any (· ≠ 0) then s1.tileEvt else s1

/-- EN is set: there is no pose, no step and no line of an earlier one (R232, R235, R241). -/
def State.startSwath (s : State) : State :=
  let s1 := (s.dropTiles.modSwath fun x =>
    { x with poseOk := false, stale := false, drOut := false, poseLost := false, win := (0, 0), tileReq := 0, lastFix := none, fixSpeed := 0,
             yaw := 0, rev := false, jump := 0, steps := [], noEdge := 0 }).startGs
  s1.forEach allLanes fun st l => st.modSect l fun y => { y with line := none }

/-- POSE_LOST as SWATH_STATUS shows it (R233). -/
def Swath.lostShown (x : Swath) : Bool := x.poseLost && x.fromHitch

/-- A write of SWATH_CTRL (R233); where it changes POSE_LOST, source 0x224 is posted (R267). -/
def State.storeSwathCtrl (s : State) (v : Word) : State :=
  let s1 := s.modSwath fun x => { x with ctrl := mergeMask (if s.locked then 0x00FF0004 else 0x00FFFFF5) x.ctrl v }
  let s2 := if s1.swath.en && !s.swath.en then s1.startSwath else s1
  if s2.swath.lostShown = s.swath.lostShown then s2 else s2.post 0x224

/-- A write of SWATH_STATUS: TILE_EVT, which clears MARK_LOST with it (R233). -/
def State.storeSwathStatus (s : State) (v : Word) : State :=
  if bitOf v 4 then s.modSwath fun x => { x with tileEvt := false, markLost := 0 } else s

-- mailbox commands on tiles

/-- Mailbox commands are executed (R4, R388): in LOADER by the resident loader, otherwise while the base image runs on S0. -/
def mbxServed (s : State) : Bool := s.dev.state = .loader || imageRuns (s.core 4)

/-- A mailbox command (R388–R390): it starts where none runs and the agent's write is served, ends at once with 0x01 in HOLDOVER and 0x03 in a state that does not permit it, and otherwise runs with the result that `k` gives. One that nothing executes stays BUSY until its own row comes again, and one that a takeover meets ends at the takeover's end (R395). A command of another code leaves one that runs alone, and HALTED, BOOT and RESET# run none. A command that an alarm has ended with a reset or with HALTED has no result of its own. -/
def State.mbxRun (s : State) (a : Agent) (code : Byte) (tag : Byte) (may : State → Bool) (k : State → Byte × State) : State :=
  if s.dev.state = .halted || s.dev.state = .boot || (if s.mbx.busy then s.mbx.code ≠ code else !hostServed s a) then s
  else
    let s1 := if s.mbx.busy then s else (s.modMbx fun m => { m with busy := true, tag := tag, code := code }).post 0x230
    if s1.dev.state = .holdover then (if s.mbx.busy then s else s1.mbxEnd 0x01)
    else if !mbxServed s1 then s1
    else if !may s1 then s1.mbxEnd 0x03
    else
      let p := k s1
      if p.2.mbx.busy then p.2.mbxEnd p.1 else p.2

/-- Where MBX_BUF lies (R388). -/
def mbxBuf : Nat := 0x100000

/-- TX and TY of a tile command (R389). -/
def argTile (w : Word) : Int × Int := ((w.truncate 16 : BitVec 16).toInt, ((w >>> 16).truncate 16 : BitVec 16).toInt)

/-- Whether tile commands are served (R235, R389). -/
def tileMay (s : State) : Bool := s.dev.state = .run && s.swath.en && s.swath.poseOk

/-- A cell merged by a load over a Present slot: a cell held as 1 stays 1 where the loaded value is 0 (R236). -/
def mergeCells (old new : Byte) : Byte :=
  BitVec.ofNat 8 ((List.range 4).foldl (fun a k =>
    let o := old.toNat / 4 ^ k % 4
    let n := new.toNat / 4 ^ k % 4
    a + (if o = 1 ∧ n = 0 then 1 else n) * 4 ^ k) 0)

/-- Stores a tile's bytes over a slot and makes it Present (R236); a word with a two-bit error is rewritten (R340). -/
def State.storeTile (s : State) (t : Int × Int) (replace : Bool) (data : List Byte) : State :=
  let k := slotOf t
  let a := slotBase k
  let merge := tilePresent s.swath t && !replace
  let old := memBytes s.mem a 0x4000
  let bytes := if merge then
      (List.zip (List.range 0x4000) (List.zip old data)).map fun p =>
        if s.swath.eccBad.contains ((a + p.1) / 4 * 4) then p.2.2 else mergeCells p.2.1 p.2.2
    else data
  ({ s with mem := memWriteList s.mem a bytes }).modSwath fun x =>
    { x with tiles := x.tiles.set k.val 1 k.isLt, held := x.held.set k.val (some t) k.isLt,
             eccBad := x.eccBad.filter fun w => w < a || a + 0x4000 ≤ w }

/-- The result of a load's conditions: 0x05 outside the window, 0x06 into a Leaving slot (R236, R390). -/
def loadVerdict (s : State) (t : Int × Int) : Byte :=
  if !inWindow s.swath t then 5 else if s.swath.tiles.get (slotOf t) = 2 then 6 else 0

/-- The 128 chunks of a broadcast tile (R367). -/
def tileChunks (t : Int × Int) (data : List Byte) : List TetherRecord :=
  (List.finRange 128).map fun i => .chunk t.1 t.2 i ((data.drop (128 * i.val)).take 128)

/-- The tile in MBX_BUF: the 16 cells of a word with a two-bit error read as 3 (R340, R395). -/
def tileBuffer (s : State) : List Byte :=
  (List.range 0x4000).map fun i => if s.sup.eccShared.contains ((mbxBuf + i) / 4 * 4) then (255 : Byte) else memRead s.mem (mbxBuf + i)

/-- TILE_LOAD (R236, R389); the hitch broadcasts the tile where BROADCAST asks for it (R243). -/
def State.tileLoad (s : State) : Byte × State :=
  let t := argTile s.mbx.arg[0]
  let data := tileBuffer s
  let r := loadVerdict s t
  if r ≠ 0 then (r, s)
  else
    let s1 := s.storeTile t (bitOf s.mbx.arg[1] 0) data
    (0, if bitOf s.mbx.arg[1] 1 && s.tether.hitch && tetherLinked s then s1.queueRecords (tileChunks t data) else s1)

/-- TILE_TAKE (R236): the tile goes to MBX_BUF, its words with a two-bit error as 0xFFFF_FFFF (R340), and the slot becomes Absent. -/
def State.tileTake (s : State) : Byte × State :=
  let t := argTile s.mbx.arg[0]
  let k := slotOf t
  let a := slotBase k
  if s.swath.tiles.get k ≠ 2 || s.swath.held.get k ≠ some t then (6, s)
  else
    let bytes := (List.range 0x4000).map fun i => if s.swath.eccBad.contains ((a + i) / 4 * 4) then (255 : Byte) else memRead s.mem (a + i)
    let s1 := ({ s with mem := memWriteList s.mem mbxBuf bytes }).modSwath fun x =>
      { x with tiles := x.tiles.set k.val 0 k.isLt, held := x.held.set k.val none k.isLt }
    (0, s1.tileEvt)

/-- The TILE_LOAD command (R236). -/
def execTileLoad (a : Agent) (tag : Byte) (s : State) : Out := .next (s.mbxRun a 0x02 tag tileMay State.tileLoad)

/-- The TILE_TAKE command (R236). -/
def execTileTake (a : Agent) (tag : Byte) (s : State) : Out := .next (s.mbxRun a 0x03 tag tileMay State.tileTake)

-- records of the tether

/-- The cells of a run-length record; a run ends at the edge of its row (R243, R367). -/
def runCells (tx ty : Int) (row col : Byte) (len : Nat) : List (Int × Int) :=
  (List.range (Min.min len (256 - col.toNat))).map fun i => (256 * tx + col.toNat + i, 256 * ty + row.toNat)

/-- A received mark is applied under the rules of R241, and the hitch sends it on downstream (R243, R367). One that finds the hitch's queue full is counted in the device that it came from, not here (R367). -/
def State.applyMark (s : State) (tx ty : Int) (row col : Byte) (len : Nat) : State :=
  let s1 := if s.swath.en then s.forEach (runCells tx ty row col len) fun st c => (st.markCell c).2 else s
  if s.tether.hitch && tetherLinked s then s1.queueRecords [.mark tx ty row col len] else s1

/-- A received mark record (R243); under SOLO both ports are ignored (R374). -/
def execSwathMark (tx ty : Int) (row col : Byte) (len : Nat) (s : State) : Out :=
  .next (if bitOf s.tether.ctrl 0 then s else s.applyMark tx ty row col len)

/-- A chunk joins its tile; a chunk already held is replaced (R367). -/
def addChunk (ts : List TileRx) (tx ty : Int) (i : Fin 128) (data : List Byte) : List TileRx :=
  match ts.find? fun t => t.tx = tx && t.ty = ty with
  | some t => { t with got := (i, data) :: t.got.filter fun e => e.1 ≠ i } :: ts.filter fun t => !(t.tx = tx && t.ty = ty)
  | none => { tx := tx, ty := ty, got := [(i, data)] } :: ts

/-- The whole tile, once all 128 chunks have arrived (R367). -/
def wholeTile (t : TileRx) : Option (List Byte) :=
  if t.got.length = 128 then
    some ((List.finRange 128).flatMap fun i => match t.got.find? fun e => e.1 = i with | some e => (e.2 ++ List.replicate 128 0).take 128 | none => [])
  else none

/-- A tile chunk arrives (R367); a tile outside the window, or for a Leaving slot, is not stored (R236). -/
def State.takeChunk (s : State) (tx ty : Int) (i : Fin 128) (data : List Byte) : State :=
  if !(s.swath.en && s.swath.poseOk && s.live) then s
  else
    let ts := addChunk s.tether.tiles tx ty i data
    match (ts.head?).bind wholeTile with
    | none => s.modTether fun t => { t with tiles := ts }
    | some bytes =>
      let s1 := s.modTether fun t => { t with tiles := ts.drop 1 }
      if loadVerdict s1 (tx, ty) = 0 then s1.storeTile (tx, ty) false bytes else s1

/-- A tile chunk (R367); under SOLO both ports are ignored (R374). -/
def execTileChunk (tx ty : Int) (i : Fin 128) (data : List Byte) (s : State) : Out :=
  .next (if bitOf s.tether.ctrl 0 then s else s.takeChunk tx ty i data)

end Sys2Proof.Machine
end

