-- ==== Sys2Proof/Machine/Operands.lean ====
section
/-! DEFINITION. What every Camku instruction shares (files 12 and 13): register names and the window view (R291–R295, R307), results in flight and their distances (R298), traps (R302, R303), interrupt boundaries (R299), delay slots (R315, R316), and the frame in which an instruction executes. -/

namespace Sys2Proof.Machine

-- st

/-- Fields of st (R293). -/
def CoreState.ie (c : CoreState) : Bool := bitOf c.st 0
def CoreState.na (c : CoreState) : Bool := bitOf c.st 1
def CoreState.fa (c : CoreState) : Bool := bitOf c.st 2
def CoreState.tm (c : CoreState) : Bool := bitOf c.st 3
def CoreState.satm (c : CoreState) : Bool := bitOf c.st 10
def CoreState.wpos (c : CoreState) : Nat := fld c.st 14 12
def CoreState.wdepth (c : CoreState) : Nat := fld c.st 19 16

/-- Sets bit n of st. -/
def CoreState.setStBit (c : CoreState) (n : Nat) (v : Bool) : CoreState := { c with st := setFld c.st n n (b2n v) }

/-- The bits of st that MTC writes: SATM, AS, V, C, N, Z and IE (R293). -/
def stRw : Word := 0x7E1

/-- The bits of st that a return restores: its fields but WPOS and WDEPTH (R300, R302); reserved bits stay 0 (R5, R293). -/
def stBack : Word := 0x7EF

-- windows

/-- An octet of the window file k places above another, modulo 17 (R292). -/
def octUp (b : Fin 17) (k : Nat) : Fin 17 := ⟨(b.val + k) % 17, Nat.mod_lt _ (by decide)⟩

/-- An octet k places below another. -/
def octDown (b : Fin 17) (k : Nat) : Fin 17 := octUp b (17 - k % 17)

/-- The octet that w0–w7 show: the present window's, or the oldest window's in a spill handler, or the window to be filled in a fill handler (R295). -/
def CoreState.view (c : CoreState) : Fin 17 :=
  if c.tm then
    (if fld c.tcause 7 0 = 6 then octDown c.base (2 * (c.wdepth - 1)) else if fld c.tcause 7 0 = 7 then octDown c.base 2 else c.base)
  else c.base

/-- Register k of an octet of the window file. -/
def winDest (b : Fin 17) (k : Fin 8) : Dest := .win ⟨8 * b.val + k.val, by omega⟩

/-- The physical register that a 5-bit code names in the present context (R307). In a trap handler taken during a fast handler, a spill handler among them, codes 16–23 name f0–f7, and w8–w15 of R295 have no code (DEDUCED, log 110). -/
def CoreState.dest (c : CoreState) (r : RegCode) : Dest :=
  let k : Fin 8 := ⟨r.toNat % 8, Nat.mod_lt _ (by decide)⟩
  if r.toNat < 8 then .g k
  else if r.toNat < 16 then winDest c.view k
  else if r.toNat < 24 then (if c.fa then .f ⟨k.val, by omega⟩ else winDest (octUp c.view 1) k)
  else if c.tm then .t k
  else if c.fa then .f ⟨8 + k.val, by omega⟩
  else winDest (octUp c.view 2) k

/-- The value of a physical register. -/
def CoreState.getDest (c : CoreState) : Dest → Word
  | .g i => c.g.get i
  | .win i => c.win.get i
  | .f i => c.f.get i
  | .t i => c.t.get i
  | .none => 0

/-- Writes a physical register. -/
def CoreState.putDest (c : CoreState) (d : Dest) (v : Word) : CoreState :=
  match d with
  | .g i => { c with g := c.g.set i.val v i.isLt }
  | .win i => { c with win := c.win.set i.val v i.isLt }
  | .f i => { c with f := c.f.set i.val v i.isLt }
  | .t i => { c with t := c.t.set i.val v i.isLt }
  | .none => c

/-- Whether an item in flight is a load of a register. -/
def InFlight.loads (d : Dest) : InFlight → Bool
  | .load _ e _ => e = d
  | _ => false

/-- A register operand (R307). -/
def CoreState.reg (c : CoreState) (r : RegCode) : Word := c.getDest (c.dest r)

/-- A result written to a register, seen by the next instruction (R298); an older load of the register still in flight is overtaken. -/
def CoreState.setReg (c : CoreState) (r : RegCode) (v : Word) : CoreState :=
  { c.putDest (c.dest r) v with flight := c.flight.filter fun x => !x.loads (c.dest r) }

/-- A load's result: its register takes it at distance 2 (R298). An older load of the register takes effect in its own time. -/
def CoreState.loadReg (c : CoreState) (r : RegCode) (v : Word) : CoreState := { c with flight := c.flight ++ [.load 2 (c.dest r) v] }

/-- WPOS and WDEPTH of st. -/
def CoreState.setWin (c : CoreState) (wpos depth : Nat) : CoreState := { c with st := setFld (setFld c.st 14 12 (wpos % 8)) 19 16 depth }

/-- The view slides by 16 registers (R292). -/
def CoreState.slideUp (c : CoreState) : CoreState := { c.setWin (c.wpos + 1) (c.wdepth + 1) with base := octUp c.base 2 }

/-- The view slides back by 16 registers (R292). -/
def CoreState.slideBack (c : CoreState) : CoreState := { c.setWin (c.wpos + 7) (c.wdepth - 1) with base := octDown c.base 2 }

-- control registers

/-- The value of control register n of core t (R294). -/
def CoreState.ctrl (c : CoreState) (t : CoreId) : Nat → Word
  | 0 => c.st | 1 => c.ipc | 2 => c.ist | 3 => c.fpc | 4 => c.fst | 5 => c.tpc | 6 => c.tst | 7 => c.tcause
  | 8 => c.taddr | 9 => c.tvb | 10 => c.wstk | 11 => c.wlim | 12 => c.rcause | 13 => BitVec.ofNat 32 t.val | 14 => c.ccnt
  | _ => 0

/-- The effect of a control-register write; RO registers and fields ignore it (R293, R294). -/
def CoreState.setCtrl (c : CoreState) (n : Nat) (v : Word) : CoreState :=
  match n with
  | 0 => { c with st := mergeMask stRw c.st v }
  | 1 => { c with ipc := v } | 2 => { c with ist := v } | 3 => { c with fpc := v } | 4 => { c with fst := v }
  | 5 => { c with tpc := v } | 6 => { c with tst := v } | 9 => { c with tvb := v } | 10 => { c with wstk := v }
  | 11 => { c with wlim := v }
  | _ => c

-- results in flight

/-- An item one instruction later, or none when it takes effect (R298). -/
def InFlight.age : InFlight → Option InFlight
  | .load n d v => if n ≤ 1 then none else some (.load (n - 1) d v)
  | .acc n a v => if n ≤ 1 then none else some (.acc (n - 1) a v)
  | .bit n b v => if n ≤ 1 then none else some (.bit (n - 1) b v)
  | .ctrl n c v => if n ≤ 1 then none else some (.ctrl (n - 1) c v)
  | .ie n v => if n ≤ 1 then none else some (.ie (n - 1) v)
  | .icMask n k m v => if n ≤ 1 then none else some (.icMask (n - 1) k m v)
  | .fdis n v => if n ≤ 1 then none else some (.fdis (n - 1) v)

/-- An item takes effect. Accumulators and bits were written at once: their items only hold what close readers see. A mask write brings the bits that it changed, with the values it gave them (R283). -/
def State.commit (s : State) (t : CoreId) : InFlight → State
  | .load _ d v => s.modCore t fun c => c.putDest d v
  | .acc _ _ _ => s
  | .bit _ _ _ => s
  | .ctrl _ n v => s.modCore t fun c => c.setCtrl n.val v
  | .ie _ v => s.modCore t fun c => c.setStBit 0 v
  | .icMask _ k m v => s.modIc t fun i => { i with maskEff := i.maskEff.set k.val (mergeMask m (i.maskEff.get k) v) k.isLt }
  | .fdis _ v => s.modIc t fun i => { i with fdisEff := v }

/-- One instruction passes: items in flight age, and those whose distance is reached take effect, oldest first. -/
def State.ageFlight (s : State) (t : CoreId) : State :=
  let xs := (s.core t).flight
  (s.forEach (xs.filter fun x => x.age.isNone) fun st x => st.commit t x).modCore t fun c => { c with flight := xs.filterMap InFlight.age }

/-- Every result in flight is completed (R299). -/
def State.flush (s : State) (t : CoreId) : State :=
  let xs := (s.core t).flight
  (s.forEach xs fun st x => st.commit t x).modCore t fun c => { c with flight := [] }

/-- Whether an item still has a consumer position open that holds back a claim (R299). -/
def InFlight.holds : InFlight → Bool
  | .load n _ _ => decide (2 ≤ n)
  | .acc n _ _ => decide (2 ≤ n)
  | .bit n _ _ => decide (2 ≤ n)
  | _ => false

/-- A boundary at which the core may claim an interrupt or stop for debug (R299, R305). -/
def CoreState.boundary (c : CoreState) : Bool := c.slot.isNone && !c.flight.any InFlight.holds && !c.tm

/-- The accumulator as an instruction other than MACD reads it: what the last producer within its distance found (R298). -/
def CoreState.accSeen (c : CoreState) (a : Bool) : BitVec 72 :=
  c.flight.foldl (fun v x => match x with | .acc _ b o => if b = a then o else v | _ => v) (if a then c.a1 else c.a0)

/-- The accumulator as its last producer left it. -/
def CoreState.acc (c : CoreState) (a : Bool) : BitVec 72 := if a then c.a1 else c.a0

/-- Writes an accumulator. -/
def CoreState.putAcc (c : CoreState) (a : Bool) (v : BitVec 72) : CoreState := if a then { c with a1 := v } else { c with a0 := v }

/-- A product's result (R298): seen by another product at distance 1 and by any other instruction at distance 3. -/
def CoreState.macAcc (c : CoreState) (a : Bool) (v : BitVec 72) : CoreState :=
  { c.putAcc a v with flight := c.flight ++ [.acc 3 a (c.acc a)] }

/-- What close readers of an accumulator see becomes v; the consumer positions of its products stay open (R299). -/
def InFlight.showAcc (a : Bool) (v : BitVec 72) : InFlight → InFlight
  | .acc n b o => .acc n b (if b = a then v else o)
  | x => x

/-- An accumulator written whole with a result at distance 1 (R321). -/
def CoreState.setAcc (c : CoreState) (a : Bool) (v : BitVec 72) : CoreState :=
  { c.putAcc a v with flight := c.flight.map (InFlight.showAcc a v) }

-- traps

/-- st with a write of it in flight completed (R298, R299). -/
def InFlight.onSt (st : Word) : InFlight → Word
  | .ctrl _ n v => if n.val = 0 then mergeMask stRw st v else st
  | .ie _ v => setFld st 0 0 (b2n v)
  | _ => st

/-- A trap (R302, R303): every result in flight is completed, tpc, tst and tcause are written, TM is set and the handler starts; a trap raised in a delay slot goes back to the transfer. A trap while TM = 1 stops the core. -/
def State.takeTrap (s : State) (t : CoreId) (cause : Nat) (tpc : Word) (addr : Option Word) : State :=
  if (s.core t).tm then s.modCore t fun c => { c with run := .doubleTrap }
  else
    (s.flush t).modCore t fun c0 =>
      let c := match c0.slot with
        | some x => { c0 with base := x.base, st := x.flight.foldl InFlight.onSt x.st, lk := x.lk }
        | none => c0
      { c with tpc := match c0.slot with | some x => x.from_ | none => tpc, tst := c.st,
               tcause := BitVec.ofNat 32 (cause + (if c0.slot.isSome then 256 else 0)), taddr := addr.getD c.taddr,
               st := setFld c.st 3 3 1, pc := (c.tvb &&& 0xFFFFFF80) + BitVec.ofNat 32 (8 * cause), slot := none, run := .running }

-- memories

/-- The host address of the word that core t's address names in a private memory (R289): I-RAM, X-RAM, Y-RAM. -/
def privAddr (t : CoreId) (a : Nat) : Option Nat :=
  if a < 0x20000 then some (0x800000 + t.val * 0x40000 + a)
  else if 0x100000 ≤ a ∧ a < 0x110000 then some (0x820000 + t.val * 0x40000 + (a - 0x100000))
  else if 0x180000 ≤ a ∧ a < 0x190000 then some (0x830000 + t.val * 0x40000 + (a - 0x180000))
  else none

/-- The boot ROM, on S0 while STATE is BOOT or LOADER (R289). -/
def romAt (s : State) (t : CoreId) (a : Nat) : Bool :=
  t.val = 4 && (s.dev.state = .boot || s.dev.state = .loader) && decide (0x300000 ≤ a) && decide (a < 0x318000)

/-- Whether a word holds an uncorrectable error for core t, by its host address (R302, R340). -/
def eccAt (s : State) (t : CoreId) (host : Nat) : Bool := (s.core t).eccBad.contains (host / 4 * 4)

/-- What a fetch at the pc raises: cause 3 off a word, 4 outside the fetchable ranges, 5 on a word with a two-bit error (R302). -/
def fetchCause (s : State) (t : CoreId) : Option Nat :=
  let a := (s.core t).pc.toNat
  if a % 4 ≠ 0 then some 3
  else if a < 0x20000 then (if eccAt s t (0x800000 + t.val * 0x40000 + a) then some 5 else none)
  else if romAt s t a then none
  else some 4

-- the frame of an instruction

/-- How an instruction ends. -/
inductive InstrEnd where
  /-- execution goes on behind the instruction -/
  | next (s : State)
  /-- a transfer, whose delay slot follows -/
  | branch (target : Option Word) (retx : Bool) (s : State)
  /-- a trap at the instruction -/
  | trap (cause : Nat) (addr : Option Word) (s : State)
  /-- an STR between two elements at which a claim is due: the pc stays at it (R301) -/
  | hold (s : State)
  /-- a software trap, with tpc behind the instruction -/
  | soft (cause : Nat) (s : State)
deriving DecidableEq, Repr

/-- RETX restores st but WPOS and WDEPTH, and applies a spill's or a fill's change of WDEPTH (R295, R302). -/
def CoreState.retxRestore (c : CoreState) : CoreState :=
  let k := fld c.tcause 7 0
  let d := if k = 6 then c.wdepth - 1 else if k = 7 then c.wdepth + 1 else c.wdepth
  { c with st := setFld (mergeMask stBack c.st c.tst) 19 16 d }

/-- The pc behind an instruction: behind a slot the transfer's target, or the word after the slot (R315). -/
def CoreState.advance (c : CoreState) : CoreState :=
  match c.slot with
  | none => { c with pc := c.pc + 4 }
  | some x =>
    let d := { c with pc := x.target.getD (x.from_ + 8), slot := none }
    if x.retx then d.retxRestore else d

/-- The core clock comes from the PLL, which WATCH stops (file 01 "Clocks", R18); a warden takeover restarts the digital domain. -/
def State.clocked (s : State) (t : CoreId) : Bool :=
  (s.dev.pll || s.dev.takeover.isSome) && (if h : t.val < 4 then (s.group ⟨t.val, h⟩).coreRun else true)

/-- A core goes on behind an instruction, unless a store of the instruction has put it in reset. -/
def State.goOn (s : State) (t : CoreId) (f : CoreState → CoreState) : State := if (s.core t).run = .inReset then s else s.modCore t f

/-- The state that an instruction of core t sees: results in flight have come one instruction closer (R298), and ccnt counts it (R294). -/
def State.begun (s : State) (t : CoreId) : State := (s.ageFlight t).modCore t fun c => { c with ccnt := c.ccnt + 1 }

/-- A debug breakpoint stands at the pc while debug is enabled (R302). -/
def breaksAt (s : State) (t : CoreId) : Bool := s.sec.unlocked && (s.core t).bkpts.contains (s.core t).pc

/-- The breakpoint trap stands against what the instruction does: a trap of a lower cause comes first (R302). -/
def InstrEnd.breakFirst : InstrEnd → Bool
  | .trap k _ _ => decide (9 < k)
  | _ => true

/-- Core t executes an instruction (R291, R298, R302): only while it runs, and after its fetch; `bars` names an instruction that a delay slot must not hold (R316). -/
def State.instr (s : State) (t : CoreId) (bars : Bool) (f : State → InstrEnd) : State :=
  if (s.core t).run ≠ .running || !s.clocked t then s
  else
    let s1 := s.begun t
    let c := s1.core t
    match fetchCause s1 t with
    | some k => s1.takeTrap t k c.pc (some c.pc)
    | none =>
      if bars && c.slot.isSome then s1.takeTrap t 1 c.pc none
      else if breaksAt s1 t && (f s1).breakFirst then s1.takeTrap t 9 c.pc none
      else match f s1 with
        | .next s2 => s2.goOn t CoreState.advance
        | .branch target retx s2 =>
          s2.goOn t fun d => { d with slot := some { target := target, from_ := c.pc, retx := retx, base := c.base, st := c.st, lk := c.lk, flight := c.flight }, pc := c.pc + 4 }
        | .trap k a s2 => s2.takeTrap t k c.pc a
        | .hold s2 => s2
        | .soft k s2 => s2.takeTrap t k (c.pc + 4) none

/-- An instruction that changes its core alone. -/
def State.coreInstr (s : State) (t : CoreId) (f : CoreState → CoreState) : State := s.instr t false fun st => .next (st.modCore t f)

end Sys2Proof.Machine
end

