-- ==== Sys2Proof/Machine/Flags.lean ====
section
/-! DEFINITION. Camku flags and conditions (R310, R311), the results of the arithmetic that sets them (R312), and accumulate (R319). -/

namespace Sys2Proof.Machine

/-- The flags of st. -/
structure Flags where
  z : Bool := false
  n : Bool := false
  c : Bool := false
  v : Bool := false
deriving DecidableEq, Repr

/-- The flags that st holds (R293). -/
def CoreState.flags (c : CoreState) : Flags := { z := bitOf c.st 5, n := bitOf c.st 6, c := bitOf c.st 7, v := bitOf c.st 8 }

/-- Writes the flags. -/
def CoreState.setFlags (c : CoreState) (f : Flags) : CoreState :=
  { c with st := mergeMask 0x1E0 c.st (packFields [(b2n f.z, 5), (b2n f.n, 6), (b2n f.c, 7), (b2n f.v, 8)]) }

/-- z and n of a result; c and v unchanged (R310). -/
def Flags.ofResult (f : Flags) (r : Word) : Flags := { f with z := r = 0, n := r.getLsbD 31 }

/-- Signed overflow of a + b giving r: operands of one sign and a result of the other (R310). -/
def addOverflow (a b r : Word) : Bool := a.getLsbD 31 = b.getLsbD 31 && r.getLsbD 31 ≠ a.getLsbD 31

/-- Signed overflow of a − b giving r: operands of different signs and a result of the sign of b (R310). -/
def subOverflow (a b r : Word) : Bool := a.getLsbD 31 ≠ b.getLsbD 31 && r.getLsbD 31 ≠ a.getLsbD 31

/-- a + b + carry with its flags (R310). -/
def addWith (a b : Word) (carry : Bool) : Word × Flags :=
  let r := a + b + BitVec.ofNat 32 (b2n carry)
  (r, { z := r = 0, n := r.getLsbD 31, c := decide (2 ^ 32 ≤ a.toNat + b.toNat + b2n carry), v := addOverflow a b r })

/-- a − b − borrow with its flags; c = 1 when there is no borrow (R310). -/
def subWith (a b : Word) (borrow : Bool) : Word × Flags :=
  let r := a - b - BitVec.ofNat 32 (b2n borrow)
  (r, { z := r = 0, n := r.getLsbD 31, c := decide (b.toNat + b2n borrow ≤ a.toNat), v := subOverflow a b r })

/-- The shifts (R312): 0 = SHL, 1 = SHR, 2 = SAR, 3 = ROR, by an amount 0–31. -/
def shiftResult (k : Fin 4) (a : Word) (n : Nat) : Word :=
  match k with
  | 0 => a <<< n
  | 1 => a >>> n
  | 2 => a.sshiftRight n
  | 3 => a.rotateRight n

/-- The last bit that a shift shifts out (R310). -/
def shiftedOut (k : Fin 4) (a : Word) (n : Nat) : Bool :=
  match k with
  | 0 => a.getLsbD (32 - n)
  | _ => a.getLsbD (n - 1)

/-- A shift with its flags: c is unchanged for an amount of 0 (R310). -/
def shiftWith (k : Fin 4) (a : Word) (n : Nat) (f : Flags) : Word × Flags :=
  let r := shiftResult k a n
  (r, { f.ofResult r with c := if n = 0 then f.c else shiftedOut k a n })

/-- Number of leading zeros, 0–32 (R312). -/
def leadingZeros (a : Word) : Nat := if a = 0 then 32 else 31 - a.toNat.log2

/-- Signed and unsigned minimum and maximum (R312). -/
def minS (a b : Word) : Word := if a.toInt ≤ b.toInt then a else b
def maxS (a b : Word) : Word := if a.toInt ≤ b.toInt then b else a
def minU (a b : Word) : Word := if a.toNat ≤ b.toNat then a else b
def maxU (a b : Word) : Word := if a.toNat ≤ b.toNat then b else a

/-- Bits [63:32] of a product (R312). -/
def highWord (p : Int) : Word := BitVec.ofInt 32 (Int.fdiv p (2 ^ 32))

/-- Whether a condition code holds (R311); code 15 never does, and no legal instruction holds it. -/
def Flags.holds (f : Flags) : Nat → Bool
  | 0 => true | 1 => f.z | 2 => !f.z | 3 => f.c | 4 => !f.c | 5 => f.n | 6 => !f.n | 7 => f.v
  | 8 => !f.v | 9 => f.c && !f.z | 10 => !f.c || f.z | 11 => f.n = f.v | 12 => f.n ≠ f.v
  | 13 => !f.z && f.n = f.v | 14 => f.z || f.n ≠ f.v
  | _ => false

/-- accumulate(a, p) (R319): the new accumulator and whether AS is set. -/
def accumulate (satm : Bool) (a p : Int) : BitVec 72 × Bool :=
  let s := a + p
  if decide (-(2 ^ 71) ≤ s) && decide (s ≤ 2 ^ 71 - 1) then (BitVec.ofInt 72 s, false)
  else if satm then (BitVec.ofInt 72 (if s < 0 then -(2 ^ 71) else 2 ^ 71 - 1), true)
  else (BitVec.ofInt 72 s, true)

/-- AS is sticky (R293). -/
def CoreState.stickAs (c : CoreState) (v : Bool) : CoreState := if v then c.setStBit 9 true else c

/-- A value clamped to 32-bit signed, and whether it was clamped (R321, R329). -/
def clampWord (v : Int) : Word × Bool :=
  if v < -(2 ^ 31) then (0x80000000, true) else if 2 ^ 31 - 1 < v then (0x7FFFFFFF, true) else (BitVec.ofInt 32 v, false)

end Sys2Proof.Machine
end

