-- ==== Sys2Proof/Machine/Interrupts.lean ====
section
/-! DEFINITION. The interrupt controller (file 11): what is deliverable (R272), claims (R274, R275, R284, R300), hold-off (R277), doorbells (R271), splice rewrites and their lock (R281, R282), restarts (R286), and debug halt (R305). -/

namespace Sys2Proof.Machine

-- vector tables

/-- The host address of core t's vector table (R273). -/
def vecBase (t : CoreId) : Nat := if t.val < 4 then 0x11000 + t.val * 0x4000 else if t.val = 4 then 0xA000 else 0xB000

/-- Entry x of core t's vector table (R273). -/
def vecEntry (s : State) (t : CoreId) (x : Nat) : Word := memRead32 s.mem (vecBase t + 4 * x)

-- delivery

/-- All source numbers. -/
def allSources : List SourceId := List.finRange 1024

/-- Whether a source is deliverable to core t (R272). -/
def deliverable (s : State) (t : CoreId) (x : SourceId) : Bool :=
  let c := s.src x
  let k := s.core t
  let i := s.ic t
  c.pending && !c.active && c.target.toNat = t.val && !i.holdRun.get ⟨c.group.toNat, by omega⟩ && k.ie && !k.fa
    && (if c.fast then !i.fdisEff else !maskedIn i.maskEff x && !k.na)

/-- Whether source x goes before y: fast class, then the lower GROUP, then the lower number (R272). -/
def goesBefore (s : State) (x y : SourceId) : Bool :=
  let a := s.src x
  let b := s.src y
  if a.fast ≠ b.fast then a.fast
  else if a.group ≠ b.group then decide (a.group.toNat < b.group.toNat)
  else decide (x.val < y.val)

/-- The source that the controller chooses for core t (R272). -/
def chosen (s : State) (t : CoreId) : Option SourceId :=
  (allSources.filter (deliverable s t)).foldl (fun best x => match best with | none => some x | some y => if goesBefore s x y then some x else some y) none

/-- The presented request of core t is withdrawn where it is source x (R284). -/
def State.withdraw (s : State) (t : CoreId) (x : SourceId) : State :=
  if chosen s t = some x then s.modIc t fun i => { i with withdrawn := some (s.src x).fast } else s

-- claims

/-- IC_CUR of a claim (R285). -/
def curWord (count : Nat) (x : Nat) : Word := packFields [(count, 24), (x, 0)]

/-- Entry to a handler (R300): a normal class slides the view, a fast class takes the fast bank. -/
def CoreState.enterHandler (c : CoreState) (fast : Bool) (entry : Word) : CoreState :=
  if fast then { c.setStBit 2 true with fpc := c.pc, fst := c.st, pc := entry, run := .running }
  else { (c.slideUp).setStBit 1 true with ipc := c.pc, ist := c.st, pc := entry, run := .running }

/-- A claim of entry x in a class, with the count it reports (R274): the spill of R295 and a bad table word (R340) come before it and consume nothing. -/
def State.claimEntry (s : State) (t : CoreId) (fast : Bool) (x count : Nat) (k : State → State) : State :=
  let c := s.core t
  if !fast && c.wdepth = 8 then (s.modCore t fun d => { d with run := .running }).takeTrap t 6 c.pc none
  else if eccAt s t (vecBase t + 4 * x) then s.takeTrap t 5 c.pc (some (BitVec.ofNat 32 (0x40000000 + vecBase t + 4 * x)))
  else
    let w := curWord count x
    let s1 := (k s).modIc t fun i => if fast then { i with curF := w } else { i with curN := w }
    s1.modCore t fun d => d.enterHandler fast (vecEntry s t x)

/-- A claimed source: COUNT and PEND 0, ACTIVE 1, and its group's hold-off starts (R274, R277). -/
def State.consume (s : State) (t : CoreId) (x : SourceId) : State :=
  let g : Fin 32 := ⟨(s.src x).group.toNat, by omega⟩
  (s.modSrc x fun c => { c with count := 0, pend := false, active := true, claimer := BitVec.ofNat 3 t.val }).modIc t fun i =>
    { i with holdRun := if i.hold.get g ≠ 0 then i.holdRun.set g.val true g.isLt else i.holdRun }

/-- A claim is due at core t (R274, R284, R299): it is at a boundary, and a request or a withdrawn one stands. -/
def claimDue (s : State) (t : CoreId) : Bool :=
  let c := s.core t
  c.ie && !c.fa && c.boundary && (match (s.ic t).withdrawn with | some fast => fast || !c.na | none => (chosen s t).isSome)

/-- A claim by core t (R274, R284, R299): only at a boundary of a core that runs or sleeps in WAIT. -/
def execInterruptClaim (t : CoreId) (s : State) : Out :=
  let c := s.core t
  if (c.run = .running || c.run = .waiting) && c.boundary then
    match (s.ic t).withdrawn with
    | some fast =>
      if c.ie && !c.fa && (fast || !c.na) then
        .next (s.claimEntry t fast 0x3FF 0 fun st => st.modIc t fun i => { i with withdrawn := none, spurCnt := satInc i.spurCnt })
      else .next s
    | none =>
      match chosen s t with
      | some x =>
        let y := s.src x
        .next (s.claimEntry t y.fast x.val (if y.cntEn then y.count.toNat else 1) fun st => st.consume t x)
      | none => .next s
  else .next s

/-- Wakes core t from WAIT where a source of it is ready (R278), and its group with it (R17). -/
def State.wakeIfReady (s : State) (t : CoreId) : State :=
  if (s.core t).run = .waiting && allSources.any (s.wakes t) then (s.wakeGroup t).wakeCore t else s

/-- The PLL runs again after WATCH (R17, R21): the groups with a doorbell that came meanwhile restart, and no event is lost. -/
def State.wakePending (s : State) : State :=
  s.forEach (List.finRange 4) fun st g =>
    if allSources.any fun x => (st.src x).pending && (st.src x).routeEn && (st.src x).target.toNat = g.val then
      (st.wakeGroup (coreOf g)).wakeIfReady (coreOf g)
    else st

/-- A group's hold-off expires (R277, R278). -/
def execHoldOff (t : CoreId) (g : Fin 32) (s : State) : Out :=
  .next ((s.modIc t fun i => { i with holdRun := i.holdRun.set g.val false g.isLt }).wakeIfReady t)

-- doorbells and counts

/-- A doorbell write (R271): it counts only at the doorbell of the source's TARGET. -/
def State.ringDoorbell (s : State) (t : CoreId) (x : SourceId) : State :=
  if (s.src x).target.toNat = t.val then s.post x.val else s.modIc t fun i => { i with mispost := satInc i.mispost }

/-- A write of IC_DOOR (R271). -/
def execDoorbell (a : Agent) (t : CoreId) (x : SourceId) (s : State) : Out := if hostServed s a then .next (s.ringDoorbell t x) else .next s

/-- CLR = 1 (R269); by an agent other than the source's core it withdraws a presented request (R284). -/
def State.icClear (s : State) (a : Agent) (x : SourceId) : State :=
  let t := (s.src x).target.toNat
  let s1 := if h : t < 6 then (if a = .core ⟨t, h⟩ then s else s.withdraw ⟨t, h⟩ x) else s
  s1.modSrc x fun c => { c with count := 0, pend := false }

/-- A write of CLR in IC_SRC (R269). -/
def execIcClr (a : Agent) (x : SourceId) (s : State) : Out := if hostServed s a then .next (s.icClear a x) else .next s

-- splice rewrites

/-- What an item in flight of a core still brings to its masks once another agent has written the bits `m` of word k (R283): nothing there. -/
def InFlight.overMask (k : Fin 32) (m : Word) : InFlight → InFlight
  | .icMask n j b v => .icMask n j (if j = k then b &&& ~~~m else b) v
  | .fdis n v => .fdis n v
  | .load n d v => .load n d v
  | .acc n a v => .acc n a v
  | .bit n b v => .bit n b v
  | .ctrl n c v => .ctrl n c v
  | .ie n v => .ie n v

/-- An item in flight that writes FDIS (R283). -/
def InFlight.isFdis : InFlight → Bool
  | .fdis _ _ => true
  | .load _ _ _ | .acc _ _ _ | .bit _ _ _ | .ctrl _ _ _ | .ie _ _ | .icMask _ _ _ _ => false

/-- The items in flight of a core, and those that a trap in its delay slot would bring back, changed alike. -/
def CoreState.mapFlight (c : CoreState) (f : List InFlight → List InFlight) : CoreState :=
  { c with flight := f c.flight, slot := c.slot.map fun x => { x with flight := f x.flight } }

/-- A write of the bits `m` of mask word k by another agent than the core stands over what the core wrote within its last four instructions (R283). -/
def State.overMask (s : State) (t : CoreId) (k : Fin 32) (m : Word) : State :=
  s.modCore t fun c => c.mapFlight fun xs => xs.map (InFlight.overMask k m)

/-- One source moves from a core to another (R281): TARGET, the mask bits, ACTIVE; a presented request is withdrawn (R284), and what either core has in flight for the bit no longer counts (R283). -/
def State.moveSource (s : State) (from_ dst : CoreId) (x : SourceId) : State :=
  let k : Fin 32 := ⟨x.val / 32, by omega⟩
  let bit := maskedIn (s.ic from_).mask x
  let put (m : Vector Word 32) (v : Bool) : Vector Word 32 := m.set k.val (setFld (m.get k) (x.val % 32) (x.val % 32) (b2n v)) k.isLt
  let s1 := s.withdraw from_ x
  let s2 := s1.modSrc x fun c => { c with target := BitVec.ofNat 3 dst.val, active := false }
  let s3 := s2.modIc dst fun i => { i with mask := put i.mask bit, maskEff := put i.maskEff bit }
  let s4 := s3.modIc from_ fun i => { i with mask := put i.mask true, maskEff := put i.maskEff true }
  let m : Word := BitVec.ofNat 32 (2 ^ (x.val % 32))
  (s4.overMask from_ k m).overMask dst k m

/-- The splice-complete source of a group (R344). -/
def spliceSource (g : GroupId) : SourceId := ⟨0x201 + 4 * g.val, by omega⟩

/-- A rewrite (R281): a splice moves every source of the failed core, and the return brings back those that the splice of the group moved. With it dev.spl_g changes, and the group's splice-complete source goes to the core that now serves, to which it is posted (R344, R345). A source that is ready at its new core wakes it (R278). -/
def State.rewriteNow (s : State) (from_ dst : CoreId) (g : GroupId) (back : Bool) : State :=
  let xs := allSources.filter fun x => (s.src x).target.toNat = from_.val && (!back || s.sup.moved.contains (x, g))
  let s1 := s.forEach xs fun st x => st.moveSource from_ dst x
  let s2 := s1.modSup fun p => { p with moved := if back then p.moved.filter fun e => e.2 ≠ g else xs.map (fun x => (x, g)) ++ p.moved }
  let touch (i : IcCore) : IcCore := { i with spliceGen := i.spliceGen + 1, rewroteAt := some s.dev.dtime }
  let s3 := (s2.modIc from_ touch).modIc dst touch
  let s4 := (s3.modGroup g fun y => { y with spliced := !back }).modSrc (spliceSource g) fun c => { c with target := BitVec.ofNat 3 dst.val }
  (s4.post (spliceSource g).val).wakeIfReady dst

/-- A rewrite for the group waits for a lock (R282). -/
def rewriteWaits (s : State) (g : GroupId) : Bool := s.sup.rewrites.any fun e => e.2.2.1 = g

/-- A rewrite runs unless a core that it touches holds its lock, for which it waits (R282). -/
def State.rewrite (s : State) (from_ dst : CoreId) (g : GroupId) (back : Bool) : State :=
  if (s.ic from_).held || (s.ic dst).held then s.modSup fun p => { p with rewrites := p.rewrites ++ [(from_, dst, g, back)] }
  else s.rewriteNow from_ dst g back

/-- Waiting rewrites run in order once their locks are free (R282). -/
def State.runRewrites (s : State) : State :=
  let xs := s.sup.rewrites
  (s.modSup fun p => { p with rewrites := [] }).forEach xs fun st e => st.rewrite e.1 e.2.1 e.2.2.1 e.2.2.2

/-- TAKE = 1 grants the lock, unless a rewrite that touches the core runs (R282): a rewrite completes within the cycle in which it begins (log 43), and HELD stays 0 at a TAKE of that cycle (R288). -/
def State.lockTake (s : State) (t : CoreId) : State :=
  s.modIc t fun i => { i with held := i.held || !(i.rewroteAt.any fun u => decide (u = s.dev.dtime)) }

/-- RELEASE = 1 (R282). -/
def State.lockRelease (s : State) (t : CoreId) : State := (s.modIc t fun i => { i with held := false }).runRewrites

/-- A write of TAKE (R282). -/
def execTake (a : Agent) (t : CoreId) (s : State) : Out := if hostServed s a then .next (s.lockTake t) else .next s

/-- A write of RELEASE (R282). -/
def execRelease (a : Agent) (t : CoreId) (s : State) : Out := if hostServed s a then .next (s.lockRelease t) else .next s

/-- A rewrite has waited 10 µs for core t's lock and breaks it (R282). -/
def execMlockBreak (t : CoreId) (s : State) : Out :=
  if (s.ic t).held && s.sup.rewrites.any fun e => e.1 = t || e.2.1 = t then
    .next ((s.modIc t fun i => { i with held := false, broken := true }).runRewrites)
  else .next s

/-- A write of MP_CLR (R285). -/
def execMpClr (a : Agent) (t : CoreId) (s : State) : Out := if hostServed s a then .next (s.modIc t fun i => { i with mispost := 0 }) else .next s

/-- What a restart of core t does to the controller (R286). `shown` is the class of the request that it withdraws, where one was presented; one withdrawn before and not yet claimed is still to be claimed (R284). -/
def State.restartIc (s : State) (t : CoreId) (shown : Option Bool) : State :=
  let s1 : State := { s with srcs := s.srcs.map fun (c : IcSrc) => if c.target.toNat = t.val then { c with active := false } else c }
  (s1.modIc t fun i =>
    { i with curN := 0, curF := 0, held := false, broken := false, fdis := true, fdisEff := true, maskEff := i.mask, withdrawn := shown.or i.withdrawn }).runRewrites

-- debug

/-- Debug halt of core t, at a boundary chosen as for a claim (R305), while debug is unlocked. -/
def execDebugHalt (t : CoreId) (s : State) : Out :=
  let c := s.core t
  if s.sec.unlocked && c.boundary then
    match c.run with
    | .running => .next (s.modCore t fun d => { d with run := .debug })
    | .waiting => .next (s.modCore t fun d => { d with run := .debugWaiting })
    | _ => .next s
  else .next s

/-- Debug resume: it also continues a core that HALT has stopped (R315). -/
def execDebugResume (t : CoreId) (s : State) : Out :=
  if s.sec.unlocked then
    match (s.core t).run with
    | .debug => .next (s.modCore t fun d => { d with run := .running })
    | .debugWaiting => .next ((s.modCore t fun d => { d with run := .waiting }).wakeIfReady t)
    | .halted => .next (s.modCore t fun d => { d with run := .running })
    | _ => .next s
  else .next s

end Sys2Proof.Machine
end

