-- ==== Sys2Proof/Machine/Fuses.lean ====
section
/-! DEFINITION. Fuses and security (file 18): the fuse words and fields (R408–R412), resets (R14, R7), alarms (R419–R422), FUSE_PROGRAM and AUDIT (R413–R416), and debug unlock (R418). -/

namespace Sys2Proof.Machine

-- fuse words

/-- The data bits of a raw 39-bit read. -/
def rawData (r : BitVec 39) : Word := r.truncate 32

/-- A raw read is a codeword: its check bits are those of its data (R408). -/
def rawGood (r : BitVec 39) : Bool := (r >>> 32).truncate 7 = Config.secdedCheck (rawData r)

/-- The codeword one bit from a raw read, where there is one (R408). -/
def oneBitOff (r : BitVec 39) : Option (BitVec 39) := ((List.range 39).map fun i => r ^^^ BitVec.ofNat 39 (2 ^ i)).find? rawGood

/-- A raw read's state, coded as in FUSE_WSTAT (R408, R412). -/
def fuseState (r : BitVec 39) : BitVec 2 :=
  if r = 0 then 0 else if rawGood r then 1 else if (oneBitOff r).isSome then 2 else 3

/-- A raw read's used value, 0 when blank or Uncorrectable (R408, R412). -/
def fuseValue (r : BitVec 39) : Word :=
  if r = 0 then 0 else if rawGood r then rawData r else match oneBitOff r with | some g => rawData g | none => 0

/-- A programmed word of data (R408). -/
def encodeFuse (d : Word) : BitVec 39 := Config.fuseWord d

-- fields

/-- The states of a field (R410). -/
inductive FieldState where
  | present | absent | failed
deriving DecidableEq, Repr

/-- State of fuse word i as marked, and its used value. -/
def Security.wordState (x : Security) (i : Nat) : BitVec 2 := x.wstat.toList.getD i 0
def Security.word (x : Security) (i : Nat) : Word := x.shadow.toList.getD i 0

/-- The state of a field of n words (R410). -/
def fieldState (x : Security) (first n : Nat) : FieldState :=
  let ws := (List.range n).map fun k => x.wordState (first + k)
  if ws.any (· = 3) then .failed else if ws.all (· ≠ 0) then .present else .absent

/-- The fused ALARM_POLICY: level 0 where absent, level 2 for every source where it fails (R410). -/
def fusedPolicy (x : Security) : BitVec 12 :=
  match fieldState x 200 1 with | .present => (x.word 200).truncate 12 | .failed => 0xAAA | .absent => 0

/-- DBG_MODE: 3 acts as 2 (R409, R410). -/
def dbgMode (x : Security) : Nat :=
  match fieldState x 201 1 with | .present => Min.min 2 (fld (x.word 201) 1 0) | .failed => 2 | .absent => 0

/-- The larger of two levels, field by field (R417). -/
def policyMax (a b : BitVec 12) : BitVec 12 :=
  BitVec.ofNat 12 ((List.range 6).foldl (fun n k => n + Max.max (a.toNat / 4 ^ k % 4) (b.toNat / 4 ^ k % 4) * 4 ^ k) 0)

/-- KILL is blown (R410, R421): its word is not blank. -/
def killBlown (x : Security) : Bool := x.wordState 224 ≠ 0

/-- The words of a field. -/
def fieldWords (x : Security) (first n : Nat) : List Word := (List.range n).map fun k => x.word (first + k)

/-- Words as one number, the first word lowest. -/
def joinWords (ws : List Word) : Nat := ws.foldr (fun w n => w.toNat + 2 ^ 32 * n) 0

/-- n words of a number, the lowest first. -/
def splitWords (v n : Nat) : List Word := (List.range n).map fun k => BitVec.ofNat 32 (v / 2 ^ (32 * k))

/-- The unit key that the fuses hold, where UNIT_KEY is present, passes its integrity check and KILL is not blown (R411). -/
def fusedKey (x : Security) : Option (BitVec 256) :=
  if fieldState x 128 10 = FieldState.present && !killBlown x then Config.unwrapKey (BitVec.ofNat 320 (joinWords (fieldWords x 128 10))) else none

/-- A word of a field that AUDIT has marked to fail closed from the next BOOT on (R416). -/
def auditFailed (x : Security) (i : Fin 512) : Bool := x.auditBad.contains i.val

/-- Step 2 of R386: every word is read into the shadow, and the fields that take effect at BOOT take it (R410, R411, R415–R418). -/
def State.readFuses (s : State) : State :=
  let x0 := s.sec
  let x := { x0 with
    wstat := Vector.ofFn fun (i : Fin 512) => if auditFailed x0 i then 3 else fuseState (x0.fuses.get i),
    shadow := Vector.ofFn fun (i : Fin 512) => if auditFailed x0 i then 0 else fuseValue (x0.fuses.get i) }
  let lanesFail := decide (fieldState x 35 1 = FieldState.failed)
  let y := { x with
    hwType := if fieldState x 32 1 = FieldState.present then some (x.word 32) else none,
    unitId := if fieldState x 33 2 = FieldState.present then some (BitVec.ofNat 64 ((x.word 33).toNat + 2 ^ 32 * (x.word 34).toNat)) else none,
    laneDis := match fieldState x 35 1 with | .present => x.word 35 | .failed => 0xFFFF0000 | .absent => 0,
    killed := killBlown x,
    key := fusedKey x,
    policy := fusedPolicy x,
    unlocked := decide (dbgMode x = 0) }
  { s with sec := y }.modDev fun d => { d with degraded := lanesFail || decide (fieldState x 0 31 = FieldState.failed) }

-- reset

/-- What RESET# and an alarm at level 1 leave (R3, R7, R14): every field at its reset value, but for the supplies and pins, the fuses, the code store, ALARM_STATUS (R417) and the waiting commands. Memory that R14 calls undefined lists nothing (DESIGN CHOICE, log 4). -/
def State.resetDevice (s : State) : State :=
  { State.reset with
    dev := { State.reset.dev with
      vsysOk := s.dev.vsysOk, vcoreOk := s.dev.vcoreOk, vioOk := s.dev.vioOk, vconnSupOk := s.dev.vconnSupOk, resetLow := s.dev.resetLow,
      fresh := s.dev.fresh },
    sec := { State.reset.sec with
      fuses := s.sec.fuses, auditBad := s.sec.auditBad, spent := s.sec.spent, tamperLow := s.sec.tamperLow, meshBroken := s.sec.meshBroken,
      vGlitch := s.sec.vGlitch, cGlitch := s.sec.cGlitch, lastLevel := s.sec.lastLevel, zeroised := s.sec.zeroised, killSet := s.sec.killSet, alarms := s.sec.alarms,
      sources := s.sec.sources },
    image := { State.reset.image with store := s.image.store },
    pending := s.pending }

/-- What power-up leaves: a reset that clears ALARM_STATUS too (R417). -/
def State.powerReset (s : State) : State :=
  s.resetDevice.modSec fun x => { x with lastLevel := 0, zeroised := false, killSet := false, alarms := 0, sources := 0 }

/-- The entry to HALTED (R16, R352): a running mailbox command ends with 0x09, no attempt of the warden goes on, each lane with a contract is hard reset and discharged, and the others open their pins at once; STATE becomes HALTED once every lane is safe. -/
def State.haltDevice (s : State) (cause : Nat) : State :=
  if s.dev.state = .halted || s.dev.halting then s
  else
    let s1 := (s.modSup fun p => { p with attempt := 0 }).modImage fun x => { x with activating := false, actCore := 0 }
    let s2 := if s1.mbx.busy then s1.mbxEnd 0x09 else s1
    ((s2.forEach allLanes State.leaveService).modDev fun d => { d with trans := .halting cause, check := none }).settle

-- programming

/-- VPROG in mV lies in its window (R413). -/
def vprogOk (mv : Nat) : Bool := decide (2400 ≤ mv) && decide (mv ≤ 2600)

/-- The value that locks a block (R409). -/
def lockValue : Word := 0x4C4F434B

/-- Word i of MBX_BUF. -/
def bufWord (s : State) (i : Nat) : Word := memRead32 s.mem (mbxBuf + 4 * i)

/-- The block of word i is locked: its lock word is programmed (R409). -/
def blockLocked (x : Security) (i : Nat) : Bool := x.wordState (32 * (i / 32) + 31) ≠ 0

/-- The first RESULT of R413 that refuses a FUSE_PROGRAM; `mv` is the monitor's VPROG. -/
def fuseRefusal (s : State) (mv : Nat) : Option Byte :=
  let first := s.mbx.arg[0].toNat
  let n := s.mbx.arg[1].toNat
  let wrap := bitOf s.mbx.arg[2] 0
  let range := (List.range n).map (first + ·)
  if n = 0 || 256 < n || 512 < first + n || 2 ≤ s.mbx.arg[2].toNat || (wrap && (first ≠ 128 || n ≠ 10)) then some 0x04
  else if !vprogOk mv then some 0x40
  else if range.any fun i => i = 224 || (!wrap && 128 ≤ i && i ≤ 137) then some 0x43
  else if range.any (blockLocked s.sec) then some 0x42
  else if range.any fun i => s.sec.wordState i ≠ 0 || s.sec.spent.contains i then some 0x41
  else if range.any fun i => i % 32 = 31 && bufWord s (i - first) ≠ lockValue then some 0x44
  else none

/-- ALARM_POLICY: field by field the larger of what the host last wrote and the fused level, which is 2 for every source where its word is Uncorrectable (R410, R417). -/
def Security.policyNow (x : Security) : BitVec 12 := policyMax x.raised (fusedPolicy x)

/-- A fuse word as it verifies, with its shadow and state; ALARM_POLICY takes effect at once (R414, R415, R417). -/
def State.burnWord (s : State) (i : Fin 512) (raw : BitVec 39) : State :=
  s.modSec fun x =>
    let y := { x with fuses := x.fuses.set i.val raw i.isLt, wstat := x.wstat.set i.val (fuseState raw) i.isLt,
                      shadow := x.shadow.set i.val (fuseValue raw) i.isLt }
    { y with policy := y.policyNow }

/-- A fuse word of any number takes a raw read. -/
def State.burnAt (s : State) (i : Nat) (raw : BitVec 39) : State := if h : i < 512 then s.burnWord ⟨i, h⟩ raw else s

/-- What FUSE_PROGRAM has done: the words programmed, and the result that ended it. -/
structure Burn where
  done : Nat := 0
  result : Byte := 0
  res0 : Option Nat := none
deriving DecidableEq, Repr

/-- A word verifies as Good at both sense margins (R414). -/
def verifiesGood (v : VerifyRead) : Bool := fuseState v.low = 1 && fuseState v.high = 1

/-- What a word of data reads as where nothing is wrong with it. -/
def cleanRead (d : Word) : VerifyRead := { nominal := encodeFuse d, low := encodeFuse d, high := encodeFuse d }

/-- Words are programmed in ascending order, each behind a check of VPROG and before its verify (R414): `ws` lists the words with their data, `mvs` the monitor's readings and `reads` what the words verify as; where a list has ended, VPROG holds and the word verifies Good. The word stays as it reads at the nominal margin, and one whose verify failed is not programmed again, whatever it reads. -/
def State.burnWords (s : State) (done : Nat) : List (Nat × Word) → List Nat → List VerifyRead → Burn × State
  | [], _, _ => ({ done := done }, s)
  | (i, d) :: ws, mvs, reads =>
    if !(mvs.head?.map vprogOk).getD true then ({ done := done, result := 0x46, res0 := some done }, s)
    else
      let v := reads.headD (cleanRead d)
      let s1 := s.burnAt i v.nominal
      if !verifiesGood v then ({ done := done + 1, result := 0x45, res0 := some i }, s1.modSec fun x => { x with spent := i :: x.spent })
      else s1.burnWords (done + 1) ws mvs.tail reads.tail

/-- The words that FUSE_PROGRAM programs, and their data (R413): with WRAP the unit key wrapped under the root key. -/
def burnList (s : State) : List (Nat × Word) :=
  let first := s.mbx.arg[0].toNat
  let n := s.mbx.arg[1].toNat
  let data := if bitOf s.mbx.arg[2] 0 then splitWords (Config.wrapKey (BitVec.ofNat 256 (joinWords ((List.range 8).map (bufWord s))))).toNat 10 else (List.range n).map (bufWord s)
  (List.range n).map fun k => (first + k, data.getD k 0)

/-- FUSE_PROGRAM (R413, R414). -/
def State.fuseProgram (s : State) (mvs : List Nat) (reads : List VerifyRead) : Byte × State :=
  match fuseRefusal s (mvs.headD 2500) with
  | some r => (r, s)
  | none =>
    let p := s.burnWords 0 (burnList s) mvs.tail reads
    let s1 := if bitOf s.mbx.arg[2] 0 then { p.2 with mem := memClear p.2.mem mbxBuf (mbxBuf + 32) } else p.2
    let s2 := match p.1.res0 with | some v => s1.modMbx fun m => { m with res0 := BitVec.ofNat 32 v } | none => s1
    (p.1.result, if p.1.done = 0 then s2 else (s2.log 0x0802 .device 0 0 0 0).post 0x241)

/-- The FUSE_PROGRAM command, in READY only (R413). -/
def execFuseProgram (a : Agent) (tag : Byte) (vprog : List Nat) (reads : List VerifyRead) (s : State) : Out :=
  .next (s.mbxRun a 0x20 tag (fun t => t.dev.state = .ready) fun t => t.fuseProgram vprog reads)

/-- The read of a word that an interrupted FUSE_PROGRAM leaves (R426): it is neither blank nor Good. -/
def cutRead (d : Word) (r : BitVec 128) : BitVec 39 :=
  if 2 ≤ (fuseState (r.truncate 39)).toNat then r.truncate 39 else encodeFuse d ^^^ BitVec.ofNat 39 (2 ^ (r.toNat / 2 ^ 39 % 39))

/-- A reset meets FUSE_PROGRAM while it waits for its own row (R426): how many words are programmed by then, and what the one in programming reads as, are free values (DESIGN CHOICE, log 114). -/
def State.cutBurn (s : State) : State :=
  if s.mbx.busy && s.mbx.code = 0x20 && s.dev.state = .ready && mbxServed s && (fuseRefusal s 2500).isNone then
    let ws := burnList s
    let (v, s1) := s.free
    let (r, s2) := s1.free
    let k := v.toNat % (ws.length + 1)
    let s3 := s2.forEach (ws.take k) fun st w => st.burnAt w.1 (encodeFuse w.2)
    match ws[k]? with
    | some w => s3.burnAt w.1 (cutRead w.2 r)
    | none => s3
  else s

-- alarms

/-- The alarm sources, numbered as their bits of ALARM_STATUS (R417). -/
inductive AlarmSource where
  | tamper | mesh | vglitch | cglitch | debug | auth
deriving DecidableEq, Repr

/-- An alarm source's bit. -/
def AlarmSource.bit : AlarmSource → Fin 6
  | .tamper => 0 | .mesh => 1 | .vglitch => 2 | .cglitch => 3 | .debug => 4 | .auth => 5

/-- An alarm source's level in ALARM_POLICY (R417). -/
def AlarmSource.level (a : AlarmSource) (p : BitVec 12) : Nat := p.toNat / 4 ^ a.bit.val % 4

/-- An alarm of level 2 or 3 has been detected within the same AON sample (R426). -/
def sameSample (s : State) : Bool := s.sec.alarmAt.any fun t => decide (s.dev.dtime < t + aonSample)

/-- ALARM_POLICY as it stood at the start of the AON sample: the reset of an alarm at level 1 comes after it (R420, R426). -/
def samplePolicy (s : State) : BitVec 12 := match s.sec.alarmCut with | some c => if s.dev.dtime < aonSample then c.1 else s.sec.policy | none => s.sec.policy

/-- The level at which an alarm acts (R420, R422, R426): of two in one AON sample the higher one's, which a lower one does not undo, and in HALTED, which only RESET# or a power cycle leaves, no reset. -/
def alarmActs (s : State) (a : AlarmSource) : Nat :=
  let lv := a.level (samplePolicy s)
  if lv = 1 && (s.dev.state = .halted || sameSample s) then 0 else lv

/-- The detection: bit, count, record 0x0801, source 0x240 and HOST_IRQ.ALARM (R420). LAST_LEVEL keeps the higher level of one AON sample (R426). -/
def State.alarmNoted (s : State) (a : AlarmSource) : State :=
  let lv := a.level (samplePolicy s)
  let s1 := s.modSec fun x =>
    { x with sources := x.sources ||| BitVec.ofNat 6 (2 ^ a.bit.val), alarms := satInc x.alarms,
             lastLevel := if sameSample s && decide (lv < x.lastLevel.toNat) then x.lastLevel else BitVec.ofNat 2 lv,
             alarmAt := if 2 ≤ lv then some s.dev.dtime else x.alarmAt }
  ((s1.log 0x0801 .device 0 (alarmStatus s1.sec) (BitVec.ofNat 32 lv) 0).post 0x240).irq 8

/-- An alarm meets the reset of one at level 1 in its AON sample (R426): where its own level is higher it is that which acts, so the policy and the record of the first, which the reset took, stand. -/
def State.recallCut (s : State) (a : AlarmSource) : State :=
  match s.sec.alarmCut with
  | some c =>
    if 2 ≤ a.level (samplePolicy s) && decide (s.dev.dtime < aonSample) then
      (s.modSec fun x => { x with policy := c.1 }).log 0x0801 .device 0 c.2 1 0
    else s
  | none => s

/-- The volatile key store is zeroised (R420). -/
def State.zeroise (s : State) : State := (s.modSec fun x => { x with key := none, zeroised := true }).log 0x0805 .device 0 0 0 0

/-- KILL is programmed with 0xFFFF_FFFF, where it is not blown already (R420, R421, R426). -/
def State.blowKill (s : State) : State :=
  if s.sec.killed then s
  else
    (s.modSec fun x =>
      { x with fuses := x.fuses.set 224 (encodeFuse 0xFFFFFFFF), wstat := x.wstat.set 224 1, shadow := x.shadow.set 224 0xFFFFFFFF,
               killed := true, killSet := true }).log 0x0804 .device 0 0 0 0

/-- An alarm is detected and acted on at its level (R419, R420), while VSYS is valid and RESET# is high. -/
def State.alarm (s : State) (a : AlarmSource) : State :=
  if !s.dev.vsysOk || s.dev.resetLow then s
  else
    let s1 := (s.recallCut a).alarmNoted a
    match alarmActs s a with
    | 0 => s1
    | 1 => s1.cutBurn.resetDevice.readFuses.modSec fun x => { x with alarmCut := some (samplePolicy s, alarmStatus s1.sec) }
    | 2 => s1.zeroise.haltDevice 2
    | _ => s1.zeroise.blowKill.haltDevice 2

/-- TAMPER# is low (R419). -/
def execTamper (s : State) : Out := .next ((s.modSec fun x => { x with tamperLow := true }).alarm .tamper)

/-- A break or short of the package mesh (R419). -/
def execMesh (s : State) : Out := .next ((s.modSec fun x => { x with meshBroken := true }).alarm .mesh)

/-- The conditions of alarms that were detected and may still hold (R422), with their sources. -/
def Security.standing (x : Security) : List AlarmSource :=
  (if x.tamperLow then [.tamper] else []) ++ (if x.meshBroken then [.mesh] else []) ++ (if x.vGlitch then [.vglitch] else []) ++ (if x.cGlitch then [.cglitch] else [])

/-- BOOT detects again each source whose condition still holds (R419, R422): a TAMPER# that is low, a broken mesh, a supply or a clock outside its limits. Whether a condition once detected still holds is a free value, since no command tells its end (DESIGN CHOICE, log 107). -/
def State.redetect (s0 : State) : State :=
  if s0.dev.state ≠ .boot then s0
  else
    let s := s0.modSec fun x => { x with alarmCut := none }
    if s.sec.standing.isEmpty then s
    else
      let (v, s1) := s.free
      let s2 := s1.modSec fun x =>
        { x with tamperLow := x.tamperLow && v.getLsbD 0, meshBroken := x.meshBroken && v.getLsbD 1, vGlitch := x.vGlitch && v.getLsbD 2, cGlitch := x.cGlitch && v.getLsbD 3 }
      s2.forEach s2.sec.standing fun st a => if st.dev.state = .boot && !st.dev.halting then st.alarm a else st

/-- A voltage glitch (R419). -/
def execVglitch (s : State) : Out := .next ((s.modSec fun x => { x with vGlitch := true }).alarm .vglitch)

/-- A clock glitch (R419). -/
def execCglitch (s : State) : Out := .next ((s.modSec fun x => { x with cGlitch := true }).alarm .cglitch)

-- margin audit

/-- Bits in which two raw reads differ. -/
def bitsApart (a b : BitVec 39) : Nat := ((List.range 39).filter fun i => (a ^^^ b).getLsbD i).length

/-- What a word must read as by its state and its shadow; nothing is known of an Uncorrectable one (R408, R412). -/
def expectedRaw (old : BitVec 2) (value : Word) : Option (BitVec 39) := if old = 3 then none else if old = 0 then some 0 else some (encodeFuse value)

/-- Bits in which a read lies apart from what the shadow says; 0 where it says nothing. -/
def shadowApart (want : Option (BitVec 39)) (r : BitVec 39) : Nat := match want with | some w => bitsApart r w | none => 0

/-- A word's state after its two margin reads, which are compared with each other and with the shadow (R416). -/
def auditState (old : BitVec 2) (value : Word) (low high : BitVec 39) : BitVec 2 :=
  let want := expectedRaw old value
  let apart := Max.max (bitsApart low high) (Max.max (shadowApart want low) (shadowApart want high))
  if fuseState low = 3 || fuseState high = 3 || 2 ≤ apart then 3
  else if apart = 0 && fuseState low ≠ 2 then old
  else 2

/-- The words of TRIM, HW_TYPE and LANE_DIS (R409, R416). -/
def lateField (i : Nat) : Bool := decide (i < 31) || i = 32 || i = 35

/-- AUDIT of one word: a change of state writes record 0x0803 (R416). -/
def State.auditWord (reads : List MarginRead) (s : State) (i : Fin 512) : State :=
  let x := s.sec
  let old := x.wstat.get i
  let (low, high) := match reads.find? fun m => m.word = i with | some m => (m.low, m.high) | none => (x.fuses.get i, x.fuses.get i)
  let new := auditState old (x.shadow.get i) low high
  if new = old then s
  else
    let value := if new = 3 then 0 else if old = 3 then fuseValue low else x.shadow.get i
    let s1 := s.modSec fun x =>
      { x with wstat := x.wstat.set i.val new i.isLt, shadow := x.shadow.set i.val value i.isLt,
               auditBad := if new = 3 && lateField i.val then i.val :: x.auditBad else x.auditBad }
    s1.log 0x0803 .device 0 (BitVec.ofNat 32 i.val) (BitVec.ofNat 32 new.toNat) 0

/-- Fields that fail closed at once (R410, R416): UNIT_ID, UNIT_KEY, KILL and ALARM_POLICY keep copies in effect; the other fields are read where they are used, but for those that wait for the next BOOT. -/
def Security.failClosed (x : Security) : Security :=
  { x with unitId := if fieldState x 33 2 = FieldState.failed then none else x.unitId,
           key := if fieldState x 128 10 = FieldState.failed then none else x.key,
           killed := x.killed || decide (x.wordState 224 = 3),
           policy := x.policyNow }

/-- AUDIT (R416): the counts of weak and Uncorrectable words are its results. -/
def State.auditAll (s : State) (reads : List MarginRead) : Byte × State :=
  let s1 := (s.forEach (List.finRange 512) (State.auditWord reads)).modSec fun x => { x.failClosed with audited := true }
  let count (k : BitVec 2) : Word := BitVec.ofNat 32 (s1.sec.wstat.toList.filter (· = k)).length
  (0, (s1.modMbx fun m => { m with res0 := count 2, res1 := count 3 }).post 0x241)

/-- The AUDIT command, in READY or RUN (R416). -/
def execAudit (a : Agent) (tag : Byte) (reads : List MarginRead) (s : State) : Out :=
  .next (s.mbxRun a 0x21 tag (fun t => t.dev.state = .ready || t.dev.state = .run) fun t => t.auditAll reads)

-- registers

/-- MEAS = 1 with the voltage that the monitor finds (R417). -/
def State.measVprog (s : State) (mv : BitVec 12) : State := s.modSec fun x => { x with vprog := mv }

/-- The bytes of words, little-endian, in order. -/
def wordBytes (ws : List Word) : List Byte :=
  ws.flatMap fun (w : Word) => [w.truncate 8, (w >>> 8).truncate 8, (w >>> 16).truncate 8, (w >>> 24).truncate 8]

/-- The passphrase matches DBG_HASH, with DBG_MODE 1 and no failure within the last 100 ms (R418). -/
def dbgPasses (s : State) : Bool :=
  let x := s.sec
  dbgMode x = 1 && (match x.dbgLast with | some t => decide (t + 100000000 ≤ s.dev.dtime) | none => true)
    && fieldState x 208 8 = FieldState.present && digestWords (Config.sha256 (wordBytes x.dbgPass.toList)) = fieldWords x 208 8

/-- A write of DBG_PASS7 ends an unlock attempt (R418); with DBG_MODE 0 there is none to make. -/
def State.dbgAttempt (s : State) (v : Word) : State :=
  let s1 := s.modSec fun x => { x with dbgPass := x.dbgPass.set 7 v }
  if dbgMode s.sec = 0 then s1
  else if dbgPasses s1 then
    (s1.modSec fun x => { x with unlocked := true, dbgPass := Vector.replicate 8 0 }).log 0x0807 .device 0 0 0 0
  else
    (s1.modSec fun x =>
      { x with dbgFails := satInc x.dbgFails, dbgLast := some s.dev.dtime, dbgPass := Vector.replicate 8 0 }).alarm .debug

/-- RELOCK = 1 (R417, R418). -/
def State.relockDebug (s : State) : State := s.modSec fun x => { x with unlocked := false }

/-- A write of ALARM_POLICY stores, field by field, the larger of the written and the fused level (R417). -/
def State.storePolicy (s : State) (v : Word) : State :=
  s.modSec fun x =>
    let y := { x with raised := v.truncate 12 }
    { y with policy := y.policyNow }

/-- A write of SEC_CTRL: AUTH_MODE, where 3 stores 0, while it is not locked (R417). -/
def State.storeSecCtrl (s : State) (v : Word) : State :=
  if s.locked then s else s.modSec fun x => { x with authMode := if fld v 1 0 = 3 then 0 else BitVec.ofNat 2 (fld v 1 0) }

end Sys2Proof.Machine
end

