-- ==== Sys2Proof/Machine/Image.lean ====
section
/-! DEFINITION. The image engine (file 17): decode tables and their validation (R326–R330), the image format and its header tests (R396, R397, R399), IMAGE_WRITE (R398, R400), the start and loading of cores (R304, R327), and the end of BOOT (R386, R401, R405). -/

namespace Sys2Proof.Machine

-- decode tables

/-- Where entry k of core t's decode table lies (R326). -/
def decEntry (t : CoreId) (k : Nat) : Nat := 0xD000 + t.val * 0x800 + k * 0x80

/-- Micro-op j of entry k of core t. -/
def microOp (s : State) (t : CoreId) (k j : Nat) : Word := memRead32 s.mem (decEntry t k + 4 * j)

/-- Fields of a micro-op (R328). -/
def opEnd (w : Word) : Bool := bitOf w 31
def opCode (w : Word) : Nat := fld w 30 26
def opDst (w : Word) : Nat := fld w 25 21
def opA (w : Word) : Nat := fld w 20 16
def opB (w : Word) : Nat := fld w 15 11
def opK (w : Word) : Nat := fld w 10 0

/-- Rows of R329 marked DST = ZERO. -/
def noDst (op : Nat) : Bool := [0x0D, 0x11, 0x12, 0x14, 0x15, 0x17].contains op

/-- A selector that R328 does not list. -/
def selReserved (n : Nat) : Bool := decide (0x10 ≤ n) && n ≠ 0x1F

/-- A destination selector that its row does not allow, or an A that MOV does not allow (R330, ERR 4). -/
def dstWrong (w : Word) : Bool :=
  (if noDst (opCode w) then opDst w ≠ 0x1F else opDst w = 0x0B || opDst w = 0x1F) || (opCode w = 0 && opA w ≠ 0x1F)

/-- A SKIP at word j that reaches beyond the first END at e (R330, ERR 5). -/
def skipWrong (w : Word) (j e : Nat) : Bool :=
  opCode w = 0x17 && (if j = e then opK w / 16 % 32 ≠ 0 else decide (e < j + 1 + opK w / 16 % 32))

/-- Condition code 15 in SEL or SKIP (R330, ERR 6). -/
def condWrong (w : Word) : Bool := (opCode w = 0x0E || opCode w = 0x17) && opK w % 16 = 15

/-- The cause that word j of an entry gives, the first of the table where it gives several, 0 where none (R330); e is the first END. -/
def wordError (e : Nat) (w : Word) (j : Nat) : BitVec 4 :=
  if 0x18 ≤ opCode w then 2
  else if selReserved (opDst w) || selReserved (opA w) || selReserved (opB w) then 3
  else if dstWrong w then 4
  else if skipWrong w j e then 5
  else if condWrong w then 6
  else 0

/-- The cause with which validation refuses an entry, 0 where it passes (R330): the words up to the first END are checked from word 0 upward, and the first that gives a cause decides. -/
def entryError (ws : List Word) : BitVec 4 :=
  match ws.findIdx? opEnd with
  | none => 1
  | some e => (((ws.take (e + 1)).zipIdx.map fun p => wordError e p.1 p.2).find? (· ≠ 0)).getD 0

/-- The words of entry k of core t. -/
def entryWords (s : State) (t : CoreId) (k : Nat) : List Word := (List.range 32).map (microOp s t k)

/-- VALID[k] goes from 0 to 1 where validation passes; otherwise ERR and ERR_OP name the refusal (R327). -/
def State.validateEntry (s : State) (t : CoreId) (k : Fin 16) : State :=
  let e := entryError (entryWords s t k.val)
  s.modCore t fun c =>
    if e = 0 then { c with valid := c.valid ||| BitVec.ofNat 16 (2 ^ k.val) } else { c with err := e, errOp := BitVec.ofNat 4 k.val }

/-- A write of DEC_CTRL by S0, S1 or the host (R327). -/
def State.storeDec (s : State) (a : Agent) (t : CoreId) (v : Word) : State :=
  let may := match a with | .host => true | .core c => decide (4 ≤ c.val)
  if !may then s
  else
    let old := (s.core t).valid
    let s1 := s.modCore t fun c => { c with valid := c.valid &&& v.truncate 16 }
    s1.forEach (List.finRange 16) fun st k => if bitOf v k.val && !old.getLsbD k.val then st.validateEntry t k else st

-- the image format

/-- Bytes of an image, by offset. -/
abbrev Bytes := Nat → Byte

/-- The bytes of the code store, whose unwritten bytes read 0xFF (log 6). -/
def storeBytes (s : State) : Bytes := fun a => ~~~memRead s.image.store a

/-- A little-endian number of n bytes at an offset (R396). -/
def leAt (h : Bytes) (o : Nat) : Nat → Nat
  | 0 => 0
  | n + 1 => (h o).toNat + 256 * leAt h (o + 1) n

/-- n bytes from an offset. -/
def bytesAt (h : Bytes) (o n : Nat) : List Byte := (List.range n).map fun i => h (o + i)

/-- Whether n bytes from an offset are all 0. -/
def zeroAt (h : Bytes) (o n : Nat) : Bool := (List.range n).all fun i => h (o + i) = 0

/-- Header fields (R396). -/
def imgEnc (h : Bytes) : Bool := (h 5).getLsbD 0
def imgBound (h : Bytes) : Bool := (h 5).getLsbD 1
def imgLength (h : Bytes) : Nat := leAt h 28 4
def imgVersion (h : Bytes) : Word := BitVec.ofNat 32 (leAt h 20 4)
def imgAbi (h : Bytes) : Word := BitVec.ofNat 32 ((h 24).toNat + 256 * (h 25).toNat + 65536 * (h 26).toNat)
def imgCommit (h : Bytes) : Nat := leAt h 508 4

/-- A section entry (R396). -/
structure Section where
  kind : Nat := 0
  cores : Nat := 0
  offset : Nat := 0
  dest : Nat := 0
  size : Nat := 0
  clean : Bool := true
deriving DecidableEq, Repr

/-- Section entry i. -/
def sectionAt (h : Bytes) (i : Nat) : Section :=
  let o := 128 + 16 * i
  { kind := (h o).toNat, cores := (h (o + 1)).toNat, offset := leAt h (o + 4) 4, dest := leAt h (o + 8) 4, size := leAt h (o + 12) 4,
    clean := zeroAt h (o + 2) 2 }

/-- The sections in use. -/
def imgSections (h : Bytes) : List Section := ((List.range 16).map (sectionAt h)).filter (·.kind ≠ 0)

/-- Two ranges of addresses overlap. -/
def rangesMeet (a n b m : Nat) : Bool := decide (a < b + m) && decide (b < a + n)

/-- A section that lies outside its memory, or for KIND 5 on MBX_BUF or the event log region (R399). -/
def destWrong (x : Section) : Bool :=
  match x.kind with
  | 1 => decide (0x20000 < x.dest + x.size)
  | 2 => decide (x.dest < 0x100000) || decide (0x110000 < x.dest + x.size)
  | 3 => decide (x.dest < 0x180000) || decide (0x190000 < x.dest + x.size)
  | 4 => decide (16 ≤ x.dest) || x.size ≠ 128
  | _ => decide (x.dest < 0x400000) || decide (0x600000 < x.dest + x.size) || rangesMeet x.dest x.size 0x400000 0x4000
      || rangesMeet x.dest x.size 0x5C0000 0x40000

/-- A section in use that R399 refuses by itself. -/
def sectionWrong (len : Nat) (x : Section) : Bool :=
  decide (5 < x.kind) || (x.kind = 5 && x.cores ≠ 0) || x.offset % 16 ≠ 0 || x.size % 4 ≠ 0
    || decide (len < x.offset + x.size) || destWrong x

/-- Two sections of the same memory overlap (R399). -/
def sectionsMeet (x y : Section) : Bool :=
  x.kind = y.kind && (x.kind = 5 || x.cores &&& y.cores ≠ 0) &&
    (if x.kind = 4 then x.dest = y.dest else rangesMeet x.dest x.size y.dest y.size)

/-- Whether some section of a list overlaps a later one. -/
def anyMeet : List Section → Bool
  | [] => false
  | x :: r => r.any (sectionsMeet x) || anyMeet r

/-- The first word of an image-key hash slot (R409). -/
def slotWord (k : Nat) : Nat := [160, 168, 176, 192, 288, 296, 320, 328].getD k 0

/-- Cause 0x63 of R399: a KEY_SLOT that names no present slot, or a PUBKEY of another hash. -/
def keyRefused (x : Security) (h : Bytes) : Bool :=
  let k := (h 6).toNat
  decide (8 ≤ k) || fieldState x (slotWord k) 8 ≠ FieldState.present || digestWords (Config.sha256 (bytesAt h 64 64)) ≠ fieldWords x (slotWord k) 8

/-- A reserved field of a section entry is not 0, be the entry in use or not (R396, R399). -/
def entryReserved (h : Bytes) (i : Nat) : Bool := !(sectionAt h i).clean || decide (64 ≤ (sectionAt h i).cores)

/-- Cause 0x64 of R399, but for COMMIT. -/
def formRefused (h : Bytes) : Bool :=
  let len := imgLength h
  let ss := imgSections h
  decide (4 ≤ (h 5).toNat) || !zeroAt h 7 1 || (!imgBound h && !zeroAt h 12 8) || !zeroAt h 27 1 || !zeroAt h 32 4
    || (!imgEnc h && !zeroAt h 36 28) || !zeroAt h 448 60 || len % 16 ≠ 0 || decide (len < 16) || decide (8388096 < len)
    || (List.range 16).any (entryReserved h) || ss.any (sectionWrong len) || anyMeet ss

/-- MAGIC and HDR_VER are right (R396). -/
def magicOk (h : Bytes) : Bool := bytesAt h 0 5 = [0x55, 0x42, 0x58, 0x4D, 0x01]

/-- The first refusal of R399, with the COMMIT test where `fresh` asks for it. -/
def headerRefusal (s : State) (h : Bytes) (fresh : Bool) : Option Byte :=
  let x := s.sec
  if !magicOk h then some 0x60
  else if x.hwType ≠ some (BitVec.ofNat 32 (leAt h 8 4)) then some 0x61
  else if imgBound h && x.unitId ≠ some (BitVec.ofNat 64 (leAt h 12 8)) then some 0x62
  else if keyRefused x h then some 0x63
  else if formRefused h || (fresh && imgCommit h ≠ 0xFFFFFFFF) then some 0x64
  else if imgEnc h && (x.key.isNone || x.killed) then some 0x65
  else none

/-- The plaintext body of a stored image; absent where the unit key is not held or the GCM tag fails (R397). -/
def plainBody (s : State) (h : Bytes) : Option (List Byte) :=
  let body := bytesAt h 512 (imgLength h)
  if !imgEnc h then some body
  else match s.sec.key with
    | some k => Config.gcmOpen k (bytesAt h 36 12) (bytesAt h 0 36) body (bytesAt h 48 16)
    | none => none

/-- The signature verifies over header bytes 0–383 and the plaintext (R397). -/
def signatureOk (h : Bytes) (body : List Byte) : Bool :=
  Config.ecdsaVerify (bytesAt h 64 64) (Config.sha256 (bytesAt h 0 384 ++ body)) (bytesAt h 384 64)

/-- The RESULT of the tests at the last chunk (R400), 0 where they pass; `readsBack` says whether the store reads back as it was written. -/
def bodyVerdict (s : State) (h : Bytes) (readsBack : Bool) : Byte :=
  match plainBody s h with
  | none => 0x68
  | some body => if !signatureOk h body then 0x67 else if readsBack then 0 else 0x69

-- writing

/-- Stores bytes in the code store. -/
def State.storeImage (s : State) (o : Nat) (data : List Byte) : State :=
  s.modImage fun x => { x with store := memWriteList x.store o (data.map (~~~·)) }

/-- An image-authentication failure (R400, R405, R419): from the third within 10 min each raises the AUTH alarm. -/
def State.authFailure (s : State) : State :=
  let s1 := s.modImage fun x => { x with authFails := s.dev.dtime :: x.authFails }
  if 3 ≤ authFailCount s1 then s1.alarm .auth else s1

/-- The same with record 0x0A02, for a failure at writing (R400). -/
def State.writeFailure (s : State) : State := (s.log 0x0A02 .device 0 0 0 0).authFailure

/-- The end of the last chunk (R400, R401): the verdict, or the commit, which in LOADER returns the device to BOOT. -/
def State.finishWrite (s : State) (readsBack : Bool) : Byte × State :=
  let h := storeBytes s
  let r := bodyVerdict s h readsBack
  let s1 := s.modImage fun x => { x with writing := false }
  if r = 0x69 then (r, s1)
  else if r ≠ 0 then (r, s1.writeFailure)
  else
    let s2 := (s1.storeImage 508 [0, 0, 0, 0]).modImage fun x =>
      { x with storeOk := true, actPend := true, storeVer := imgVersion h, storeAbi := imgAbi h }
    let s3 := s2.log 0x0A01 .device 0 0 0 0
    (0, if s.dev.state = .loader then s3.modDev fun d => { d with state := .boot } else s3)

/-- The chunk at MBX_BUF, as bytes of an image from offset 0. -/
def chunkBytes (s : State) : Bytes := fun a => memRead s.mem (mbxBuf + a)

/-- A chunk that IMAGE_WRITE accepts (R398). -/
def chunkAccepted (s : State) : Bool :=
  let o := s.mbx.arg[0].toNat
  let n := s.mbx.arg[1].toNat
  let len := if o = 0 then imgLength (chunkBytes s) else imgLength (storeBytes s)
  ((o = 0 && decide (512 ≤ n)) || (o ≠ 0 && s.image.writing && o = s.image.accepted && n % 16 = 0))
    && decide (n ≤ 16384) && decide (o + n ≤ 512 + len)

/-- MBX_RES0 takes the bytes accepted so far (R398). -/
def State.reportAccepted (s : State) : State := s.modMbx fun m => { m with res0 := BitVec.ofNat 32 s.image.accepted }

/-- Bytes join the open write; the last of them end it (R398, R400). -/
def State.takeImage (s : State) (readsBack : Bool) : Byte × State :=
  let o := s.mbx.arg[0].toNat
  let n := s.mbx.arg[1].toNat
  let s1 := (s.storeImage o (bytesAt (chunkBytes s) 0 n)).modImage fun x => { x with accepted := o + n }
  if o + n = 512 + imgLength (storeBytes s1) then s1.reportAccepted.finishWrite readsBack else (0, s1.reportAccepted)

/-- IMAGE_WRITE (R398, R399). A chunk at offset 0 abandons an open write before its header is tested. -/
def State.imageWrite (readsBack : Bool) (s : State) : Byte × State :=
  if !chunkAccepted s then (0x66, s.reportAccepted)
  else if s.mbx.arg[0] = 0 then
    let s1 := s.modImage fun x => { x with writing := false, accepted := 0 }
    match headerRefusal s1 (chunkBytes s1) true with
    | some r => (r, if r = 0x63 then s1.reportAccepted.writeFailure else s1.reportAccepted)
    | none => (s1.modImage fun x => { x with writing := true, storeOk := false }).takeImage readsBack
  else s.takeImage readsBack

/-- ACTIVATE holds the mailbox (R403). -/
def activateBusy (s : State) : Bool := s.image.activating && s.mbx.busy && s.mbx.code = 0x11

/-- The IMAGE_WRITE command (R389, R398), in LOADER, READY and RUN. During ACTIVATE it is refused with 0x6D (R407), while BUSY and TAG stay those of ACTIVATE (DEDUCED, log 111). -/
def execImageWrite (a : Agent) (tag : ChunkTag) (s : State) : Out :=
  if activateBusy s && hostServed s a then .next ((s.modMbx fun m => { m with done := true, result := 0x6D }).irq 2)
  else .next (s.mbxRun a 0x10 tag.tag (fun t => t.dev.state = .loader || t.dev.state = .ready || t.dev.state = .run) (State.imageWrite tag.readsBack))

-- start and loading of cores

/-- The group of a policy core is active: its core and its loop engine are clocked (R17). -/
def State.clockGroup (s : State) (t : CoreId) : State :=
  if h : t.val < 4 then s.modGroup ⟨t.val, h⟩ fun g => { g with coreRun := true, leRun := true } else s

/-- A start of core t (R286, R304, R327, R341): its registers, bits and VALID are cleared, its control registers take their reset values, and it is released with a cause and not judged until it beats. -/
def State.startCore (s : State) (t : CoreId) (rcause : Nat) : State :=
  let shown := (chosen s t).map fun x => (s.src x).fast
  (s.modCore t fun c =>
    { ({} : CoreState) with
      pc := if t.val = 4 && s.dev.state = .boot then 0x300000 else 0, rcause := BitVec.ofNat 32 rcause, run := .running,
      ipc := c.ipc, ist := c.ist, fpc := c.fpc, fst := c.fst, tpc := c.tpc, tst := c.tst, tcause := c.tcause, taddr := c.taddr,
      loadTime := s.dev.dtime, down := c.down, out := c.out, missEvt := c.missEvt, restarts := c.restarts,
      ecc := if c.eccLast then [] else c.ecc, failUntil := c.failUntil, failed := c.failed, err := c.err, errOp := c.errOp,
      imgVer := c.imgVer, baseImg := c.baseImg, eccBad := c.eccBad }).clockGroup t |>.restartIc t shown

/-- The host address of core t's memories (R289). -/
def coreBase (t : CoreId) : Nat := 0x800000 + t.val * 0x40000

/-- A section's bytes within the body. -/
def Section.bytes (x : Section) (body : List Byte) : List Byte := (body.drop x.offset).take x.size

/-- A section is loaded into core t (R396): its memory, or a decode-table entry, which is validated (R327). -/
def State.loadSection (body : List Byte) (t : CoreId) (s : State) (x : Section) : State :=
  if !(x.cores.testBit t.val) then s
  else match x.kind with
  | 4 =>
    let a := decEntry t x.dest
    let s1 := ({ s with mem := memWriteList s.mem a (x.bytes body) }).modCore t fun c =>
      { c with eccBad := c.eccBad.filter fun w => w < a || a + 0x80 ≤ w, declared := c.declared ||| BitVec.ofNat 16 (2 ^ x.dest) }
    if h : x.dest < 16 then s1.validateEntry t ⟨x.dest, h⟩ else s1
  | 5 => s
  | _ =>
    match privAddr t x.dest with
    | some a => { s with mem := memWriteList s.mem a (x.bytes body) }
    | none => s

/-- Core t's memories and decode table are loaded from the stored image (R14, R327, R347, R403). -/
def State.loadCore (s : State) (body : List Byte) (t : CoreId) : State :=
  let h := storeBytes s
  let s1 := ({ s with mem := memClear s.mem (coreBase t) (coreBase t + 0x40000) }).modCore t fun c =>
    { c with eccBad := c.eccBad.filter fun w => w < 0x800000, imgVer := imgVersion h, baseImg := Config.reproducesBase (imgVersion h) }
  s1.forEach (imgSections h) (State.loadSection body t)

/-- Core t starts on the stored image (R304, R327). -/
def State.reloadCore (s : State) (body : List Byte) (t : CoreId) (rcause : Nat) : State := (s.startCore t rcause).loadCore body t

/-- The shared-RAM sections of the stored image (R396). -/
def State.loadShared (s : State) (body : List Byte) : State :=
  s.forEach (imgSections (storeBytes s)) fun st x =>
    if x.kind = 5 then { st with mem := memWriteList st.mem (x.dest - 0x300000) (x.bytes body) } else st

-- the end of BOOT

/-- What the boot loader finds in the store (R401): the BOOT_CODE with MBX_RES1's code, or the plaintext body. -/
def storeVerdict (s : State) : (Byte × Byte) ⊕ List Byte :=
  let h := storeBytes s
  if bytesAt h 0 4 = [0xFF, 0xFF, 0xFF, 0xFF] then .inl (1, 0)
  else match headerRefusal s h false with
    | some r => if r = 0x65 && s.sec.killed then .inl (6, 0) else .inl (2, r)
    | none =>
      if imgCommit h ≠ 0 then .inl (3, 0)
      else match plainBody s h with
        | none => .inl (5, 0)
        | some body => if signatureOk h body then .inr body else .inl (4, 0)

/-- The base image's routes and vector tables at its start on S0 (R4, R348, R386 step 7): source 0x210 goes to S1, and the entries, whose addresses belong to the image, are words of I-RAM (Config.baseVector). -/
def State.baseRoutes (s : State) : State :=
  if !Machine.imageRuns (s.core 4) then s else
  let s1 := s.modSrc 0x210 fun c => { c with target := 5 }
  s1.forEach (List.finRange 6) fun st t =>
    st.forEach (List.range 1024) fun u x => { u with mem := memWrite32 u.mem (vecBase t + 4 * x) (Config.baseVector t.val x &&& 0x1FFFC) }

/-- The stored image's values enter the STORE and RUN registers (R405). -/
def State.imageRuns (s : State) : State :=
  let h := storeBytes s
  s.modImage fun x =>
    { x with storeOk := true, actPend := false, storeVer := imgVersion h, runVer := imgVersion h, storeAbi := imgAbi h, runAbi := imgAbi h }

/-- The image has been checked (R386 steps 5–7, R401): every core starts on it and STATE becomes READY, or the device enters LOADER. An alarm condition that still holds is detected first (R422). -/
def execImageCheckComplete (s0 : State) : Out :=
  let s := s0.redetect
  if s.dev.state = .boot && s.dev.pll then
    match storeVerdict s with
    | .inl (code, r) =>
      let s1 := ((s.modDev fun d => { d with state := .loader, bootCode := code }).modMbx fun m => if code = 2 then { m with res1 := r.zeroExtend 32 } else m).irq 0
      .next (if code = 4 || code = 5 then s1.authFailure else s1)
    | .inr body =>
      let s1 := (s.modDev fun d => { d with state := .ready, bootCode := 0 }).loadShared body
      .next (((s1.forEach (List.finRange 6) fun st t => st.reloadCore body t 0).imageRuns.versionMoved.baseRoutes).irq 0)
  else .next s

end Sys2Proof.Machine
end

