-- ==== Sys2Proof/Machine/Tether.lean ====
section
/-! DEFINITION. The tether (file 15): links and positions (R361, R362), time (R368, R369), the hitch and its succession (R363, R371, R372), versions (R373), and what a frame of this device carries (R365–R367). -/

namespace Sys2Proof.Machine

/-- SOLO: both ports ignored (R374). -/
def State.solo (s : State) : Bool := bitOf s.tether.ctrl 0

/-- TIME_LOCK changes: record 0x0904 (R369). -/
def State.setTimeLock (s : State) (v : Bool) : State :=
  if s.tether.timeLock = v then s else (s.modTether fun t => { t with timeLock := v, everLock := t.everLock || v }).log 0x0904 .device 0 0 0 0

/-- A part of a tunnel transaction to a position under a tag. -/
def tunnelPart (p : Fin 8) (tag : Byte) (r : TetherRecord) : Bool := match r with | .tunnel q t _ _ => q = p && t = tag | _ => false

/-- A tunnel transaction in flight ends with the timeout status, and it is not repeated: parts that still wait are not sent (R370, R376). -/
def State.tunnelLost (s : State) : State :=
  match s.tether.tunnelOut with
  | none => s
  | some o =>
    let s1 := s.modTether fun t =>
      { t with tunnelOut := none, tunnelRx := t.tunnelRx.filter fun e => e.1 ≠ 8, queue := t.queue.filter fun r => !tunnelPart o.1 o.2 r }
    if s1.mbx.busy && s1.mbx.code = 0x04 then s1.mbxEnd 0x07 else s1

/-- The hitch has changed (R371): a new version test, source 0x23A, record 0x0902 with what stands after it, HOST_IRQ.STACK and lost tunnels. -/
def State.hitchChanged (s0 : State) : State :=
  let s := s0.testVersion
  (((s.post 0x23A).log 0x0902 .device 0 (tetherStatus s) (BitVec.ofNat 32 s.tether.bSeg) 0).irq 10).tunnelLost

/-- This device becomes hitch: it is the reference for time (R369, R371). Its first results come after `frames` budget frames, as successor one frame after its first frame. -/
def State.becomeHitch (s : State) (frames : Nat) : State :=
  let s1 := s.modTether fun t =>
    { t with hitch := true, heard := false, apart := false, hitchPos := t.pos.getD 0, hitchVer := BitVec.ofNat 8 (ownVersion s),
             settling := frames, upTu := true, upTd := true }
  (s1.setTimeLock true).hitchChanged

/-- A device that comes into RUN is hitch where it has position 0 and follows no other (R363, R371); with no link away from it N is 1. -/
def State.takeRole (s : State) : State :=
  if s.tether.hitch || s.tether.heard || s.tether.pos ≠ some 0 then s
  else s.keepCarriers ((s.modTether fun t => { t with n := if t.n = 0 && (s.solo || !t.tdUp) then 1 else t.n }).becomeHitch 1)

-- links

/-- A link changes: source 0x239, record 0x0901, HOST_IRQ.STACK (R361, R385). -/
def State.linkChanged (s : State) : State := ((s.post 0x239).log 0x0901 .device 0 0 0 0).irq 10

/-- A position taken from the upstream neighbour's (R362). -/
def Tether.takePos (t : Tether) (p : Port) (nb : Neighbour) : Tether :=
  if p = .tu && t.pos.isNone && !t.posErr then
    match nb.pos with
    | some k => if h : k + 1 < 8 then { t with pos := some ⟨k + 1, h⟩ } else { t with posErr := true }
    | none => t
  else t

/-- The port on whose side the reference for this device's time lies (R368, R371): where it faces the hitch, or for a hitch TU, behind which another running segment may have a hitch of lower position to which it yields. -/
def timeSide (s : State) (p : Port) (nb : Neighbour) : Bool := if s.tether.hitch then p = .tu && nb.running else p = s.tether.facing

/-- A neighbour's DTIME that this device cannot reach by a step (R369): after the first RUN, more than 1 µs away on the side of the reference; before it, smaller than its own in a neighbour that is in RUN. -/
def timeApart (s : State) (p : Port) (nb : Neighbour) : Bool :=
  if s.dev.everRun then s.live && timeSide s p nb && (nb.dtime + 1000 < s.dev.dtime || s.dev.dtime + 1000 < nb.dtime)
  else nb.running && decide (nb.dtime < s.dev.dtime)

/-- DTIME at a link-up (R12, R369): before the first RUN a larger DTIME of a neighbour with ACQ is taken, and ACQ with it; DTIME is never stepped back, nor stepped after the first RUN, and a neighbour that lies apart leaves TIME_LOCK at 0, for a hitch from its yielding on. Of a device in service only the neighbour of its last link-up on the side of the reference counts: one within 1 µs lets it lock again. -/
def State.acquire (s : State) (p : Port) (nb : Neighbour) : State :=
  if timeApart s p nb then
    let s1 := (s.modTether fun t => { t with timeLock := t.timeLock && t.hitch, apart := true, acq := t.acq || (!s.dev.everRun && nb.acq) })
    if s.dev.everRun || s.tether.timeLock then s1.log 0x0904 .device 0 0 0 0 else s1
  else if s.dev.everRun then (if timeSide s p nb then s.modTether fun t => { t with apart := false } else s)
  else if nb.acq then
    (s.modDev fun d => { d with dtime := Max.max d.dtime nb.dtime }).modTether fun t => { t with acq := true }
  else s

/-- A link comes up (R361, R362, R369); the report of a neighbour on a link already up brings its position and its time only. -/
def execLinkUp (p : Port) (nb : Neighbour) (s : State) : Out :=
  if s.solo then .next s
  else
    let was := match p with | .tu => s.tether.tuUp | .td => s.tether.tdUp
    let s1 := s.modTether fun t => { t.takePos p nb with tuUp := t.tuUp || decide (p = .tu), tdUp := t.tdUp || decide (p = .td) }
    let s2 := s1.acquire p nb
    .next (s.keepCarriers (if was then s2 else s2.linkChanged))

/-- A link goes down (R361); SOLO ignores both ports (R374). -/
def execLinkDown (p : Port) (s : State) : Out :=
  let up := match p with | .tu => s.tether.tuUp | .td => s.tether.tdUp
  if up && !s.solo then
    .next (s.modTether fun t =>
      { t with tuUp := t.tuUp && decide (p ≠ .tu), tdUp := t.tdUp && decide (p ≠ .td) }).linkChanged
  else .next s

/-- T0, or a device with no link, sets ACQ with its own value (R369) and holds position 0 (R362). -/
def execAcqTimeout (s : State) : Out :=
  if s.tether.tuUp || s.solo then .next s
  else .next (s.keepCarriers (s.modTether fun t => { t with acq := true, pos := if t.pos.isNone && !t.posErr then some 0 else t.pos }))

/-- A write of TETHER_CTRL (R369, R374): SOLO = 1 sets ACQ and makes the device a stack of one at T0, which follows no other. -/
def State.storeTetherCtrl (s : State) (v : Word) : State :=
  if s.locked then s
  else
    let s1 := s.modTether fun t => { t with ctrl := v &&& 0xF01 }
    if bitOf v 0 then (s1.modTether fun t => { t with acq := true, pos := some 0, posErr := false, n := 1, heard := false }).testVersion else s1

-- time

/-- A signed value saturated to 16 bits (R374). -/
def sat16 (v : Int) : BitVec 16 := BitVec.ofInt 16 (clampInt (-32768) 32767 v)

/-- LINK_DELAY in ps (R368): the average over the frames measured, at most 16. -/
def LinkTime.delay (x : LinkTime) : Nat := x.delays.sum / Max.max 1 x.delays.length

/-- A marker sent at t1 whose return came at t4 (R368). -/
def LinkTime.measure (x : LinkTime) (t1 t4 : Nat) : LinkTime :=
  { tMark := BitVec.ofNat 32 (t1 * 5 / 4), delays := ((1250 * (t4 - t1) - 200000) / 2 :: x.delays).take 16 }

/-- The times of the link on a port. -/
def Tether.linkTime (t : Tether) : Port → LinkTime
  | .tu => t.tuTime
  | .td => t.tdTime

/-- e in ps (R368): t2 − (t1 + LINK_DELAY), with t1 known modulo 2^32 ns. -/
def markError (t2 : Nat) (tMark linkDelay : Word) : Int :=
  let m : Int := 1000 * 2 ^ 32
  let x := (1250 * (t2 : Int) - 1000 * (tMark.toNat : Int) - (linkDelay.toNat : Int)) % m
  if m ≤ 2 * x then x - m else x

/-- The rate moves to reduce e (R368): how far is a free value, within 1 ppm per second until TIME_LOCK has first been set and 0.02 ppm per second from then on, and the correction stays within ±45 ppm. `frames` are the frames since the last change. -/
def State.adjustRate (s : State) (frames : Int) : State :=
  let (a, s1) := s.free
  let step := frames * (if s.tether.everLock then 2 else 100)
  s1.modTether fun t => { t with rate := clampInt (-45000000) 45000000 (t.rate + clampInt (-step) step ((a.truncate 32 : BitVec 32).toInt)) }

/-- A frame brings T_MARK and LINK_DELAY for the marker that has arrived (R368): the device takes its error and adjusts the rate of DTIME. -/
def State.takeTime (s : State) (f : DownFrame) : State :=
  match s.tether.marked with
  | some t2 => (s.modTether fun t => { t with marked := none, err := sat16 (Int.fdiv (markError t2 f.tMark f.linkDelay) 1000) }).adjustRate 1
  | none => s

/-- A timing marker has been stamped and returned (R368): at the upstream end of a link it gives T_MARK and a measurement of the delay; at the downstream end, toward the hitch, it is kept for the frame with its T_MARK. -/
def execTimingMarker (p : Port) (m : MarkerStamp) (s : State) : Out :=
  if s.solo || s.dev.state = .watch then .next s
  else
    let away := s.tether.hitch || p ≠ s.tether.facing
    match m with
    | .returned t1 t4 =>
      if !away then .next s
      else match p with
        | .tu => .next (s.modTether fun t => { t with tuTime := t.tuTime.measure t1 t4 })
        | .td => .next (s.modTether fun t => { t with tdTime := t.tdTime.measure t1 t4 })
    | .arrived t2 => if away then .next s else .next (s.modTether fun t => { t with marked := some t2 })

/-- TIME_LOCK is gained or lost (R369); the hitch always has it, and a device whose DTIME lies apart never gains it. -/
def execTimeLock (locked : Bool) (s : State) : Out := .next (s.setTimeLock ((locked && !s.tether.apart) || s.tether.hitch))

/-- The marker of each second in WATCH (R369), which holds DTIME by the rate. -/
def execWatchBeacon (err : Int) (s : State) : Out :=
  if s.dev.state = .watch && !s.solo then .next ((s.modTether fun t => { t with err := sat16 err }).adjustRate 10000) else .next s

-- succession

/-- B_SEG (R372): the last CEIL values of the segment's lanes: this device's, and those of the devices behind it in the last good downstream frame that carried results. -/
def segmentBudget (s : State) : Nat :=
  (allLanes.map fun l => (s.lane l).budget.ceil.toNat).sum +
    (s.tether.seen.map fun r =>
      ((List.range 32).map fun n => match s.tether.results[32 * r.pos.val + n]? with | some e => e.1.toNat | none => 0).sum).sum

/-- No hitch frame for 1 ms and the wait of its position (R371, R372): the device becomes hitch under B_SEG. -/
def execHitchSuccession (s : State) : Out :=
  if s.live && !s.tether.hitch && !s.solo && s.tether.pos.isSome then
    let slots : Vector (Option SlotReport) 8 := Vector.ofFn fun (p : Fin 8) => s.tether.seen.find? fun r => r.pos = p
    let s1 := s.modTether fun t => { t with succ := true, bSeg := segmentBudget s, slots := slots, missing := Vector.replicate 8 false }
    .next (s1.becomeHitch 2)
  else .next s

-- what frames carry

/-- Bytes of a record in a frame (R367). -/
def recordSize : TetherRecord → Nat
  | .stagger _ _ _ => 11
  | .mark _ _ _ _ _ => 10
  | .chunk _ _ _ _ => 135
  | .tunnel _ _ _ d => 5 + d.length

/-- Kinds of records. -/
def isTunnel : TetherRecord → Bool
  | .tunnel _ _ _ _ => true
  | _ => false
def isChunk : TetherRecord → Bool
  | .chunk _ _ _ _ => true
  | _ => false

/-- Records that wait, in the order in which they are added (R367): one tunnel record, stagger requests and marks, then the other tunnel records and the chunks. -/
def recordOrder (q : List TetherRecord) : List TetherRecord :=
  let t := q.filter isTunnel
  t.take 1 ++ (q.filter fun r => !isTunnel r && !isChunk r) ++ t.drop 1 ++ q.filter isChunk

/-- The records of a list that fit into `room` bytes with at most `chunks` tile chunks, and those that wait (R367). -/
def fitRecords : Nat → Nat → List TetherRecord → List TetherRecord × List TetherRecord
  | _, _, [] => ([], [])
  | room, chunks, r :: rs =>
    if recordSize r ≤ room && (!isChunk r || chunks ≠ 0) then
      let p := fitRecords (room - recordSize r) (if isChunk r then chunks - 1 else chunks) rs
      (r :: p.1, p.2)
    else
      let p := fitRecords room chunks rs
      (p.1, r :: p.2)

/-- CEIL and SLOT of lane n of position p, as the hitch sends them (R365). -/
def resultFor (s : State) (p n : Nat) : BitVec 12 × BitVec 4 :=
  let slot := match s.bus.placed.reverse.find? fun e => e.1 = p && e.2.1 = n with | some e => e.2.2.2 | none => 0
  let ceil := if p = ownPos s then (match allLanes[n]? with | some l => (s.lane l).budget.ceil.toNat | none => 0) else (prevOf s p n).1
  (BitVec.ofNat 12 (Min.min 4095 ceil), BitVec.ofNat 4 slot)

/-- The pose that the hitch broadcasts (R365): E and N in mm, HDG and YAW in µrad, SPD in mm/s. -/
def poseReport (s : State) : PoseReport :=
  let x := s.swath
  { e := Int.fdiv x.e 1000, n := Int.fdiv x.n 1000, hdg := x.hdg, yaw := x.yaw, spd := Min.min 65535 (groundSpeed x), rev := x.rev, dtime := s.dev.dtime }

/-- A downstream frame as it leaves on a port: T_MARK and LINK_DELAY are those of that link (R365, R368). -/
def frameOnLink (f : DownFrame) (x : LinkTime) : DownFrame := { f with tMark := x.tMark, linkDelay := BitVec.ofNat 32 x.delay }

/-- The hitch's downstream frame with the records that fit (R364, R365): it carries results while the hitch arbitrates and has computed them (R22, R371, R376), and a pose in every frame whose FSEQ mod 10 is 0. -/
def downFrame (s : State) (rs : List TetherRecord) : DownFrame :=
  let q := s.dev.dtime / 100000 % 2 ^ 32
  { fseq := BitVec.ofNat 32 q, hitchPos := s.tether.pos.getD 0, n := s.tether.n, hold := decide (s.dev.state = .holdover),
    resValid := arbiterRuns s && s.tether.settling = 0, sag := s.bus.effSag, credit := s.bus.effCredit, succ := s.tether.succ,
    version := BitVec.ofNat 8 (ownVersion s), effW := s.bus.effW, allocSum := s.bus.allocSum,
    results := (List.range 256).map fun i => resultFor s (i / 32) (i % 32),
    pose := if q % 10 = 0 then some (poseReport s) else none, records := rs }

/-- Position p lies on the side of a port (R362). -/
def onSide (s : State) (p : Fin 8) : Port → Bool
  | .tu => decide (p.val < ownPos s)
  | .td => decide (ownPos s < p.val)

/-- A frame starts with no upstream frame since the last one on a side (R372): the devices on it that have reported are missing. -/
def State.noteSilence (s : State) : State :=
  s.modTether fun t =>
    { t with upTu := false, upTd := false,
             missing := Vector.ofFn fun (p : Fin 8) =>
               t.missing.get p || ((t.slots.get p).isSome && ((!t.upTu && onSide s p .tu) || (!t.upTd && onSide s p .td))) }

/-- The hitch starts a frame in each direction (R364): its records leave the queue. A successor with a link on TU sends it on both ports (R371). -/
def execFrameStart (s : State) : Out :=
  if s.tether.hitch && s.live && !s.solo then
    let p := fitRecords 1908 8 (recordOrder s.tether.queue)
    let f := downFrame s p.1
    .next (s.noteSilence.modTether fun t =>
      { t with queue := p.2, down := some (frameOnLink f t.tdTime), downTu := if t.tuUp then some (frameOnLink f t.tuTime) else none })
  else .next s

/-- A lane's entry of this device's slot (R366). -/
def laneReport (s : State) (l : LaneId) : LaneReport :=
  let x := s.lane l
  { floor := BitVec.ofNat 12 (Min.min 4095 (laneFloor s l)), want := BitVec.ofNat 12 (Min.min 4095 (laneWant s l)),
    alloc := BitVec.ofNat 12 (Min.min 4095 (countedAlloc s l)), credit := BitVec.ofNat 12 (Min.min 4095 x.budget.credit),
    prio := BitVec.ofNat 3 (fld x.cfg.laneBudget 26 24), enabled := x.enabled, twin := x.con.twinOn }

/-- This device's slot (R366). -/
def ownSlot (s : State) (p : Fin 8) : SlotReport :=
  { pos := p, state := BitVec.ofNat 4 (devCode s.dev.state), version := BitVec.ofNat 8 (ownVersion s), busSag := s.bus.sag, frozen := s.bus.frozen,
    timeLock := s.tether.timeLock, busV := s.bus.busV.zeroExtend 16, lanes := allLanes.map (laneReport s) }

/-- Stagger requests that wait for their slot and were not in the last good frame (R219, R367, R376). -/
def staggerRecords (s : State) (p : Fin 8) : List TetherRecord :=
  (allLanes.filterMap fun l => (s.lane l).budget.staggerReq.map fun t => TetherRecord.stagger p l t).filter fun r =>
    !(match s.tether.up with | some u => u.crcOk && u.records.contains r | none => false)

/-- The device adds its slot and its records to an upstream frame and sends it on (R364, R366, R367); the slots of one with a wrong CRC tell it nothing (R376). -/
def State.sendUp (s0 : State) (f : UpFrame) : State :=
  let s := if f.crcOk then s0.modTether fun t => { t with seen := f.slots.filter fun r => t.pos ≠ some r.pos } else s0
  match s.tether.pos with
  | none => s.modTether fun t => { t with up := some f }
  | some p =>
    let room := 620 - (f.records.map recordSize).sum
    let q := fitRecords room 0 (recordOrder (staggerRecords s p ++ s.tether.queue))
    let wait := q.2.filter fun r => match r with | .stagger _ _ _ => false | _ => true
    s.modTether fun t =>
      { t with queue := wait, up := some { f with slots := (f.slots.filter (·.pos ≠ p)) ++ [ownSlot s p], records := f.records ++ q.1 } }

end Sys2Proof.Machine
end

