-- ==== Sys2Proof/Machine/Faults.lean ====
section
/-! DEFINITION. Faults, splicing and recovery (file 14): heartbeats (R342), splices and returns (R343–R345), restarts (R346–R348), the warden (R349, R350), orphaned groups (R351), the end of a lasting PROTOCOL class (R338), memory errors (R340, R341) and ACTIVATE (R402–R404). -/

namespace Sys2Proof.Machine

-- who serves a group

/-- All groups. -/
def allGroups : List GroupId := List.finRange 4

/-- The groups that core t serves. -/
def groupsOf (s : State) (t : CoreId) : List GroupId := allGroups.filter fun g => serverOf s g = t

/-- Core t carries a spliced group (R351). -/
def carries (s : State) (t : CoreId) : Bool := allGroups.any fun g => (s.group g).spliced && coreOf (partnerOf g) = t

/-- The group of a policy core. -/
def groupOfCore (t : CoreId) : Option GroupId := if h : t.val < 4 then some ⟨t.val, h⟩ else none

/-- A core is live: neither DOWN nor OUT (R344). -/
def coreLive (s : State) (t : CoreId) : Bool := !(s.core t).down && !(s.core t).out

-- lanes of a group

/-- Every lane of a group goes to the auto-responder (R344, R464). -/
def State.raiseGroup (s : State) (g : GroupId) : State := s.forEach (lanesOf g) State.raiseAr

/-- A lane that is sink requests again as R116 gives when its core resumes: a list that the auto-responder answered (R67), or one of a source that a swap has given without a contract yet (R128). -/
def State.askAgain (s : State) (l : LaneId) : State :=
  let x := s.lane l
  match x.con.rxCaps with
  | some f =>
    if serves s l && !x.swap.powerRole && !x.swap.holdOn && x.swap.state = 0 && !x.pd.hrBusy && x.con.change.isNone && (x.pd.arAsked || !x.con.valid) then
      (s.modPd l fun p => { p with arAsked := false }).onSourceCaps l f
    else s
  | none => s

/-- The base image's part of a message that came while the core did not serve, and that the auto-responder did not answer; it is the newest in the FIFO. One that lane hardware alone acts on is taken out. -/
def State.readHead (s : State) (l : LaneId) (f : Frame) : State :=
  let t := s.takeNewest l
  if isData f 4 then t.onSinkCaps l f
  else if isData f 5 then t.onBattery l f
  else if isData f 10 then t.onEprMode l f
  else if isExtended f.header && msgType f.header = 17 then t.onSourceCaps l f
  else if isExtended f.header && msgType f.header = 8 then t.imageSend l false (ctl 16)
  else if isCtl f 6 then (if sinkReady (s.lane l) then t.sinkContract l else t)
  else if isCtl f 19 || urkaiAnswer s f 17 || urkaiAnswer s f 19 || urkaiAnswer s f 20 then t
  else if urkaiAnswer s f 4 && (s.lane l).con.seq = .enterMode then t.seqAnswer l f
  else if urkaiAnswer s f 5 && vdmType f = 1 then t.exitUrkai l
  else if urkaiAnswer s f 18 && (s.lane l).con.seq = .twinSet then t.seqAnswer l f
  else if urkaiAnswer s f 21 then t.onHoldSet l f
  else if urkaiAnswer s f 24 then t.onRecCommit l f
  else s.takeAnswer l f

/-- The base image reads the FIFO as it resumes (R68): each message in turn, oldest first, moves to its end and is acted on there; one that nothing handles stays, in its order. -/
def State.readFifo (s : State) (l : LaneId) : State :=
  if serves s l then
    s.forEach (s.lane l).pd.fifo fun st r =>
      if (st.lane l).pd.fifo.head? = some r then
        (st.modPd l fun p => { p with fifo := p.fifo.drop 1 ++ [r] }).readHead l r.frame
      else st
  else s

/-- What lane writes the base image owes from the time in which it did not serve the lane: the limits before the first contract (R143, R189), and the stop of a stage whose pack is empty (R122, R194). -/
def State.owedWrites (s : State) (l : LaneId) : State :=
  let x := s.lane l
  if !serves s l then s
  else
    let s1 := if x.con.ilimOwed && x.cc.attached && !x.con.valid then s.baseLimits l else s
    let s2 := if x.swap.stopOwed && x.swap.holdOn then s1.stopStage l else s1
    (s2.modCon l fun c => { c with ilimOwed := false }).modSwap l fun w => { w with stopOwed := false }

/-- The base image resumes a lane from its registers as ar_active falls (R68): cable discovery goes on or an attached source without a list sends one (R46), a contract change whose voltage has arrived gets its PS_RDY, the messages that stand in the FIFO are read, a sink requests again (R67), the limits before the first contract (R143, R189) and the stop of an empty anchor (R194) are made up, what arms left is done (R98, R104), the list that a switch owes follows (R105), a pack write is classified or begun (R136), and a decision of the section is posted again. The three attempts of R36 are counted anew from here (DESIGN CHOICE, log 108). -/
def State.resume (s : State) (l : LaneId) : State :=
  let s1 := (s.dropAr l).owedWrites l
  let x := s1.lane l
  let s2 :=
    if x.cc.discRun && serves s1 l then s1.startDiscovery l x.cc.discEpr
    else if x.cc.attached && x.swap.powerRole && x.belay.sw = 2 && x.conv.on && !x.conv.soft && x.con.offer = [] && !x.pd.hrBusy && x.swap.state = 0 then s1.firstCaps l
    else if x.con.change.any (fun d => d.moving && !d.ready) && !x.conv.ramp && serves s1 l then s1.psReady l
    else s1
  let s3 := ((((s2.readFifo l).askAgain l).armResume l).capsResume l)
  (if s.dev.vsysWarn then s3.freezePackWrite l else s3.recNext l).repostSection l

/-- A core writes dev.take_g for its group (R343–R345, R349, R351): ar_active falls on the lanes, which a takeover of the warden delays to its end; the base image records the end of a splice and of a return, and live lanes that an orphaned group's time limit left Disabled return to the unattached state. -/
def State.takeGroup (s : State) (g : GroupId) : State :=
  let x := s.group g
  let t := serverOf s g
  let s1 := s.modGroup g fun y => { y with orphan := false, taken := true, returning := y.returning && y.spliced }
  let s2 := if s.dev.takeover.isSome then s1 else s1.forEach (lanesOf g) State.resume
  let s3 := s2.forEach (lanesOf g) fun st l => if (st.lane l).cc.st = .disabled then st.enterUnattached l else st
  let w : Word := BitVec.ofNat 32 t.val
  if !Sys2Proof.Machine.imageRuns (s.core t) then s3
  else if x.spliced && !x.returning && !x.taken then s3.logSw 0x0602 .group g.val w 0 0
  else if x.returning && !x.spliced then s3.logSw 0x0603 .group g.val w 0 0
  else s3

/-- A core that runs writes dev.take_g (R343). -/
def execTakeG (t : CoreId) (g : GroupId) (s : State) : Out :=
  if serverOf s g = t && (s.core t).run = .running then .next (s.takeGroup g) else .next s

/-- Cg writes dev.rtn_g (R343, R345). -/
def State.startReturn (s : State) (g : GroupId) : State :=
  ((s.raiseGroup g).modGroup g fun y => { y with returning := true, taken := false }).post (spliceSource g).val

/-- Whether core t may write dev.rtn_g and dev.rel_g now (R343). -/
def rtnMay (s : State) (t : CoreId) (g : GroupId) : Bool := coreOf g = t && (s.group g).spliced
def relMay (s : State) (t : CoreId) (g : GroupId) : Bool := coreOf (partnerOf g) = t && (s.group g).spliced && (s.group g).returning

/-- dev.rtn_g is written (R345). -/
def execRtnG (t : CoreId) (g : GroupId) (s : State) : Out :=
  if rtnMay s t g && (s.core t).run = .running then .next (s.startReturn g) else .next s

/-- Step 3 of R345: the rewrite back, with which spl_g is cleared and the source posted to Cg. -/
def State.finishReturn (s : State) (g : GroupId) : State := if rewriteWaits s g then s else s.rewrite (coreOf (partnerOf g)) (coreOf g) g true

/-- dev.rel_g is written (R345). -/
def execRelG (t : CoreId) (g : GroupId) (s : State) : Out :=
  if relMay s t g && (s.core t).run = .running then .next (s.finishReturn g) else .next s

/-- 2 ms of a return without dev.rel_g (R345). -/
def execReturnTimeout (g : GroupId) (s : State) : Out :=
  if (s.group g).spliced && (s.group g).returning then .next (s.finishReturn g) else .next s

-- heartbeats

/-- The heartbeat bits (R342, R343, R349): a beat ends DOWN, and a supervisor that had failed counts as failed for SUP_WIN more from its first beat after a restart. -/
def State.beatCore (s : State) (t : CoreId) : State :=
  s.modCore t fun c =>
    { c with beat := true, grace := false, down := false,
             failUntil := if c.failed && c.failUntil.isNone && c.grace then some (s.dev.dtime + 1000000 * fld s.sup.ctrl 15 8) else c.failUntil }

/-- A supervisor counts as failed (R349). -/
def supFailed (s : State) (t : CoreId) : Bool :=
  let c := s.core t
  c.out || (c.failed && (match c.failUntil with | none => true | some u => decide (s.dev.dtime < u)))

/-- A core's period is judged (R342): not in WAIT or in an idle group, not under DBG_EXEMPT, and not while it is reloaded, until its first beat or for 3 s. -/
def judged (s : State) (t : CoreId) : Bool :=
  let c := s.core t
  c.run ≠ .inReset && !c.waited && !bitOf s.sup.ctrl (20 + t.val)
    && !(c.grace && (s.dev.takeover.isSome || decide (s.dev.dtime < c.loadTime + 3000000000)))
    && (match groupOfCore t with | some g => (s.group g).coreRun | none => true)

/-- The source of a missed heartbeat (R342). -/
def missSource (t : CoreId) : Nat := if t.val < 4 then 0x200 + 4 * t.val else 0x210 + (t.val - 4)

/-- A group becomes orphaned (R351). -/
def State.orphanGroup (s : State) (g : GroupId) : State := (s.raiseGroup g).modGroup g fun y => { y with orphan := true, taken := false }

/-- The splice of a group to its partner (R344). -/
def State.splice (s : State) (g : GroupId) : State :=
  let p := coreOf (partnerOf g)
  ((s.raiseGroup g).modGroup g fun y => { y with returning := false, taken := false }).rewrite (coreOf g) p g false

/-- What a policy core's missed heartbeat does to the groups that it serves (R344, R351, R359): a splice where the partner is live and nothing spliced is carried, otherwise every group served is orphaned but one that is being returned. -/
def State.loseGroups (s : State) (g : GroupId) : State :=
  let t := coreOf g
  if !(s.group g).spliced && !carries s t && coreLive s (coreOf (partnerOf g)) then s.splice g
  else s.forEach ((groupsOf s t).filter fun h => !((s.group h).returning && (s.group h).spliced)) State.orphanGroup

/-- A third restart within the last 60 s makes a further miss lasting: OUT (R347). -/
def State.judgeOut (s : State) (t : CoreId) : State :=
  if !(s.core t).out && 3 ≤ (recent s.dev.dtime 60000000000 (s.core t).restarts).length then
    let s1 := s.modCore t fun c => { c with out := true }
    (s1.logFlags 0x30 0x0605 .core t.val (supStatus s1) 0 0).irq 6
  else s

-- the warden

/-- An attempt of the warden has failed (R349, R350): record 0x0702; the third failure within 60 s leads to HALTED. The answer is whether another attempt follows. -/
def State.attemptFailed (s : State) (cause : BitVec 4) : Bool × State :=
  let s0 : State := { s with cores := s.cores.map fun (c : CoreState) => { c with run := .inReset } }
  let s1 := s0.modSup fun p => { p with failCause := cause, fails := (s.dev.dtime :: p.fails).take 3 }
  let s2 := s1.log 0x0702 .device 0 (wardenStatus s1) 0 0
  if 3 ≤ wardenFails s2 then (false, (s2.modSup fun p => { p with attempt := 0 }).haltDevice 0) else (true, s2)

/-- Attempts of the warden (R349), for which the PLL runs in WATCH too: the image is checked, every core is loaded and released with rcause 2, and OUT is cleared; a refused image fails the attempt and the next begins at once. At most three can fail before HALTED. -/
def State.wardenTry (s : State) : Nat → State
  | 0 => s
  | n + 1 =>
    let s1 := s.modSup fun p => { p with attempt := if p.attempt = 3 then 3 else p.attempt + 1 }
    match storeVerdict s1 with
    | .inr body =>
      let s2 := (s1.modDev fun d => { d with pll := true }).forEach allGroups fun st g => st.modGroup g fun y => { y with taken := false }
      s2.forEach (List.finRange 6) fun st t => (st.modCore t fun c => { c with out := false }).reloadCore body t 2
    | .inl _ =>
      let p := s1.attemptFailed 1
      if p.1 then p.2.wardenTry n else p.2

/-- An attempt fails and the next begins (R349). -/
def State.wardenFail (s : State) (cause : BitVec 4) : State :=
  let p := s.attemptFailed cause
  if p.1 then p.2.wardenTry 3 else p.2

/-- Both supervisors count as failed: the warden takes over (R349, R407, R16). -/
def execWardenTakeover (s : State) : Out :=
  if supFailed s 4 && supFailed s 5 && s.dev.takeover.isNone && !s.dev.halting && (s.dev.state = .run || s.dev.state = .watch || s.dev.state = .ready) then
    let s1 := (s.forEach allLanes State.raiseAr).log 0x0701 .device 0 (supStatus s) 0 0
    let s2 : State := { s1 with cores := s1.cores.map fun (c : CoreState) => { c with run := .inReset } }
    let s3 := (s2.modSup fun p => { p with takeovers := satInc p.takeovers, start := s.dev.dtime, attempt := 0 }).modImage fun x =>
      { x with writing := false, activating := false, actCore := 0 }
    .next (s3.modDev fun d => { d with takeover := some s.dev.state, state := if s.dev.state = .run then .holdover else d.state })
  else .next s

/-- Step 3 of R349; none follows once the device goes to HALTED. -/
def execWardenAttempt (s : State) : Out :=
  if s.dev.takeover.isSome && !s.dev.halting && s.sup.attempt = 0 then .next (s.wardenTry 3) else .next s

/-- 3 s of an attempt without success (R349). -/
def execWardenAttemptTimeout (s : State) : Out :=
  if s.dev.takeover.isSome && s.sup.attempt ≠ 0 then .next (s.wardenFail 3) else .next s

/-- 10 s of a takeover (R16, R349). -/
def execHoldoverLimit (s : State) : Out :=
  if s.dev.takeover.isSome then .next (s.haltDevice 1) else .next s

/-- Every core that is not OUT has beaten, and every group has been taken (R349). -/
def wardenDone (s : State) : Bool :=
  s.dev.takeover.isSome && !s.dev.halting && s.sup.attempt ≠ 0 && (s.cores.toList.all fun c => c.out || (!c.grace && !c.down)) && allGroups.all fun g => (s.group g).taken

/-- The PLL stops again, and the groups with it, where a takeover in WATCH ends (R18, R21). -/
def State.sleepAgain (s : State) : State :=
  if s.dev.state = .watch then
    (s.modDev fun d => { d with pll := false }).forEach allGroups fun st g => st.modGroup g fun y => { y with coreRun := false, leRun := false }
  else s

/-- The end of a takeover (R349, R395, R407): the state it interrupted returns, every lane is served again, and a mailbox command that ran ends with 0x09. -/
def State.wardenEnd (s : State) (st : DevState) : State :=
  let s1 := (s.modDev fun d => { d with state := st, takeover := none }).log 0x0702 .device 0 (wardenStatus s) 0 0
  let s2 := (s1.modSup fun p => { p with attempt := 0 }).modImage fun x => { x with runVer := x.storeVer, runAbi := x.storeAbi, actPend := false }
  let s3 := (if s2.mbx.busy then s2.mbxEnd 0x09 else s2).versionMoved
  let s4 := s3.forEach allLanes fun u l => (u.resume l).applySetpoints l
  (s4.forEach allLanes State.tryAttach).sleepAgain

-- restarts

/-- The plaintext of the stored image, as the engine loads it; nothing where it cannot be read. -/
def imageBody (s : State) : List Byte := (plainBody s (storeBytes s)).getD []

/-- A restart of core t by a supervisor (R304, R346, R347, R390): record 0x0604; the auto-responder stands in on the lanes that the core serves (R66), and a restart of S0 aborts a running mailbox command. -/
def State.restartCore (s : State) (t : CoreId) : State :=
  let spliced := match groupOfCore t with | some g => (s.group g).spliced | none => false
  let k := if spliced then 4 else 1
  let s1 := s.modCore t fun c => { c with restarts := (s.dev.dtime :: c.restarts).take 4 }
  let s2 := ((s1.forEach (groupsOf s t) State.raiseGroup).reloadCore (imageBody s) t k).logSw 0x0604 .core t.val (BitVec.ofNat 32 k) 0 0
  if t.val = 4 && s2.mbx.busy then (s2.modImage fun x => { x with activating := false, actCore := 0 }).mbxEnd 0x09 else s2

/-- A write of CORE_RST (R347). A core that a restart has released and that has not beaten yet is not restarted again for its DOWN: two writes are one restart. -/
def State.storeCoreRst (s : State) (a : Agent) (v : Word) : State :=
  match a with
  | .host => s
  | .core w =>
    if w.val < 4 then s
    else s.forEach (List.finRange 6) fun st t =>
      let c := st.core t
      if bitOf v t.val && t ≠ w && ((c.down && !c.grace) || c.eccLast) && !c.out then st.restartCore t else st

-- missed heartbeats

/-- A missed heartbeat of core t (R342, R344, R347, R349, R351): DOWN, MISS_EVT, its source and record 0x0601; OUT where it is lasting; then the group's splice, the warden's failed attempt, or the supervisor's failure. -/
def State.miss (s : State) (t : CoreId) : State :=
  let beaten := !(s.core t).grace
  let s1 := s.modCore t fun c =>
    { c with down := true, missEvt := true, grace := false, failed := c.failed || decide (4 ≤ t.val), failUntil := none }
  let s2 := ((s1.post (missSource t)).log 0x0601 .core t.val (supStatus s1) (s1.core t).pc 0).judgeOut t
  if s.dev.takeover.isSome then (if s.sup.attempt ≠ 0 && beaten then s2.wardenFail 2 else s2)
  else match groupOfCore t with
    | some g => s2.loseGroups g
    | none => s2

/-- The states in which the watchdog judges cores: those in which the image runs. -/
def watchdogRuns (s : State) : Bool :=
  s.dev.state = .ready || s.dev.state = .run || s.dev.state = .watch || s.dev.state = .holdover

/-- The end of a heartbeat period (R342): every core's bit is tested, and then cleared. -/
def execHeartbeatPeriod (s : State) : Out :=
  if watchdogRuns s then
    let s1 := s.forEach (List.finRange 6) fun st t => if judged s t && !(s.core t).beat then st.miss t else st
    .next { s1 with cores := s1.cores.map fun (c : CoreState) => { c with beat := false, waited := decide (c.run = .waiting) } }
  else .next s

-- orphans

/-- 10 s of an orphaned group (R351). -/
def execOrphanTimeout (g : GroupId) (s : State) : Out :=
  if (s.group g).orphan then
    .next ((s.forEach (lanesOf g) fun st l => if (st.lane l).con.valid then st.hardResetOff l else st).log 0x0607 .group g.val 0 0 0)
  else .next s

/-- A write of PROTO_LAST = 1 ends the lasting state (R336–R338). -/
def State.protoEnd (s : State) (l : LaneId) : State :=
  if (s.lane l).fw.protoLast then
    let s1 := s.modFw l fun f => { f with protoLast := false, proto := [] }
    if (s1.lane l).cc.st = .disabled then s1.enterUnattached l else s1
  else s

-- memory errors

/-- A corrected error in a core's memories (R341). -/
def State.coreCorrected (s : State) (t : CoreId) : State :=
  let s1 := s.modCore t fun c => { c with ecc := pushEvent s.dev.dtime c.ecc }
  let c := s.core t
  if !c.eccLast && lastingNow s.dev.dtime (1000000 * fld s.sup.fwCore 31 16) (fld s.sup.fwCore 3 0) c.ecc then
    (s1.modCore t fun c => { c with eccLast := true }).logFlags 0x30 0x0301 .core t.val 3 0 0
  else s1

/-- A word of core t is marked as holding a two-bit error. -/
def State.markBad (s : State) (t : CoreId) (host : Nat) : State :=
  s.modCore t fun c => if c.eccBad.contains (host / 4 * 4) then c else { c with eccBad := (host / 4 * 4) :: c.eccBad }

/-- A measured sample that no operand gives: free values (log 3). -/
def State.freeSample (s : State) : SlewSample × State :=
  let (a, s1) := s.free
  ({ vin := a.toNat % 2 ^ 14, vbin := a.toNat / 2 ^ 14 % 2 ^ 14, code := ((a >>> 28).truncate 12 : BitVec 12).toInt,
     ipath := ((a >>> 44).truncate 16 : BitVec 16).toInt }, s1)

/-- An ECC error (R340, R341). A two-bit error is marked where it lies, and the access that meets it acts on it. -/
def State.eccError (s : State) (site : EccSite) (double : Bool) : State :=
  match site with
  | .coreMemory t addr scrub =>
    match privAddr t addr with
    | none => s
    | some a =>
      if !double then s.coreCorrected t
      else
        let s1 := s.markBad t a
        if scrub then s1.log 0x0302 .core t.val (BitVec.ofNat 32 addr) 0 0 else s1
  | .sharedRam addr reader =>
    let w := addr / 4 * 4
    if double then
      let s1 := s.modSup fun p => if p.eccShared.contains w then p else { p with eccShared := w :: p.eccShared }
      match reader with
      | some (.core _) => s1
      | _ => s1.log 0x0302 .device 0 (BitVec.ofNat 32 w) 0 0
    else if s.sup.eccLogged.contains w then s
    else
      let (c, s1) := s.free
      (s1.modSup fun p => { p with eccLogged := w :: p.eccLogged }).log (c.toNat % 65536) .device 0 (BitVec.ofNat 32 w) 0 0
  | .swathMap addr =>
    if double then s.modSwath fun x => if x.eccBad.contains (addr / 4 * 4) then x else { x with eccBad := (addr / 4 * 4) :: x.eccBad } else s
  | .pdReceive _ => s
  | .pdTransmit l => if double then s.endHead l 2 (headRetries (s.lane l).pd) else s
  | .vectorEntry t x => if double then s.markBad t (vecBase t + 4 * x.val) else s
  | .decodeTable t addr => if double then s.markBad t addr else s
  | .loopEngine l =>
    if double && (s.lane l).conv.on then
      let p := s.freeSample
      p.2.modConv l fun c =>
        { c.leaveSlew (s.lane l).cfg s.dev.dtime p.1 with slew := c.slew, slewBack := c.slewBack, slewHold := c.slewHold, slewFree := c.slewFree }
    else s

/-- An ECC error is found (R340). -/
def execEccError (site : EccSite) (double : Bool) (s : State) : Out := .next (s.eccError site double)

-- ACTIVATE

/-- The order in which ACTIVATE reloads the cores (R403). -/
def activateOrder : List CoreId := [0, 1, 2, 3, 5, 4]

/-- The core that follows one in ACTIVATE's order. -/
def afterCore (t : CoreId) : Option CoreId := ((activateOrder.dropWhile (· ≠ t)).drop 1).head?

/-- The first RESULT of R402 that refuses ACTIVATE. -/
def activateRefusal (s : State) : Option Byte :=
  let x := s.image
  let sup (w : Word) : Nat := fld w 15 8
  let tet := fld x.storeAbi 23 16
  let apart := versionsApart tet s.tether.hitchVer.toNat
    || (s.tether.hitch && s.tether.versions.toList.any fun v => match v with | some b => versionsApart tet b.toNat | none => false)
  if x.writing then some 0x6D
  else if !x.storeOk || !x.actPend then some 0x6C
  else if (sup x.storeAbi ≠ sup x.runAbi && sup x.storeAbi ≠ sup x.runAbi + 1) || fld x.storeAbi 7 0 < fld x.runAbi 7 0 then some 0x6A
  else if 1 < s.tether.n.val && apart then some 0x6B
  else none

/-- Step 2 of R403 for a core: the lanes that its routes name go to the auto-responder, and it starts on the new image with rcause 3. -/
def State.activateCore (s : State) (t : CoreId) : State :=
  let s1 := (s.modImage fun x => { x with actCore := t }).forEach (groupsOf s t) State.raiseGroup
  s1.reloadCore (imageBody s) t 3

/-- ACTIVATE (R389, R402, R403): it stays BUSY while the cores are reloaded one after the other. -/
def execActivate (a : Agent) (tag : Byte) (s : State) : Out :=
  if s.dev.state = .halted || s.dev.state = .boot || s.image.activating || (if s.mbx.busy then s.mbx.code ≠ 0x11 else !hostServed s a) then .next s
  else
    let s1 := if s.mbx.busy then s else (s.modMbx fun m => { m with busy := true, tag := tag, code := 0x11 }).post 0x230
    if s.dev.state = .holdover then .next (if s.mbx.busy then s else s1.mbxEnd 0x01)
    else if !mbxServed s then .next s1
    else if s.dev.state ≠ .ready && s.dev.state ≠ .run then .next (s1.mbxEnd 0x03)
    else match activateRefusal s1 with
      | some r => .next (s1.mbxEnd r)
      | none => .next (((s1.modImage fun x => { x with activating := true }).log 0x0A03 .device 0 0 0 0).activateCore 0)

/-- Step 4 of R403, with the version test of R373. -/
def State.activateEnd (s : State) : State :=
  let s1 := s.modImage fun x => { x with activating := false, actPend := false, actCore := 0, runVer := x.storeVer, runAbi := x.storeAbi }
  let s2 := (s1.log 0x0A04 .device 0 0 0 0).modMbx fun m => { m with res0 := s1.image.runVer }
  (if s2.mbx.busy then s2.mbxEnd 0 else s2).versionMoved

/-- Step 3 of R403: the core under reload beats and takes its groups, or is handled as a missed heartbeat after 3 s; then the next core begins. -/
def execActivateNextCore (beat : Bool) (s : State) : Out :=
  if s.image.activating then
    let t := s.image.actCore
    let s1 := if beat then (s.beatCore t).forEach (groupsOf s t) State.takeGroup else s.miss t
    match afterCore t with
    | some u => .next (s1.activateCore u)
    | none => .next s1.activateEnd
  else .next s

end Sys2Proof.Machine
end

