-- ==== Sys2Proof/Machine/Check.lean ====
section
/-! DEFINITION. The configuration check (R391–R394): the lane codes (R2, R26, R80, R96, R107, R150, R200, R211, R245, R339), the device codes (R34, R206, R245, R265, R287, R354, R375), the resource codes (R92, R265, R393), the codes of fuses and images (R327, R410, R415), and DEV_CHECK (R384). -/

namespace Sys2Proof.Machine

/-- A value lies in a range. -/
def within (lo hi v : Nat) : Bool := decide (lo ≤ v) && decide (v ≤ hi)

/-- A value is 0 or lies in a range. -/
def zeroOr (lo hi v : Nat) : Bool := decide (v = 0) || within lo hi v

/-- The codes whose conditions hold. -/
def codesOf (xs : List (Nat × Bool)) : List Nat := (xs.filter Prod.snd).map Prod.fst

-- lane codes

/-- The entries of a lane's PDO table, as read. -/
def pdoEntries (c : LaneCfg) : List Pdo := c.pdo.toList.map readPdo

/-- Largest current of an entry in 10 mA units, rounded up (R80). -/
def pdoCeilI : Pdo → Nat
  | .avs lo _ p => if lo = 0 then 500 else Min.min 500 (ceilDiv (p * 20000) lo)
  | p => pdoMaxI p

/-- The slots of a range hold Fixed entries of permitted, rising voltages and then APDOs of one kind in rising order, with no unused slot between (R78): `last` is the last Fixed voltage, `top` the last APDO's maximum, absent before the first. -/
def slotsOk (fixed : List Nat) (apdo : Pdo → Option Nat) (last : Nat) (top : Option Nat) (ended : Bool) : List Pdo → Bool
  | [] => true
  | p :: r =>
    match p with
    | .unused => slotsOk fixed apdo last top true r
    | .fixed v _ => !ended && top.isNone && fixed.contains v && decide (last < v) && slotsOk fixed apdo v top false r
    | q =>
      match apdo q with
      | some m => !ended && (match top with | some t => decide (t ≤ m) | none => true) && slotsOk fixed apdo last (some m) false r
      | none => false

/-- A PPS entry within 3.3–21 V and 5 A, by its maximum voltage (R78). -/
def ppsTop : Pdo → Option Nat
  | .pps lo hi i => if 660 ≤ lo ∧ lo ≤ hi ∧ hi ≤ 4200 ∧ i ≤ 500 then some hi else none
  | _ => none

/-- An AVS entry within 15–48 V (R78). -/
def avsTop : Pdo → Option Nat
  | .avs lo hi _ => if 3000 ≤ lo ∧ lo ≤ hi ∧ hi ≤ 9600 then some hi else none
  | _ => none

/-- Whether an entry is an AVS one. -/
def isAvs : Pdo → Bool
  | .avs _ _ _ => true
  | _ => false

/-- PDO_TABLE0–10 hold what R78 permits. -/
def tableOk (c : LaneCfg) : Bool :=
  let ps := pdoEntries c
  let epr := ps.drop 7
  (match ps.head? with | some (.fixed v _) => v = 1000 | _ => false)
    && slotsOk [1800, 3000, 4000] ppsTop 0 none false ((ps.drop 1).take 6)
    && slotsOk [5600, 7200, 9600] avsTop 0 none false epr
    && decide ((epr.filter isAvs).length ≤ 1)

/-- Code 0x2B: the Twin registers (R96). -/
def twinWrong (c : LaneCfg) : Bool :=
  let si := fld c.twinStandby 23 16
  let sc := fld c.twinStandby 9 0
  let ri := fld c.twinRun 23 16
  let rc := fld c.twinRun 9 0
  let largest := (pdoEntries c).foldl (fun m p => match p with | .fixed _ i => Max.max m i | .avs _ _ _ => Max.max m (pdoMaxI p) | _ => m) 0
  !within 10 140 si || !within 10 140 ri || decide (5 * si < sc) || decide (5 * ri < rc) || decide (rc ≤ sc) || decide (largest < rc)
    || decide (fld c.ilimSet 7 0 < ri)

/-- Code 0x31: OVP_SET, with V_hi of R148 before its limit (R150). -/
def ovpWrong (c : LaneCfg) : Bool :=
  let abs := fld c.ovpSet 23 16
  let pct := fld c.ovpSet 3 0
  let top := (pdoEntries c).foldl (fun m p => Max.max m (pdoMaxV p)) 0
  !within 1 63 (fld c.ovpSet 29 24) || !within 24 240 abs || !within 2 12 (fld c.ovpSet 11 8) || !within 3 15 pct
    || decide (abs * 5000 < top * (100 + pct) + 10000)

/-- Code 0x32: DEADTIME, CONV_STAGE, shunt and IL_MAX (R200). -/
def stageWrong (c : LaneCfg) : Bool :=
  let dt := fld c.convCtrl 15 8
  let il := fld c.convStage 31 24
  let rsh := fld c.convStage 15 9
  !within 4 160 dt || decide (fld c.convCtrl 27 16 < 16 * dt) || !within 10 250 il || decide (fld c.convStage 23 16 = 0) || !within 5 100 rsh
    || !within 10 511 (fld c.convStage 8 0) || decide (1000000 < 125 * il * rsh) || decide (2 * il < fld c.ilimSet 23 16)

/-- Code 0x36: the section's fields (R245). -/
def sectionFieldsWrong (c : LaneCfg) : Bool :=
  let far (w : Word) : Bool := decide (w.toInt < -50000) || decide (50000 < w.toInt)
  far c.sectFa || far c.sectGeoLat || !within 20 20000 (fld c.sectW 15 0) || decide (20000 < fld c.sectLat 15 0)
    || decide (20000 < fld c.sectLat 31 16) || decide (100 < fld c.sectCtrl 22 16)

/-- CC_CTRL holds a reserved value (R26). -/
def ccReserved (c : LaneCfg) : Bool :=
  c.mode = 7 || fld c.ccCtrl 5 4 = 3 || fld c.ccCtrl 9 8 = 3 || fld c.ccCtrl 11 10 = 3 || decide (5 < fld c.ccCtrl 14 12) || decide (4 < fld c.ccCtrl 18 16)

/-- The tally fields hold values that are not permitted (R107, R130). -/
def tallyWrong (c : LaneCfg) : Bool :=
  !zeroOr 5 500 c.tallyFullI.toNat || !zeroOr 1 3600 c.tallyFullT.toNat || !zeroOr 3000 9600 c.tallyEmptyV.toNat

/-- A window or a threshold of 0 (R339). -/
def windowsWrong (c : LaneCfg) : Bool :=
  fld c.fwWindow0 31 16 = 0 || fld c.fwWindow0 15 0 = 0 || fld c.fwWindow1 15 0 = 0 || fld c.fwThresh 11 8 = 0 || fld c.fwThresh 7 4 = 0
    || fld c.fwThresh 3 0 = 0

/-- The lane codes of a lane's registers, ascending (R394). -/
def cfgCodes (c : LaneCfg) : List Nat :=
  let ilim := fld c.ilimSet 7 0
  let ceil := fld c.ilimSet 23 16
  let vmax := fld c.vconvMax 13 0
  let m := c.mode
  let twin := bitOf c.umodeCtrl 0
  let sect := fld c.sectCtrl 1 0
  let lead := fld c.umodeCtrl 23 16
  let rev := revIlim c
  let minW := fld c.laneBudget 8 0
  let maxW := fld c.laneBudget 20 12
  codesOf [
    (0x20, fld c.laneCtrl 5 4 = 3),
    (0x21, (pdoEntries c).any fun p => decide (vmax < pdoMaxV p)),
    (0x22, (pdoEntries c).any fun p => decide (5 * ilim < pdoCeilI p)),
    (0x23, !within 667 2666 (fld c.convCtrl 27 16)),
    (0x24, !within 10 140 ceil || decide (ceil < ilim)),
    (0x25, twin && fld c.umodeCtrl 11 8 = 0),
    (0x26, ccReserved c),
    (0x27, bitOf c.ccCtrl 6 && c.harness),
    (0x28, [1, 3, 4, 5].contains m && fld c.ccCtrl 5 4 ≠ 3 && decide (5 * ilim < c.rpCurrent)),
    (0x29, m = 0),
    (0x2A, !tableOk c),
    (0x2B, twin && twinWrong c),
    (0x2C, twin && within 1 39 lead),
    (0x2D, bitOf c.swapCtrl 0 && (m = 1 || m = 2 || rev = 0)),
    (0x2E, decide (500 < rev) || decide (5 * ilim < rev)),
    (0x30, tallyWrong c),
    (0x31, ovpWrong c),
    (0x32, stageWrong c),
    (0x33, !within 1000 12000 vmax),
    (0x34, (c.ci[0] = 0 && c.ci[1] = 0) || (c.cv[0] = 0 && c.cv[1] = 0 && c.cv[2] = 0 && c.cv[3] = 0)),
    (0x35, decide (240 < minW) || (maxW ≠ 0 && decide (maxW < minW))),
    (0x36, sect ≠ 0 && sectionFieldsWrong c),
    (0x37, (sect = 1 || sect = 3) && !twin),
    (0x38, windowsWrong c)]

/-- PORT_EN as written. -/
def portBit (s : State) (l : LaneId) : Bool := bitOf (s.lane l).cfg.laneCtrl 0

/-- The lane codes of lane l; a lane fused off has 0x2F alone (R2). -/
def laneCodes (s : State) (l : LaneId) : List Nat := if s.fusedOff l then [0x2F] else cfgCodes (s.lane l).cfg

/-- The lane codes of a check at RUN (R392): every one of them for each lane with PORT_EN = 1 and for each lane with SECT_MODE 2. -/
def runLaneCodes (s : State) (l : LaneId) : List Nat := if portBit s l || sectMode s l = 2 then laneCodes s l else []

-- device codes

/-- Code 0x03 (R206). -/
def busWrong (s : State) : Bool :=
  let b := s.bus
  let hyst := fld b.vsnsTh 31 24
  let sag := fld b.vsnsTh 23 12
  let frs := fld b.vsnsTh 11 0
  !within 2 100 hyst || !zeroOr 1000 3000 sag || !zeroOr 1000 3000 frs || !within 10 100 (fld b.vsnsCtrl 23 16) || fld b.vsnsCtrl 15 8 = 0
    || fld b.vsnsCtrl 7 0 = 0 || (sag ≠ 0 && frs ≠ 0 && decide (2 * sag < 2 * frs + 5 * hyst))
    || (frs = 0 && allLanes.any fun l => bitOf (s.lane l).cfg.swapCtrl 0)

/-- Code 0x04 (R206). -/
def staggerWrong (w : Word) : Bool :=
  let base := fld w 20 16
  let slots := fld w 11 8
  decide (22 < base) || slots = 1 || !within 1 100 (fld w 7 0) || decide (24 < base + slots)

/-- The reach d_max of a section exceeds a limit in mm (R245). -/
def reachBeyond (s : State) (limit : Nat) (l : LaneId) : Bool :=
  let x := s.lane l
  let c := x.cfg
  let m := sectMode s l
  let twin := m = 1 || m = 3
  let p := if twin then 1000000 * fld c.umodeCtrl 23 16 + 40000000 else 2000000
  let on := (if twin then loadOnNs x 25500000 else 0) + onLat c
  let off := (if twin then loadOffNs x 25500000 + 10000 else 0) + offLat c
  let run := (p + Max.max on off + 500000) * 12 / 1000
  let q := (2 * c.sectFa.toInt.natAbs) ^ 2 + (2 * c.sectGeoLat.toInt.natAbs + fld c.sectW 15 0) ^ 2
  let lim := 1000 * limit
  m ≠ 0 && (decide (lim < run) || decide ((lim - run) ^ 2 < 250000 * q))

/-- Code 0x06 (R245). -/
def gridWrong (s : State) : Bool :=
  let cell := fld s.swath.grid 6 0
  !within 2 100 cell || allLanes.any (reachBeyond s (12800 * cell))

/-- Code 0x07 (R245). -/
def groundWrong (x : Swath) : Bool :=
  decide (20 < fld x.gsCtrl 20 16) || fld x.gsCtrl 15 8 = 0 || fld x.ctrl 15 8 = 0 || fld x.ctrl 7 6 = 3
    || ((List.range 4).any fun k => bitOf x.gsCtrl k && (gsCal x k = 0 || decide (23 < fld x.gsCtrl 20 16 + 3)))

/-- Code 0x08 of counter n (R265, R393). -/
def counterWrong (s : State) (n : CounterId) : Bool :=
  let c := s.counter n
  let k := c.capSrc
  let base := fld s.swath.gsCtrl 20 16
  decide (2 ≤ fld c.ctrl 21 20) || c.clkSrc = 3 || decide (6 ≤ k) || (c.clkSrc = 1 && n.val = 0) || c.setLen = 1
    || (c.setLen ≠ 0 && decide (24 < n.val + c.setLen)) || decide (23 < c.link)
    || (within 1 4 k && ((bitOf s.swath.gsCtrl (k - 1) && base + (k - 1) ≠ n.val)
      || (List.finRange 24).any fun m => m ≠ n && (s.counter m).capSrc = k))

/-- A vector-table entry is a word of I-RAM (R287). -/
def vecOk (s : State) (t : CoreId) (x : Nat) : Bool :=
  let e := (vecEntry s t x).toNat
  decide (e < 0x20000) && e % 4 = 0

/-- The core that a number names. -/
def coreAt (n : Nat) : Option CoreId := if h : n < 6 then some ⟨n, h⟩ else none

/-- Code 0x09 of a source (R287). -/
def routeWrong (s : State) (x : SourceId) : Bool :=
  let c := s.src x
  c.routeEn &&
    match coreAt c.target.toNat with
    | none => true
    | some t =>
      !vecOk s t x.val ||
        (decide (x.val < 0x200) &&
          match groupOfCore t with
          | some g => g.val ≠ x.val / 128 || !vecOk s (coreOf (partnerOf g)) x.val
          | none => false)

/-- The sources of supervision (R267, R354). -/
def supSources : List SourceId := [0x200, 0x201, 0x202, 0x204, 0x205, 0x206, 0x208, 0x209, 0x20A, 0x20C, 0x20D, 0x20E, 0x210, 0x211]

/-- Code 0x0A (R354). -/
def supWrong (s : State) : Bool :=
  !within 2 10 (fld s.sup.ctrl 19 16) || fld s.sup.ctrl 15 8 = 0 || fld s.sup.fwCore 31 16 = 0 || fld s.sup.fwCore 3 0 = 0
    || (supSources.any fun x => match coreAt (s.src x).target.toNat with | some t => !vecOk s t x.val | none => false)
    || (allGroups.any fun g => !vecOk s (coreOf (partnerOf g)) (spliceSource g).val)

/-- Code 0x0B (R375). -/
def tetherWrong (s : State) : Bool :=
  let t := s.tether
  let e := fld t.ctrl 11 8
  t.posErr || !t.acq || (e ≠ 0 && e ≠ t.n.val) || (!s.solo && decide (1 < t.n.val) && !t.timeLock)

/-- Code 0x05 (R206): the sum of MIN_W over enabled lanes. -/
def minSum (s : State) : Nat := ((allLanes.filter (portBit s)).map fun l => fld (s.lane l).cfg.laneBudget 8 0).sum

/-- The device codes, ascending; `watch` is WATCH in the write that sets RUN, `dry` the CHECK command, which does not count itself as running (R394). -/
def deviceCodes (s : State) (watch dry : Bool) : List Nat :=
  codesOf [
    (0x01, watch),
    (0x02, s.bus.budgetW = 0),
    (0x03, busWrong s),
    (0x04, staggerWrong s.bus.stagger),
    (0x05, decide (s.bus.budgetW.toNat < minSum s)),
    (0x06, s.swath.en && gridWrong s),
    (0x07, s.swath.en && groundWrong s.swath),
    (0x08, (List.finRange 24).any (counterWrong s)),
    (0x09, allSources.any (routeWrong s) || (List.finRange 6).any fun t => !vecOk s t 0x3FF),
    (0x0A, supWrong s),
    (0x0B, tetherWrong s),
    (0x0C, decide (2 ≤ s.dev.tclkSel.toNat)),
    (0x0D, !s.dev.vconnSupOk && allLanes.any fun l => portBit s l && bitOf (s.lane l).cfg.ccCtrl 6),
    (0x0E, s.mbx.busy && !dry)]

-- resources

/-- The claims of a section line (R265): PIN_OWN, CAP_SRC = 5 and the swath engine. -/
def lineClaims (s : State) (m : LaneId) : Nat :=
  ((List.finRange 24).map fun n =>
    let c := s.counter n
    if fld c.act 30 26 = m.val then b2n (bitOf c.act 31) + b2n (decide (c.capSrc = 5)) else 0).sum + b2n (sectLine s m)

/-- The owners that claim a counter by themselves (R265). -/
def ownClaim (s : State) (n : CounterId) : List Nat :=
  (if fld (s.counter n).ctrl 21 20 = 1 then [1] else []) ++ (if (gsClaim s n).isSome then [2] else []) ++ (if slotClaim s n then [3] else [])

/-- The leaders of the sets to which a counter belongs (R261). -/
def setsOf (s : State) (n : CounterId) : List CounterId :=
  (List.finRange 24).filter fun m => 2 ≤ (s.counter m).setLen && m.val ≤ n.val && decide (n.val < m.val + (s.counter m).setLen)

/-- The owners of a counter, with those of the leaders of its sets (R265). -/
def ownersOf (s : State) (n : CounterId) : List Nat :=
  let all := ownClaim s n ++ (setsOf s n).flatMap (ownClaim s)
  [1, 2, 3].filter all.contains

/-- Code 0x41 of counter n (R265). A CAP_SRC that names the ground-speed input which claims the counter is that claim's own (R262). -/
def counterClash (s : State) (n : CounterId) : Bool :=
  let c := s.counter n
  let own := ownersOf s n
  let cap := c.capSrc ≠ 0 && gsClaim s n ≠ some (c.capSrc - 1)
  let used := c.link ≠ n.val || bitOf c.act 31 || cap || c.setLen ≠ 0
  decide (2 ≤ own.length) || decide (2 ≤ (setsOf s n).length) || (used && fld c.ctrl 21 20 = 0)
    || (c.link ≠ n.val && match counterOf c.link with | some m => ownersOf s m ≠ [] && ownersOf s m ≠ own | none => false)

/-- The shared-RAM sections of the stored image that meet MBX_BUF, the event log region or one another, by index (R393, R396). -/
def sharedClash (s : State) : List Nat :=
  let h := storeBytes s
  let xs := ((List.range 16).map fun i => (i, sectionAt h i)).filter fun p => p.2.kind = 5
  if !magicOk h then []
  else (xs.filter fun p => rangesMeet p.2.dest p.2.size 0x400000 0x4000 || rangesMeet p.2.dest p.2.size 0x5C0000 0x40000
    || xs.any fun q => q.1 ≠ p.1 && rangesMeet p.2.dest p.2.size q.2.dest q.2.size).map Prod.fst

/-- The codes 0x40–0x43, each by ascending ITEM (R393). -/
def resourceFails (s : State) : List CheckFail :=
  ((allLanes.filter fun m => decide (2 ≤ lineClaims s m)).map fun m => { code := 0x40, item := m.val })
    ++ (((List.finRange 24).filter (counterClash s)).map fun n => { code := 0x41, item := n.val })
    ++ ((sharedClash s).map fun i => { code := 0x42, item := i })
    ++ ((allLanes.filter fun l => bitOf (s.lane l).cfg.umodeCtrl 1 && fld (s.lane l).cfg.laneCtrl 5 4 = 1).map fun l => { code := 0x43, item := l.val })

/-- The codes 0x60–0x73 (R394). -/
def imageCodes (s : State) : List Nat :=
  codesOf [
    (0x60, s.sec.hwType.isNone),
    (0x61, pdSvid s = 0 && allLanes.any fun l => fld (s.lane l).cfg.umodeCtrl 1 0 ≠ 0),
    (0x62, fuseBusy s),
    (0x70, s.image.activating),
    (0x71, s.tether.excluded),
    (0x72, (List.finRange 6).any fun t => (s.core t).imgVer ≠ (s.core 0).imgVer),
    (0x73, (List.finRange 6).any fun t => (s.core t).declared &&& ~~~(s.core t).valid ≠ 0)]

-- the check

/-- Every failure of a check at RUN, in the order of R393. -/
def runFails (s : State) (watch dry : Bool) : List CheckFail :=
  ((deviceCodes s watch dry).map fun k => { code := k })
    ++ (allLanes.flatMap fun l => (runLaneCodes s l).map fun k => { code := k, lane := l.val })
    ++ resourceFails s
    ++ ((imageCodes s).map fun k => { code := k })

/-- The failures of a check that a running mailbox command meets: with code 0x0E in its place (R393, R395). -/
def withBusy (fs : List CheckFail) : List CheckFail :=
  if fs.any fun f => f.code = 0x0E then fs
  else (fs.takeWhile fun f => decide (f.code < 0x0E)) ++ { code := 0x0E } :: fs.dropWhile fun f => decide (f.code < 0x0E)

/-- DEV_CHECK of a check: SRC, DRY, the lane of a lane check, and the first failure with MORE (R384, R392, R393). -/
def checkWord (src dry : Bool) (lane : Nat) (fs : List CheckFail) : Word :=
  match fs with
  | [] => packFields [(b2n src, 31), (b2n dry, 29), (lane, 16)]
  | f :: r => packFields [(b2n src, 31), (b2n (r ≠ []), 30), (b2n dry, 29), (f.lane, 16), (f.item, 8), (f.code, 0)]

/-- A check writes DEV_CHECK, and a failure sets HOST_IRQ.CHECK (R392). -/
def State.noteCheck (s : State) (src dry : Bool) (lane : Nat) (fs : List CheckFail) : State :=
  let s1 := s.modDev fun d => { d with devCheck := checkWord src dry lane fs }
  if fs = [] then s1 else s1.irq 1

end Sys2Proof.Machine
end

