-- ==== Sys2Proof/Machine/Power.lean ====
section
/-! DEFINITION. Supplies, reset and the operating states (files 01, 16, 20): power-up and RESET# (R386, R387, R446), isolation by the power dies (R10, R155), VSYS_WARN (R136, R431), DEV_CTRL and the transitions that it starts (R16–R23, R384, R392, R395), PORT_EN (R2, R43, R392), group idle (R17), and the end of a takeover (R349). -/

namespace Sys2Proof.Machine

-- supplies and reset

/-- VSYS becomes valid (R386 steps 1 and 2); an alarm condition that still holds is detected (R422), here and at every later step of BOOT. -/
def execPowerUp (s : State) : Out :=
  let s1 := s.powerReset.modDev fun d => { d with vsysOk := true }
  .next (if s.dev.resetLow then s1 else s1.readFuses.redetect)

/-- RESET# goes low (R14, R387). -/
def execResetAsserted (s : State) : Out := .next (s.modDev fun d => { d with resetLow := true }).resetDevice

/-- RESET# is released (R387): the boot sequence runs from step 2. -/
def execResetReleased (s : State) : Out :=
  if s.dev.resetLow then
    let s1 := s.modDev fun d => { d with resetLow := false }
    .next (if s.dev.vsysOk then s1.readFuses.redetect else s1)
  else .next s

/-- VSYS is not valid (R446): the device resets and stays without power. -/
def execVsysNotValid (s : State) : Out := .next (s.modDev fun d => { d with vsysOk := false }).resetDevice

/-- VCORE and VIO are in range (R386 step 3, R12): XIN starts on a device in BOOT whose sequence no alarm has stopped (R16). -/
def execVcoreAndVioInRange (s0 : State) : Out :=
  let s := s0.redetect
  let s1 := s.modDev fun d => { d with vcoreOk := true, vioOk := true }
  if s.dev.state = .boot && s.dev.vsysOk && !s.dev.resetLow && !s.dev.xin then
    let s2 := s1.readFuses.modDev fun d => { d with xin := true }
    .next (s2.forEach allGroups fun st g => st.modGroup g fun y => { y with linkOk := true })
  else .next s1

/-- The PLL locks (R386 step 4): the event log region is cleared and S0 starts in the boot ROM. -/
def execPllLocked (s0 : State) : Out :=
  let s := s0.redetect
  if s.dev.state = .boot && s.dev.xin && !s.dev.pll then
    let s1 := s.modDev fun d => { d with pll := true }
    .next (({ s1 with mem := memClear s1.mem logBase 0x300000 }).startCore 4 0)
  else .next s

-- isolation by the power dies

/-- A power die isolates a lane (R10, R155, R161): VCONN goes off, a lane in service trips with CAUSE 8, and the steps that need the digital die wait. -/
def State.isolateLane (s : State) (l : LaneId) : State :=
  let x := s.lane l
  let s1 := s.modCc l fun c => { c with vconnOn := false }
  if x.belay.sw ≠ 0 || x.conv.on || x.belay.want ≠ .none || x.cc.vconnOn then
    (s1.tripPath l 8 false false).modBelay l fun b => { b with deferred := true }
  else s1.sampleCause l 8

/-- The link of a die is lost: the die isolates every lane that it serves (R10). -/
def State.loseLink (s : State) (g : GroupId) : State := (s.modGroup g fun y => { y with linkOk := false }).forEach (lanesOf g) State.isolateLane

/-- VCORE leaves its range (R10, R11). -/
def execVcoreOutOfRange (s : State) : Out := .next ((s.modDev fun d => { d with vcoreOk := false }).forEach allGroups State.loseLink)

/-- VIO is low (R446): link frames stop and the lanes go safe. -/
def execVioLow (s : State) : Out := .next ((s.modDev fun d => { d with vioOk := false }).forEach allGroups State.loseLink)

/-- LINK_ERR counts n more frames with a bad check (R432). -/
def Group.badFrames (y : Group) (n : Nat) : Group := { y with linkErr := BitVec.ofNat 16 (Min.min 0xFFFF (y.linkErr.toNat + n)) }

/-- A link carries no valid frame for 10 µs (R10). How many frames with a bad check came in that time is a free value (R432, DESIGN CHOICE, log 113). -/
def execLinkFrameTimeout (g : GroupId) (s : State) : Out :=
  let (v, s1) := s.free
  .next ((s1.modGroup g fun y => y.badFrames (v.toNat % 2 ^ 16)).loseLink g)

/-- The steps of a CAUSE 8 trip that waited for the digital die (R155). -/
def State.deferredSteps (s : State) (l : LaneId) : State :=
  if (s.lane l).belay.deferred then (((s.modBelay l fun b => { b with deferred := false }).voidArm l 2).tripRecord l) else s

/-- VCORE and a link have returned (R155); VCONN that was due while the die was down comes back (R35, R446; DEDUCED, log 115). -/
def execLinkRestored (g : GroupId) (s : State) : Out :=
  let s1 := (s.modDev fun d => { d with vcoreOk := true, vioOk := true }).modGroup g fun y => { y with linkOk := true }
  let s2 := s1.forEach (lanesOf g) State.deferredSteps
  .next (s2.forEach (lanesOf g) fun st l => if (st.lane l).pd.hrBusy || (st.lane l).cc.vconnRetry then st else st.vconnBack l).settle

/-- VSYS falls through WARN_V (R136, R431). -/
def execVsysWarn (s : State) : Out :=
  if s.dev.vsysWarn then .next s
  else .next (((s.modDev fun d => { d with vsysWarn := true, warnEvt := true }).post 0x21A).forEach allLanes State.freezePackWrite)

/-- VSYS rises above WARN_V + 0.5 V (R136, R431); the writes that VSYS_WARN cancelled wait for 1 s more. -/
def execVsysWarnClear (s : State) : Out :=
  if s.dev.vsysWarn then .next ((s.modDev fun d => { d with vsysWarn := false, vsysRose := some d.dtime }).post 0x21A)
  else .next s

-- entering RUN

/-- A passed check enters RUN (R16, R265, R392): counters are claimed, the lanes with their PORT_EN go live, and the device takes its part in the stack. -/
def State.enterRunOn (s : State) (ports : LaneId → Bool) : State :=
  let s1 := (s.modDev fun d => { d with state := .run, run := true, everRun := true }).claimCounters
  let s3 := s1.startGs.forEach allLanes fun st l => (st.modLane l fun x => { x with enabled := ports l }).enterUnattached l
  s3.takeRole

/-- The check at RUN, from its start to its end (R392). -/
def State.runCheck (s : State) (watch : Bool) : State :=
  let fs := runFails s watch false
  let s1 := s.noteCheck false false 0 fs
  if fs = [] then s1.enterRunOn (portBit s) else s1.modDev fun d => { d with run := false }

/-- The check at RUN starts, and judges the settings as they stand (R392, R395). -/
def State.startCheck (s : State) (watch : Bool) : State :=
  let ports : Word := (allLanes.map fun l => if portBit s l then BitVec.ofNat 32 (2 ^ l.val) else 0).foldl (· ||| ·) 0
  s.modDev fun d => { d with check := some { fails := runFails s watch false, ports := ports } }

/-- A lane ends its service (R43). In HOLDOVER a lane with a contract keeps it until the takeover ends (R22). -/
def State.dropLane (s : State) (l : LaneId) : State :=
  if s.dev.takeover.isSome && (s.lane l).cc.attached && (s.lane l).con.valid then s
  else (s.modLane l fun x => { x with enabled := false }).leaveService l

/-- The lane check at PORT_EN (R392). A pass brings a lane live that is not attached; one that is live already goes on, and one whose hard reset of R43 still runs follows at its end. A failure returns PORT_EN to 0. -/
def State.laneCheck (s : State) (l : LaneId) : State :=
  let fs : List CheckFail := (laneCodes s l).map fun k => { code := k, lane := l.val }
  let s1 := s.noteCheck true false l.val fs
  let x := s.lane l
  if fs = [] then
    let s2 := s1.modLane l fun y => { y with enabled := true }
    if x.cc.attached || x.pd.hrBusy || (x.enabled && x.cc.st ≠ .disabled) then s2 else s2.enterUnattached l
  else
    let s2 := s1.modCfg l fun c => { c with laneCtrl := setFld c.laneCtrl 0 0 0 }
    if x.enabled then s2.dropLane l else s2

/-- A lane follows its PORT_EN: a set bit on a lane not yet enabled starts the lane check, a cleared one ends its service (R43, R392). A bit set in a state other than RUN is stored, and checked when RUN is entered (DESIGN CHOICE, log 84). -/
def State.followPort (s : State) (l : LaneId) : State :=
  let x := s.lane l
  if portBit s l && !x.enabled then (if s.dev.state = .run && s.dev.takeover.isNone then s.laneCheck l else s)
  else if !portBit s l && x.enabled then s.dropLane l
  else s

/-- A write of LANE_CTRL (R2, R391, R392): a write of PORT_EN = 1 in RUN starts the lane check. On a lane fused off PORT_EN is refused with 0x2F, and before RUN the refused bit stays known to the check at RUN (log 58). -/
def State.storeLaneCtrl (s : State) (l : LaneId) (v : Word) : State :=
  if s.fusedOff l then
    let s1 := if bitOf v 0 then s.noteCheck true false l.val [{ code := 0x2F, lane := l.val }] else s
    if s.dev.state = .run then s1 else s1.modCfg l fun c => { c with laneCtrl := v &&& 1 }
  else
    let s1 := s.modCfg l fun c => { c with laneCtrl := mergeMask (if s.locked then 1 else 0x31) c.laneCtrl v }
    if bitOf v 0 && s.dev.state = .run && s.dev.takeover.isNone then s1.laneCheck l else s1.followPort l

/-- A check at RUN that ran on ends (R392, R395): a mailbox command that it meets fails it, and after a pass each PORT_EN written meanwhile has its own lane check. -/
def State.endCheck (s : State) (j : CheckJob) : State :=
  let fs := if s.mbx.busy then withBusy j.fails else j.fails
  let s1 := (s.modDev fun d => { d with check := none }).noteCheck false false 0 fs
  if fs = [] then (s1.enterRunOn fun l => bitOf j.ports l.val).forEach allLanes State.followPort else s1.modDev fun d => { d with run := false }

-- leaving RUN and WATCH

/-- RUN is cleared in RUN (R16), and the counters that hardware claimed are released (R262, R263). -/
def State.stopRun (s : State) : State := ((s.releaseCounters.forEach allLanes State.leaveService).modDev fun d => { d with trans := .stopping, watch := false }).settle

/-- Whether a lane has no partner and waits for one. -/
def CcLane.alone (c : CcLane) : Bool := c.st = .unattachedSrc || c.st = .unattachedSnk

/-- Watch entry starts (R18); a lane that has no partner then reports one that comes during the entry (R23). -/
def State.startWatch (s : State) : State :=
  (s.forEach allLanes fun st l => (st.modCc l fun c => { c with entrySeen := !c.alone }).leaveService l).modDev fun d => { d with trans := .enteringWatch }

/-- The CC pins of every lane open, and no lane probes any more. -/
def State.openPins (s : State) : State := s.forEach allLanes fun st l => st.modCc l fun c => { c with st := .disabled }

/-- WATCH ends in READY (R16, R23): the map is powered again (R20). -/
def State.watchToReady (s : State) : State :=
  ((s.openPins.modDev fun d => { d with run := false, watch := false, pll := true }).modSwath fun x => { x with powered := true }).enterReady.wakePending

/-- WATCH ends in RUN (R16, R21): partners go through attach from the start. -/
def State.watchToRun (s : State) : State :=
  let s1 := s.modDev fun d => { d with state := .run, trans := .none, watch := false, pll := true }
  let s2 := s1.modSwath fun x => { x with powered := true }
  let s3 := s2.forEach allLanes fun st l => if (st.lane l).enabled then st.enterUnattached l else st.followPort l
  s3.takeRole.wakePending

/-- The device acts on RUN and WATCH as they stand (R16, R18, R21, R23); `watch` is WATCH in the write that sets RUN (R394). In READY a set RUN has its check, or ends the one that runs, and a cleared one abandons it with DEV_CHECK unchanged (R395). -/
def State.actCtrl (s : State) (watch : Bool) : State :=
  match s.dev.state with
  | .ready =>
    match s.dev.check with
    | some j => if s.dev.run then s.endCheck j else s.modDev fun d => { d with check := none }
    | none => if s.dev.run then s.runCheck watch else s
  | .run => if s.dev.trans ≠ .none then s else if !s.dev.run then s.stopRun else if s.dev.watch then s.startWatch else s
  | .watch => if !s.dev.run then s.watchToReady else if !s.dev.watch then s.watchToRun else s
  | _ => s

/-- RUN and WATCH as a write leaves them (R18, R22, R23, R384). -/
def ctrlBits (d : Dev) (run watch : Bool) : Bool × Bool :=
  match d.state with
  | .ready => if d.trans = .none then (run, false) else (d.run, d.watch)
  | .run =>
    match d.trans with
    | .none => (run, run && watch)
    | .enteringWatch => (d.run && run, watch)
    | _ => (d.run, d.watch)
  | .holdover => (run, watch)
  | .watch => if d.trans = .none then (d.run && run, d.watch && watch) else (d.run, d.watch)
  | _ => (d.run, d.watch)

/-- A write of DEV_CTRL (R384). While the warden has taken over it is stored, and acted on at the end (R22). -/
def State.storeDevCtrl (s : State) (v : Word) : State :=
  let b := ctrlBits s.dev (bitOf v 0) (bitOf v 1)
  let s1 := s.modDev fun d => { d with mapKeep := bitOf v 2, run := b.1, watch := b.2 }
  if s.dev.takeover.isSome || s.dev.trans ≠ .none then s1 else s1.actCtrl (bitOf v 1)

/-- A write of DEV_CTRL by its address: in READY one that sets RUN only starts the check, which the row RUN_SET ends (R392, R395; DESIGN CHOICE, log 17). -/
def State.writeDevCtrl (s : State) (v : Word) : State :=
  if s.dev.state = .ready && s.dev.trans = .none && s.dev.takeover.isNone && bitOf v 0 then
    let s1 := s.modDev fun d => { d with mapKeep := bitOf v 2, run := true, watch := false }
    if s.dev.check.isSome then s1 else s1.startCheck (bitOf v 1)
  else s.storeDevCtrl v

/-- A write of RUN = 1 (R392). -/
def execRunSet (a : Agent) (v : Word) (s : State) : Out := if hostServed s a then .next (s.storeDevCtrl v) else .next s

/-- A write of RUN = 0 (R16). -/
def execRunClear (a : Agent) (v : Word) (s : State) : Out := if hostServed s a then .next (s.storeDevCtrl v) else .next s

/-- A write of WATCH = 1 (R18). -/
def execWatchSet (a : Agent) (v : Word) (s : State) : Out := if hostServed s a then .next (s.storeDevCtrl v) else .next s

/-- A write of WATCH = 0 (R21). -/
def execWatchClear (a : Agent) (v : Word) (s : State) : Out := if hostServed s a then .next (s.storeDevCtrl v) else .next s

/-- The map loses its power (R20): its contents are lost and every tile is absent, which is an event where one was not (R235). -/
def State.loseMap (s : State) : State :=
  ({ s with mem := memClear s.mem 0x400000 0x800000 }).dropTiles.modSwath fun x => { x with powered := false, eccBad := [] }

/-- STATE becomes WATCH (R18, R20, R45, R363): the PLL stops, the groups with it, and enabled lanes are probed from a new baseline. -/
def State.enterWatch (s : State) : State :=
  let s1 := (s.modDev fun d => { d with state := .watch, trans := .none, pll := false }).modTether fun t => { t with hitch := false }
  let s2 := s1.forEach allGroups fun st g => st.modGroup g fun y => { y with coreRun := false, leRun := false }
  let s3 := s2.forEach allLanes fun st l =>
    (st.enterUnattached l).modCc l fun c => { c with probeCycles := 0, probeBase := false, probeLast := false, probeRun := 0 }
  if s.dev.mapKeep then s3 else s3.loseMap

/-- Watch entry completes once every lane is safe (R15, R18); RUN or WATCH cleared meanwhile is acted on then (R23). -/
def execWatchEntryComplete (s : State) : Out :=
  if s.dev.trans = .enteringWatch && lanesDown s && s.dev.takeover.isNone then
    if !s.dev.run then .next s.enterReady
    else .next (s.enterWatch.actCtrl false)
  else .next s

-- lanes and groups

/-- A write of PORT_EN = 1 (R392). -/
def execPortEnSet (a : Agent) (l : LaneId) (v : Word) (s : State) : Out := if hostServed s a then .next (s.storeLaneCtrl l v) else .next s

/-- A write of PORT_EN = 0 (R43). -/
def execPortEnClear (a : Agent) (l : LaneId) (v : Word) (s : State) : Out := if hostServed s a then .next (s.storeLaneCtrl l v) else .next s

/-- A source of group g: those of its lanes and its own (R267, R268). -/
def sourceOfGroup (g : GroupId) (x : SourceId) : Bool :=
  (decide (x.val < 0x200) && x.val / 128 = g.val) || (decide (0x200 ≤ x.val) && decide (x.val < 0x210) && (x.val - 0x200) / 4 = g.val)

/-- The conditions under which a group becomes idle (R17). -/
def groupMayIdle (s : State) (g : GroupId) : Bool :=
  s.live && (s.core (coreOf g)).run = .waiting && !(allSources.any fun x => sourceOfGroup g x && (s.src x).pending)
    && (lanesOf g).all fun l => !(s.lane l).conv.on && (s.lane l).con.armState ≠ 2

/-- A group becomes idle (R17). -/
def execGroupIdle (g : GroupId) (s : State) : Out :=
  if groupMayIdle s g then .next (s.modGroup g fun y => { y with coreRun := false, leRun := false }) else .next s

/-- The CHECK command (R389, R392). -/
def execCheck (a : Agent) (tag : Byte) (s : State) : Out :=
  .next (s.mbxRun a 0x01 tag (fun t => t.dev.state = .ready) fun t => (0, t.noteCheck false true 0 (runFails t false true)))

-- the end of a takeover

/-- What waited for the end of a takeover: a transition, PORT_EN and DEV_CTRL (R22, R23). -/
def State.afterTakeover (s : State) : State :=
  let s1 := s.settle
  if s1.dev.trans ≠ .none then s1
  else (if s1.dev.state = .run then s1.forEach allLanes State.followPort else s1).actCtrl false

/-- The attempt succeeds (R349). -/
def execWardenSuccess (s : State) : Out :=
  match s.dev.takeover with
  | some st => if wardenDone s then .next (s.wardenEnd st).afterTakeover else .next s
  | none => .next s

-- time

/-- The period of TCLK in ns (R13, R430): 8 MHz from AON, or 25 MHz from XIN. -/
def tclkPeriod (d : Dev) : Nat := if d.tclkSel = 1 then 40 else 125

/-- DTIME after a tick of `dt` ns at the rate that the tether gives, in 10^-6 ppm (R12, R368). -/
def Dev.advance (d : Dev) (dt : Nat) (rate : Int) : Dev :=
  let f := d.dtFrac + dt * rate
  { d with dtime := d.dtime + ((dt : Int) + Int.fdiv f 1000000000000).toNat, dtFrac := f % 1000000000000 }

/-- Frames with a bad check on the links within a tick (R432): whether one came is a free value, since no command brings it (DESIGN CHOICE, log 113). -/
def State.linkNoise (s : State) : State :=
  s.forEach allGroups fun st g =>
    let (v, s1) := st.free
    s1.modGroup g fun y => y.badFrames (v.toNat % 2)

/-- A tick of the block's time base on an empty queue (DESIGN CHOICE, log 1): DTIME goes on by 8 ns while the PLL runs and by 40 ns on XIN (R12), the stages' ramps with it (R183), and the counters get a TCLK tick for each TCLK period that has passed (R13, R248). Without XIN, without VSYS or under RESET# nothing moves. -/
def State.idleTick (s : State) : State :=
  if !s.dev.xin || !s.dev.vsysOk || s.dev.resetLow then s
  else
    let dt := if s.dev.pll then 8 else 40
    let ph := s.dev.tclkPhase + dt
    let p := tclkPeriod s.dev
    let s1 := s.modDev fun d => { d.advance dt s.tether.rate with tclkPhase := if p ≤ ph then ph - p else ph }
    let s2 : State := { s1 with lanes := s1.lanes.map fun (x : Lane) => { x with conv := x.conv.elapse dt } }
    (if p ≤ ph then s2.tclkTick else s2).linkNoise

end Sys2Proof.Machine
end

