-- ==== Sys2Proof/Machine/Regs.lean ====
section
/-! DEFINITION. The register map (file 19): what a read of a word by the host or a core returns and latches (R427–R436), and what a write of a word does by its access codes (R6, R438), with the rows that are writes or reads of one register. -/

namespace Sys2Proof.Machine

-- access

/-- Word k of a register file; 0 outside it. -/
def vecAt {n : Nat} (v : Vector Word n) (k : Nat) : Word := if h : k < n then v[k] else 0

/-- Replaces word k of a register file. -/
def vecPut {n : Nat} (v : Vector Word n) (k : Nat) (x : Word) : Vector Word n := if h : k < n then v.set k x h else v

/-- A lane number. -/
def laneAt (n : Nat) : LaneId := ⟨n % 32, Nat.mod_lt _ (by decide)⟩

/-- An index below 32. -/
def idx32 (n : Nat) : Fin 32 := ⟨n % 32, Nat.mod_lt _ (by decide)⟩

/-- The policy core that serves lane l (R84, R108, R281). -/
def servesLane (s : State) (a : Agent) (l : LaneId) : Bool := a = .core (serverOf s (groupOf l))

/-- A host read is served while the lines answer, outside BOOT (R377, R386, R439). -/
def hostReads (s : State) (a : Agent) : Bool := !(a = .host && (s.dev.state = .boot || !hspiOn s))

/-- Core t's private memories, vector table and decode table word at a host address, for ECC marks. -/
def ownerOfWord (addr : Nat) : Option CoreId :=
  if 0x800000 ≤ addr ∧ addr < 0x980000 then coreAt ((addr - 0x800000) / 0x40000)
  else if 0xD000 ≤ addr ∧ addr < 0x10000 then coreAt ((addr - 0xD000) / 0x800)
  else if 0xA000 ≤ addr ∧ addr < 0xB000 then some 4
  else if 0xB000 ≤ addr ∧ addr < 0xC000 then some 5
  else if 0x10000 ≤ addr ∧ addr < 0x20000 then coreAt ((addr - 0x10000) / 0x4000)
  else none

/-- Whether the word at a host address holds a two-bit error (R340). -/
def wordBad (s : State) (addr : Nat) : Bool :=
  let w := addr / 4 * 4
  s.sup.eccShared.contains w || s.swath.eccBad.contains w || (match ownerOfWord w with | some t => (s.core t).eccBad.contains w | none => false)

/-- A word written whole holds no error any more; the map's words are rewritten by TILE_LOAD only (R340). -/
def State.clearBad (s : State) (addr : Nat) : State :=
  let w := addr / 4 * 4
  let s1 := s.modSup fun p => { p with eccShared := p.eccShared.filter (· ≠ w) }
  match ownerOfWord w with
  | some t => s1.modCore t fun c => { c with eccBad := c.eccBad.filter (· ≠ w) }
  | none => s1

/-- A whole word stored in memory. -/
def State.storeWord (s : State) (addr : Nat) (v : Word) : State := ({ s with mem := memWrite32 s.mem addr v }).clearBad addr

-- memories

/-- The host reaches a core's memories while debug is unlocked and the core is in debug halt or held in reset (R289, R418). -/
def coreMemoryServed (s : State) (addr : Nat) : Bool :=
  match coreAt ((addr - 0x800000) / 0x40000) with
  | some t => s.sec.unlocked && ((s.core t).run = .debug || (s.core t).run = .debugWaiting || (s.core t).run = .inReset)
  | none => false

/-- An address of a vector table (R273). -/
def isVector (addr : Nat) : Bool :=
  (decide (0xA000 ≤ addr) && decide (addr < 0xC000)) || (decide (0x10000 ≤ addr) && decide (addr < 0x20000) && decide (0x1000 ≤ addr % 0x4000) && decide (addr % 0x4000 < 0x2000))

/-- An address of a decode table (R326). -/
def isDecode (addr : Nat) : Bool := decide (0xD000 ≤ addr) && decide (addr < 0x10000)

/-- A decode-table word may be written by the host, S0 and S1 while its entry is not valid (R327). -/
def decodeMayWrite (s : State) (a : Agent) (addr : Nat) : Bool :=
  match coreAt ((addr - 0xD000) / 0x800) with
  | some t => !(s.core t).valid.getLsbD ((addr - 0xD000) % 0x800 / 0x80) && (match a with | .host => true | .core c => decide (4 ≤ c.val))
  | none => false

/-- Whether an agent may write the memory word at a host address (R236, R289, R326, R355, R381). -/
def memMayWrite (s : State) (a : Agent) (addr : Nat) : Bool :=
  if addr < 0x20000 then isVector addr || (isDecode addr && decodeMayWrite s a addr)
  else if 0x100000 ≤ addr ∧ addr < 0x300000 then !(a = .host && (decide (logBase ≤ addr) || (decide (addr < 0x104000) && s.mbx.busy)))
  else if 0x400000 ≤ addr ∧ addr < 0x800000 then !s.swath.en && s.swath.powered
  else if 0x800000 ≤ addr ∧ addr < 0x980000 then a = .host && coreMemoryServed s addr
  else false

/-- Whether an address lies in a memory region of the host space. -/
def isMemory (addr : Nat) : Bool :=
  isVector addr || isDecode addr || (decide (0x100000 ≤ addr) && decide (addr < 0x300000)) || (decide (0x400000 ≤ addr) && decide (addr < 0x980000))

/-- The word that an agent reads from memory. -/
def memWord (s : State) (a : Agent) (addr : Nat) : Word :=
  if 0x800000 ≤ addr ∧ !(a = .host && coreMemoryServed s addr) then 0 else memRead32 s.mem addr

-- reads

/-- SL_IN (R247, R260): a line that an owner drives shows its level while STATE is RUN or HOLDOVER, any other line what the ball last showed. -/
def slIn (s : State) : Word :=
  (List.finRange 32).foldl (fun w m =>
    let driven : Option Bool :=
      if !s.live then none
      else if sectLine s m then some (slLevel (s.lane m).cfg (s.lane m).sect)
      else ((s.counters.toList.find? fun c => bitOf c.act 31 && fld c.act 30 26 = m.val)).map (·.level)
    if driven.getD (bitOf s.slIn m.val) then w ||| BitVec.ofNat 32 (2 ^ m.val) else w) 0

/-- The lane that a page shows: one fused off shows its reset values (R2). -/
def shownLane (s : State) (l : LaneId) : Lane := if s.fusedOff l then laneReset l else s.lane l

/-- The word at an offset of a lane page as it stands (R433). -/
def laneWord (s : State) (a : Agent) (l : LaneId) (o : Nat) : Word :=
  let x := shownLane s l
  let c := x.cfg
  let temp : Byte := if s.fusedOff l then 0 else (s.group (groupOf l)).dieTemp
  match o with
  | 0x000 => c.laneCtrl
  | 0x004 => laneStatus s l
  | 0x010 => c.ccCtrl
  | 0x014 => ccStatus x.cc
  | 0x020 => rxStatus x.pd
  | 0x024 => rxTime x.pd
  | 0x028 => txCtrlWord c x.pd
  | 0x02C => txStatus x.pd
  | 0x030 => x.pd.txTime
  | 0x034 => c.extPtr
  | 0x0B0 => contractActive x.con
  | 0x0B4 => contractArmed c x.con
  | 0x0B8 => c.armTimeLo
  | 0x0BC => c.armTimeHi
  | 0x0C0 => kaStatus s.dev.dtime x.swap.powerRole x.con
  | 0x0C4 => c.umodeCtrl
  | 0x0C8 => c.twinStandby
  | 0x0CC => c.twinRun
  | 0x0D0 => authStatus x.con
  | 0x100 => c.ilimSet
  | 0x104 => c.ovpSet
  | 0x108 => c.belayCtrl
  | 0x10C => belayWord s.dev.dtime temp x
  | 0x140 => c.convCtrl
  | 0x144 => c.convStage
  | 0x148 => c.convLoop
  | 0x14C => c.convVset
  | 0x150 => c.vconvMax
  | 0x154 => c.convIset
  | 0x158 => c.convRev
  | 0x15C => c.convFf
  | 0x160 => convStatus x.conv
  | 0x164 => convMeas x.conv
  | 0x168 => c.phaseOffset
  | 0x1C0 => c.swapCtrl
  | 0x1C4 => swapStatus x.swap
  | 0x200 => BitVec.ofInt 32 x.tally.q
  | 0x204 => (s.latch a).tallyHi.get l
  | 0x208 => BitVec.ofNat 32 x.tally.thru
  | 0x20C => if s.fusedOff l then 0 else BitVec.ofNat 32 (x.tally.ageAt s.dev.dtime)
  | 0x210 => x.tally.cap
  | 0x214 => tallySoc x.tally
  | 0x218 => c.tallyFullI
  | 0x21C => c.tallyFullT
  | 0x220 => c.tallyEmptyV
  | 0x224 => tallyStatus x.tally
  | 0x240 => c.laneBudget
  | 0x244 => laneAlloc x.budget
  | 0x280 => c.sectFa
  | 0x284 => c.sectGeoLat
  | 0x288 => c.sectW
  | 0x28C => c.sectLat
  | 0x290 => c.sectCtrl
  | 0x294 => sectStatus s.live c x.sect
  | 0x2C0 => c.fwWindow0
  | 0x2C4 => c.fwWindow1
  | 0x2C8 => c.fwThresh
  | 0x2CC => fwCount s.dev.dtime x
  | _ =>
    if o % 4 ≠ 0 then 0
    else if 0x040 ≤ o ∧ o < 0x060 then rxData x.pd ((o - 0x040) / 4)
    else if 0x060 ≤ o ∧ o < 0x080 then vecAt c.txData ((o - 0x060) / 4)
    else if 0x080 ≤ o ∧ o < 0x0AC then vecAt c.pdo ((o - 0x080) / 4)
    else if 0x180 ≤ o ∧ o < 0x19C then vecAt c.cv ((o - 0x180) / 4)
    else if 0x1A0 ≤ o ∧ o < 0x1AC then vecAt c.ci ((o - 0x1A0) / 4)
    else if 0x300 ≤ o ∧ o < 0x340 then laneBitsWord s l ((o - 0x300) / 4)
    else if 0x400 ≤ o ∧ o < 0x500 then vecAt c.laneSave ((o - 0x400) / 4)
    else 0

/-- The word at an offset of a group block as it stands (R432). -/
def groupWord (s : State) (g : GroupId) (o : Nat) : Word :=
  match o with
  | 0x000 => grpStatus s g
  | 0x004 => packFields [((s.group g).linkErr.toNat, 16), (b2n (s.group g).linkOk, 0)]
  | 0x008 => (s.group g).wakes
  | _ => 0

/-- The word at an offset of a counter block as it stands (R247). -/
def counterWord (s : State) (a : Agent) (n : CounterId) (o : Nat) : Word :=
  let c := s.counter n
  match o with
  | 0x00 => c.val
  | 0x04 => (s.latch a).snap.get n
  | 0x08 => c.top
  | 0x0C => c.cmpANew.getD c.cmpA
  | 0x10 => c.cmpBNew.getD c.cmpB
  | 0x14 => cntCtrl c
  | 0x18 => c.act
  | 0x1C => c.cap
  | _ => 0

/-- The word at an offset of an interrupt block as it stands (R285). -/
def icWord (c : IcCore) (o : Nat) : Word :=
  match o with
  | 0x000 => packFields [(b2n c.fdis, 0)]
  | 0x004 => c.curN
  | 0x008 => c.curF
  | 0x00C => mlockWord c
  | 0x010 => icStatus c
  | _ =>
    if 0x080 ≤ o ∧ o < 0x100 then c.mask.get (idx32 ((o - 0x080) / 4))
    else if 0x100 ≤ o ∧ o < 0x180 then icHold c (idx32 ((o - 0x100) / 4))
    else 0

/-- FUSE_WSTATk (R412). -/
def fuseWstat (x : Security) (k : Nat) : Word :=
  (List.range 16).foldl (fun w j => w ||| BitVec.ofNat 32 (((x.wstat.toList[16 * k + j]?).getD 0).toNat * 2 ^ (2 * j))) 0

/-- The shadow's word i (R412). -/
def shadowWord (x : Security) (i : Nat) : Word := if 128 ≤ i ∧ i < 138 then 0 else vecAt x.shadow i

/-- The word of a global register as it stands (R428). -/
def globalWord (s : State) (a : Agent) (o : Nat) : Word :=
  match o with
  | 0x000 => devId s
  | 0x004 => devStatus s.dev
  | 0x008 => devCtrl s.dev
  | 0x00C => s.dev.devCheck
  | 0x010 => s.dev.hostIrq.zeroExtend 32
  | 0x014 => s.dev.hostIrqEn
  | 0x018 => hspiStatus s.dev
  | 0x020 => BitVec.ofNat 32 s.dev.dtime
  | 0x024 => (s.latch a).dtimeHi
  | 0x028 => s.dev.tclkSel.zeroExtend 32
  | 0x02C => vsysMonWord s.dev
  | 0x030 => s.dev.logHead
  | 0x040 => s.bus.budgetW.zeroExtend 32
  | 0x044 => s.bus.vsnsTh
  | 0x048 => s.bus.vsnsCtrl
  | 0x04C => busStatus s.bus
  | 0x050 => s.bus.stagger
  | 0x054 => s.bus.allocSum.zeroExtend 32
  | 0x058 => budgetEff s.bus
  | 0x060 => s.sup.ctrl
  | 0x064 => supStatus s
  | 0x06C => wardenStatus s
  | 0x070 => s.sup.fwCore
  | 0x080 => s.tether.ctrl
  | 0x084 => tetherStatus s
  | 0x088 => tetherTime s.tether
  | 0x114 => mbxStatus s.mbx
  | 0x118 => s.mbx.res0
  | 0x11C => s.mbx.res1
  | 0x200 => imgStatus s
  | 0x204 => s.image.storeVer
  | 0x208 => s.image.runVer
  | 0x20C => s.image.storeAbi
  | 0x210 => s.image.runAbi
  | 0x304 => fuseStatus s
  | 0x308 => alarmStatus s.sec
  | 0x30C => s.sec.policy.zeroExtend 32
  | 0x310 => s.sec.authMode.zeroExtend 32
  | 0x340 => dbgCtrl s.sec
  | 0x1000 => s.swath.ctrl
  | 0x1004 => swathStatus s.swath
  | 0x1008 => s.swath.grid
  | 0x100C => s.swath.e0
  | 0x1010 => s.swath.n0
  | 0x1014 => swathWin s.swath
  | 0x1018 => s.swath.gsCtrl
  | 0x101C => s.swath.gsCal0
  | 0x1020 => s.swath.gsCal1
  | 0x105C => fixCtrl s.swath
  | 0x1060 => BitVec.ofNat 32 s.swath.pps
  | 0x1064 => (s.latch a).ppsHi
  | 0x1070 => mmOf s.swath.e
  | 0x1074 => (s.latch a).poseN
  | 0x1078 => (s.latch a).poseHdg
  | 0x107C => (s.latch a).poseSpd
  | 0x8300 => slIn s
  | _ =>
    if o % 4 ≠ 0 then 0
    else if 0x104 ≤ o ∧ o < 0x114 then vecAt s.mbx.arg ((o - 0x104) / 4)
    else if 0x400 ≤ o ∧ o < 0xC00 then shadowWord s.sec ((o - 0x400) / 4)
    else if 0xC00 ≤ o ∧ o < 0xC80 then fuseWstat s.sec ((o - 0xC00) / 4)
    else if 0x1040 ≤ o ∧ o < 0x105C then vecAt s.swath.fix ((o - 0x1040) / 4)
    else if 0x1080 ≤ o ∧ o < 0x10C0 then tileState s.swath ((o - 0x1080) / 4)
    else if 0x8000 ≤ o ∧ o < 0x8300 then
      (match counterOf ((o - 0x8000) / 0x20) with | some n => counterWord s a n (o % 0x20) | none => 0)
    else if 0x9180 ≤ o ∧ o < 0x9198 then (match coreAt ((o - 0x9180) / 4) with | some t => decCtrlWord (s.core t) | none => 0)
    else if 0x9200 ≤ o ∧ o < 0x9E00 then (match coreAt ((o - 0x9200) / 0x200) with | some t => icWord (s.ic t) (o % 0x200) | none => 0)
    else if 0xC000 ≤ o ∧ o < 0xD000 then (if h : (o - 0xC000) / 4 < 1024 then icSrcWord (s.src ⟨(o - 0xC000) / 4, h⟩) else 0)
    else 0

/-- What a read of a word returns, without its side effects (R427). -/
def peekWord (s : State) (a : Agent) (addr : Nat) : Word :=
  if isMemory addr then memWord s a addr
  else if addr < 0x10000 then globalWord s a addr
  else if addr < 0x20000 then groupWord s ⟨(addr - 0x10000) / 0x4000 % 4, Nat.mod_lt _ (by decide)⟩ (addr % 0x4000)
  else if addr < 0x40000 then laneWord s a (laneAt ((addr - 0x20000) / 0x1000)) (addr % 0x1000)
  else 0

/-- A read of DTIME_LO latches DTIME_HI (R12). -/
def State.latchDtime (s : State) (a : Agent) : State := s.modLatch a fun y => { y with dtimeHi := BitVec.ofNat 32 (s.dev.dtime / 2 ^ 32) }

/-- A read of TALLY_Q_LO latches TALLY_Q_HI (R130). -/
def State.latchTally (s : State) (a : Agent) (l : LaneId) : State :=
  s.modLatch a fun y => { y with tallyHi := y.tallyHi.set l.val (BitVec.ofInt 32 (Int.fdiv (shownLane s l).tally.q (2 ^ 32))) l.isLt }

/-- A read of POSE_E latches POSE_N, POSE_HDG and POSE_SPD (R231). -/
def State.latchPose (s : State) (a : Agent) : State :=
  s.modLatch a fun y => { y with poseN := mmOf s.swath.n, poseHdg := BitVec.ofNat 32 s.swath.hdg, poseSpd := poseSpd s.swath }

/-- A read of PPS_LO latches PPS_HI (R228). -/
def State.latchPps (s : State) (a : Agent) : State := s.modLatch a fun y => { y with ppsHi := BitVec.ofNat 32 (s.swath.pps / 2 ^ 32) }

/-- A read of EVT_LOG_RSV: a core reserves the next record, whose words it fills later, and gets SEQ; the host gets 0 (R357). -/
def State.reserveLog (s : State) (a : Agent) : Word × State :=
  match a with
  | .host => (0, s)
  | .core _ => (s.dev.logHead, s.logAdvance)

/-- A read of a word by an agent, with its side effects (R436). -/
def State.readReg (s : State) (a : Agent) (addr : Nat) : Word × State :=
  let v := peekWord s a addr
  if addr = 0x020 then (v, s.latchDtime a)
  else if addr = 0x034 then s.reserveLog a
  else if addr = 0x1060 then (v, s.latchPps a)
  else if addr = 0x1070 then (v, s.latchPose a)
  else if 0x8000 ≤ addr ∧ addr < 0x8300 ∧ addr % 0x20 = 0 then
    (match counterOf ((addr - 0x8000) / 0x20) with | some n => s.readCntVal a n | none => (v, s))
  else if 0x20000 ≤ addr ∧ addr < 0x40000 then
    let l := laneAt ((addr - 0x20000) / 0x1000)
    if addr % 0x1000 = 0x200 then (v, s.latchTally a l)
    else if addr % 0x1000 = 0x038 ∧ !s.fusedOff l then s.extData l none
    else (v, s)
  else (v, s)

-- writes of lane registers

/-- Changes configuration words of a lane that are RWL throughout (R6). -/
def State.cfgRwl (s : State) (l : LaneId) (f : LaneCfg → LaneCfg) : State := if s.locked then s else s.modCfg l f

/-- A write of CC_STATUS (R39, R41): the events clear, and the serving policy core stores the cable fields. -/
def State.storeCcStatus (s : State) (a : Agent) (l : LaneId) (v : Word) : State :=
  let s1 := s.modCc l fun c =>
    { c with detachEvt := c.detachEvt && !bitOf v 12, attachEvt := c.attachEvt && !bitOf v 11, vconnOc := c.vconnOc && !bitOf v 10 }
  let s2 :=
    if servesLane s a l then
      s1.modCc l fun c =>
        { c with cableEpr := bitOf v 18, cableVmax := BitVec.ofNat 2 (fld v 17 16), cableImax := BitVec.ofNat 2 (fld v 15 14), cableValid := bitOf v 13 }
    else s1
  if bitOf v 9 && a = .host then s2.cutClear l else s2

/-- A write of PD_RX_STATUS (R56). -/
def State.storeRxStatus (s : State) (l : LaneId) (v : Word) : State :=
  let s1 := s.modPd l fun p =>
    { p with hrRcvd := p.hrRcvd && !bitOf v 20, extUnchunked := p.extUnchunked && !bitOf v 19, extAbort := p.extAbort && !bitOf v 18,
             extTooBig := p.extTooBig && !bitOf v 17, ovf := p.ovf && !bitOf v 16, ovfCnt := if bitOf v 16 then 0 else p.ovfCnt }
  if bitOf v 13 then s1.popHead l else s1

/-- A write of PD_TX_CTRL (R61): HARD_RESET acts alone, and CABLE_RESET before SEND. -/
def State.storeTxCtrl (s : State) (l : LaneId) (v : Word) : State :=
  let s1 := s.modCfg l fun c => { c with txCtrl := v &&& 0x33 }
  if bitOf v 9 then s1.hardReset l
  else
    let s2 := if bitOf v 10 then s1.cableReset l else s1
    if bitOf v 8 then s2.sendStaged l else s2

/-- A write of CONTRACT_ACTIVE by the serving policy core (R84): a contract brings its keep-alive deadline (R85), clears HR_COUNT (R72) and breaks the full-anchor condition (R131). -/
def State.storeContract (s : State) (a : Agent) (l : LaneId) (v : Word) : State :=
  if !servesLane s a l then s
  else
    let s1 := s.modTally l fun t => { t with cv := false, cvDone := false }
    if bitOf v 31 then
      ((s1.modPd l fun p => { p with hrCount := 0 }).modCon l fun c =>
        { c with valid := true, epr := bitOf v 30, kind := BitVec.ofNat 2 (fld v 29 28), objPos := BitVec.ofNat 4 (fld v 27 24),
                 volt := BitVec.ofNat 14 (fld v 23 10), curr := BitVec.ofNat 10 (fld v 9 0),
                 kaKind := kaOf (bitOf v 30) (BitVec.ofNat 2 (fld v 29 28)), kaStart := s.dev.dtime }).modConv l fun c => { c with fallen := false }
    else s1.modCon l fun c => { c.clearContract with kaKind := 0 }

/-- A write of BELAY_CTRL with STEST_NOW, whose outcome no operand gives: free values (R163, log 3). -/
def State.storeBelayWord (s : State) (l : LaneId) (v : Word) : State :=
  let s1 := s.storeBelayCtrl l v
  if bitOf v 2 then
    let (r, s2) := s1.free
    s2.selfTestRun l { aPol := r.getLsbD 0, aRef := r.getLsbD 1, bPol := r.getLsbD 2, bRef := r.getLsbD 3, othersPass := r.getLsbD 4,
                         ma := ((r >>> 8).truncate 16 : BitVec 16).toInt }
  else s1

/-- A write of BELAY_STATUS (R164). -/
def State.storeBelayStatus (s : State) (l : LaneId) (v : Word) : State :=
  s.modBelay l fun b => { b with disagree := b.disagree && !bitOf v 15, backfeed := b.backfeed && !bitOf v 14, tripEvt := b.tripEvt && !bitOf v 13 }

/-- A write of SWAP_CTRL (R106). -/
def State.storeSwapCtrl (s : State) (l : LaneId) (v : Word) : State :=
  let s1 := s.cfgRwl l fun c => { c with swapCtrl := v &&& 0x03FF000F }
  if bitOf v 8 then s1.prsReq l else s1

/-- A write of SWAP_STATUS (R108): SWAP_EVT clears, and the serving policy core stores FRS_CAP. -/
def State.storeSwapStatus (s : State) (a : Agent) (l : LaneId) (v : Word) : State :=
  let s1 := s.modSwap l fun w => { w with evt := w.evt && !bitOf v 8 }
  if servesLane s a l then s1.modSwap l fun w => { w with frsCap := bitOf v 10 } else s1

/-- A write of TALLY_STATUS (R130). -/
def State.storeTallyStatus (s : State) (l : LaneId) (v : Word) : State :=
  let s1 := s.modTally l fun t => { t with capNew := t.capNew && !bitOf v 10, anchorEvt := t.anchorEvt && !bitOf v 9 }
  let s2 := if bitOf v 1 then s1.anchor l 2 else s1
  if bitOf v 0 then s2.tallyClear l else s2

/-- A write of a word of a lane page, by its offset (R433). A lane fused off ignores all but LANE_CTRL (R2). -/
def State.writeLane (s : State) (a : Agent) (l : LaneId) (o : Nat) (v : Word) : State :=
  if o = 0 then s.storeLaneCtrl l v
  else if s.fusedOff l then s
  else match o with
  | 0x010 => s.cfgRwl l fun c => { c with ccCtrl := v &&& 0x00077F7F }
  | 0x014 => s.storeCcStatus a l v
  | 0x020 => s.storeRxStatus l v
  | 0x028 => s.storeTxCtrl l v
  | 0x02C => s.modPd l fun p => { p with txDone := p.txDone && !bitOf v 20, hrDone := p.hrDone && !bitOf v 21 }
  | 0x034 => s.modCfg l fun c => { c with extPtr := v &&& 0x000101FC }
  | 0x038 => (s.extData l (some v)).2
  | 0x0B0 => s.storeContract a l v
  | 0x0B4 => s.storeArmed l v
  | 0x0B8 => s.modCfg l fun c => { c with armTimeLo := v }
  | 0x0BC => s.modCfg l fun c => { c with armTimeHi := v }
  | 0x0C4 => s.cfgRwl l fun c => { c with umodeCtrl := v &&& 0x00FF0F03 }
  | 0x0C8 => s.cfgRwl l fun c => { c with twinStandby := v &&& 0x00FF03FF }
  | 0x0CC => s.cfgRwl l fun c => { c with twinRun := v &&& 0x00FF03FF }
  | 0x100 => s.storeIlim l v
  | 0x104 => s.cfgRwl l fun c => { c with ovpSet := v &&& 0x3FFF0F0F }
  | 0x108 => s.storeBelayWord l v
  | 0x10C => s.storeBelayStatus l v
  | 0x140 => s.cfgRwl l fun c => { c with convCtrl := v &&& 0x0FFFFF83 }
  | 0x144 => s.cfgRwl l fun c => { c with convStage := v }
  | 0x148 => s.cfgRwl l fun c => { c with convLoop := v &&& 0x00FFFFFF }
  | 0x14C => s.storeConvVset l v
  | 0x150 => s.cfgRwl l fun c => { c with vconvMax := v &&& 0x3FFF }
  | 0x154 => s.storeConvIset l v
  | 0x158 => s.modCfg l fun c => { c with convRev := v &&& 0x3FFF3FFF }
  | 0x15C => s.modCfg l fun c => { c with convFf := v &&& 0x1FFFF }
  | 0x160 => s.modConv l fun c => { c with slewTo := c.slewTo && !bitOf v 0 }
  | 0x168 => s.storePhase l v
  | 0x1C0 => s.storeSwapCtrl l v
  | 0x1C4 => s.storeSwapStatus a l v
  | 0x210 => s.modTally l fun t => { t with cap := v }
  | 0x218 => s.cfgRwl l fun c => { c with tallyFullI := v &&& 0x3FF }
  | 0x21C => s.cfgRwl l fun c => { c with tallyFullT := v &&& 0xFFF }
  | 0x220 => s.cfgRwl l fun c => { c with tallyEmptyV := v &&& 0x3FFF }
  | 0x224 => s.storeTallyStatus l v
  | 0x240 => s.modCfg l fun c => { c with laneBudget := mergeMask (if s.locked then 0x07000000 else 0x071FF1FF) c.laneBudget v }
  | 0x280 => s.cfgRwl l fun c => { c with sectFa := v }
  | 0x284 => s.cfgRwl l fun c => { c with sectGeoLat := v }
  | 0x288 => s.cfgRwl l fun c => { c with sectW := v &&& 0xFFFF }
  | 0x28C => s.cfgRwl l fun c => { c with sectLat := v }
  | 0x290 => s.storeSectCtrl l v
  | 0x294 =>
    let y := (s.lane l).sect
    let s1 := s.modSect l fun y => { y with shedMiss := y.shedMiss && !bitOf v 9, armMiss := y.armMiss && !bitOf v 8 }
    if (y.shedMiss && bitOf v 9) || (y.armMiss && bitOf v 8) then s1.postLane l 9 else s1
  | 0x2C0 => s.cfgRwl l fun c => { c with fwWindow0 := v }
  | 0x2C4 => s.cfgRwl l fun c => { c with fwWindow1 := v &&& 0xFFFF }
  | 0x2C8 => s.cfgRwl l fun c => { c with fwThresh := v &&& 0xFFF }
  | 0x2CC => if bitOf v 18 then s.protoEnd l else s
  | _ =>
    if o % 4 ≠ 0 then s
    else if 0x060 ≤ o ∧ o < 0x080 then s.modCfg l fun c => { c with txData := vecPut c.txData ((o - 0x060) / 4) v }
    else if 0x080 ≤ o ∧ o < 0x0AC then s.cfgRwl l fun c => { c with pdo := vecPut c.pdo ((o - 0x080) / 4) v }
    else if 0x180 ≤ o ∧ o < 0x19C then s.cfgRwl l fun c => { c with cv := vecPut c.cv ((o - 0x180) / 4) v }
    else if 0x1A0 ≤ o ∧ o < 0x1AC then s.cfgRwl l fun c => { c with ci := vecPut c.ci ((o - 0x1A0) / 4) v }
    else if 0x400 ≤ o ∧ o < 0x500 then s.modCfg l fun c => { c with laneSave := vecPut c.laneSave ((o - 0x400) / 4) v }
    else s

-- writes of global registers

/-- A write of VSYS_MON (R431). -/
def State.storeVsysMon (s : State) (v : Word) : State :=
  s.modDev fun d =>
    { d with warnV := if s.locked then d.warnV else BitVec.ofNat 8 (clampNat 80 250 (fld v 15 8)), warnEvt := d.warnEvt && !bitOf v 1 }

/-- The commands of R389. -/
def mbxCodes : List Nat := [0x01, 0x02, 0x03, 0x04, 0x10, 0x11, 0x20, 0x21]

/-- A write of MBX_CMD (R388): ignored under BUSY; a command outside R389 ends with 0x02, and one in HOLDOVER with 0x01 (R390). -/
def State.storeMbxCmd (s : State) (v : Word) : State :=
  if s.mbx.busy then s
  else
    let s1 := (s.modMbx fun m => { m with busy := true, tag := BitVec.ofNat 8 (fld v 15 8), code := BitVec.ofNat 8 (fld v 7 0) }).post 0x230
    if s.dev.state = .holdover then s1.mbxEnd 0x01 else if mbxCodes.contains (fld v 7 0) then s1 else s1.mbxEnd 0x02

/-- A write of SUP_STATUS clears MISS_EVT bits (R346). -/
def State.storeSupStatus (s : State) (v : Word) : State :=
  s.forEach (List.finRange 6) fun st t => if bitOf v t.val then st.modCore t fun c => { c with missEvt := false } else st

/-- A write of FIX_CTRL (R226). -/
def State.storeFixCtrl (s : State) (v : Word) : State := if bitOf v 0 then s.fixCommit else s

/-- A write of a staging register of a fix (R226). -/
def State.storeFix (s : State) (k : Nat) (v : Word) : State :=
  let w := if k = 2 then v &&& 0x007FFFFF else if k = 4 then v &&& 0x8000FFFF else v
  s.modSwath fun x => { x with fix := vecPut x.fix k w }

/-- Core t, or another agent, writes word k of core t's masks (R280, R283, R284): what the core itself changes takes effect four instructions later, as any control-register write (R298). -/
def State.storeMask (s : State) (a : Agent) (t : CoreId) (k : Fin 32) (v : Word) : State :=
  if a = .core t then
    let old := (s.ic t).mask.get k
    (s.modIc t fun i => { i with mask := i.mask.set k.val v k.isLt }).modCore t fun c => { c with flight := c.flight ++ [.icMask 4 k (old ^^^ v) v] }
  else
    let s1 := match chosen s t with
      | some x => if x.val / 32 = k.val && !(s.src x).fast && bitOf v (x.val % 32) then s.withdraw t x else s
      | none => s
    ((s1.modIc t fun i => { i with mask := i.mask.set k.val v k.isLt, maskEff := i.maskEff.set k.val v k.isLt }).overMask t k 0xFFFFFFFF).wakeIfReady t

/-- A write of FDIS (R279, R283): one of the core itself takes effect four instructions later (R298). -/
def State.storeFdis (s : State) (a : Agent) (t : CoreId) (v : Bool) : State :=
  if a = .core t then (s.modIc t fun i => { i with fdis := v }).modCore t fun c => { c with flight := c.flight ++ [.fdis 4 v] }
  else (s.modIc t fun i => { i with fdis := v, fdisEff := v }).modCore t fun c => c.mapFlight fun xs => xs.filter fun x => !x.isFdis

/-- A write of IC_MLOCK (R282, R285). -/
def State.storeMlock (s : State) (t : CoreId) (v : Word) : State :=
  let s1 := if bitOf v 3 then s.lockRelease t else s
  let s2 := if bitOf v 2 then s1.modIc t fun i => { i with broken := false } else s1
  if bitOf v 0 then s2.lockTake t else s2

/-- A write of a word of core t's interrupt block (R285). -/
def State.writeIc (s : State) (a : Agent) (t : CoreId) (o : Nat) (v : Word) : State :=
  match o with
  | 0x000 => s.storeFdis a t (bitOf v 0)
  | 0x00C => s.storeMlock t v
  | 0x010 => if bitOf v 0 then s.modIc t fun i => { i with mispost := 0 } else s
  | _ =>
    if o % 4 ≠ 0 then s
    else if 0x080 ≤ o ∧ o < 0x100 then s.storeMask a t (idx32 ((o - 0x080) / 4)) v
    else if 0x100 ≤ o ∧ o < 0x180 then s.modIc t fun i => { i with hold := i.hold.set ((o - 0x100) / 4 % 32) (v.truncate 16) (Nat.mod_lt _ (by decide)) }
    else s

/-- The source numbers that R267 and R268 mark reserved, and 0x3FF, which is never a source. -/
def sourceReserved (n : Nat) : Bool :=
  if n < 0x200 then 10 < n % 16
  else if n < 0x210 then n % 4 = 3
  else (decide (0x243 ≤ n) && decide (n < 0x300)) || decide (0x3E0 ≤ n)

/-- A write of IC_SRC (R269); reserved sources ignore it (R270). -/
def State.storeSrc (s : State) (a : Agent) (x : SourceId) (v : Word) : State :=
  if sourceReserved x.val then s else
  let s1 := if bitOf v 17 then s.icClear a x else s
  let s2 := s1.modSrc x fun c => { c with sat := c.sat && !bitOf v 21 }
  if s.locked then s2
  else
    let s3 := s2.modSrc x fun c =>
      { c with cntEn := bitOf v 16, group := BitVec.ofNat 5 (fld v 12 8), fast := bitOf v 4, routeEn := bitOf v 3, target := BitVec.ofNat 3 (fld v 2 0) }
    match coreAt (fld v 2 0) with
    | some t => s3.wakeIfReady t
    | none => s3

/-- A write of a word of a counter block (R247). -/
def State.writeCounter (s : State) (a : Agent) (n : CounterId) (o : Nat) (v : Word) : State :=
  match o with
  | 0x00 => s.storeCntVal a n v
  | 0x08 => s.storeCntTop a n v
  | 0x0C => s.storeCntCmp a n false v
  | 0x10 => s.storeCntCmp a n true v
  | 0x14 => s.storeCntCtrl a n v
  | 0x18 => s.storeCntAct a n v
  | 0x1C => s.storeCntCap a n v
  | _ => s

/-- A write of FUSE_CTRL (R417): the measurement that MEAS starts is a free value where no operand gives it (log 3). -/
def State.storeFuseCtrl (s : State) (v : Word) : State :=
  if bitOf v 0 then
    let (r, s1) := s.free
    s1.measVprog (r.truncate 12)
  else s

/-- A write of a global register, by its address (R428). -/
def State.writeGlobal (s : State) (a : Agent) (o : Nat) (v : Word) : State :=
  match o with
  | 0x008 => s.writeDevCtrl v
  | 0x010 => s.modDev fun d => { d with hostIrq := d.hostIrq &&& ~~~(v.truncate 11) }
  | 0x014 => s.modDev fun d => { d with hostIrqEn := v &&& 0x7FF }
  | 0x018 => if bitOf v 0 then s.modDev fun d => { d with hspiAborted := 0, hspiRefused := 0, hspiLast := 0 } else s
  | 0x028 => if s.locked then s else s.modDev fun d => { d with tclkSel := v.truncate 2, tclkPhase := if d.tclkSel = v.truncate 2 then d.tclkPhase else 0 }
  | 0x02C => s.storeVsysMon v
  | 0x040 => s.storeBudget a v
  | 0x044 => if s.locked then s else s.modBus fun b => { b with vsnsTh := v }
  | 0x048 => if s.locked then s else s.modBus fun b => { b with vsnsCtrl := v &&& 0x00FFFFFF }
  | 0x04C => if bitOf v 18 then s.modBus fun b => { b with frsEvt := false } else s
  | 0x050 => if s.locked then s else s.modBus fun b => { b with stagger := v &&& 0x001F0FFF }
  | 0x060 => s.modSup fun p => { p with ctrl := mergeMask (if s.locked then 0x03F00000 else 0x03FFFF00) p.ctrl v }
  | 0x064 => s.storeSupStatus v
  | 0x068 => s.storeCoreRst a v
  | 0x070 => if s.locked then s else s.modSup fun p => { p with fwCore := v &&& 0xFFFF000F }
  | 0x080 => s.storeTetherCtrl v
  | 0x100 => s.storeMbxCmd v
  | 0x114 => if bitOf v 30 then s.modMbx fun m => { m with done := false } else s
  | 0x300 => s.storeFuseCtrl v
  | 0x308 => s.modSec fun x => { x with sources := x.sources &&& ~~~(v.truncate 6) }
  | 0x30C => s.storePolicy v
  | 0x310 => s.storeSecCtrl v
  | 0x33C => s.dbgAttempt v
  | 0x340 => if bitOf v 1 then s.relockDebug else s
  | 0x1000 => s.storeSwathCtrl v
  | 0x1004 => s.storeSwathStatus v
  | 0x1008 => if s.locked then s else s.modSwath fun x => { x with grid := v &&& 0x7F }
  | 0x100C => if s.locked then s else s.modSwath fun x => { x with e0 := v }
  | 0x1010 => if s.locked then s else s.modSwath fun x => { x with n0 := v }
  | 0x1018 => if s.locked then s else s.modSwath fun x => { x with gsCtrl := v &&& 0x001FFF0F }
  | 0x101C => if s.locked then s else s.modSwath fun x => { x with gsCal0 := v }
  | 0x1020 => if s.locked then s else s.modSwath fun x => { x with gsCal1 := v }
  | 0x105C => s.storeFixCtrl v
  | _ =>
    if o % 4 ≠ 0 then s
    else if 0x104 ≤ o ∧ o < 0x114 then s.modMbx fun m => { m with arg := vecPut m.arg ((o - 0x104) / 4) v }
    else if 0x320 ≤ o ∧ o < 0x33C then s.modSec fun x => { x with dbgPass := vecPut x.dbgPass ((o - 0x320) / 4) v }
    else if 0x1040 ≤ o ∧ o < 0x105C then s.storeFix ((o - 0x1040) / 4) v
    else if 0x8000 ≤ o ∧ o < 0x8300 then (match counterOf ((o - 0x8000) / 0x20) with | some n => s.writeCounter a n (o % 0x20) v | none => s)
    else if 0x9000 ≤ o ∧ o < 0x9018 then
      (match coreAt ((o - 0x9000) / 4) with | some t => s.ringDoorbell t ⟨v.toNat % 1024, Nat.mod_lt _ (by decide)⟩ | none => s)
    else if 0x9180 ≤ o ∧ o < 0x9198 then (match coreAt ((o - 0x9180) / 4) with | some t => s.storeDec a t v | none => s)
    else if 0x9200 ≤ o ∧ o < 0x9E00 then (match coreAt ((o - 0x9200) / 0x200) with | some t => s.writeIc a t (o % 0x200) v | none => s)
    else if 0xC000 ≤ o ∧ o < 0xD000 then (if h : (o - 0xC000) / 4 < 1024 then s.storeSrc a ⟨(o - 0xC000) / 4, h⟩ v else s)
    else s

/-- A write of a word by an agent (R6, R427, R438); a word that does not lie on a word boundary, or to which nothing is assigned, is ignored. -/
def State.writeReg (s : State) (a : Agent) (addr : Nat) (v : Word) : State :=
  if addr % 4 ≠ 0 then s
  else if isMemory addr then (if memMayWrite s a addr then s.storeWord addr v else s)
  else if addr < 0x10000 then s.writeGlobal a addr v
  else if addr < 0x20000 then
    if addr % 0x4000 = 4 && bitOf v 1 then s.modGroup ⟨(addr - 0x10000) / 0x4000 % 4, Nat.mod_lt _ (by decide)⟩ fun y => { y with linkErr := 0 } else s
  else if addr < 0x40000 then s.writeLane a (laneAt ((addr - 0x20000) / 0x1000)) (addr % 0x1000) v
  else s

-- rows: writes

/-- An action of a register write, where the host is served (R439). -/
def State.byWrite (s : State) (a : Agent) (f : State → State) : Out := if hostServed s a then .next (f s) else .next s

/-- An action of a write in the page of a lane that is not fused off (R2). -/
def State.byLaneWrite (s : State) (a : Agent) (l : LaneId) (f : State → State) : Out := s.byWrite a fun st => if st.fusedOff l then st else f st

/-- A write to a register with no row of its own, or to memory (R6). -/
def execRegisterWrite (a : Agent) (addr : Nat) (v : Word) (s : State) : Out := s.byWrite a fun st => st.writeReg a addr v

/-- CUT = 1 written (R39). -/
def execCutClear (a : Agent) (l : LaneId) (s : State) : Out := s.byLaneWrite a l fun st => if a = .host then st.cutClear l else st
/-- A write of PD_TX_CTRL with SEND (R57, R61). -/
def execSend (a : Agent) (l : LaneId) (v : Word) (s : State) : Out := s.byLaneWrite a l fun st => st.storeTxCtrl l v
/-- POP = 1 (R56). -/
def execPop (a : Agent) (l : LaneId) (s : State) : Out := s.byLaneWrite a l fun st => st.popHead l
/-- CABLE_RESET = 1 (R73). -/
def execCableReset (a : Agent) (l : LaneId) (s : State) : Out := s.byLaneWrite a l fun st => st.cableReset l
/-- A write of CONTRACT_ARMED with ARM (R98, R99). -/
def execArm (a : Agent) (l : LaneId) (v : Word) (s : State) : Out := s.byLaneWrite a l fun st => st.storeArmed l v
/-- A write of CONTRACT_ARMED with DISARM (R101). -/
def execDisarm (a : Agent) (l : LaneId) (v : Word) (s : State) : Out := s.byLaneWrite a l fun st => st.storeArmed l v
/-- PRS_REQ = 1 (R106). -/
def execPrsReq (a : Agent) (l : LaneId) (s : State) : Out := s.byLaneWrite a l fun st => st.prsReq l
/-- EMPTY_MARK = 1 (R130). -/
def execEmptyMark (a : Agent) (l : LaneId) (s : State) : Out := s.byLaneWrite a l fun st => st.anchor l 2
/-- CLR = 1 in TALLY_STATUS (R130). -/
def execClr (a : Agent) (l : LaneId) (s : State) : Out := s.byLaneWrite a l fun st => st.tallyClear l
/-- STEST_NOW = 1 with the outcome of its test (R158, R163). -/
def execStestNow (a : Agent) (l : LaneId) (r : TestResult) (s : State) : Out := s.byLaneWrite a l fun st => st.selfTestRun l r
/-- LATCH_CLR = 1 (R157). -/
def execLatchClr (a : Agent) (l : LaneId) (s : State) : Out := s.byLaneWrite a l fun st => st.latchClear l
/-- A write of ILIM_SET (R141). -/
def execIlimSet (a : Agent) (l : LaneId) (v : Word) (s : State) : Out := s.byLaneWrite a l fun st => st.storeIlim l v
/-- A write of SHED_ILIM in BELAY_CTRL (R144, R163). -/
def execShedIlim (a : Agent) (l : LaneId) (v : Word) (s : State) : Out := s.byLaneWrite a l fun st => st.storeBelayWord l v
/-- A write of CONV_VSET (R182). -/
def execConvVset (a : Agent) (l : LaneId) (v : Word) (s : State) : Out := s.byLaneWrite a l fun st => st.storeConvVset l v
/-- A write of CONV_ISET (R185). -/
def execConvIset (a : Agent) (l : LaneId) (v : Word) (s : State) : Out := s.byLaneWrite a l fun st => st.storeConvIset l v
/-- A write of PHASE_OFFSET (R173). -/
def execPhaseOffset (a : Agent) (l : LaneId) (v : Word) (s : State) : Out := s.byLaneWrite a l fun st => st.storePhase l v
/-- A write of SECT_CTRL (R237). -/
def execSectCtrl (a : Agent) (l : LaneId) (v : Word) (s : State) : Out := s.byLaneWrite a l fun st => st.storeSectCtrl l v
/-- PROTO_LAST = 1 (R336, R338). -/
def execProtoLast (a : Agent) (l : LaneId) (s : State) : Out := s.byLaneWrite a l fun st => st.protoEnd l
/-- An access to PD_EXT_DATA (R463): `wr` is the word written, absent for a read; a read is served in HALTED too (R439). -/
def execPdExtData (a : Agent) (l : LaneId) (wr : Option Word) (s : State) : Out :=
  if (if wr.isSome then hostServed s a else hostReads s a) && !s.fusedOff l then .next (s.extData l wr).2 else .next s

/-- A write of BUS_BUDGET (R202). -/
def execBusBudget (a : Agent) (v : Word) (s : State) : Out := s.byWrite a fun st => st.storeBudget a v
/-- COMMIT = 1 (R226). -/
def execFixCommit (a : Agent) (s : State) : Out := s.byWrite a State.fixCommit
/-- A write of CNTn_VAL (R250). -/
def execCntnVal (a : Agent) (n : CounterId) (v : Word) (s : State) : Out := s.byWrite a fun st => st.storeCntVal a n v
/-- A write of CNTn_TOP (R250). -/
def execCntnTop (a : Agent) (n : CounterId) (v : Word) (s : State) : Out := s.byWrite a fun st => st.storeCntTop a n v
/-- A write of CNTn_CMPA or CNTn_CMPB (R258). -/
def execCntnCmp (a : Agent) (n : CounterId) (b : Bool) (v : Word) (s : State) : Out := s.byWrite a fun st => st.storeCntCmp a n b v
/-- A write of CNTn_CTRL (R251). -/
def execCntnCtrl (a : Agent) (n : CounterId) (v : Word) (s : State) : Out := s.byWrite a fun st => st.storeCntCtrl a n v
/-- A write of CNTn_CAP (R254, R255). -/
def execCntnCap (a : Agent) (n : CounterId) (v : Word) (s : State) : Out := s.byWrite a fun st => st.storeCntCap a n v
/-- A write of DEC_CTRL (R327). -/
def execDecCtrl (a : Agent) (t : CoreId) (v : Word) (s : State) : Out := s.byWrite a fun st => st.storeDec a t v
/-- A write of CORE_RST (R347). -/
def execCoreRst (a : Agent) (v : Word) (s : State) : Out := s.byWrite a fun st => st.storeCoreRst a v
/-- A write of TETHER_CTRL with SOLO (R369, R374). -/
def execSolo (a : Agent) (v : Word) (s : State) : Out := s.byWrite a fun st => st.storeTetherCtrl v
/-- CLR = 1 in HSPI_STATUS (R383). -/
def execHspiClr (a : Agent) (s : State) : Out := s.byWrite a fun st => st.modDev fun d => { d with hspiAborted := 0, hspiRefused := 0, hspiLast := 0 }
/-- MEAS = 1 with the voltage that it finds (R417). -/
def execMeas (a : Agent) (mv : BitVec 12) (s : State) : Out := s.byWrite a fun st => st.measVprog mv
/-- A write of DBG_PASS7 (R418). -/
def execDbgPass7 (a : Agent) (v : Word) (s : State) : Out := s.byWrite a fun st => st.dbgAttempt v
/-- RELOCK = 1 (R417, R418). -/
def execRelock (a : Agent) (s : State) : Out := s.byWrite a State.relockDebug
/-- A write of ALARM_POLICY (R417). -/
def execAlarmPolicy (a : Agent) (v : Word) (s : State) : Out := s.byWrite a fun st => st.storePolicy v
/-- A write of SEC_CTRL (R417). -/
def execSecCtrl (a : Agent) (v : Word) (s : State) : Out := s.byWrite a fun st => st.storeSecCtrl v
/-- A write of VSYS_MON (R431). -/
def execVsysMon (a : Agent) (v : Word) (s : State) : Out := s.byWrite a fun st => st.storeVsysMon v

-- rows: reads

/-- A read of a register by an agent, where it is served (R439): its side effects. -/
def State.byRead (s : State) (a : Agent) (addr : Nat) : Out := if hostReads s a then .next (s.readReg a addr).2 else .next s

/-- A read of DTIME_LO (R12). -/
def execDtimeLoRead (a : Agent) (s : State) : Out := s.byRead a 0x020
/-- A read of EVT_LOG_RSV (R357). -/
def execEvtLogRsv (a : Agent) (s : State) : Out := s.byRead a 0x034
/-- A read of PPS_LO (R228). -/
def execPpsLoRead (a : Agent) (s : State) : Out := s.byRead a 0x1060
/-- A read of POSE_E (R231). -/
def execPoseERead (a : Agent) (s : State) : Out := s.byRead a 0x1070
/-- A read of CNTn_VAL (R253). -/
def execCntnValRead (a : Agent) (n : CounterId) (s : State) : Out := s.byRead a (0x8000 + 0x20 * n.val)
/-- A read of TALLY_Q_LO (R130). -/
def execTallyQLoRead (a : Agent) (l : LaneId) (s : State) : Out := s.byRead a (0x20200 + 0x1000 * l.val)

end Sys2Proof.Machine
end

