-- ==== Sys2Proof/Machine/HostPort.lean ====
section
/-! DEFINITION. The host port (file 16): HSPI transactions as bytes (R377–R383, R439, R467), with the checks of their header and payload, and the two CRCs they use (R378). -/

namespace Sys2Proof.Machine

-- CRCs

/-- One byte of the CRC-8 of polynomial 0x07, most significant bit first (R323, R378). -/
def crc8Byte (c b : Byte) : Byte := (List.range 8).foldl (fun (x : Byte) _ => if x.getLsbD 7 then (x <<< 1) ^^^ 7 else x <<< 1) (c ^^^ b)

/-- HCRC over a list of bytes (R378). -/
def crc8 (bs : List Byte) : Byte := bs.foldl crc8Byte 0

/-- One byte of the CRC-32 of IEEE 802.3, least significant bit first (R323, R378). -/
def crc32Byte (c : Word) (b : Byte) : Word :=
  (List.range 8).foldl (fun (x : Word) _ => if x.getLsbD 0 then (x >>> 1) ^^^ 0xEDB88320 else x >>> 1) (c ^^^ b.zeroExtend 32)

/-- The payload CRC over a list of bytes (R378). -/
def crc32 (bs : List Byte) : Word := ~~~(bs.foldl crc32Byte 0xFFFFFFFF)

-- headers and regions

/-- A big-endian number (R378). -/
def beNat (bs : List Byte) : Nat := bs.foldl (fun n b => 256 * n + b.toNat) 0

/-- The fields of an 8-byte header (R378). -/
structure HspiHeader where
  cmd : Nat := 0
  addr : Nat := 0
  len : Nat := 0
  crcOk : Bool := false
deriving DecidableEq, Repr

/-- The header of a transaction. -/
def hspiHeader (bs : List Byte) : HspiHeader :=
  { cmd := beNat (bs.take 1), addr := beNat ((bs.drop 1).take 4), len := beNat ((bs.drop 5).take 2), crcOk := bs[7]? = some (crc8 (bs.take 7)) }

/-- The address behind the region that holds an address (R382). -/
def regionEnd (a : Nat) : Option Nat :=
  if a < 0x10000 then some 0x10000
  else if a < 0x20000 then some ((a / 0x4000 + 1) * 0x4000)
  else if a < 0x40000 then some ((a / 0x1000 + 1) * 0x1000)
  else if 0x100000 ≤ a ∧ a < 0x300000 then some 0x300000
  else if 0x400000 ≤ a ∧ a < 0x800000 then some 0x800000
  else if 0x800000 ≤ a ∧ a < 0x980000 then
    let base := a / 0x40000 * 0x40000
    some (if a - base < 0x20000 then base + 0x20000 else if a - base < 0x30000 then base + 0x30000 else base + 0x40000)
  else none

/-- Every word of a read is DEV_ID or DEV_STATUS, which BOOT serves (R386). -/
def bootServed (h : HspiHeader) : Bool := h.cmd = 3 && decide (h.addr + 4 * h.len ≤ 8)

/-- The tests of a transaction before its payload, in the order of R381; 0 = accepted. -/
def hspiTest (s : State) (h : HspiHeader) : Nat :=
  if !h.crcOk then 0x01
  else if h.cmd ≠ 2 && h.cmd ≠ 3 then 0x07
  else if h.len = 0 || 256 < h.len then 0x03
  else if h.addr % 4 ≠ 0 then 0x06
  else match regionEnd h.addr with
  | none => 0x05
  | some e =>
    if e < h.addr + 4 * h.len then 0x04
    else if s.dev.state = .boot && !bootServed h then 0x08
    else if h.cmd = 2 && s.dev.state = .halted then 0x0B
    else if h.cmd = 2 && s.mbx.busy && 0x100000 ≤ h.addr && h.addr < 0x104000 then 0x0C
    else 0

/-- A refusal (R381, R383). -/
def State.refuseHspi (s : State) (code : Nat) : State :=
  (s.modDev fun d => { d with hspiRefused := satInc d.hspiRefused, hspiLast := BitVec.ofNat 4 code }).post 0x231

/-- A transaction that HCS# ends early (R383). -/
def State.abortHspi (s : State) : State := s.modDev fun d => { d with hspiAborted := satInc d.hspiAborted }

-- payloads

/-- The words of a payload (R378). -/
def payloadWord (bs : List Byte) (k : Nat) : Word := wordAt ((bs.drop (8 + 4 * k)).take 4)

/-- The words of a write are applied in address order (R379); one that resets or halts the device ends the transaction. -/
def State.applyWrite (s : State) (h : HspiHeader) (bs : List Byte) : State :=
  s.forEach (List.range h.len) fun st k => if hostServed st .host then st.writeReg .host (h.addr + 4 * k) (payloadWord bs k) else st

/-- One word that a read fetches: a word with a two-bit error is sent as ones, with the ECC status (R340, R381). -/
def State.fetchWord (s : State) (addr : Nat) : Word × Bool × State :=
  if isMemory addr && wordBad s addr then (0xFFFFFFFF, true, s)
  else
    let p := s.readReg .host addr
    (p.1, false, p.2)

/-- The first n words from an address, whether one was bad, and the side effects of their fetches (R380). -/
def State.fetchWords (s : State) (addr : Nat) : Nat → List Word × Bool × State
  | 0 => ([], false, s)
  | n + 1 =>
    let p := s.fetchWord addr
    let q := p.2.2.fetchWords (addr + 4) n
    (p.1 :: q.1, p.2.1 || q.2.1, q.2.2)

/-- A transaction that came over the lines whole, or ended by HCS# (R379, R380, R467): what the device drove, and what it did. `ended` says where HCS# ended an accepted read; absent, the read went to its end. -/
def State.transact (s : State) (bs : List Byte) (ended : Option ReadCut) : List Byte × State :=
  if bs.length < 8 then ([], s.abortHspi)
  else
    let h := hspiHeader bs
    let st := hspiTest s h
    if st = 1 || st = 7 || (h.cmd = 2 && st = 3) then ([], s.refuseHspi st)
    else if h.cmd = 2 then
      if bs.length < 12 + 4 * h.len then ([], s.abortHspi)
      else
        let pay := (bs.drop 8).take (4 * h.len)
        let st2 := if st = 0 && payloadWord bs h.len ≠ crc32 pay then 2 else st
        if st2 ≠ 0 then ([BitVec.ofNat 8 st2], s.refuseHspi st2)
        else
          let s1 := s.applyWrite h bs
          (if hspiOn s1 then [0] else [], s1)
    else if st ≠ 0 then ([BitVec.ofNat 8 st], s.refuseHspi st)
    else
      match ended with
      | some .turnaround => ([], s.abortHspi)
      | some (.status fetched) => ([], (s.fetchWords h.addr (if fetched then 1 else 0)).2.2.abortHspi)
      | some (.data k ahead) =>
        let q := s.fetchWords h.addr (Min.min h.len (k + (if ahead then 2 else 1)))
        (0 :: wordBytes (q.1.take k), q.2.2.abortHspi)
      | none =>
        let q := s.fetchWords h.addr h.len
        let data := wordBytes q.1
        (0 :: data ++ wordBytes [crc32 data] ++ [if q.2.1 then 0x09 else 0], q.2.2)

/-- The device drives every nibble as 0xF from its last byte until HCS# rises (R379, R380): after the status of a write, and after a leading status that is not 0x00. -/
def onesAfter (bs out : List Byte) : Bool := out.length = 1 && ((hspiHeader bs).cmd = 2 || out ≠ [0])

/-- A transaction over the lines, where they answer (R377): hspiOut and hspiOnes are what the device drives. -/
def State.hspi (s : State) (bs : List Byte) (ended : Option ReadCut) : State :=
  if hspiOn s then
    let p := s.transact bs ended
    p.2.modDev fun d => { d with hspiOut := p.1, hspiOnes := onesAfter bs p.1 }
  else s.modDev fun d => { d with hspiOut := [], hspiOnes := false }

/-- A write transaction (R379). -/
def execHspiWrite (bytes : List Byte) (s : State) : Out := .next (s.hspi bytes none)

/-- A read transaction (R380). -/
def execHspiRead (bytes : List Byte) (ended : Option ReadCut) (s : State) : Out := .next (s.hspi bytes ended)

end Sys2Proof.Machine
end

