-- ==== Sys2Proof/Machine/Frames.lean ====
section
/-! DEFINITION. Tether frames (R363–R367, R371): what a device takes from a downstream or upstream frame and what it sends on, and tunnelled HSPI transactions (R370, R389). -/

namespace Sys2Proof.Machine

-- tunnels

/-- Bytes in parts of at most 240, at least one part (R367). -/
def tunnelCut : Nat → List Byte → List (List Byte)
  | 0, bs => [bs]
  | n + 1, bs => if bs.length ≤ 240 then [bs] else bs.take 240 :: tunnelCut n (bs.drop 240)

/-- The tunnel records of a byte string: part numbers, bit 7 marking the last (R367). -/
def tunnelRecords (pos : Fin 8) (tag : Byte) (bs : List Byte) : List TetherRecord :=
  let ps := tunnelCut 8 bs
  ps.zipIdx.map fun p => .tunnel pos tag (BitVec.ofNat 8 (p.2 + if p.2 + 1 = ps.length then 128 else 0)) p.1

/-- The answer to a TUNNEL is stored and the command ends (R389). -/
def State.tunnelAnswer (s : State) (bs : List Byte) : State :=
  let s1 := ({ s with mem := memWriteList s.mem (mbxBuf + 0x2000) bs }).modMbx fun m => { m with res0 := BitVec.ofNat 32 bs.length }
  s1.mbxEnd 0

/-- A tunnel record for this device's position (R370): a part of the answer it waits for, or of a request whose origin the tag names (log 50). The last part completes it; a request is then executed as if it came over HSPI. An answer that no transaction waits for any more is dropped. Part 0 begins a transaction anew, and one of which a part is missing comes to nothing (DESIGN CHOICE, log 118). -/
def State.takeTunnel (s : State) (tag part : Byte) (data : List Byte) : State :=
  let mine : Bool := match s.tether.tunnelOut with | some e => e.2 = tag | none => false
  let origin : Nat := if mine then 8 else tag.toNat / 32
  let k := part.toNat % 128
  let held : Nat × List Byte :=
    if k = 0 then (0, []) else match s.tether.tunnelRx.find? fun e => e.1 = origin && e.2.1 = tag with | some e => e.2.2 | none => (0, [])
  let rest := s.tether.tunnelRx.filter fun e => !(e.1 = origin && e.2.1 = tag)
  let bs := held.2 ++ data
  if !mine && tag.toNat / 32 = ownPos s then s
  else if held.1 = k && !part.getLsbD 7 then s.modTether fun t => { t with tunnelRx := (origin, tag, k + 1, bs) :: rest }
  else
    let s1 := s.modTether fun t => { t with tunnelRx := rest }
    if held.1 ≠ k then s1
    else if mine then
      let s2 := s1.modTether fun t => { t with tunnelOut := none }
      if s2.mbx.busy && s2.mbx.code = 0x04 then s2.tunnelAnswer bs else s2
    else if s1.dev.state = .boot then s1
    else
      let p := s1.transact bs none
      p.2.queueRecords (tunnelRecords ⟨tag.toNat / 32 % 8, Nat.mod_lt _ (by decide)⟩ tag p.1)

/-- The transaction that MBX_BUF holds (R389): its header names its length (R378). -/
def tunnelBytes (s : State) : List Byte :=
  let h := hspiHeader (memBytes s.mem mbxBuf 8)
  memBytes s.mem mbxBuf (if h.cmd = 2 then 12 + 4 * (h.len % 512) else 8)

/-- What the device knows of a tunnel's target (R390): absent, in BOOT or without a position; there; or nothing, where the target lies between it and the hitch, so that no frame it sees carries the target's slot. -/
def tunnelKnown (s : State) (p : Fin 8) : Option Bool :=
  let t := s.tether
  let there (r : Option SlotReport) : Option Bool := match r with | some x => some (decide (x.state ≠ 0)) | none => some false
  if t.pos.isNone || decide (t.n.val ≤ p.val) then some false
  else if t.hitch then (if t.missing.get p then some false else there (t.slots.get p))
  else if p = t.hitchPos then some true
  else if onSide s p (match t.facing with | .tu => .td | .td => .tu) then there (t.seen.find? fun r => r.pos = p)
  else none

/-- Whether a tunnel's target is absent, in BOOT or without a position (R390): as the frames tell it, and otherwise a free value (log 49). -/
def State.tunnelAbsent (s : State) (p : Fin 8) : Bool × State :=
  match tunnelKnown s p with
  | some v => (!v, s)
  | none =>
    let (v, s1) := s.free
    (v.getLsbD 0, s1)

/-- The TUNNEL command as it starts (R370, R389). -/
def State.tunnelStart (s : State) (tag : Byte) : State :=
  let p : Fin 8 := ⟨fld (vecAt s.mbx.arg 0) 2 0, by unfold fld; omega⟩
  if s.tether.pos = some p then
    let r := s.transact (tunnelBytes s) none
    if r.2.mbx.busy then r.2.tunnelAnswer r.1 else r.2
  else
    let (absent, s1) := s.tunnelAbsent p
    let t := BitVec.ofNat 8 (32 * ownPos s + tag.toNat % 32)
    if absent then s1.mbxEnd 0x08
    else (s1.modTether fun x => { x with tunnelOut := some (p, t) }).queueRecords (tunnelRecords p t (tunnelBytes s))

/-- The TUNNEL command (R370, R389, R390). While a transaction of this device waits for its answer, the row is the end of its time (result 0x07). -/
def execTunnel (a : Agent) (tag : Byte) (s : State) : Out :=
  if s.dev.state = .halted || s.dev.state = .boot || (if s.mbx.busy then s.mbx.code ≠ 0x04 else !hostServed s a) then .next s
  else if s.mbx.busy && s.tether.tunnelOut.isSome then .next s.tunnelLost
  else
    let s1 := if s.mbx.busy then s else (s.modMbx fun m => { m with busy := true, tag := tag, code := 0x04 }).post 0x230
    if s1.dev.state = .holdover then .next (if s.mbx.busy then s else s1.mbxEnd 0x01)
    else if !mbxServed s1 then .next s1
    else if s1.dev.state = .ready || s1.dev.state = .run then .next (s1.tunnelStart s1.mbx.tag)
    else .next (s1.mbxEnd 0x03)

-- records of a frame

/-- A record of a downstream frame (R367). -/
def State.takeDownRecord (s : State) (r : TetherRecord) : State :=
  match r with
  | .stagger _ _ _ => s
  | .mark tx ty row col len => s.applyMark tx ty row col len
  | .chunk tx ty i data => s.takeChunk tx ty i data
  | .tunnel p tag part data => if s.tether.pos = some p then s.takeTunnel tag part data else s

/-- A record of an upstream frame at the hitch (R367): stagger requests wait for the next budget frame (R219), marks are applied and sent on, tunnel records taken or sent on downstream. -/
def State.takeUpRecord (s : State) (r : TetherRecord) : State :=
  match r with
  | .stagger p l t => s.askSwitch p.val l.val t
  | .mark tx ty row col len => s.applyMark tx ty row col len
  | .chunk _ _ _ _ => s
  | .tunnel p tag part data => if s.tether.pos = some p then s.takeTunnel tag part data else s.queueRecords [r]

/-- Source 0x238 of a frame received with a correct CRC (R267). -/
def State.frameReceived (s : State) (crcOk : Bool) : State := if crcOk then s.post 0x238 else s

-- downstream frames

/-- The port away from the hitch has no link: the device ends the chain (R364). -/
def chainEnd (s : State) : Bool := match s.tether.facing with | .tu => !s.tether.tdUp | .td => !s.tether.tuUp

/-- The header of a hitch's frame (R365, R371, R373): whom the device follows, and what that hitch reports of the stack. A hitch that yields is no longer the reference for time: where its DTIME lies apart, TIME_LOCK ends (R369). -/
def State.followHitch (s : State) (p : Port) (f : DownFrame) : State :=
  let t := s.tether
  let newHitch := t.hitch || !t.heard || t.hitchPos ≠ f.hitchPos
  let s1 := s.modTether fun t =>
    { t with hitch := false, heard := true, facing := p, hitchPos := f.hitchPos, hitchVer := f.version, n := if f.n = 0 then t.n else f.n, succ := f.succ }
  let s0 := if t.hitch && t.apart then (s.keepCarriers s1).setTimeLock false else s.keepCarriers s1
  let s2 := if f.resValid then s0.modBus fun b => { b with effSag := f.sag, effCredit := f.credit, effW := f.effW, allocSum := f.allocSum } else s0
  if newHitch then s2.hitchChanged else if t.hitchVer ≠ f.version then s2.testVersion else s2

/-- Whether the last upstream frame of the device carried its lane's stagger request and was good (R365, R376). -/
def requestSent (s : State) (l : LaneId) : Bool :=
  match s.tether.up, (s.lane l).budget.staggerReq with
  | some u, some t => u.crcOk && u.records.any fun r => match r with | .stagger _ m v => m = l && v = t | _ => false
  | _, _ => false

/-- The ceilings and holds of the lanes behind this device, from their reported wants and the hitch's results, which it takes up as successor (R221, R371). -/
def State.followOthers (s : State) (f : DownFrame) : State :=
  if s.tether.up.isNone then s
  else
    let prev : List (Nat × Nat × Nat × Nat) := s.tether.seen.flatMap fun r =>
      (List.range r.lanes.length).map fun n =>
        let x := r.lanes.getD n {}
        let e := prevOf s r.pos.val n
        let c : Nat := match f.results[32 * r.pos.val + n]? with | some v => v.1.toNat | none => 0
        let want := if x.enabled then x.want.toNat else 0
        (r.pos.val, n, c, heldNext (Int.ofNat c) (heldWant want e.1 e.2) e.1 e.2)
    s.modBus fun b => { b with prev := prev }

/-- The results for this device's lanes (R214, R219, R221, R365); a frame without them counts toward FROZEN. -/
def State.takeResults (s0 : State) (f : DownFrame) : State :=
  let s := if f.crcOk && f.resValid then s0.modTether fun t => { t with results := f.results } else s0
  if !s.live then s
  else if f.crcOk && f.resValid && !f.hold && !s.tether.excluded && s.dev.state = .run then
    let s1 := (((s.modTether fun t => { t with noResult := 0 }).setFrozen false).followOthers f).post 0x21C
    s1.forEach allLanes fun st l =>
      match f.results[32 * ownPos s + l.val]? with
      | some r => if requestSent s l then (st.followCeil l r.1).giveSlot l r.2.toNat else st.followCeil l r.1
      | none => st
  else
    let s1 := s.modTether fun t => { t with noResult := t.noResult + 1 }
    if 3 ≤ s1.tether.noResult then s1.setFrozen true else s1

/-- The frame goes on with the times of the next link (R365), and the end of the chain starts the upstream frame (R364). -/
def State.forwardDown (s : State) (f : DownFrame) : State :=
  let s1 := s.modTether fun t => { t with down := some (frameOnLink f (t.linkTime (match t.facing with | .tu => .td | .td => .tu))) }
  if chainEnd s1 then s1.sendUp { fseq := f.fseq } else s1

/-- A downstream frame that a device follows (R364, R365, R367, R376): one with a wrong CRC is discarded and forwarded. -/
def State.takeDown (s : State) (p : Port) (f : DownFrame) : State :=
  if !f.crcOk then (s.takeResults f).forwardDown f
  else
    let s1 := ((s.followHitch p f).takeTime f).takeResults f
    let s2 := match f.pose with | some q => s1.takePose q | none => s1
    (s2.forEach f.records State.takeDownRecord).forwardDown f

/-- A downstream frame arrives (R363–R365, R371): a hitch yields to one of lower position only. -/
def execDownstreamFrame (p : Port) (f : DownFrame) (s : State) : Out :=
  if s.solo || s.dev.state = .watch then .next s
  else if s.tether.hitch && !(f.crcOk && decide (f.hitchPos < s.tether.hitchPos)) then .next s
  else .next ((s.takeDown p f).frameReceived f.crcOk)

-- upstream frames

/-- N as the first upstream frame of the stack tells it (R362); once known it stays. -/
def Tether.learnN (t : Tether) (f : UpFrame) : Tether := { t with n := if t.n = 0 then ⟨Min.min 8 (1 + f.slots.length), by omega⟩ else t.n }

/-- The slots of an upstream frame that reaches the hitch on a port (R362, R366, R372): it tells of the devices on that side alone, and one that has gone missing keeps its last report. -/
def State.takeSlots (s : State) (side : Port) (f : UpFrame) : State :=
  s.keepCarriers <| s.modTether fun t =>
    { t.learnN f with
      slots := Vector.ofFn fun (p : Fin 8) => match f.slots.find? fun r => r.pos = p with | some r => some r | none => t.slots.get p,
      missing := Vector.ofFn fun (p : Fin 8) => if onSide s p side then (t.slots.get p).isSome && !(f.slots.any fun r => r.pos = p) else t.missing.get p,
      versions := Vector.ofFn fun (p : Fin 8) => match f.slots.find? fun r => r.pos = p with | some r => some r.version | none => t.versions.get p }

/-- An upstream frame arrives (R364, R366): the hitch takes it (one with a wrong CRC tells nothing, and no device counts as missing for it, R376), and any other device adds its slot and records and sends it on. A device at position 0 that is not in RUN yet learns N from it (DEDUCED, log 49). -/
def execUpstreamFrame (p : Port) (f : UpFrame) (s0 : State) : Out :=
  let s := if s0.tether.hitch && !s0.solo then s0.modTether fun t => { t with upTu := t.upTu || decide (p = .tu), upTd := t.upTd || decide (p = .td) } else s0
  if s.solo || s.dev.state = .watch then .next s
  else if s.tether.hitch then
    if f.crcOk then .next (((s.takeSlots p f).forEach f.records State.takeUpRecord).frameReceived true) else .next s
  else
    let s1 := if f.crcOk then s.forEach f.records fun st r => match r with | .mark tx ty row col len => st.applyMark tx ty row col len | _ => st else s
    let s2 := if f.crcOk && s.tether.pos = some 0 && !s.tether.heard then s1.keepCarriers (s1.modTether fun t => t.learnN f) else s1
    .next ((s2.sendUp f).frameReceived f.crcOk)

end Sys2Proof.Machine
end

