-- ==== Sys2Proof/Machine/Arith.lean ====
section
/-! DEFINITION. Camku integer instructions: ALU (R312) and the immediate and move instructions (R313), with the flags of R310. -/

namespace Sys2Proof.Machine

/-- An operation of two words: its result and the flags it gives, from the flags before it (R310, R312). -/
abbrev AluOp := Word → Word → Flags → Word × Flags

/-- An operation whose c and v stay (R310). -/
def plainOp (f : Word → Word → Word) : AluOp := fun a b fl => (f a b, fl.ofResult (f a b))

/-- A shift by b[4:0] (R312). -/
def shiftOp (k : Fin 4) : AluOp := fun a b fl => shiftWith k a (b.toNat % 32) fl

/-- Signed and unsigned high products (R312). -/
def mulHigh (a b : Word) : Word := highWord (a.toInt * b.toInt)
def mulHighU (a b : Word) : Word := highWord ((a.toNat : Int) * (b.toNat : Int))

/-- The two results of an operation reach rd and, where the instruction sets flags, st (R310). -/
def CoreState.alu (c : CoreState) (op : AluOp) (rd : RegCode) (a b : Word) (sets : Bool) : CoreState :=
  let r := op a b c.flags
  let d := c.setReg rd r.1
  if sets then d.setFlags r.2 else d

/-- An ALU row (R312). -/
def State.aluRow (s : State) (t : CoreId) (op : AluOp) (rd ra rb : RegCode) (sets : Bool) : State :=
  s.coreInstr t fun c => c.alu op rd (c.reg ra) (c.reg rb) sets

/-- A row that writes rd from ra and an immediate, with no flags (R313). -/
def State.immRow (s : State) (t : CoreId) (f : Word → Word → Word) (rd ra : RegCode) (imm : Word) : State :=
  s.coreInstr t fun c => c.setReg rd (f (c.reg ra) imm)

/-- The flags of a − b (R312, R313). -/
def CoreState.compare (c : CoreState) (a b : Word) : CoreState := c.setFlags (subWith a b false).2

-- R312

def execAdd (t : CoreId) (rd ra rb : RegCode) (sets : Bool) (s : State) : Out := .next (s.aluRow t (fun a b _ => addWith a b false) rd ra rb sets)
def execSub (t : CoreId) (rd ra rb : RegCode) (sets : Bool) (s : State) : Out := .next (s.aluRow t (fun a b _ => subWith a b false) rd ra rb sets)
def execAddc (t : CoreId) (rd ra rb : RegCode) (sets : Bool) (s : State) : Out := .next (s.aluRow t (fun a b f => addWith a b f.c) rd ra rb sets)
def execSubc (t : CoreId) (rd ra rb : RegCode) (sets : Bool) (s : State) : Out := .next (s.aluRow t (fun a b f => subWith a b !f.c) rd ra rb sets)
def execAnd (t : CoreId) (rd ra rb : RegCode) (sets : Bool) (s : State) : Out := .next (s.aluRow t (plainOp fun a b => a &&& b) rd ra rb sets)
def execOr (t : CoreId) (rd ra rb : RegCode) (sets : Bool) (s : State) : Out := .next (s.aluRow t (plainOp fun a b => a ||| b) rd ra rb sets)
def execXor (t : CoreId) (rd ra rb : RegCode) (sets : Bool) (s : State) : Out := .next (s.aluRow t (plainOp fun a b => a ^^^ b) rd ra rb sets)
def execAndn (t : CoreId) (rd ra rb : RegCode) (sets : Bool) (s : State) : Out := .next (s.aluRow t (plainOp fun a b => a &&& ~~~b) rd ra rb sets)
def execShl (t : CoreId) (rd ra rb : RegCode) (sets : Bool) (s : State) : Out := .next (s.aluRow t (shiftOp 0) rd ra rb sets)
def execShr (t : CoreId) (rd ra rb : RegCode) (sets : Bool) (s : State) : Out := .next (s.aluRow t (shiftOp 1) rd ra rb sets)
def execSar (t : CoreId) (rd ra rb : RegCode) (sets : Bool) (s : State) : Out := .next (s.aluRow t (shiftOp 2) rd ra rb sets)
def execRor (t : CoreId) (rd ra rb : RegCode) (sets : Bool) (s : State) : Out := .next (s.aluRow t (shiftOp 3) rd ra rb sets)
def execMul (t : CoreId) (rd ra rb : RegCode) (sets : Bool) (s : State) : Out := .next (s.aluRow t (plainOp fun a b => a * b) rd ra rb sets)
def execMulh (t : CoreId) (rd ra rb : RegCode) (sets : Bool) (s : State) : Out := .next (s.aluRow t (plainOp mulHigh) rd ra rb sets)
def execMulhu (t : CoreId) (rd ra rb : RegCode) (sets : Bool) (s : State) : Out := .next (s.aluRow t (plainOp mulHighU) rd ra rb sets)
def execMin (t : CoreId) (rd ra rb : RegCode) (sets : Bool) (s : State) : Out := .next (s.aluRow t (plainOp minS) rd ra rb sets)
def execMax (t : CoreId) (rd ra rb : RegCode) (sets : Bool) (s : State) : Out := .next (s.aluRow t (plainOp maxS) rd ra rb sets)
def execMinu (t : CoreId) (rd ra rb : RegCode) (sets : Bool) (s : State) : Out := .next (s.aluRow t (plainOp minU) rd ra rb sets)
def execMaxu (t : CoreId) (rd ra rb : RegCode) (sets : Bool) (s : State) : Out := .next (s.aluRow t (plainOp maxU) rd ra rb sets)

/-- CLZ (R312). -/
def execClz (t : CoreId) (rd ra : RegCode) (sets : Bool) (s : State) : Out :=
  .next (s.coreInstr t fun c => c.alu (plainOp fun a _ => BitVec.ofNat 32 (leadingZeros a)) rd (c.reg ra) 0 sets)

/-- CMP sets flags whatever S holds (R310, R312). -/
def execCmp (t : CoreId) (ra rb : RegCode) (_ : Bool) (s : State) : Out := .next (s.coreInstr t fun c => c.compare (c.reg ra) (c.reg rb))

/-- TST (R310, R312). -/
def execTst (t : CoreId) (ra rb : RegCode) (_ : Bool) (s : State) : Out :=
  .next (s.coreInstr t fun c => c.setFlags (c.flags.ofResult (c.reg ra &&& c.reg rb)))

-- R313

def execAddi (t : CoreId) (rd ra : RegCode) (imm : BitVec 16) (s : State) : Out := .next (s.immRow t (fun a b => a + b) rd ra (imm.signExtend 32))
def execAndi (t : CoreId) (rd ra : RegCode) (imm : BitVec 16) (s : State) : Out := .next (s.immRow t (fun a b => a &&& b) rd ra (imm.zeroExtend 32))
def execOri (t : CoreId) (rd ra : RegCode) (imm : BitVec 16) (s : State) : Out := .next (s.immRow t (fun a b => a ||| b) rd ra (imm.zeroExtend 32))
def execXori (t : CoreId) (rd ra : RegCode) (imm : BitVec 16) (s : State) : Out := .next (s.immRow t (fun a b => a ^^^ b) rd ra (imm.zeroExtend 32))

/-- CMPI (R313). -/
def execCmpi (t : CoreId) (ra : RegCode) (imm : BitVec 16) (s : State) : Out :=
  .next (s.coreInstr t fun c => c.compare (c.reg ra) (imm.signExtend 32))

/-- SHI (R313). -/
def execShi (t : CoreId) (fn : Fin 4) (rd ra : RegCode) (amount : BitVec 5) (sets : Bool) (s : State) : Out :=
  .next (s.coreInstr t fun c => c.alu (shiftOp fn) rd (c.reg ra) (amount.zeroExtend 32) sets)

/-- MOVI (R313). -/
def execMovi (t : CoreId) (rd : RegCode) (imm : BitVec 16) (s : State) : Out :=
  .next (s.coreInstr t fun c => c.setReg rd (imm.signExtend 32))

/-- MOVHI keeps the low half of rd (R313). -/
def execMovhi (t : CoreId) (rd : RegCode) (imm : BitVec 16) (s : State) : Out :=
  .next (s.coreInstr t fun c => c.setReg rd ((imm.zeroExtend 32) <<< 16 ||| (c.reg rd &&& 0xFFFF)))

end Sys2Proof.Machine
end

