-- ==== Sys2Proof/Machine/LoadStore.lean ====
section
/-! DEFINITION. Camku accesses to memory: the address space (R289), alignment and stalls (R290), the traps of R302, and the load and store instructions (R314). -/

namespace Sys2Proof.Machine

/-- Where a core's address lies (R289): its I-RAM or its X-RAM and Y-RAM by host address, the boot ROM by offset, and the slow places: shared RAM and the swath map by host address, registers by offset. -/
inductive Place where
  | iram (a : Nat)
  | data (a : Nat)
  | rom (a : Nat)
  | shared (a : Nat)
  | reg (a : Nat)
  | map (a : Nat)
deriving DecidableEq, Repr

/-- The place of an address for core t; none outside the ranges of R289. -/
def placeOf (s : State) (t : CoreId) (a : Nat) : Option Place :=
  match privAddr t a with
  | some h => some (if a < 0x20000 then .iram h else .data h)
  | none =>
    if romAt s t a then some (.rom (a - 0x300000))
    else if 0x400000 ≤ a ∧ a < 0x600000 then some (.shared (a - 0x300000))
    else if 0x40000000 ≤ a ∧ a < 0x40040000 then some (.reg (a - 0x40000000))
    else if 0x60000000 ≤ a ∧ a < 0x60400000 then some (.map (a - 0x5FC00000))
    else none

/-- I-RAM and registers move whole words (R289, R314). -/
def Place.sized : Place → Nat → Bool
  | .iram _, n => n = 4
  | .reg _, n => n = 4
  | _, _ => true

/-- The host address of a place that holds words with error marks. -/
def Place.marked : Place → Option Nat
  | .iram a => some a
  | .data a => some a
  | .rom _ => none
  | .shared a => some a
  | .reg a => some a
  | .map a => some a

/-- Places whose access stalls the pipeline (R290, R325). -/
def Place.slow : Place → Bool
  | .shared _ => true
  | .reg _ => true
  | .map _ => true
  | _ => false

/-- The trap of a load of n bytes (R289, R290, R302), the lowest cause first. -/
def loadCause (s : State) (t : CoreId) (a : Word) (n : Nat) : Option Nat :=
  if a.toNat % n ≠ 0 then some 3
  else match placeOf s t a.toNat with
    | none => some 4
    | some p => if !p.sized n then some 4 else match p.marked with
      | some h => if wordBad s h then some 5 else none
      | none => none

/-- The trap of a store of n bytes (R289, R290, R302). The boot ROM takes none, and the swath map only while EN = 0. -/
def storeCause (s : State) (t : CoreId) (a : Word) (n : Nat) : Option Nat :=
  if a.toNat % n ≠ 0 then some 3
  else match placeOf s t a.toNat with
    | none => some 4
    | some (.rom _) => some 4
    | some (.map _) => if s.swath.en then some 4 else none
    | some p => if p.sized n then none else some 4

/-- A stall of at most 40 core cycles, whose length the spec leaves open (R290), counted in ccnt. -/
def State.stall (s : State) (t : CoreId) : State :=
  let p := s.free
  p.2.goOn t fun c => { c with ccnt := c.ccnt + BitVec.ofNat 32 (p.1.toNat % 41) }

/-- The stall of an access to a place. -/
def State.stallAt (s : State) (t : CoreId) (p : Option Place) : State := if p.any Place.slow then s.stall t else s

/-- The value of n bytes at a place, unsigned, with the side effects of a register read (R289, R290, R436). -/
def State.loadAt (s : State) (t : CoreId) (p : Place) (n : Nat) : Word × State :=
  match p with
  | .iram a => (BitVec.ofNat 32 (memReadN s.mem a n), s)
  | .data a => (BitVec.ofNat 32 (memReadN s.mem a n), s)
  | .rom a => (BitVec.ofNat 32 ((List.range n).foldr (fun k v => (Config.bootRom (a + k)).toNat + 256 * v) 0), s)
  | .shared a => (BitVec.ofNat 32 (memReadN s.mem a n), s)
  | .reg a => s.readReg (.core t) a
  | .map a => (BitVec.ofNat 32 (memReadN s.mem a n), s)

/-- Stores the low n bytes of a word at a place (R290): a word written whole holds no error any more (R340); an unpowered map keeps nothing. -/
def State.storeAt (s : State) (t : CoreId) (p : Place) (n : Nat) (v : Word) : State :=
  let put (a : Nat) : State := if n = 4 then s.storeWord a v else { s with mem := memWriteN s.mem a v.toNat n }
  match p with
  | .iram a => put a
  | .data a => put a
  | .rom _ => s
  | .shared a => put a
  | .reg a => s.writeReg (.core t) a v
  | .map a => if s.swath.powered then put a else s

/-- A load of n bytes from an address that raises no trap, with its stall. -/
def State.loadN (s : State) (t : CoreId) (a : Word) (n : Nat) : Word × State :=
  match placeOf s t a.toNat with
  | some p =>
    let r := s.loadAt t p n
    (r.1, r.2.stallAt t (some p))
  | none => (0, s)

/-- A store of n bytes to an address that raises no trap. -/
def State.storeN (s : State) (t : CoreId) (a : Word) (n : Nat) (v : Word) : State :=
  match placeOf s t a.toNat with
  | some p => s.storeAt t p n v
  | none => s

/-- The effective address of R314. -/
def CoreState.ea (c : CoreState) (ra : RegCode) (imm : BitVec 16) : Word := c.reg ra + imm.signExtend 32

/-- A load instruction (R314): rd takes the converted value at distance 2 (R298). -/
def State.loadRow (s : State) (t : CoreId) (n : Nat) (conv : Word → Word) (rd ra : RegCode) (imm : BitVec 16) : State :=
  s.instr t false fun st =>
    let a := (st.core t).ea ra imm
    match loadCause st t a n with
    | some k => .trap k (some a) st
    | none =>
      let r := st.loadN t a n
      .next (r.2.modCore t fun c => c.loadReg rd (conv r.1))

/-- A store instruction (R314). -/
def State.storeRow (s : State) (t : CoreId) (n : Nat) (rd ra : RegCode) (imm : BitVec 16) : State :=
  s.instr t false fun st =>
    let a := (st.core t).ea ra imm
    match storeCause st t a n with
    | some k => .trap k (some a) st
    | none => .next (st.storeN t a n ((st.core t).reg rd))

/-- Sign extension of the low half and the low byte. -/
def sextHalf (w : Word) : Word := (w.truncate 16).signExtend 32
def sextByte (w : Word) : Word := (w.truncate 8).signExtend 32

-- R314

def execLd (t : CoreId) (rd ra : RegCode) (imm : BitVec 16) (s : State) : Out := .next (s.loadRow t 4 id rd ra imm)
def execLdh (t : CoreId) (rd ra : RegCode) (imm : BitVec 16) (s : State) : Out := .next (s.loadRow t 2 sextHalf rd ra imm)
def execLdhu (t : CoreId) (rd ra : RegCode) (imm : BitVec 16) (s : State) : Out := .next (s.loadRow t 2 id rd ra imm)
def execLdb (t : CoreId) (rd ra : RegCode) (imm : BitVec 16) (s : State) : Out := .next (s.loadRow t 1 sextByte rd ra imm)
def execLdbu (t : CoreId) (rd ra : RegCode) (imm : BitVec 16) (s : State) : Out := .next (s.loadRow t 1 id rd ra imm)
def execSt (t : CoreId) (rd ra : RegCode) (imm : BitVec 16) (s : State) : Out := .next (s.storeRow t 4 rd ra imm)
def execSth (t : CoreId) (rd ra : RegCode) (imm : BitVec 16) (s : State) : Out := .next (s.storeRow t 2 rd ra imm)
def execStb (t : CoreId) (rd ra : RegCode) (imm : BitVec 16) (s : State) : Out := .next (s.storeRow t 1 rd ra imm)

end Sys2Proof.Machine
end

