-- ==== Sys2Proof/Machine/Bits.lean ====
section
/-! DEFINITION. The bit space (R297, R343) and the bit instructions (R317, R318). -/

namespace Sys2Proof.Machine

/-- The group that a bit address names in a block of bits. -/
def bitGroup (b : Nat) : GroupId := ⟨b % 4, Nat.mod_lt _ (by decide)⟩

/-- Where a bit address lies (R297, R343). -/
inductive BitPlace where
  | lane (l : LaneId) (o : Nat)
  | coreRun (g : GroupId)
  | leRun (g : GroupId)
  | frsTrig
  | busSag
  | vsysWarn
  | beat (t : CoreId)
  | spliced (g : GroupId)
  | take (g : GroupId)
  | rtn (g : GroupId)
  | rel (g : GroupId)
  | priv (k : Nat)
  | reserved
deriving DecidableEq, Repr

/-- The place of a bit address. -/
def bitPlace (b : Nat) : BitPlace :=
  if b < 0x4000 then .lane ⟨b / 0x200 % 32, Nat.mod_lt _ (by decide)⟩ (b % 0x200)
  else if b < 0x4400 then
    (if b % 0x100 = 0 then .coreRun (bitGroup (b / 0x100)) else if b % 0x100 = 1 then .leRun (bitGroup (b / 0x100)) else .reserved)
  else if b = 0x4400 then .frsTrig
  else if b = 0x4401 then .busSag
  else if b = 0x4402 then .vsysWarn
  else if 0x4800 ≤ b ∧ b < 0x4806 then .beat ⟨(b - 0x4800) % 6, Nat.mod_lt _ (by decide)⟩
  else if 0x4810 ≤ b ∧ b < 0x4814 then .spliced (bitGroup b)
  else if 0x4818 ≤ b ∧ b < 0x481C then .take (bitGroup b)
  else if 0x4820 ≤ b ∧ b < 0x4824 then .rtn (bitGroup b)
  else if 0x4828 ≤ b ∧ b < 0x482C then .rel (bitGroup b)
  else if 0x8000 ≤ b then .priv (b - 0x8000)
  else .reserved

/-- The bit as it stands (R297, R343). -/
def bitNow (s : State) (t : CoreId) : BitPlace → Bool
  | .lane l o => laneBit s l o
  | .coreRun g => (s.group g).coreRun
  | .leRun g => (s.group g).leRun
  | .frsTrig => s.bus.frs
  | .busSag => s.bus.sag
  | .vsysWarn => s.dev.vsysWarn
  | .beat u => (s.core u).beat
  | .spliced g => (s.group g).spliced
  | .priv k => (memRead (s.core t).bits (k / 8)).getLsbD (k % 8)
  | .take _ => false
  | .rtn _ => false
  | .rel _ => false
  | .reserved => false

/-- The bit as core t reads it: one that the instruction before wrote still shows its prior value (R298). -/
def bitSeen (s : State) (t : CoreId) (b : BitVec 16) : Bool :=
  ((s.core t).flight.findSome? fun x => match x with | .bit _ a o => if a = b then some o else none | _ => none).getD (bitNow s t (bitPlace b.toNat))

/-- A core's write of a bit; writes that R297 and R343 do not permit are ignored. -/
def State.putBit (s : State) (t : CoreId) (p : BitPlace) (v : Bool) : State :=
  match p with
  | .lane l o =>
    if !laneBitOwner s t l || s.fusedOff l then s
    else if o = 24 then s.modSwap l fun w => { w with amsHold := v }
    else if o = 25 then (if v then s.armFrs l else s.modSwap l fun w => { w with frsArm := false })
    else s
  | .beat u => if v && u = t then s.beatCore t else s
  | .take g => if v && serverOf s g = t then s.takeGroup g else s
  | .rtn g => if v && rtnMay s t g then s.startReturn g else s
  | .rel g => if v && relMay s t g then s.finishReturn g else s
  | .priv k =>
    s.modCore t fun c =>
      let x := memRead c.bits (k / 8)
      let m : Byte := 1 <<< (k % 8)
      { c with bits := memWrite c.bits (k / 8) (if v then x ||| m else x &&& ~~~m) }
  | _ => s

/-- A bit write whose result the next instruction does not see yet (R298); its consumer position is open also where the bit keeps its value (R299). -/
def State.writeBit (s : State) (t : CoreId) (b : BitVec 16) (v : Bool) : State :=
  let p := bitPlace b.toNat
  let old := bitNow s t p
  (s.putBit t p v).modCore t fun c => { c with flight := c.flight ++ [.bit 2 b old] }

/-- The bit address of format X (R317). -/
def CoreState.bitAddr (c : CoreState) (rx : Option RegCode) (ba : BitVec 16) : BitVec 16 :=
  match rx with
  | none => ba
  | some r => ba + (c.reg r).truncate 16

/-- A bit instruction that writes the bit a function of its value and of c gives (R317). -/
def State.bitRow (s : State) (t : CoreId) (rx : Option RegCode) (ba : BitVec 16) (f : Bool → Bool → Bool) : State :=
  s.instr t false fun st =>
    let c := st.core t
    let b := c.bitAddr rx ba
    .next (st.writeBit t b (f (bitSeen st t b) c.flags.c))

/-- A bit instruction that changes flags by the bit's value (R317). -/
def State.flagRow (s : State) (t : CoreId) (rx : Option RegCode) (ba : BitVec 16) (f : Bool → Flags → Flags) : State :=
  s.instr t false fun st =>
    let v := bitSeen st t ((st.core t).bitAddr rx ba)
    .next (st.modCore t fun c => c.setFlags (f v c.flags))

/-- A branch on a bit (R318). -/
def State.bitBranch (s : State) (t : CoreId) (on : Bool) (disp : BitVec 10) (ba : BitVec 16) : State :=
  s.instr t true fun st =>
    .branch (if bitSeen st t ba = on then some ((st.core t).pc + (disp.signExtend 32) <<< 2) else none) false st

-- R317, R318

def execBset (t : CoreId) (rx : Option RegCode) (ba : BitVec 16) (s : State) : Out := .next (s.bitRow t rx ba fun _ _ => true)
def execBclr (t : CoreId) (rx : Option RegCode) (ba : BitVec 16) (s : State) : Out := .next (s.bitRow t rx ba fun _ _ => false)
def execBnot (t : CoreId) (rx : Option RegCode) (ba : BitVec 16) (s : State) : Out := .next (s.bitRow t rx ba fun v _ => !v)
def execBmovToBit (t : CoreId) (rx : Option RegCode) (ba : BitVec 16) (s : State) : Out := .next (s.bitRow t rx ba fun _ c => c)
def execBtst (t : CoreId) (rx : Option RegCode) (ba : BitVec 16) (s : State) : Out := .next (s.flagRow t rx ba fun v f => { f with z := !v })
def execBmovToC (t : CoreId) (rx : Option RegCode) (ba : BitVec 16) (s : State) : Out := .next (s.flagRow t rx ba fun v f => { f with c := v })
def execBmovn (t : CoreId) (rx : Option RegCode) (ba : BitVec 16) (s : State) : Out := .next (s.flagRow t rx ba fun v f => { f with c := !v })
def execBand (t : CoreId) (rx : Option RegCode) (ba : BitVec 16) (s : State) : Out := .next (s.flagRow t rx ba fun v f => { f with c := f.c && v })
def execBandn (t : CoreId) (rx : Option RegCode) (ba : BitVec 16) (s : State) : Out := .next (s.flagRow t rx ba fun v f => { f with c := f.c && !v })
def execBor (t : CoreId) (rx : Option RegCode) (ba : BitVec 16) (s : State) : Out := .next (s.flagRow t rx ba fun v f => { f with c := f.c || v })
def execBorn (t : CoreId) (rx : Option RegCode) (ba : BitVec 16) (s : State) : Out := .next (s.flagRow t rx ba fun v f => { f with c := f.c || !v })
def execBxor (t : CoreId) (rx : Option RegCode) (ba : BitVec 16) (s : State) : Out := .next (s.flagRow t rx ba fun v f => { f with c := f.c ^^ v })

/-- BTAS (R317): c takes the bit, which is set, in one step. -/
def execBtas (t : CoreId) (rx : Option RegCode) (ba : BitVec 16) (s : State) : Out :=
  .next (s.instr t false fun st =>
    let b := (st.core t).bitAddr rx ba
    let v := bitSeen st t b
    .next ((st.writeBit t b true).modCore t fun c => c.setFlags { c.flags with c := v }))

def execBrbs (t : CoreId) (disp : BitVec 10) (ba : BitVec 16) (s : State) : Out := .next (s.bitBranch t true disp ba)
def execBrbc (t : CoreId) (disp : BitVec 10) (ba : BitVec 16) (s : State) : Out := .next (s.bitBranch t false disp ba)

end Sys2Proof.Machine
end

