-- ==== Sys2Proof/Machine/Accumulate.lean ====
section
/-! DEFINITION. Camku accumulators: MACD (R320) and the ACC rows (R321), through accumulate of R319, with the distances of R298. -/

namespace Sys2Proof.Machine

/-- A product's sum into an accumulator, from what the last product left there (R298, R319, R321). -/
def CoreState.product (c : CoreState) (a : Bool) (p : Int) : CoreState :=
  let r := accumulate c.satm (c.acc a).toInt p
  (c.macAcc a r.1).stickAs r.2

/-- Why an operand of MACD traps (R302, R320): X-RAM for k = 0, Y-RAM for k = 1. -/
def macdCause (s : State) (t : CoreId) (k : Nat) (a : Word) : Option Nat :=
  let lo := 0x100000 + k * 0x80000
  if a.toNat % 4 ≠ 0 then some 3
  else if a.toNat < lo ∨ lo + 0x10000 ≤ a.toNat then some 4
  else loadCause s t a 4

/-- The lower of two causes with their addresses (R302); of two equal ones the first, whose address R302 does not choose (DESIGN CHOICE, log 115). -/
def lowerCause (x y : Option (Nat × Word)) : Option (Nat × Word) :=
  match x, y with
  | some p, some q => if p.1 ≤ q.1 then x else y
  | none, _ => y
  | _, none => x

/-- MACD (R320). -/
def execMacd (t : CoreId) (acc neg : Bool) (rx ry : RegCode) (xinc yinc : BitVec 4) (s : State) : Out :=
  .next (s.instr t false fun st =>
    let c := st.core t
    let x := c.reg rx
    let y := c.reg ry
    if rx = ry then .trap 1 none st
    else match lowerCause ((macdCause st t 0 x).map fun k => (k, x)) ((macdCause st t 1 y).map fun k => (k, y)) with
      | some (k, a) => .trap k (some a) st
      | none =>
        let p := (st.loadN t x 4).1.toInt * (st.loadN t y 4).1.toInt
        .next (st.modCore t fun c =>
          ((c.product acc (if neg then -p else p)).setReg rx (x + (xinc.signExtend 32) <<< 2)).setReg ry (y + (yinc.signExtend 32) <<< 2)))

/-- A part of an accumulator is written: the rest is what the instruction sees of it (R298, R321). -/
def CoreState.partAcc (c : CoreState) (a : Bool) (lo len : Nat) (v : Nat) : CoreState :=
  let old := (c.accSeen a).toNat
  c.setAcc a (BitVec.ofNat 72 (old - (old / 2 ^ lo % 2 ^ len) * 2 ^ lo + (v % 2 ^ len) * 2 ^ lo))

/-- Bits of an accumulator as the instruction sees it. -/
def CoreState.bitsAcc (c : CoreState) (a : Bool) (lo : Nat) : Word := BitVec.ofNat 32 ((c.accSeen a).toNat / 2 ^ lo)

-- R321

def execAclr (t : CoreId) (acc : Bool) (s : State) : Out := .next (s.coreInstr t fun c => c.setAcc acc 0)
def execMac (t : CoreId) (acc : Bool) (ra rb : RegCode) (s : State) : Out :=
  .next (s.coreInstr t fun c => c.product acc ((c.reg ra).toInt * (c.reg rb).toInt))
def execMsu (t : CoreId) (acc : Bool) (ra rb : RegCode) (s : State) : Out :=
  .next (s.coreInstr t fun c => c.product acc (-((c.reg ra).toInt * (c.reg rb).toInt)))
def execMacu (t : CoreId) (acc : Bool) (ra rb : RegCode) (s : State) : Out :=
  .next (s.coreInstr t fun c => c.product acc (((c.reg ra).toNat * (c.reg rb).toNat : Nat) : Int))
def execMfal (t : CoreId) (acc : Bool) (rd : RegCode) (s : State) : Out := .next (s.coreInstr t fun c => c.setReg rd (c.bitsAcc acc 0))
def execMfah (t : CoreId) (acc : Bool) (rd : RegCode) (s : State) : Out := .next (s.coreInstr t fun c => c.setReg rd (c.bitsAcc acc 32))
def execMfag (t : CoreId) (acc : Bool) (rd : RegCode) (s : State) : Out := .next (s.coreInstr t fun c => c.setReg rd (sextByte (c.bitsAcc acc 64)))
def execMtal (t : CoreId) (acc : Bool) (ra : RegCode) (s : State) : Out := .next (s.coreInstr t fun c => c.partAcc acc 0 32 (c.reg ra).toNat)
def execMtah (t : CoreId) (acc : Bool) (ra : RegCode) (s : State) : Out := .next (s.coreInstr t fun c => c.partAcc acc 32 32 (c.reg ra).toNat)
def execMtag (t : CoreId) (acc : Bool) (ra : RegCode) (s : State) : Out := .next (s.coreInstr t fun c => c.partAcc acc 64 8 (c.reg ra).toNat)

/-- ASR (R321): the shifted value is in range, so that accumulate of R319 never limits it. -/
def execAsr (t : CoreId) (acc : Bool) (n : BitVec 5) (s : State) : Out :=
  .next (s.coreInstr t fun c => c.setAcc acc ((c.accSeen acc).sshiftRight n.toNat))

/-- ASL (R319, R321). -/
def execAsl (t : CoreId) (acc : Bool) (n : BitVec 5) (s : State) : Out :=
  .next (s.coreInstr t fun c =>
    let r := accumulate c.satm 0 ((c.accSeen acc).toInt * 2 ^ n.toNat)
    (c.setAcc acc r.1).stickAs r.2)

/-- The rounded shift of ARND, exact (R321). -/
def roundShift (a : Int) (n : Nat) : Int := if n = 0 then a else Int.fdiv (a + 2 ^ (n - 1)) (2 ^ n)

/-- ARND (R321). -/
def execArnd (t : CoreId) (acc : Bool) (rd : RegCode) (n : BitVec 5) (s : State) : Out :=
  .next (s.coreInstr t fun c =>
    let r := clampWord (roundShift (c.accSeen acc).toInt n.toNat)
    (c.setReg rd r.1).setFlags { c.flags with v := r.2 })

end Sys2Proof.Machine
end

