-- ==== Sys2Proof/Machine/Control.lean ====
section
/-! DEFINITION. Camku control transfer (R315, R316) with the windows of R295, the returns of R300 and R302, and the rows that move control registers. -/

namespace Sys2Proof.Machine

/-- A byte displacement counted in words (R308). -/
def wordsOff {n : Nat} (d : BitVec n) : Word := (d.signExtend 32) <<< 2

/-- CALL and CALLR (R295, R315): the spill check, lk, and the slide. -/
def State.callTo (s : State) (t : CoreId) (target : CoreState → Word) : State :=
  s.instr t true fun st =>
    let c := st.core t
    if c.wdepth = 8 then .trap 6 none st
    else .branch (some (target c)) false (st.modCore t fun d => { d.slideUp with lk := c.pc + 8 })

/-- The source that a handler served is no longer ACTIVE (R274); entry 0x3FF is none, and one that another core has claimed since a splice moved it is that core's (R288). -/
def State.endActive (s : State) (t : CoreId) (fast : Bool) : State :=
  let x : Fin 1024 := ⟨(if fast then (s.ic t).curF else (s.ic t).curN).toNat % 1024, Nat.mod_lt _ (by decide)⟩
  if x.val = 0x3FF || (s.src x).claimer.toNat ≠ t.val then s else s.modSrc x fun c => { c with active := false }

-- R315

/-- Bcc (R311, R315). -/
def execBcc (t : CoreId) (cond : Fin 15) (disp : BitVec 22) (s : State) : Out :=
  .next (s.instr t true fun st =>
    let c := st.core t
    .branch (if c.flags.holds cond.val then some (c.pc + wordsOff disp) else none) false st)

def execCall (t : CoreId) (disp : BitVec 26) (s : State) : Out := .next (s.callTo t fun c => c.pc + wordsOff disp)
def execNop (t : CoreId) (s : State) : Out := .next (s.coreInstr t id)
def execJmpr (t : CoreId) (ra : RegCode) (s : State) : Out :=
  .next (s.instr t true fun st => .branch (some ((st.core t).reg ra &&& 0xFFFFFFFC)) false st)
def execCallr (t : CoreId) (ra : RegCode) (s : State) : Out := .next (s.callTo t fun c => c.reg ra &&& 0xFFFFFFFC)

/-- RET (R295, R315). -/
def execRet (t : CoreId) (s : State) : Out :=
  .next (s.instr t true fun st =>
    let c := st.core t
    if c.wdepth = 1 then .trap 7 none st else .branch (some c.lk) false (st.modCore t CoreState.slideBack))

/-- RETI (R295, R300, R315). -/
def execReti (t : CoreId) (s : State) : Out :=
  .next (s.instr t true fun st =>
    let c := st.core t
    if c.fa then .branch (some c.fpc) false ((st.modCore t fun d => { d with st := mergeMask stBack d.st d.fst }).endActive t true)
    else if !c.na then .trap 8 none st
    else if c.wdepth = 1 then .trap 7 none st
    else .branch (some c.ipc) false ((st.modCore t fun d =>
      let e := d.slideBack
      { e with st := mergeMask stBack e.st e.ist }).endActive t false))

/-- RETX (R302, R315): its slot still executes in the handler's view, with TM = 1. -/
def execRetx (t : CoreId) (s : State) : Out :=
  .next (s.instr t true fun st =>
    let c := st.core t
    if c.tm then .branch (some c.tpc) true st else .trap 8 none st)

/-- WAIT (R278, R315, R342). -/
def execWait (t : CoreId) (s : State) : Out :=
  .next (s.instr t true fun st => .next ((st.modCore t fun c => { c with run := .waiting, waited := true }).wakeIfReady t))

/-- HALT (R315). -/
def execHalt (t : CoreId) (s : State) : Out :=
  .next (s.instr t true fun st => .next (st.modCore t fun c => { c with run := .halted }))

/-- TRAP (R302, R315). -/
def execTrap (t : CoreId) (n : BitVec 4) (s : State) : Out := .next (s.instr t true fun st => .soft (0x10 + n.toNat) st)

def execMfc (t : CoreId) (rd : RegCode) (n : Fin 15) (s : State) : Out := .next (s.coreInstr t fun c => c.setReg rd (c.ctrl t n.val))

/-- MTC (R294, R298, R315): the write takes effect at the fourth instruction after it. -/
def execMtc (t : CoreId) (n : Fin 15) (ra : RegCode) (s : State) : Out :=
  .next (s.coreInstr t fun c => { c with flight := c.flight ++ [.ctrl 4 n (c.reg ra)] })

def execEi (t : CoreId) (s : State) : Out := .next (s.coreInstr t fun c => { c with flight := c.flight ++ [.ie 4 true] })
def execDi (t : CoreId) (s : State) : Out := .next (s.coreInstr t fun c => { c with flight := c.flight ++ [.ie 4 false] })

/-- xs, xd or xc. -/
def CoreState.repeatReg (c : CoreState) (x : Fin 3) : Word := match x with | 0 => c.xs | 1 => c.xd | 2 => c.xc

/-- Writes xs, xd or xc. -/
def CoreState.setRepeat (c : CoreState) (x : Fin 3) (v : Word) : CoreState :=
  match x with
  | 0 => { c with xs := v }
  | 1 => { c with xd := v }
  | 2 => { c with xc := v }

def execMfx (t : CoreId) (rd : RegCode) (x : Fin 3) (s : State) : Out := .next (s.coreInstr t fun c => c.setReg rd (c.repeatReg x))
def execMtx (t : CoreId) (x : Fin 3) (ra : RegCode) (s : State) : Out := .next (s.coreInstr t fun c => c.setRepeat x (c.reg ra))
def execMflk (t : CoreId) (rd : RegCode) (s : State) : Out := .next (s.coreInstr t fun c => c.setReg rd c.lk)
def execMtlk (t : CoreId) (ra : RegCode) (s : State) : Out := .next (s.coreInstr t fun c => { c with lk := c.reg ra })

end Sys2Proof.Machine
end

