-- ==== Sys2Proof/Machine/Blocks.lean ====
section
/-! DEFINITION. Camku block-repeat instructions (R322–R325). One command runs an STR to its end, or up to a boundary between two elements at which a claim is due (R301). -/

namespace Sys2Proof.Machine

/-- What one element does: goes on, ends the instruction, or raises a trap with its address. -/
inductive ElementEnd where
  | more (s : State)
  | done (s : State)
  | trap (cause : Nat) (addr : Word) (s : State)
deriving DecidableEq, Repr

/-- The size of an element in bytes (R322). -/
def elementSize (sz : Fin 3) : Nat := 2 ^ sz.val

/-- The step of an address (R322). -/
def elementStep (n : Nat) (dec : Bool) : Word := if dec then -(BitVec.ofNat 32 n) else BitVec.ofNat 32 n

/-- Cycles of an element beyond the first (R325). -/
def State.cycles (s : State) (t : CoreId) (k : Nat) : State := s.goOn t fun c => { c with ccnt := c.ccnt + BitVec.ofNat 32 k }

/-- Two addresses that lie in one private memory (R289, R325). -/
def onePrivate (s : State) (t : CoreId) (a b : Word) : Bool :=
  match placeOf s t a.toNat, placeOf s t b.toNat with
  | some (.iram _), some (.iram _) => true
  | some (.data x), some (.data y) => x / 0x10000 = y / 0x10000
  | _, _ => false

/-- xc elements of STR (R322, R324): each first costs its cycle, but the first of them, and counts xc down when it goes on. Between two elements STR stops where a claim is due, with the pc at it (R301, R335). -/
def State.elements (s : State) (t : CoreId) (f : State → ElementEnd) (first : Bool) : Nat → InstrEnd
  | 0 => .next s
  | n + 1 =>
    if (s.core t).run ≠ .running then .next s
    else match f s with
      | .trap k a s1 => .trap k (some a) s1
      | .done s1 => .next (if first then s1 else s1.cycles t 1)
      | .more s1 =>
        let s2 := (if first then s1 else s1.cycles t 1).goOn t fun c => { c with xc := c.xc - 1 }
        if n ≠ 0 && claimDue s2 t then .hold s2 else s2.elements t f false n

/-- STR (R316, R322): a delay slot does not hold it. -/
def State.str (s : State) (t : CoreId) (f : State → ElementEnd) (after : CoreState → CoreState) : State :=
  s.instr t true fun st =>
    match st.elements t f true (st.core t).xc.toNat with
    | .next s1 => .next (if (s1.core t).xc = 0 then s1.modCore t after else s1)
    | e => e

/-- An access of STR stalls in the slow places, a store as a load does (R325). -/
def State.stallFor (s : State) (t : CoreId) (a : Word) : State := s.stallAt t (placeOf s t a.toNat)

/-- An element of MOVS (R322, R324, R325). -/
def movsElement (t : CoreId) (n : Nat) (step : Word) (s : State) : ElementEnd :=
  let c := s.core t
  match lowerCause ((loadCause s t c.xs n).map fun k => (k, c.xs)) ((storeCause s t c.xd n).map fun k => (k, c.xd)) with
  | some (k, a) => .trap k a s
  | none =>
    let r := s.loadN t c.xs n
    let s1 := (r.2.storeN t c.xd n r.1).stallFor t c.xd
    let s2 := if onePrivate s t c.xs c.xd then s1.cycles t 1 else s1
    .more (s2.goOn t fun d => { d with xs := c.xs + step, xd := c.xd + step })

/-- An element of FILLS (R322, R324). -/
def fillsElement (t : CoreId) (n : Nat) (step : Word) (v : Word) (s : State) : ElementEnd :=
  let c := s.core t
  match storeCause s t c.xd n with
  | some k => .trap k c.xd s
  | none => .more (((s.storeN t c.xd n v).stallFor t c.xd).goOn t fun d => { d with xd := c.xd + step })

/-- An element of CMPS (R322): a difference sets the flags and ends the instruction, leaving xs, xd and xc. -/
def cmpsElement (t : CoreId) (n : Nat) (step : Word) (s : State) : ElementEnd :=
  let c := s.core t
  match lowerCause ((loadCause s t c.xs n).map fun k => (k, c.xs)) ((loadCause s t c.xd n).map fun k => (k, c.xd)) with
  | some (k, a) => .trap k a s
  | none =>
    let x := s.loadN t c.xs n
    let y := x.2.loadN t c.xd n
    if x.1 ≠ y.1 then
      let gt := decide (y.1.toNat < x.1.toNat)
      .done (y.2.modCore t fun d => d.setFlags { d.flags with z := false, c := gt, n := !gt })
    else .more (y.2.modCore t fun d => { d with xs := c.xs + step, xd := c.xd + step })

/-- One byte of the CRC-16 of R323, in r[15:0]. -/
def crc16Byte (r : Word) (e : Byte) : Word :=
  (List.range 8).foldl (fun (x : Word) _ => (if x.getLsbD 15 then (x <<< 1) ^^^ 0x1021 else x <<< 1) &&& 0xFFFF) (r ^^^ (e.zeroExtend 32) <<< 8)

/-- One byte of the CRC-8 of R323, in r[7:0]. -/
def crc8Word (r : Word) (e : Byte) : Word :=
  (List.range 8).foldl (fun (x : Word) _ => (if x.getLsbD 7 then (x <<< 1) ^^^ 0x07 else x <<< 1) &&& 0xFF) (r ^^^ e.zeroExtend 32)

/-- The step of CRCS for a byte (R323). -/
def crcStep (poly : Fin 3) (r : Word) (e : Byte) : Word :=
  match poly with
  | 0 => crc32Byte r e
  | 1 => crc16Byte r e
  | 2 => crc8Word r e

/-- An element of CRCS (R322, R323). -/
def crcsElement (t : CoreId) (rd : RegCode) (step : Word) (poly : Fin 3) (s : State) : ElementEnd :=
  let c := s.core t
  match loadCause s t c.xs 1 with
  | some k => .trap k c.xs s
  | none =>
    let r := s.loadN t c.xs 1
    .more (r.2.modCore t fun d => { d.setReg rd (crcStep poly (c.reg rd) (r.1.truncate 8)) with xs := c.xs + step })

-- R322

def execMovs (t : CoreId) (sz : Fin 3) (dec : Bool) (s : State) : Out :=
  .next (s.str t (movsElement t (elementSize sz) (elementStep (elementSize sz) dec)) id)
def execFills (t : CoreId) (ra : RegCode) (sz : Fin 3) (dec : Bool) (s : State) : Out :=
  .next (s.str t (fun st => fillsElement t (elementSize sz) (elementStep (elementSize sz) dec) ((st.core t).reg ra) st) id)

/-- CMPS sets z where no element differs (R322). -/
def execCmps (t : CoreId) (sz : Fin 3) (dec : Bool) (s : State) : Out :=
  .next (s.str t (cmpsElement t (elementSize sz) (elementStep (elementSize sz) dec)) fun c => c.setFlags { c.flags with z := true })
def execCrcs (t : CoreId) (rd : RegCode) (dec : Bool) (poly : Fin 3) (s : State) : Out :=
  .next (s.str t (crcsElement t rd (elementStep 1 dec) poly) id)

end Sys2Proof.Machine
end

