-- ==== Sys2Proof/Machine/Customer.lean ====
section
/-! DEFINITION. Customer opcodes (R326–R331): CX runs the micro-operations of a decode-table entry; and a word that holds no instruction (R302, R308). -/

namespace Sys2Proof.Machine

/-- What a customer instruction has computed and not committed (R331): u0–u7, writes of registers, newest first, FL, XS, XD, XC and the accumulators. -/
structure Micro where
  u : Vector Word 8 := Vector.replicate 8 0
  regs : List (Dest × Word) := []
  fl : Flags := {}
  xs : Word := 0
  xd : Word := 0
  xc : Word := 0
  a0 : BitVec 72 := 0
  a1 : BitVec 72 := 0
  wrote0 : Bool := false
  wrote1 : Bool := false
  sticky : Bool := false
deriving DecidableEq, Repr

/-- The operands of a customer instruction: the registers its fields name, and IMM (R328). -/
structure MicroArgs where
  rd : Dest
  ra : Dest
  rb : Dest
  imm : Word
deriving DecidableEq, Repr

/-- The flags as FL holds them, and back (R328). -/
def Flags.word (f : Flags) : Word := packFields [(b2n f.z, 0), (b2n f.n, 1), (b2n f.c, 2), (b2n f.v, 3)]
def flagsOfWord (w : Word) : Flags := { z := bitOf w 0, n := bitOf w 1, c := bitOf w 2, v := bitOf w 3 }

/-- At the start of a customer instruction (R331). -/
def CoreState.micro (c : CoreState) : Micro :=
  { fl := c.flags, xs := c.xs, xd := c.xd, xc := c.xc, a0 := c.accSeen false, a1 := c.accSeen true }

/-- A register as the micro-operations see it. -/
def Micro.getReg (m : Micro) (c : CoreState) (d : Dest) : Word := ((m.regs.find? fun x => x.1 = d).map (·.2)).getD (c.getDest d)

/-- The value of a selector (R328). -/
def Micro.sel (m : Micro) (c : CoreState) (x : MicroArgs) (n : Nat) : Word :=
  if h : n < 8 then m.u[n]
  else match n with
  | 0x08 => m.getReg c x.rd
  | 0x09 => m.getReg c x.ra
  | 0x0A => m.getReg c x.rb
  | 0x0B => x.imm
  | 0x0C => m.fl.word
  | 0x0D => m.xs
  | 0x0E => m.xd
  | 0x0F => m.xc
  | _ => 0

/-- Writes a selector (R328). -/
def Micro.put (m : Micro) (x : MicroArgs) (n : Nat) (v : Word) : Micro :=
  if h : n < 8 then { m with u := m.u.set n v h }
  else match n with
  | 0x08 => { m with regs := (x.rd, v) :: m.regs }
  | 0x09 => { m with regs := (x.ra, v) :: m.regs }
  | 0x0A => { m with regs := (x.rb, v) :: m.regs }
  | 0x0C => { m with fl := flagsOfWord v }
  | 0x0D => { m with xs := v }
  | 0x0E => { m with xd := v }
  | 0x0F => { m with xc := v }
  | _ => m

/-- sext(K) (R329). -/
def microK (w : Word) : Word := (BitVec.ofNat 11 (opK w)).signExtend 32

/-- The result of a row of R329 that only computes, from A and b. -/
def microValue (op : Nat) (a b : Word) : Option Word :=
  match op with
  | 0x00 => some b
  | 0x01 => some (a + b)
  | 0x02 => some (a - b)
  | 0x03 => some (a &&& b)
  | 0x04 => some (a ||| b)
  | 0x05 => some (a ^^^ b)
  | 0x06 => some (shiftResult 0 a (b.toNat % 32))
  | 0x07 => some (shiftResult 1 a (b.toNat % 32))
  | 0x08 => some (shiftResult 2 a (b.toNat % 32))
  | 0x09 => some (a * b)
  | 0x0A => some (mulHigh a b)
  | 0x0B => some (minS a b)
  | 0x0C => some (maxS a b)
  | _ => none

/-- What a micro-operation answers: how many of those behind it are skipped, or a trap. -/
inductive MicroEnd where
  | go (skip : Nat) (m : Micro) (s : State)
  | trap (cause : Nat) (addr : Word) (s : State)
deriving DecidableEq, Repr

/-- A load of a micro-operation. -/
def microLoad (s : State) (t : CoreId) (a : Word) (n : Nat) (f : Word → Micro) : MicroEnd :=
  match loadCause s t a n with
  | some k => .trap k a s
  | none =>
    let r := s.loadN t a n
    .go 0 (f r.1) r.2

/-- A store of a micro-operation, made at once (R331). -/
def microStore (s : State) (t : CoreId) (a : Word) (n : Nat) (v : Word) (m : Micro) : MicroEnd :=
  match storeCause s t a n with
  | some k => .trap k a s
  | none => .go 0 m ((s.storeN t a n v).stallFor t a)

/-- A bit write of a micro-operation: made at once, and seen by every later one (R331). -/
def State.microBit (s : State) (t : CoreId) (b : BitVec 16) (v : Bool) : State :=
  (s.putBit t (bitPlace b.toNat) v).modCore t fun c =>
    { c with flight := c.flight.filter fun x => match x with | .bit _ a _ => a ≠ b | _ => true }

/-- A micro-operation (R329). -/
def microStep (s : State) (t : CoreId) (x : MicroArgs) (w : Word) (m : Micro) : MicroEnd :=
  let c := s.core t
  let a := m.sel c x (opA w)
  let vb := m.sel c x (opB w)
  let b := vb + microK w
  let at_ := a + microK w
  let res (v : Word) : Micro := m.put x (opDst w) v
  match opCode w with
  | 0x0D => .go 0 { m with fl := (subWith a b false).2 } s
  | 0x0E => .go 0 (res (if m.fl.holds (opK w % 16) then a else vb)) s
  | 0x0F => microLoad s t at_ 4 res
  | 0x10 => microLoad s t at_ 1 res
  | 0x11 => microStore s t at_ 4 vb m
  | 0x12 => microStore s t at_ 1 vb m
  | 0x13 => .go 0 (res (BitVec.ofNat 32 (b2n (bitSeen s t (at_.truncate 16))))) s
  | 0x14 => .go 0 m (s.microBit t (at_.truncate 16) (bitOf vb 0))
  | 0x15 =>
    let k := opK w % 2 = 1
    let r := accumulate c.satm (if k then m.a1 else m.a0).toInt (a.toInt * vb.toInt)
    .go 0 (if k then { m with a1 := r.1, wrote1 := true, sticky := m.sticky || r.2 }
      else { m with a0 := r.1, wrote0 := true, sticky := m.sticky || r.2 }) s
  | 0x16 =>
    let r := clampWord (Int.fdiv (if opK w / 64 % 2 = 1 then m.a1 else m.a0).toInt (2 ^ (opK w % 64)))
    let m1 := res r.1
    .go 0 { m1 with fl := { m1.fl with v := r.2 } } s
  | 0x17 => .go (if m.fl.holds (opK w % 16) then opK w / 16 % 32 else 0) m s
  | op =>
    match microValue op a b with
    | some v => .go 0 (res v) s
    | none => .go 0 m s

/-- Writes of registers, oldest first. -/
def CoreState.putRegs (c : CoreState) : List (Dest × Word) → CoreState
  | [] => c
  | (d, v) :: r =>
    let e := c.putRegs r
    { e.putDest d v with flight := e.flight.filter fun x => !x.loads d }

/-- The commit at the end (R331): results at distance 1, accumulators included. -/
def CoreState.commitMicro (c : CoreState) (m : Micro) : CoreState :=
  let c1 := (({ c.putRegs m.regs with xs := m.xs, xd := m.xd, xc := m.xc }).setFlags m.fl).stickAs m.sticky
  let c2 := if m.wrote0 then c1.setAcc false m.a0 else c1
  if m.wrote1 then c2.setAcc true m.a1 else c2

/-- Runs the micro-operations at the front of the entry's words, one cycle each (R331). A word with an uncorrectable error raises trap 0x05 when it is executed (R302, R340). -/
def State.micros (s : State) (t : CoreId) (x : MicroArgs) (m : Micro) : List (Word × Option Word) → Nat → InstrEnd
  | [], _ => .next (s.goOn t fun c => c.commitMicro m)
  | _ :: r, skip + 1 => s.micros t x m r skip
  | (w, bad) :: r, 0 =>
    match bad with
    | some a => .trap 5 (some a) s
    | none =>
      match microStep s t x w m with
      | .trap k a s1 => .trap k (some a) s1
      | .go k m1 s1 =>
        if opEnd w then .next (s1.goOn t fun c => c.commitMicro m1)
        else (s1.cycles t 1).micros t x m1 r k

/-- The words of entry k with the core address of each that holds an uncorrectable error, read as the instruction starts. -/
def microWords (s : State) (t : CoreId) (k : Nat) : List (Word × Option Word) :=
  (List.range 32).map fun j =>
    let h := decEntry t k + 4 * j
    (memRead32 s.mem h, if eccAt s t h then some (BitVec.ofNat 32 (0x40000000 + h)) else none)

/-- CX (R327, R331). -/
def execCx (t : CoreId) (k : Fin 16) (rd ra rb : RegCode) (imm : BitVec 11) (s : State) : Out :=
  .next (s.instr t false fun st =>
    let c := st.core t
    if !c.valid.getLsbD k.val then .trap 2 none st
    else st.micros t { rd := c.dest rd, ra := c.dest ra, rb := c.dest rb, imm := imm.signExtend 32 } c.micro (microWords st t k.val) 0)

/-- A word that holds no instruction raises trap 0x01 (R302, R308); a word that holds one is not this row's, and nothing happens. -/
def execIllegalInstruction (t : CoreId) (w : Word) (s : State) : Out :=
  match decodeCamku t w with
  | some _ => .next s
  | none => .next (s.instr t false fun st => .trap 1 none st)

end Sys2Proof.Machine
end

