-- ==== Sys2Proof/Machine/Dispatch.lean ====
section
/-! DEFINITION. The effect of every command on everything but the queue: one arm per row of the table. -/

namespace Sys2Proof.Machine

/-- A command's effect. -/
def exec (i : Instr) (s : State) : Host.Outcome State Fault Refusal :=
  match i with
  | .add t rd ra rb x => Sys2Proof.Machine.execAdd t rd ra rb x s
  | .sub t rd ra rb x => Sys2Proof.Machine.execSub t rd ra rb x s
  | .addc t rd ra rb x => Sys2Proof.Machine.execAddc t rd ra rb x s
  | .subc t rd ra rb x => Sys2Proof.Machine.execSubc t rd ra rb x s
  | .and t rd ra rb x => Sys2Proof.Machine.execAnd t rd ra rb x s
  | .or t rd ra rb x => Sys2Proof.Machine.execOr t rd ra rb x s
  | .xor t rd ra rb x => Sys2Proof.Machine.execXor t rd ra rb x s
  | .andn t rd ra rb x => Sys2Proof.Machine.execAndn t rd ra rb x s
  | .shl t rd ra rb x => Sys2Proof.Machine.execShl t rd ra rb x s
  | .shr t rd ra rb x => Sys2Proof.Machine.execShr t rd ra rb x s
  | .sar t rd ra rb x => Sys2Proof.Machine.execSar t rd ra rb x s
  | .ror t rd ra rb x => Sys2Proof.Machine.execRor t rd ra rb x s
  | .mul t rd ra rb x => Sys2Proof.Machine.execMul t rd ra rb x s
  | .mulh t rd ra rb x => Sys2Proof.Machine.execMulh t rd ra rb x s
  | .mulhu t rd ra rb x => Sys2Proof.Machine.execMulhu t rd ra rb x s
  | .min t rd ra rb x => Sys2Proof.Machine.execMin t rd ra rb x s
  | .max t rd ra rb x => Sys2Proof.Machine.execMax t rd ra rb x s
  | .minu t rd ra rb x => Sys2Proof.Machine.execMinu t rd ra rb x s
  | .maxu t rd ra rb x => Sys2Proof.Machine.execMaxu t rd ra rb x s
  | .clz t rd ra x => Sys2Proof.Machine.execClz t rd ra x s
  | .cmp t ra rb x => Sys2Proof.Machine.execCmp t ra rb x s
  | .tst t ra rb x => Sys2Proof.Machine.execTst t ra rb x s
  | .addi t rd ra imm => Sys2Proof.Machine.execAddi t rd ra imm s
  | .andi t rd ra imm => Sys2Proof.Machine.execAndi t rd ra imm s
  | .ori t rd ra imm => Sys2Proof.Machine.execOri t rd ra imm s
  | .xori t rd ra imm => Sys2Proof.Machine.execXori t rd ra imm s
  | .cmpi t ra imm => Sys2Proof.Machine.execCmpi t ra imm s
  | .shi t fn rd ra amount x => Sys2Proof.Machine.execShi t fn rd ra amount x s
  | .movi t rd imm => Sys2Proof.Machine.execMovi t rd imm s
  | .movhi t rd imm => Sys2Proof.Machine.execMovhi t rd imm s
  | .ld t rd ra imm => Sys2Proof.Machine.execLd t rd ra imm s
  | .ldh t rd ra imm => Sys2Proof.Machine.execLdh t rd ra imm s
  | .ldhu t rd ra imm => Sys2Proof.Machine.execLdhu t rd ra imm s
  | .ldb t rd ra imm => Sys2Proof.Machine.execLdb t rd ra imm s
  | .ldbu t rd ra imm => Sys2Proof.Machine.execLdbu t rd ra imm s
  | .st t rd ra imm => Sys2Proof.Machine.execSt t rd ra imm s
  | .sth t rd ra imm => Sys2Proof.Machine.execSth t rd ra imm s
  | .stb t rd ra imm => Sys2Proof.Machine.execStb t rd ra imm s
  | .bcc t cond disp => Sys2Proof.Machine.execBcc t cond disp s
  | .call t disp => Sys2Proof.Machine.execCall t disp s
  | .nop t => Sys2Proof.Machine.execNop t s
  | .jmpr t ra => Sys2Proof.Machine.execJmpr t ra s
  | .callr t ra => Sys2Proof.Machine.execCallr t ra s
  | .ret t => Sys2Proof.Machine.execRet t s
  | .reti t => Sys2Proof.Machine.execReti t s
  | .retx t => Sys2Proof.Machine.execRetx t s
  | .wait t => Sys2Proof.Machine.execWait t s
  | .halt t => Sys2Proof.Machine.execHalt t s
  | .trap t n => Sys2Proof.Machine.execTrap t n s
  | .mfc t rd c => Sys2Proof.Machine.execMfc t rd c s
  | .mtc t c ra => Sys2Proof.Machine.execMtc t c ra s
  | .ei t => Sys2Proof.Machine.execEi t s
  | .di t => Sys2Proof.Machine.execDi t s
  | .mfx t rd x => Sys2Proof.Machine.execMfx t rd x s
  | .mtx t x ra => Sys2Proof.Machine.execMtx t x ra s
  | .mflk t rd => Sys2Proof.Machine.execMflk t rd s
  | .mtlk t ra => Sys2Proof.Machine.execMtlk t ra s
  | .bset t rx ba => Sys2Proof.Machine.execBset t rx ba s
  | .bclr t rx ba => Sys2Proof.Machine.execBclr t rx ba s
  | .bnot t rx ba => Sys2Proof.Machine.execBnot t rx ba s
  | .btst t rx ba => Sys2Proof.Machine.execBtst t rx ba s
  | .bmovToC t rx ba => Sys2Proof.Machine.execBmovToC t rx ba s
  | .bmovn t rx ba => Sys2Proof.Machine.execBmovn t rx ba s
  | .bmovToBit t rx ba => Sys2Proof.Machine.execBmovToBit t rx ba s
  | .band t rx ba => Sys2Proof.Machine.execBand t rx ba s
  | .bandn t rx ba => Sys2Proof.Machine.execBandn t rx ba s
  | .bor t rx ba => Sys2Proof.Machine.execBor t rx ba s
  | .born t rx ba => Sys2Proof.Machine.execBorn t rx ba s
  | .bxor t rx ba => Sys2Proof.Machine.execBxor t rx ba s
  | .btas t rx ba => Sys2Proof.Machine.execBtas t rx ba s
  | .brbs t disp ba => Sys2Proof.Machine.execBrbs t disp ba s
  | .brbc t disp ba => Sys2Proof.Machine.execBrbc t disp ba s
  | .macd t acc neg rx ry xinc yinc => Sys2Proof.Machine.execMacd t acc neg rx ry xinc yinc s
  | .aclr t acc => Sys2Proof.Machine.execAclr t acc s
  | .mac t acc ra rb => Sys2Proof.Machine.execMac t acc ra rb s
  | .msu t acc ra rb => Sys2Proof.Machine.execMsu t acc ra rb s
  | .macu t acc ra rb => Sys2Proof.Machine.execMacu t acc ra rb s
  | .mfal t acc rd => Sys2Proof.Machine.execMfal t acc rd s
  | .mfah t acc rd => Sys2Proof.Machine.execMfah t acc rd s
  | .mfag t acc rd => Sys2Proof.Machine.execMfag t acc rd s
  | .mtal t acc ra => Sys2Proof.Machine.execMtal t acc ra s
  | .mtah t acc ra => Sys2Proof.Machine.execMtah t acc ra s
  | .mtag t acc ra => Sys2Proof.Machine.execMtag t acc ra s
  | .asr t acc n => Sys2Proof.Machine.execAsr t acc n s
  | .asl t acc n => Sys2Proof.Machine.execAsl t acc n s
  | .arnd t acc rd n => Sys2Proof.Machine.execArnd t acc rd n s
  | .movs t sz dec => Sys2Proof.Machine.execMovs t sz dec s
  | .fills t ra sz dec => Sys2Proof.Machine.execFills t ra sz dec s
  | .cmps t sz dec => Sys2Proof.Machine.execCmps t sz dec s
  | .crcs t rd dec poly => Sys2Proof.Machine.execCrcs t rd dec poly s
  | .cx t k rd ra rb imm => Sys2Proof.Machine.execCx t k rd ra rb imm s
  | .powerUp => Sys2Proof.Machine.execPowerUp s
  | .resetAsserted => Sys2Proof.Machine.execResetAsserted s
  | .resetReleased => Sys2Proof.Machine.execResetReleased s
  | .vsysNotValid => Sys2Proof.Machine.execVsysNotValid s
  | .vcoreOutOfRange => Sys2Proof.Machine.execVcoreOutOfRange s
  | .linkFrameTimeout g => Sys2Proof.Machine.execLinkFrameTimeout g s
  | .linkRestored g => Sys2Proof.Machine.execLinkRestored g s
  | .vioLow => Sys2Proof.Machine.execVioLow s
  | .vsysWarn => Sys2Proof.Machine.execVsysWarn s
  | .vsysWarnClear => Sys2Proof.Machine.execVsysWarnClear s
  | .vconnSupLow => Sys2Proof.Machine.execVconnSupLow s
  | .vconnSupRestored => Sys2Proof.Machine.execVconnSupRestored s
  | .pllLocked => Sys2Proof.Machine.execPllLocked s
  | .imageCheckComplete => Sys2Proof.Machine.execImageCheckComplete s
  | .runSet a v => Sys2Proof.Machine.execRunSet a v s
  | .runClear a v => Sys2Proof.Machine.execRunClear a v s
  | .watchSet a v => Sys2Proof.Machine.execWatchSet a v s
  | .watchEntryComplete => Sys2Proof.Machine.execWatchEntryComplete s
  | .watchClear a v => Sys2Proof.Machine.execWatchClear a v s
  | .portEnSet a l v => Sys2Proof.Machine.execPortEnSet a l v s
  | .portEnClear a l v => Sys2Proof.Machine.execPortEnClear a l v s
  | .groupIdle g => Sys2Proof.Machine.execGroupIdle g s
  | .holdoverLimit => Sys2Proof.Machine.execHoldoverLimit s
  | .tamper => Sys2Proof.Machine.execTamper s
  | .mesh => Sys2Proof.Machine.execMesh s
  | .vglitch => Sys2Proof.Machine.execVglitch s
  | .cglitch => Sys2Proof.Machine.execCglitch s
  | .drpToggle l => Sys2Proof.Machine.execDrpToggle l s
  | .attachWaitSrc l cc1 cc2 => Sys2Proof.Machine.execAttachWaitSrc l cc1 cc2 s
  | .attachWaitSnk l cc1 cc2 => Sys2Proof.Machine.execAttachWaitSnk l cc1 cc2 s
  | .ccDebounce l cc1 cc2 vbusMv => Sys2Proof.Machine.execCcDebounce l cc1 cc2 vbusMv s
  | .terminationLost l => Sys2Proof.Machine.execTerminationLost l s
  | .tryCcDebounce l cc1 cc2 => Sys2Proof.Machine.execTryCcDebounce l cc1 cc2 s
  | .drpTry l => Sys2Proof.Machine.execDrpTry l s
  | .trywaitDebounce l cc1 cc2 vbusMv => Sys2Proof.Machine.execTrywaitDebounce l cc1 cc2 vbusMv s
  | .tryTimeout l => Sys2Proof.Machine.execTryTimeout l s
  | .detach l => Sys2Proof.Machine.execDetach l s
  | .unattachedWaitEnd l => Sys2Proof.Machine.execUnattachedWaitEnd l s
  | .cut l => Sys2Proof.Machine.execCut l s
  | .cutClear a l => Sys2Proof.Machine.execCutClear a l s
  | .vconnOc l => Sys2Proof.Machine.execVconnOc l s
  | .vconnReapply l => Sys2Proof.Machine.execVconnReapply l s
  | .watchProbe l cc1 cc2 => Sys2Proof.Machine.execWatchProbe l cc1 cc2 s
  | .discoveryResponseTimeout l => Sys2Proof.Machine.execDiscoveryResponseTimeout l s
  | .transmitStart l => Sys2Proof.Machine.execTransmitStart l s
  | .messageReceived l f => Sys2Proof.Machine.execMessageReceived l f s
  | .goodcrcReceived l p id => Sys2Proof.Machine.execGoodcrcReceived l p id s
  | .goodcrcTimeout l => Sys2Proof.Machine.execGoodcrcTimeout l s
  | .send a l v => Sys2Proof.Machine.execSend a l v s
  | .pop a l => Sys2Proof.Machine.execPop a l s
  | .pdExtData a l wr => Sys2Proof.Machine.execPdExtData a l wr s
  | .sinkTx l => Sys2Proof.Machine.execSinkTx l s
  | .amsHoldTimeout l => Sys2Proof.Machine.execAmsHoldTimeout l s
  | .chunkRequest l f => Sys2Proof.Machine.execChunkRequest l f s
  | .chunkSenderResponse l => Sys2Proof.Machine.execChunkSenderResponse l s
  | .chunkSenderRequest l => Sys2Proof.Machine.execChunkSenderRequest l s
  | .hardReset l => Sys2Proof.Machine.execHardReset l s
  | .hardResetReceived l => Sys2Proof.Machine.execHardResetReceived l s
  | .hardResetComplete l => Sys2Proof.Machine.execHardResetComplete l s
  | .psHardReset l => Sys2Proof.Machine.execPsHardReset l s
  | .srcRecover l => Sys2Proof.Machine.execSrcRecover l s
  | .sinkVbusReturn l vbusMv => Sys2Proof.Machine.execSinkVbusReturn l vbusMv s
  | .sinkHardResetTimeout l vbusMv => Sys2Proof.Machine.execSinkHardResetTimeout l vbusMv s
  | .cableReset a l => Sys2Proof.Machine.execCableReset a l s
  | .bistCarrierEnd l => Sys2Proof.Machine.execBistCarrierEnd l s
  | .arActiveRise l => Sys2Proof.Machine.execArActiveRise l s
  | .request l f => Sys2Proof.Machine.execRequest l f s
  | .srcTransition l => Sys2Proof.Machine.execSrcTransition l s
  | .contractLimitFall l => Sys2Proof.Machine.execContractLimitFall l s
  | .softReset l f => Sys2Proof.Machine.execSoftReset l f s
  | .getSourceCap l f => Sys2Proof.Machine.execGetSourceCap l f s
  | .sourceCapabilities l f => Sys2Proof.Machine.execSourceCapabilities l f s
  | .eprKeepalive l f => Sys2Proof.Machine.execEprKeepalive l f s
  | .keepaliveMissed l => Sys2Proof.Machine.execKeepaliveMissed l s
  | .sinkKeepalive l => Sys2Proof.Machine.execSinkKeepalive l s
  | .eprMode l f => Sys2Proof.Machine.execEprMode l f s
  | .discoverIdentity l f => Sys2Proof.Machine.execDiscoverIdentity l f s
  | .urkaiDiscovery l => Sys2Proof.Machine.execUrkaiDiscovery l s
  | .urkaiResponseTimeout l => Sys2Proof.Machine.execUrkaiResponseTimeout l s
  | .enterModeAck l f => Sys2Proof.Machine.execEnterModeAck l f s
  | .exitModeAck l f => Sys2Proof.Machine.execExitModeAck l f s
  | .twinSetAck l f => Sys2Proof.Machine.execTwinSetAck l f s
  | .timeMark l => Sys2Proof.Machine.execTimeMark l s
  | .tmFollowAck l f => Sys2Proof.Machine.execTmFollowAck l f s
  | .arm a l v => Sys2Proof.Machine.execArm a l v s
  | .disarm a l v => Sys2Proof.Machine.execDisarm a l v s
  | .twinArmAck l f => Sys2Proof.Machine.execTwinArmAck l f s
  | .twinDisarmAck l f => Sys2Proof.Machine.execTwinDisarmAck l f s
  | .armDeadline l => Sys2Proof.Machine.execArmDeadline l s
  | .twinSwitch l => Sys2Proof.Machine.execTwinSwitch l s
  | .standbyLimit l => Sys2Proof.Machine.execStandbyLimit l s
  | .prsReq a l => Sys2Proof.Machine.execPrsReq a l s
  | .prSwap l f => Sys2Proof.Machine.execPrSwap l f s
  | .prSwapAccept l => Sys2Proof.Machine.execPrSwapAccept l s
  | .swapRefused l f => Sys2Proof.Machine.execSwapRefused l f s
  | .swapSrcTransition l => Sys2Proof.Machine.execSwapSrcTransition l s
  | .swapVsafe0v l => Sys2Proof.Machine.execSwapVsafe0v l s
  | .psRdy l f => Sys2Proof.Machine.execPsRdy l f s
  | .psSourceOn l => Sys2Proof.Machine.execPsSourceOn l s
  | .psSourceOff l => Sys2Proof.Machine.execPsSourceOff l s
  | .frsArm c l => Sys2Proof.Machine.execFrsArm c l s
  | .sinkCapabilities l f => Sys2Proof.Machine.execSinkCapabilities l f s
  | .holdSetAck l f => Sys2Proof.Machine.execHoldSetAck l f s
  | .frsTrig => Sys2Proof.Machine.execFrsTrig s
  | .frsSwapTx l => Sys2Proof.Machine.execFrsSwapTx l s
  | .frsHoldCheck l vbus => Sys2Proof.Machine.execFrsHoldCheck l vbus s
  | .frSwap l f => Sys2Proof.Machine.execFrSwap l f s
  | .frsTimeout l => Sys2Proof.Machine.execFrsTimeout l s
  | .frsTrigClear => Sys2Proof.Machine.execFrsTrigClear s
  | .holdEnd l => Sys2Proof.Machine.execHoldEnd l s
  | .packHoldEnd l => Sys2Proof.Machine.execPackHoldEnd l s
  | .drSwap l f => Sys2Proof.Machine.execDrSwap l f s
  | .vconnSwap l f => Sys2Proof.Machine.execVconnSwap l f s
  | .vconnStable l => Sys2Proof.Machine.execVconnStable l s
  | .vconnSourceTimeout l => Sys2Proof.Machine.execVconnSourceTimeout l s
  | .vconnSourceOff l => Sys2Proof.Machine.execVconnSourceOff l s
  | .fullAnchor l => Sys2Proof.Machine.execFullAnchor l s
  | .emptyAnchor l => Sys2Proof.Machine.execEmptyAnchor l s
  | .emptyMark a l => Sys2Proof.Machine.execEmptyMark a l s
  | .clr a l => Sys2Proof.Machine.execClr a l s
  | .batteryStatus l f => Sys2Proof.Machine.execBatteryStatus l f s
  | .recCommitAck l f => Sys2Proof.Machine.execRecCommitAck l f s
  | .preCloseTest l r => Sys2Proof.Machine.execPreCloseTest l r s
  | .comparatorAccept l => Sys2Proof.Machine.execComparatorAccept l s
  | .closeComplete l => Sys2Proof.Machine.execCloseComplete l s
  | .backfeed l voutMv => Sys2Proof.Machine.execBackfeed l voutMv s
  | .preCloseRetry l => Sys2Proof.Machine.execPreCloseRetry l s
  | .ocp l a b short => Sys2Proof.Machine.execOcp l a b short s
  | .ovp l => Sys2Proof.Machine.execOvp l s
  | .uvp l => Sys2Proof.Machine.execUvp l s
  | .reverseCurrent l ma => Sys2Proof.Machine.execReverseCurrent l ma s
  | .overload l => Sys2Proof.Machine.execOverload l s
  | .thermWarn g temp => Sys2Proof.Machine.execThermWarn g temp s
  | .thermalShutdown g temp => Sys2Proof.Machine.execThermalShutdown g temp s
  | .thermalRestart g temp => Sys2Proof.Machine.execThermalRestart g temp s
  | .dischargeEnd l side => Sys2Proof.Machine.execDischargeEnd l side s
  | .selfTest l r => Sys2Proof.Machine.execSelfTest l r s
  | .stestNow a l r => Sys2Proof.Machine.execStestNow a l r s
  | .latchClr a l => Sys2Proof.Machine.execLatchClr a l s
  | .ilimSet a l v => Sys2Proof.Machine.execIlimSet a l v s
  | .shedIlim a l v => Sys2Proof.Machine.execShedIlim a l v s
  | .shedIlimBelay l => Sys2Proof.Machine.execShedIlimBelay l s
  | .rampComplete l => Sys2Proof.Machine.execRampComplete l s
  | .ratioModeChange l m => Sys2Proof.Machine.execRatioModeChange l m s
  | .slewEnter l kind m => Sys2Proof.Machine.execSlewEnter l kind m s
  | .leave l m => Sys2Proof.Machine.execLeave l m s
  | .slewTo l m => Sys2Proof.Machine.execSlewTo l m s
  | .ffRampEnd l => Sys2Proof.Machine.execFfRampEnd l s
  | .convVset a l v => Sys2Proof.Machine.execConvVset a l v s
  | .convIset a l v => Sys2Proof.Machine.execConvIset a l v s
  | .phaseOffset a l v => Sys2Proof.Machine.execPhaseOffset a l v s
  | .budgetFrame b => Sys2Proof.Machine.execBudgetFrame b s
  | .arbitrationResult results => Sys2Proof.Machine.execArbitrationResult results s
  | .frozen => Sys2Proof.Machine.execFrozen s
  | .busSag => Sys2Proof.Machine.execBusSag s
  | .sagEnd => Sys2Proof.Machine.execSagEnd s
  | .shedMeasure l => Sys2Proof.Machine.execShedMeasure l s
  | .shedDeadline l => Sys2Proof.Machine.execShedDeadline l s
  | .busBudget a v => Sys2Proof.Machine.execBusBudget a v s
  | .fixCommit a => Sys2Proof.Machine.execFixCommit a s
  | .swathStep u => Sys2Proof.Machine.execSwathStep u s
  | .pospps => Sys2Proof.Machine.execPospps s
  | .fixStale => Sys2Proof.Machine.execFixStale s
  | .drOut => Sys2Proof.Machine.execDrOut s
  | .poseLost => Sys2Proof.Machine.execPoseLost s
  | .postLapse l => Sys2Proof.Machine.execPostLapse l s
  | .applied l => Sys2Proof.Machine.execApplied l s
  | .sectCtrl a l v => Sys2Proof.Machine.execSectCtrl a l v s
  | .tileLoad a tag => Sys2Proof.Machine.execTileLoad a tag s
  | .tileTake a tag => Sys2Proof.Machine.execTileTake a tag s
  | .turnEvent n => Sys2Proof.Machine.execTurnEvent n s
  | .peakEvent n => Sys2Proof.Machine.execPeakEvent n s
  | .compareMatch n b => Sys2Proof.Machine.execCompareMatch n b s
  | .capture n rising => Sys2Proof.Machine.execCapture n rising s
  | .cntnVal a n v => Sys2Proof.Machine.execCntnVal a n v s
  | .cntnValRead a n => Sys2Proof.Machine.execCntnValRead a n s
  | .cntnTop a n v => Sys2Proof.Machine.execCntnTop a n v s
  | .cntnCmp a n b v => Sys2Proof.Machine.execCntnCmp a n b v s
  | .cntnCtrl a n v => Sys2Proof.Machine.execCntnCtrl a n v s
  | .cntnCap a n v => Sys2Proof.Machine.execCntnCap a n v s
  | .doorbell a t x => Sys2Proof.Machine.execDoorbell a t x s
  | .interruptClaim t => Sys2Proof.Machine.execInterruptClaim t s
  | .holdOff t g => Sys2Proof.Machine.execHoldOff t g s
  | .icClr a x => Sys2Proof.Machine.execIcClr a x s
  | .take a t => Sys2Proof.Machine.execTake a t s
  | .release a t => Sys2Proof.Machine.execRelease a t s
  | .mlockBreak t => Sys2Proof.Machine.execMlockBreak t s
  | .mpClr a t => Sys2Proof.Machine.execMpClr a t s
  | .debugHalt t => Sys2Proof.Machine.execDebugHalt t s
  | .decCtrl a t v => Sys2Proof.Machine.execDecCtrl a t v s
  | .heartbeatPeriod => Sys2Proof.Machine.execHeartbeatPeriod s
  | .takeG t g => Sys2Proof.Machine.execTakeG t g s
  | .rtnG t g => Sys2Proof.Machine.execRtnG t g s
  | .relG t g => Sys2Proof.Machine.execRelG t g s
  | .returnTimeout g => Sys2Proof.Machine.execReturnTimeout g s
  | .coreRst a v => Sys2Proof.Machine.execCoreRst a v s
  | .wardenTakeover => Sys2Proof.Machine.execWardenTakeover s
  | .wardenAttempt => Sys2Proof.Machine.execWardenAttempt s
  | .wardenSuccess => Sys2Proof.Machine.execWardenSuccess s
  | .wardenAttemptTimeout => Sys2Proof.Machine.execWardenAttemptTimeout s
  | .orphanTimeout g => Sys2Proof.Machine.execOrphanTimeout g s
  | .protoLast a l => Sys2Proof.Machine.execProtoLast a l s
  | .eccError site double => Sys2Proof.Machine.execEccError site double s
  | .evtLogRsv a => Sys2Proof.Machine.execEvtLogRsv a s
  | .linkUp p nb => Sys2Proof.Machine.execLinkUp p nb s
  | .linkDown p => Sys2Proof.Machine.execLinkDown p s
  | .acqTimeout => Sys2Proof.Machine.execAcqTimeout s
  | .frameStart => Sys2Proof.Machine.execFrameStart s
  | .downstreamFrame p f => Sys2Proof.Machine.execDownstreamFrame p f s
  | .upstreamFrame p f => Sys2Proof.Machine.execUpstreamFrame p f s
  | .timingMarker p m => Sys2Proof.Machine.execTimingMarker p m s
  | .timeLock locked => Sys2Proof.Machine.execTimeLock locked s
  | .staggerRequest pos l time => Sys2Proof.Machine.execStaggerRequest pos l time s
  | .swathMark tx ty row col len => Sys2Proof.Machine.execSwathMark tx ty row col len s
  | .tileChunk tx ty index data => Sys2Proof.Machine.execTileChunk tx ty index data s
  | .tunnel a tag => Sys2Proof.Machine.execTunnel a tag s
  | .hitchSuccession => Sys2Proof.Machine.execHitchSuccession s
  | .solo a v => Sys2Proof.Machine.execSolo a v s
  | .watchBeacon err => Sys2Proof.Machine.execWatchBeacon err s
  | .hspiWrite bytes => Sys2Proof.Machine.execHspiWrite bytes s
  | .hspiRead bytes ended => Sys2Proof.Machine.execHspiRead bytes ended s
  | .hspiClr a => Sys2Proof.Machine.execHspiClr a s
  | .dtimeLoRead a => Sys2Proof.Machine.execDtimeLoRead a s
  | .tallyQLoRead a l => Sys2Proof.Machine.execTallyQLoRead a l s
  | .poseERead a => Sys2Proof.Machine.execPoseERead a s
  | .ppsLoRead a => Sys2Proof.Machine.execPpsLoRead a s
  | .check a tag => Sys2Proof.Machine.execCheck a tag s
  | .imageWrite a tag => Sys2Proof.Machine.execImageWrite a tag s
  | .activate a tag => Sys2Proof.Machine.execActivate a tag s
  | .activateNextCore beat => Sys2Proof.Machine.execActivateNextCore beat s
  | .fuseProgram a tag vprog reads => Sys2Proof.Machine.execFuseProgram a tag vprog reads s
  | .audit a tag reads => Sys2Proof.Machine.execAudit a tag reads s
  | .meas a mv => Sys2Proof.Machine.execMeas a mv s
  | .dbgPass7 a v => Sys2Proof.Machine.execDbgPass7 a v s
  | .relock a => Sys2Proof.Machine.execRelock a s
  | .alarmPolicy a v => Sys2Proof.Machine.execAlarmPolicy a v s
  | .secCtrl a v => Sys2Proof.Machine.execSecCtrl a v s
  | .vsysMon a v => Sys2Proof.Machine.execVsysMon a v s
  | .securityRequest l f => Sys2Proof.Machine.execSecurityRequest l f s
  | .registerWrite a addr v => Sys2Proof.Machine.execRegisterWrite a addr v s
  | .vcoreAndVioInRange => Sys2Proof.Machine.execVcoreAndVioInRange s
  | .sinkVbusPresent l vbusMv => Sys2Proof.Machine.execSinkVbusPresent l vbusMv s
  | .partnerRpChange l level => Sys2Proof.Machine.execPartnerRpChange l level s
  | .runLimit l => Sys2Proof.Machine.execRunLimit l s
  | .currentLimit l m => Sys2Proof.Machine.execCurrentLimit l m s
  | .reverseRampEnd l => Sys2Proof.Machine.execReverseRampEnd l s
  | .slotTimeConversion n => Sys2Proof.Machine.execSlotTimeConversion n s
  | .illegalInstruction t w => Sys2Proof.Machine.execIllegalInstruction t w s
  | .debugResume t => Sys2Proof.Machine.execDebugResume t s

end Sys2Proof.Machine
end

