-- ==== Sys2Proof/Safety.lean ====
section
/-! DEFINITION. What a safe step is, the invariant that every step keeps, and the words in which the statements speak of a command's outcome. -/

namespace Sys2Proof.Machine

/-- An outcome is a next state: neither a fault nor a refusal. -/
def Out.goesOn : Out → Bool
  | .next _ => true
  | _ => false

/-- A step that neither faults nor is refused. -/
def State.safe (s : State) : Bool := Out.goesOn (step s)

/-- Command c in state s leads to a next state, and P holds of it. -/
def leads (c : Instr) (s : State) (P : State → Prop) : Prop := ∃ s', exec c s = .next s' ∧ P s'

-- the invariant

/-- What holds of a lane's message layer: at most four receive slots (R54), at most two transmit slots (R57), and buffers in canonical form. -/
def PdLane.ok (p : PdLane) : Prop :=
  p.fifo.length ≤ 4 ∧ p.queue.length ≤ 2 ∧ Memory.wf p.rxBuf = true ∧ Memory.wf p.txBuf = true

/-- What every step keeps: each memory of the block in its canonical form, and each lane's message layer within its bounds. -/
def State.ok (s : State) : Prop :=
  Memory.wf s.mem = true ∧ Memory.wf s.image.store = true ∧ ∀ l, (s.lane l).pd.ok

-- what stays as it was

/-- Only core t may differ. -/
def State.onlyCore (s s' : State) (t : CoreId) : Prop := s'.setCore t (s.core t) = s

/-- Only lane l may differ. -/
def State.onlyLane (s s' : State) (l : LaneId) : Prop := s'.setLane l (s.lane l) = s

/-- Only lane l, and what the posting of an interrupt source reaches (sources, core wakes and group wakes: R17, R268, R278), may differ. -/
def State.onlyLanePosts (s s' : State) (l : LaneId) : Prop :=
  { s'.setLane l (s.lane l) with srcs := s.srcs, cores := s.cores, groups := s.groups } = s

/-- Only lane l, postings, the event log's memory, and the device's own registers may differ (R268, R356, R385). -/
def State.onlyLaneLogs (s s' : State) (l : LaneId) : Prop :=
  { s'.setLane l (s.lane l) with srcs := s.srcs, cores := s.cores, groups := s.groups, mem := s.mem, dev := s.dev } = s

/-- Every lane is as before, but for how far its carrier stands from its place (R173). -/
def State.keepsLanes (s s' : State) : Prop :=
  ∀ l, { s'.lane l with conv := { (s'.lane l).conv with slip := (s.lane l).conv.slip } } = s.lane l

/-- Every byte of memory reads as before. -/
def State.keepsMem (s s' : State) : Prop := ∀ a, memRead s'.mem a = memRead s.mem a

/-- Every byte of memory outside the n bytes from a reads as before. -/
def State.keepsMemBut (s s' : State) (a n : Nat) : Prop := ∀ x, x < a ∨ a + n ≤ x → memRead s'.mem x = memRead s.mem x

-- messages

/-- Lane l, which has nothing queued, in flight, held or being reassembled, takes frame f as a new message on SOP, and its policy core runs the base image and serves it (R4, R50, R51, R55). -/
abbrev State.hears (s : State) (l : LaneId) (f : Frame) : Prop :=
  (s.lane l).cc.attached = true ∧ (s.lane l).pd.bist = .off ∧ (s.lane l).pd.hrPhase = .idle ∧ (s.lane l).pd.flight = none ∧
    (s.lane l).pd.queue = [] ∧ (s.lane l).pd.fifo = [] ∧ (s.lane l).pd.reasm = none ∧ serves s l = true ∧
    f.sop = .sop ∧ isCtl f 1 = false ∧ (s.lane l).pd.rxId.get 0 ≠ some (msgId f.header)

/-- The transmit queue of a lane holds exactly these messages, staged in wire order (R55, R57). -/
abbrev Lane.says (x : Lane) (fs : List Frame) : Prop :=
  x.pd.queue.map (fun m => (m.sop, m.ext, m.data)) = fs.map fun f => (f.sop, false, (stageWords f).toList)

-- Camku instructions

/-- Core t runs on a clock, its fetch raises no trap, and no breakpoint stands at its pc (R302, R304). -/
def State.fetches (s : State) (t : CoreId) : Prop :=
  (s.core t).run = .running ∧ s.clocked t = true ∧ fetchCause (s.begun t) t = none ∧ breaksAt (s.begun t) t = false

/-- The address behind an instruction (R315): the next word, or the transfer's target, or the word behind the slot, where the instruction stands in a delay slot. -/
def CoreState.behind (c : CoreState) : Word :=
  match c.slot with
  | none => c.pc + 4
  | some x => x.target.getD (x.from_ + 8)

/-- Core state d after an instruction on core state c: it goes on behind the instruction, and outside the slot of RETX, which restores st, the flags are f and st is as before but for them (R293, R310, R315). -/
def CoreState.goesOn (c d : CoreState) (f : Flags) : Prop :=
  d.pc = c.behind ∧ d.slot = none ∧ (c.slot.any Slot.retx = false → d.flags = f ∧ d.st &&& ~~~0x1E0 = c.st &&& ~~~0x1E0)

/-- The physical registers are as before. -/
def CoreState.keepsRegs (c d : CoreState) : Prop := ∀ x, d.getDest x = c.getDest x

/-- All but the numbered registers, st, the pc, the slot and the results in flight is as before: lk, the accumulators, xs, xd, xc, the window base, every control register but st, and the run state among it (R291, R294). -/
def CoreState.keepsRest (c d : CoreState) : Prop :=
  { d with g := c.g, win := c.win, f := c.f, t := c.t, st := c.st, pc := c.pc, slot := c.slot, flight := c.flight } = c

/-- Register x takes v, every other register stays, an older load of x in flight is overtaken (R298), the flags become f, and nothing else of the core changes but that it goes on. -/
def CoreState.writesReg (c d : CoreState) (x : Dest) (v : Word) (f : Flags) : Prop :=
  d.getDest x = v ∧ (∀ y, y ≠ x → d.getDest y = c.getDest y) ∧ c.goesOn d f ∧ c.keepsRest d ∧ d.flight = c.flight.filter fun i => !i.loads x

/-- No register changes, the flags become f, and nothing else of the core changes but that it goes on. -/
def CoreState.writesFlags (c d : CoreState) (f : Flags) : Prop :=
  c.keepsRegs d ∧ c.goesOn d f ∧ c.keepsRest d ∧ d.flight = c.flight

/-- Nothing of the core changes but that it goes on, with `xs` as its results in flight. -/
def CoreState.sends (c d : CoreState) (xs : List InFlight) : Prop :=
  c.keepsRegs d ∧ c.goesOn d c.flags ∧ c.keepsRest d ∧ d.flight = xs

/-- Instruction i goes on on core t: `P` relates the core it sees to the core it leaves, and nothing outside the core changes. -/
def onCore (i : Instr) (s : State) (t : CoreId) (P : CoreState → CoreState → Prop) : Prop :=
  leads i s fun s' => (s.begun t).onlyCore s' t ∧ (s.begun t).keepsMem s' ∧ P ((s.begun t).core t) (s'.core t)

/-- Writes the register that a code names in the present view (R307). -/
def CoreState.writesCode (c d : CoreState) (r : RegCode) (v : Word) (f : Flags) : Prop := c.writesReg d (c.dest r) v f

/-- A transfer: the delay slot follows at pc + 4 and will go to `target`, or fall through where there is none; the core as it stood, with its results in flight, is kept for a trap in the slot (R302, R315). -/
def CoreState.transfers (c d : CoreState) (target : Option Word) (retx : Bool) : Prop :=
  d.pc = c.pc + 4 ∧ d.slot = some { target := target, from_ := c.pc, retx := retx, base := c.base, st := c.st, lk := c.lk, flight := c.flight }

end Sys2Proof.Machine
end

