-- ==== Sys2Proof/Certificates/Slice0/Obligations.lean ====
section
/-! DEFINITION. The obligations: what the prover is asked to prove of the model, in the words of Sys2Proof/Safety.lean. The lanes that a clause does not name stay as they are, but for what its frame admits. -/

open Sys2Proof Sys2Proof.Machine

/-- A step with command c at the front of the queue is exec of c on the state with the queue's rest. -/
def Obligations.StepRunsFront : Prop :=
  ∀ (c : Instr) (rest : List Instr) (s : State), s.pending = c :: rest → step s = exec c { s with pending := rest }

/-- On an empty queue the time base ticks (log 1, the model's choice): DTIME goes on by the period of its clock (R12) where XIN runs on a powered device out of RESET#, and nothing moves otherwise. -/
def Obligations.EmptyQueueTicks : Prop :=
  ∀ s : State, s.pending = [] →
    ((s.dev.xin = false ∨ s.dev.vsysOk = false ∨ s.dev.resetLow = true) → step s = .next s) ∧
    (s.dev.xin = true → s.dev.vsysOk = true → s.dev.resetLow = false →
      ∃ s', step s = .next s' ∧ s'.dev.dtime = s.dev.dtime + (if s.dev.pll then 8 else 40) ∧ s'.pending = [] ∧ s'.dev.state = s.dev.state)

/-- No command changes the queue of those behind it. -/
def Obligations.ExecKeepsQueue : Prop :=
  ∀ (c : Instr) (s : State), leads c s fun s' => s'.pending = s.pending

/-- Every step keeps each memory of the block canonical and each lane's message layer within its bounds (R54, R57). -/
def Obligations.StepKeepsOk : Prop :=
  ∀ s : State, s.ok → ∃ s', step s = .next s' ∧ s'.ok ∧ s'.pending = s.pending.tail

/-- The invariant holds at reset. -/
def Obligations.ResetOk : Prop := State.reset.ok

/-- What the spec states for reset: the device in BOOT (R14), each core in reset with the values of st, tvb and the other registers that R294 gives, each lane's switch open with its path at the values of its tables, no interrupt source pending, and no command waiting. -/
def Obligations.ResetValues : Prop :=
  State.reset.pending = [] ∧ State.reset.dev.state = .boot ∧ State.reset.dev.run = false ∧ State.reset.dev.watch = false ∧
  (∀ t, (State.reset.core t).run = .inReset ∧ (State.reset.core t).st = 0x10000 ∧ (State.reset.core t).tvb = 0x100 ∧
    (State.reset.core t).tcause = 0 ∧ (State.reset.core t).wstk = 0 ∧ (State.reset.core t).wlim = 0 ∧ (State.reset.core t).valid = 0) ∧
  (∀ l, (State.reset.lane l).enabled = false ∧ (State.reset.lane l).belay.sw = 0 ∧ (State.reset.lane l).cc.st = .disabled ∧
    (State.reset.lane l).pd.fifo = [] ∧ (State.reset.lane l).pd.queue = [] ∧ (State.reset.lane l).con.valid = false ∧ (State.reset.lane l).conv.on = false) ∧
  ∀ x, (State.reset.src x).pending = false ∧ (State.reset.src x).active = false

/-- Decoding the word that the encoder gives a Camku instruction gives the instruction back, with every operand at every value. -/
def Obligations.DecodeOfEncode : Prop :=
  ∀ (i : Instr) (t : CoreId) (w : Word), encodeCamku i = some (t, w) → decodeCamku t w = some i

/-- Words written from the encodings of file 13: one of each format (R307, R309), the MACD of the example of R321 among them. -/
def Obligations.DecodedWords : Prop :=
  ∀ t : CoreId,
    decodeCamku t 0xA08447C0 = some (.macd t false false 16 17 1 0xF) ∧
    decodeCamku t 0x04221C00 = some (.add t 1 2 3 true) ∧
    decodeCamku t 0x08410004 = some (.addi t 2 1 4) ∧
    decodeCamku t 0x60400003 = some (.bcc t 1 3) ∧
    decodeCamku t 0x67FFFFFE = some (.call t 0x3FFFFFE) ∧
    decodeCamku t 0x68001808 = some (.trap t 3) ∧
    decodeCamku t 0x80034010 = some (.bset t (some 1) 0x4010) ∧
    decodeCamku t 0x84050123 = some (.brbs t 5 0x123) ∧
    decodeCamku t 0xA4000400 = some (.aclr t true) ∧
    decodeCamku t 0xB0000500 = some (.movs t 2 true) ∧
    decodeCamku t 0xC0221800 = some (.cx t 0 1 2 3 0) ∧
    decodeCamku t 0x00000000 = none ∧ decodeCamku t 0x63C00000 = none ∧ decodeCamku t 0xB0000600 = none

/-- ADD, SUB, ADDC and SUBC (R312) with the flags of R310: c by the exact sum of naturals, v by the exact sum of integers. The model's choices: log 74. -/
def Obligations.AddSubtract : Prop :=
  ∀ (t : CoreId) (rd ra rb : RegCode) (sets : Bool) (s : State), s.fetches t →
    let flags (c : CoreState) (r : Word) (cy : Bool) (e : Int) : Flags :=
      if sets then { z := decide (r = 0), n := r.getLsbD 31, c := cy, v := decide (e < -(2 ^ 31) ∨ 2 ^ 31 ≤ e) } else c.flags
    (onCore (.add t rd ra rb sets) s t fun c d =>
      let x := c.reg ra; let y := c.reg rb
      c.writesCode d rd (x + y) (flags c (x + y) (decide (2 ^ 32 ≤ x.toNat + y.toNat)) (x.toInt + y.toInt))) ∧
    (onCore (.sub t rd ra rb sets) s t fun c d =>
      let x := c.reg ra; let y := c.reg rb
      c.writesCode d rd (x - y) (flags c (x - y) (decide (y.toNat ≤ x.toNat)) (x.toInt - y.toInt))) ∧
    (onCore (.addc t rd ra rb sets) s t fun c d =>
      let x := c.reg ra; let y := c.reg rb; let k := b2n c.flags.c
      let r := x + y + BitVec.ofNat 32 k
      c.writesCode d rd r (flags c r (decide (2 ^ 32 ≤ x.toNat + y.toNat + k)) (x.toInt + y.toInt + k))) ∧
    (onCore (.subc t rd ra rb sets) s t fun c d =>
      let x := c.reg ra; let y := c.reg rb; let k := 1 - b2n c.flags.c
      let r := x - y - BitVec.ofNat 32 k
      c.writesCode d rd r (flags c r (decide (y.toNat + k ≤ x.toNat)) (x.toInt - y.toInt - k)))

/-- The logic rows, the products, the minimum and maximum rows and CLZ (R312): z and n follow the result where S = 1, c and v stay (R310). -/
def Obligations.LogicAndProducts : Prop :=
  ∀ (t : CoreId) (rd ra rb : RegCode) (sets : Bool) (s : State), s.fetches t →
    let gives (i : Instr) (r : Word → Word → Word → Prop) : Prop :=
      onCore i s t fun c d => ∃ v, r (c.reg ra) (c.reg rb) v ∧
        c.writesCode d rd v (if sets then { c.flags with z := decide (v = 0), n := v.getLsbD 31 } else c.flags)
    gives (.and t rd ra rb sets) (fun x y v => v = x &&& y) ∧
    gives (.or t rd ra rb sets) (fun x y v => v = x ||| y) ∧
    gives (.xor t rd ra rb sets) (fun x y v => v = x ^^^ y) ∧
    gives (.andn t rd ra rb sets) (fun x y v => v = x &&& ~~~y) ∧
    gives (.mul t rd ra rb sets) (fun x y v => v = BitVec.ofNat 32 (x.toNat * y.toNat)) ∧
    gives (.mulh t rd ra rb sets) (fun x y v => v = (x.signExtend 64 * y.signExtend 64).extractLsb' 32 32) ∧
    gives (.mulhu t rd ra rb sets) (fun x y v => v = (x.zeroExtend 64 * y.zeroExtend 64).extractLsb' 32 32) ∧
    gives (.min t rd ra rb sets) (fun x y v => v.toInt = Min.min x.toInt y.toInt) ∧
    gives (.max t rd ra rb sets) (fun x y v => v.toInt = Max.max x.toInt y.toInt) ∧
    gives (.minu t rd ra rb sets) (fun x y v => v.toNat = Min.min x.toNat y.toNat) ∧
    gives (.maxu t rd ra rb sets) (fun x y v => v.toNat = Max.max x.toNat y.toNat) ∧
    gives (.clz t rd ra sets) (fun x _ v => v.toNat ≤ 32 ∧ (∀ i, 32 - v.toNat ≤ i → x.getLsbD i = false) ∧ (v.toNat < 32 → x.getLsbD (31 - v.toNat) = true))

/-- SHL, SHR, SAR and ROR by rb[4:0] (R312) and SHI by its amount (R313): c is the last bit shifted out, and stays for an amount of 0 (R310). -/
def Obligations.Shifts : Prop :=
  ∀ (t : CoreId) (rd ra rb : RegCode) (amount : BitVec 5) (sets : Bool) (s : State), s.fetches t →
    let gives (i : Instr) (amt : CoreState → Nat) (r : Word → Nat → Word) (out : Word → Nat → Bool) : Prop :=
      onCore i s t fun c d =>
        let x := c.reg ra; let n := amt c; let v := r x n
        c.writesCode d rd v (if sets then { z := decide (v = 0), n := v.getLsbD 31, c := if n = 0 then c.flags.c else out x n, v := c.flags.v } else c.flags)
    let low (c : CoreState) : Nat := (c.reg rb).toNat % 32
    let imm (_ : CoreState) : Nat := amount.toNat
    let sar (x : Word) (n : Nat) : Word := BitVec.ofInt 32 (x.toInt / 2 ^ n)
    let ror (x : Word) (n : Nat) : Word := x >>> n ||| x <<< (32 - n)
    let left (x : Word) (n : Nat) : Bool := x.getLsbD (32 - n)
    let right (x : Word) (n : Nat) : Bool := x.getLsbD (n - 1)
    gives (.shl t rd ra rb sets) low (fun x n => x <<< n) left ∧ gives (.shi t 0 rd ra amount sets) imm (fun x n => x <<< n) left ∧
    gives (.shr t rd ra rb sets) low (fun x n => x >>> n) right ∧ gives (.shi t 1 rd ra amount sets) imm (fun x n => x >>> n) right ∧
    gives (.sar t rd ra rb sets) low sar right ∧ gives (.shi t 2 rd ra amount sets) imm sar right ∧
    gives (.ror t rd ra rb sets) low ror right ∧ gives (.shi t 3 rd ra amount sets) imm ror right

/-- CMP and CMPI set the flags of a difference and TST z and n of a conjunction, whatever S holds, and write no register (R310, R312, R313). -/
def Obligations.Compares : Prop :=
  ∀ (t : CoreId) (ra rb : RegCode) (imm : BitVec 16) (sets : Bool) (s : State), s.fetches t →
    let less (x y : Word) : Flags :=
      { z := decide (x = y), n := (x - y).getLsbD 31, c := decide (y.toNat ≤ x.toNat),
        v := decide (x.toInt - y.toInt < -(2 ^ 31) ∨ 2 ^ 31 ≤ x.toInt - y.toInt) }
    (onCore (.cmp t ra rb sets) s t fun c d => c.writesFlags d (less (c.reg ra) (c.reg rb))) ∧
    (onCore (.cmpi t ra imm) s t fun c d => c.writesFlags d (less (c.reg ra) (imm.signExtend 32))) ∧
    (onCore (.tst t ra rb sets) s t fun c d =>
      c.writesFlags d { c.flags with z := decide (c.reg ra &&& c.reg rb = 0), n := (c.reg ra &&& c.reg rb).getLsbD 31 })

/-- ADDI, ANDI, ORI, XORI, MOVI and MOVHI (R313), which set no flags, and the moves of lk, xs, xd, xc and the control registers to a register (R294, R315). -/
def Obligations.ImmediatesAndMoves : Prop :=
  ∀ (t : CoreId) (rd ra : RegCode) (imm : BitVec 16) (n : Fin 15) (s : State), s.fetches t →
    let gives (i : Instr) (v : CoreState → Word) : Prop := onCore i s t fun c d => c.writesCode d rd (v c) c.flags
    gives (.addi t rd ra imm) (fun c => c.reg ra + imm.signExtend 32) ∧
    gives (.andi t rd ra imm) (fun c => c.reg ra &&& imm.zeroExtend 32) ∧
    gives (.ori t rd ra imm) (fun c => c.reg ra ||| imm.zeroExtend 32) ∧
    gives (.xori t rd ra imm) (fun c => c.reg ra ^^^ imm.zeroExtend 32) ∧
    gives (.movi t rd imm) (fun _ => imm.signExtend 32) ∧
    gives (.movhi t rd imm) (fun c => imm ++ (c.reg rd).extractLsb' 0 16) ∧
    gives (.mflk t rd) (fun c => c.lk) ∧
    gives (.mfx t rd 0) (fun c => c.xs) ∧ gives (.mfx t rd 1) (fun c => c.xd) ∧ gives (.mfx t rd 2) (fun c => c.xc) ∧
    gives (.mfc t rd n) (fun c =>
      match n with
      | 0 => c.st | 1 => c.ipc | 2 => c.ist | 3 => c.fpc | 4 => c.fst | 5 => c.tpc | 6 => c.tst | 7 => c.tcause
      | 8 => c.taddr | 9 => c.tvb | 10 => c.wstk | 11 => c.wlim | 12 => c.rcause | 13 => BitVec.ofNat 32 t.val | 14 => c.ccnt)

/-- NOP changes nothing but that the core goes on; MTLK and MTX write lk and xs, xd or xc; MTC, EI and DI send their value to a control register that takes it at the fourth instruction after (R298, R315). -/
def Obligations.MovesToSpecials : Prop :=
  ∀ (t : CoreId) (ra : RegCode) (n : Fin 15) (s : State), s.fetches t →
    (onCore (.nop t) s t fun c d => c.sends d c.flight) ∧
    (onCore (.mtlk t ra) s t fun c d => { c with lk := c.reg ra }.sends d c.flight) ∧
    (onCore (.mtx t 0 ra) s t fun c d => { c with xs := c.reg ra }.sends d c.flight) ∧
    (onCore (.mtx t 1 ra) s t fun c d => { c with xd := c.reg ra }.sends d c.flight) ∧
    (onCore (.mtx t 2 ra) s t fun c d => { c with xc := c.reg ra }.sends d c.flight) ∧
    (onCore (.mtc t n ra) s t fun c d => c.sends d (c.flight ++ [.ctrl 4 n (c.reg ra)])) ∧
    (onCore (.ei t) s t fun c d => c.sends d (c.flight ++ [.ie 4 true])) ∧
    (onCore (.di t) s t fun c d => c.sends d (c.flight ++ [.ie 4 false]))

/-- A result in flight (R298): one instruction later it has come one closer, and one at distance 1 takes effect, a load in its register, a control-register write in the fields that the register lets the core write (R293, R294). The model's choices: log 32. -/
def Obligations.Distances : Prop :=
  ∀ (s : State) (t : CoreId) (x : InFlight), (s.core t).flight = [x] →
    let d := (s.begun t).core t
    (∀ n r v, x = .load n r v → 2 ≤ n → d.flight = [.load (n - 1) r v] ∧ (s.core t).keepsRegs d) ∧
    (∀ r v, x = .load 1 r v → r ≠ .none → d.flight = [] ∧ d.getDest r = v ∧ ∀ y, y ≠ r → d.getDest y = (s.core t).getDest y) ∧
    (∀ n k v, x = .ctrl n k v → 2 ≤ n → d.flight = [.ctrl (n - 1) k v] ∧ d.st = (s.core t).st ∧ d.tvb = (s.core t).tvb ∧ d.wlim = (s.core t).wlim) ∧
    (∀ v, x = .ctrl 1 0 v → d.flight = [] ∧ d.st = ((s.core t).st &&& ~~~0x7E1) ||| (v &&& 0x7E1)) ∧
    (∀ v, x = .ctrl 1 9 v → d.tvb = v ∧ d.st = (s.core t).st) ∧
    (∀ v, x = .ctrl 1 11 v → d.wlim = v ∧ d.st = (s.core t).st) ∧
    (∀ v, x = .ctrl 1 7 v → d.tcause = (s.core t).tcause) ∧
    (∀ v, x = .ctrl 1 12 v → d.rcause = (s.core t).rcause) ∧
    (∀ v, x = .ie 1 v → d.ie = v ∧ d.st &&& ~~~1 = (s.core t).st &&& ~~~1)

/-- An instruction of a core that does not run, or whose clock stands, does nothing; one whose fetch raises a trap takes it, and so does one that could only complete, shown by ADD and NOP, at a breakpoint with debug enabled (cause 9: R302, R304). The model's choices: logs 13, 16, 39. -/
def Obligations.FetchFirst : Prop :=
  ∀ (i : Instr) (t : CoreId) (w : Word) (s : State), encodeCamku i = some (t, w) →
    (((s.core t).run ≠ .running ∨ s.clocked t = false) → exec i s = .next s) ∧
    ((s.core t).run = .running → s.clocked t = true → ∀ k, fetchCause (s.begun t) t = some k →
      exec i s = .next ((s.begun t).takeTrap t k ((s.begun t).core t).pc (some ((s.begun t).core t).pc))) ∧
    (∀ rd ra rb sets, i = .add t rd ra rb sets ∨ i = .nop t → (s.core t).run = .running → s.clocked t = true →
      fetchCause (s.begun t) t = none → breaksAt (s.begun t) t = true → exec i s = .next ((s.begun t).takeTrap t 9 ((s.begun t).core t).pc none))

/-- LD, LDH, LDHU, LDB and LDBU (R314): ea is ra + sext(imm16); from a memory or the boot ROM the converted value is on its way to rd at distance 2 (R298), and nothing else changes but the pc, and from shared RAM or the swath map the cycles of a stall, whose number is a free value of at most 40 (R290, log 3); a register is read as its agent reads it; a misaligned address, an address outside the ranges, a halfword or byte in I-RAM or in a register, and a word with a two-bit error trap (R289, R290, R340). -/
def Obligations.Loads : Prop :=
  ∀ (t : CoreId) (rd ra : RegCode) (imm : BitVec 16) (s : State), s.fetches t →
    let b := s.begun t; let c := b.core t; let a := c.reg ra + imm.signExtend 32
    let rom (h n : Nat) : Nat := (List.range n).foldr (fun k v => (Config.bootRom (h + k)).toNat + 256 * v) 0
    let gives (i : Instr) (n : Nat) (conv : Nat → Word) : Prop :=
      let sent (v : Nat) : List InFlight := c.flight ++ [.load 2 (c.dest rd) (conv v)]
      (∀ h, (placeOf b t a.toNat = some (.iram h) ∨ placeOf b t a.toNat = some (.data h)) → loadCause b t a n = none →
        leads i s fun s' => b.onlyCore s' t ∧ c.sends (s'.core t) (sent (memReadN b.mem h n))) ∧
      (∀ h, placeOf b t a.toNat = some (.rom h) → loadCause b t a n = none →
        leads i s fun s' => b.onlyCore s' t ∧ c.sends (s'.core t) (sent (rom h n))) ∧
      (∀ h, (placeOf b t a.toNat = some (.shared h) ∨ placeOf b t a.toNat = some (.map h)) → loadCause b t a n = none →
        leads i s fun s' =>
          b.onlyCore { s' with dev := { s'.dev with fresh := b.dev.fresh } } t ∧
          c.sends { s'.core t with ccnt := c.ccnt } (sent (memReadN b.mem h n)) ∧ ((s'.core t).ccnt - c.ccnt).toNat ≤ 40) ∧
      (a.toNat % n ≠ 0 → exec i s = .next (b.takeTrap t 3 c.pc (some a))) ∧
      (a.toNat % n = 0 → placeOf b t a.toNat = none → exec i s = .next (b.takeTrap t 4 c.pc (some a))) ∧
      (∀ h, a.toNat % n = 0 → n ≠ 4 → (placeOf b t a.toNat = some (.iram h) ∨ placeOf b t a.toNat = some (.reg h)) →
        exec i s = .next (b.takeTrap t 4 c.pc (some a))) ∧
      (∀ p h, a.toNat % n = 0 → placeOf b t a.toNat = some p → p.marked = some h → (n = 4 ∨ (p ≠ .iram h ∧ p ≠ .reg h)) → wordBad b h = true →
        exec i s = .next (b.takeTrap t 5 c.pc (some a)))
    gives (.ld t rd ra imm) 4 (fun m => BitVec.ofNat 32 m) ∧
    gives (.ldh t rd ra imm) 2 (fun m => (BitVec.ofNat 16 m).signExtend 32) ∧
    gives (.ldhu t rd ra imm) 2 (fun m => (BitVec.ofNat 16 m).zeroExtend 32) ∧
    gives (.ldb t rd ra imm) 1 (fun m => (BitVec.ofNat 8 m).signExtend 32) ∧
    gives (.ldbu t rd ra imm) 1 (fun m => (BitVec.ofNat 8 m).zeroExtend 32) ∧
    (∀ h, placeOf b t a.toNat = some (.reg h) → loadCause b t a 4 = none →
      exec (.ld t rd ra imm) s = .next (((((b.readReg (.core t) h).2.stallAt t (some (.reg h))).modCore t fun d =>
        d.loadReg rd (b.readReg (.core t) h).1)).goOn t CoreState.advance))

/-- ST, STH and STB (R314): the low bytes of rd reach ea little-endian, every other byte of memory, every register and every lane stay; a register is written as its agent writes it; a misaligned address and one that takes no store trap (R289, R290). -/
def Obligations.Stores : Prop :=
  ∀ (t : CoreId) (rd ra : RegCode) (imm : BitVec 16) (s : State), s.fetches t →
    let b := s.begun t; let c := b.core t; let a := c.reg ra + imm.signExtend 32
    let stores (i : Instr) (n : Nat) : Prop :=
      (∀ p h, placeOf b t a.toNat = some p → (p = .iram h ∨ p = .data h ∨ p = .shared h ∨ (p = .map h ∧ b.swath.powered = true)) → storeCause b t a n = none →
        leads i s fun s' =>
          (∀ j, j < n → memRead s'.mem (h + j) = (c.reg rd).extractLsb' (8 * j) 8) ∧ b.keepsMemBut s' h n ∧ s'.lanes = b.lanes ∧
          c.keepsRegs (s'.core t) ∧ (s'.core t).pc = c.behind ∧ (s'.core t).slot = none ∧ (s'.core t).flight = c.flight) ∧
      (a.toNat % n ≠ 0 → exec i s = .next (b.takeTrap t 3 c.pc (some a))) ∧
      (a.toNat % n = 0 → placeOf b t a.toNat = none → exec i s = .next (b.takeTrap t 4 c.pc (some a))) ∧
      (∀ h, a.toNat % n = 0 → (placeOf b t a.toNat = some (.rom h) ∨ (placeOf b t a.toNat = some (.map h) ∧ b.swath.en = true)) →
        exec i s = .next (b.takeTrap t 4 c.pc (some a))) ∧
      (∀ h, a.toNat % n = 0 → n ≠ 4 → (placeOf b t a.toNat = some (.iram h) ∨ placeOf b t a.toNat = some (.reg h)) →
        exec i s = .next (b.takeTrap t 4 c.pc (some a)))
    stores (.st t rd ra imm) 4 ∧ stores (.sth t rd ra imm) 2 ∧ stores (.stb t rd ra imm) 1 ∧
    (∀ h, placeOf b t a.toNat = some (.reg h) → a.toNat % 4 = 0 →
      exec (.st t rd ra imm) s = .next ((b.writeReg (.core t) h (c.reg rd)).goOn t CoreState.advance))

/-- What taking a trap does (R302, R303): results in flight complete; tpc, tst, tcause and taddr are written, TM is set and the handler starts at tvb + 8 × cause; in a delay slot the transfer is what tpc names, and tcause[8] is set; with TM = 1 the core stops where it is. The model's choices: log 36. -/
def Obligations.TrapEntry : Prop :=
  ∀ (s : State) (t : CoreId) (k : Nat) (pc : Word) (addr : Option Word), k < 0x20 →
    let c := (s.flush t).core t; let d := (s.takeTrap t k pc addr).core t
    ((s.core t).tm = true → s.takeTrap t k pc addr = s.modCore t fun c => { c with run := .doubleTrap }) ∧
    ((s.core t).tm = false →
      d.tm = true ∧ d.taddr = addr.getD c.taddr ∧ d.pc = (c.tvb &&& 0xFFFFFF80) + BitVec.ofNat 32 (8 * k) ∧ d.slot = none ∧ d.flight = [] ∧
      c.keepsRegs d ∧ d.run = .running ∧
      ((s.core t).slot = none → d.tpc = pc ∧ d.tst = c.st ∧ d.st = c.st ||| 8 ∧ d.tcause = BitVec.ofNat 32 k ∧ d.lk = c.lk ∧ d.base = c.base) ∧
      ∀ x, (s.core t).slot = some x →
        d.tpc = x.from_ ∧ d.tst = x.flight.foldl InFlight.onSt x.st ∧ d.st = d.tst ||| 8 ∧ d.tcause = BitVec.ofNat 32 (k + 256) ∧ d.lk = x.lk ∧ d.base = x.base)

/-- TRAP n raises the software trap 0x10 + n with tpc behind it (R302, R315). A word that holds no instruction raises the illegal-instruction trap (R302, R308); the row of such a word does nothing where the word holds an instruction (the model's choice, log 13). WAIT sleeps until a source would wake the core (R278, R315), and a core with such a source goes on at once. HALT stops with the pc at the next instruction. -/
def Obligations.TrapsAndStops : Prop :=
  ∀ (t : CoreId) (n : BitVec 4) (w : Word) (s : State), s.fetches t →
    let b := s.begun t
    ((s.core t).slot = none → exec (.trap t n) s = .next ((s.begun t).takeTrap t (0x10 + n.toNat) ((s.core t).pc + 4) none)) ∧
    (decodeCamku t w = none → exec (.illegalInstruction t w) s = .next ((s.begun t).takeTrap t 1 (s.core t).pc none)) ∧
    (decodeCamku t w ≠ none → exec (.illegalInstruction t w) s = .next s) ∧
    ((s.core t).slot = none →
      (onCore (.wait t) s t fun c d =>
        d.pc = c.pc + 4 ∧ c.keepsRegs d ∧ d.st = c.st ∧
        ((∃ x, b.wakes t x = true) → d.run = .running) ∧ ((∀ x, b.wakes t x = false) → d.run = .waiting)) ∧
      (onCore (.halt t) s t fun c d => d.pc = c.pc + 4 ∧ c.keepsRegs d ∧ d.st = c.st ∧ d.run = .halted))

/-- The delay slot must not hold a transfer, CTL 0x01–0x08, a branch on a bit or STR: each raises the illegal-instruction trap there, with tcause[8] set (R316). -/
def Obligations.BarredFromSlots : Prop :=
  ∀ (t : CoreId) (i : Instr) (s : State), s.fetches t → (s.core t).slot.isSome = true →
    ((∃ cond disp, i = .bcc t cond disp) ∨ (∃ disp, i = .call t disp) ∨ (∃ ra, i = .jmpr t ra) ∨ (∃ ra, i = .callr t ra) ∨ i = .ret t ∨ i = .reti t ∨
      i = .retx t ∨ i = .wait t ∨ i = .halt t ∨ (∃ n, i = .trap t n) ∨ (∃ disp ba, i = .brbs t disp ba) ∨ (∃ disp ba, i = .brbc t disp ba) ∨
      (∃ z dec, i = .movs t z dec) ∨ (∃ ra z dec, i = .fills t ra z dec) ∨ (∃ z dec, i = .cmps t z dec) ∨ (∃ rd dec p, i = .crcs t rd dec p)) →
    exec i s = .next ((s.begun t).takeTrap t 1 (s.core t).pc none) ∧
    (((s.begun t).core t).tm = false → (((s.begun t).takeTrap t 1 (s.core t).pc none).core t).tcause = 0x101)

/-- Bcc, JMPR, BRBS and BRBC (R311, R315, R318): outside a slot the delay slot follows, then the target where the condition holds, and no register, no flag and nothing outside the core changes; in a slot BRBS and BRBC raise the illegal-instruction trap (R316). The model's choices: log 29. -/
def Obligations.Branches : Prop :=
  ∀ (t : CoreId) (cond : Fin 15) (disp : BitVec 22) (near : BitVec 10) (ba : BitVec 16) (ra : RegCode) (s : State),
    s.fetches t →
    let to_ (i : Instr) (target : CoreState → Option Word) : Prop :=
      (s.core t).slot = none → onCore i s t fun c d => c.transfers d (target c) false ∧ c.keepsRegs d ∧ c.keepsRest d ∧ d.st = c.st ∧ d.flight = c.flight
    let met (f : Flags) : Prop :=
      match cond with
      | 0 => True | 1 => f.z | 2 => ¬ f.z | 3 => f.c | 4 => ¬ f.c | 5 => f.n | 6 => ¬ f.n | 7 => f.v | 8 => ¬ f.v
      | 9 => f.c ∧ ¬ f.z | 10 => ¬ f.c ∨ f.z | 11 => f.n = f.v | 12 => f.n ≠ f.v | 13 => ¬ f.z ∧ f.n = f.v | 14 => f.z ∨ f.n ≠ f.v
    (met ((s.begun t).core t).flags → to_ (.bcc t cond disp) fun c => some (c.pc + 4 * disp.signExtend 32)) ∧
    (¬ met ((s.begun t).core t).flags → to_ (.bcc t cond disp) fun _ => none) ∧
    (to_ (.jmpr t ra) fun c => some (c.reg ra &&& ~~~3)) ∧
    (to_ (.brbs t near ba) fun c => if bitSeen (s.begun t) t ba then some (c.pc + 4 * near.signExtend 32) else none) ∧
    (to_ (.brbc t near ba) fun c => if bitSeen (s.begun t) t ba then none else some (c.pc + 4 * near.signExtend 32)) ∧
    ((s.core t).slot.isSome = true →
      exec (.brbs t near ba) s = .next ((s.begun t).takeTrap t 1 (s.core t).pc none) ∧
      exec (.brbc t near ba) s = .next ((s.begun t).takeTrap t 1 (s.core t).pc none))

/-- CALL and CALLR (R295, R315): with eight windows resident the spill trap; otherwise lk is pc + 8, the view slides up by 16, so that the callee's w0–w7 are the caller's w16–w23, and no physical register changes. RET: with one window resident the fill trap; otherwise the view slides back and the target is lk. -/
def Obligations.CallsAndReturns : Prop :=
  ∀ (t : CoreId) (disp : BitVec 26) (ra : RegCode) (s : State), s.fetches t → (s.core t).slot = none →
    let b := s.begun t
    let slides (i : Instr) (target : CoreState → Word) : Prop :=
      ((b.core t).wdepth = 8 → exec i s = .next (b.takeTrap t 6 (s.core t).pc none)) ∧
      ((b.core t).wdepth < 8 → onCore i s t fun c d =>
        c.transfers d (some (target c)) false ∧ c.keepsRegs d ∧ d.lk = c.pc + 8 ∧ d.wdepth = c.wdepth + 1 ∧ d.wpos = (c.wpos + 1) % 8 ∧
        d.st &&& ~~~0xF7000 = c.st &&& ~~~0xF7000 ∧ d.flight = c.flight ∧ d.a0 = c.a0 ∧ d.a1 = c.a1 ∧
        (c.tm = false → c.fa = false → ∀ k : Fin 8, d.dest (BitVec.ofNat 5 (8 + k.val)) = c.dest (BitVec.ofNat 5 (24 + k.val))))
    slides (.call t disp) (fun c => c.pc + 4 * disp.signExtend 32) ∧ slides (.callr t ra) (fun c => c.reg ra &&& ~~~3) ∧
    ((b.core t).wdepth = 1 → exec (.ret t) s = .next (b.takeTrap t 7 (s.core t).pc none)) ∧
    (1 < (b.core t).wdepth → onCore (.ret t) s t fun c d =>
      c.transfers d (some c.lk) false ∧ c.keepsRegs d ∧ d.lk = c.lk ∧ d.wdepth + 1 = c.wdepth ∧ d.wpos = (c.wpos + 7) % 8 ∧
      d.st &&& ~~~0xF7000 = c.st &&& ~~~0xF7000 ∧
      (c.tm = false → c.fa = false → ∀ k : Fin 8, d.dest (BitVec.ofNat 5 (24 + k.val)) = c.dest (BitVec.ofNat 5 (8 + k.val))))

/-- RETI and RETX (R300, R302, R315): out of a fast handler st is fst but for WPOS and WDEPTH and the target fpc; out of a normal one the view slides back, with the fill check, st is ist but for them and the target ipc; the ACTIVE of the source in SRC of IC_CUR or IC_CURN is cleared where that source is still the core's own (R274, R286, R288); with neither, trap 8; the reserved bits of st stay (R5, R293). RETX goes to tpc, and its slot still stands in the handler; st returns behind the slot, with the change of WDEPTH of a spill or a fill; with TM = 0 trap 8. Behind RETX's slot, shown by a NOP in it (R302, R315): st takes every field of tst but WPOS and WDEPTH, WDEPTH falls by one out of a spill handler and rises by one out of a fill handler, and the core resumes at the target. The model's choices: log 35. -/
def Obligations.HandlerReturns : Prop :=
  ∀ (t : CoreId) (s : State), s.fetches t →
    let b := s.begun t; let c := b.core t; let keep : Word := 0xFF000
    ((s.core t).slot = none →
        (c.fa = false → c.na = false → exec (.reti t) s = .next (b.takeTrap t 8 c.pc none)) ∧
    (c.fa = true → leads (.reti t) s fun s' =>
      c.transfers (s'.core t) (some c.fpc) false ∧ (∀ n, n < 12 → n ≠ 4 → n ≠ 11 → (s'.core t).st.getLsbD n = c.fst.getLsbD n) ∧
      (s'.core t).st &&& keep &&& ~~~0x8000 = c.st &&& keep &&& ~~~0x8000 ∧ (s'.core t).base = c.base ∧
      ∀ x : SourceId, x.val = (b.ic t).curF.toNat % 1024 → x.val ≠ 0x3FF → (b.src x).claimer.toNat = t.val → (s'.src x).active = false) ∧
    (c.fa = false → c.na = true → c.wdepth = 1 → exec (.reti t) s = .next (b.takeTrap t 7 c.pc none)) ∧
    (c.fa = false → c.na = true → 1 < c.wdepth → leads (.reti t) s fun s' =>
      c.transfers (s'.core t) (some c.ipc) false ∧ (∀ n, n < 12 → n ≠ 4 → n ≠ 11 → (s'.core t).st.getLsbD n = c.ist.getLsbD n) ∧
      (s'.core t).wdepth + 1 = c.wdepth ∧ (s'.core t).wpos = (c.wpos + 7) % 8 ∧
      ∀ x : SourceId, x.val = (b.ic t).curN.toNat % 1024 → x.val ≠ 0x3FF → (b.src x).claimer.toNat = t.val → (s'.src x).active = false) ∧
    (c.tm = false → exec (.retx t) s = .next (b.takeTrap t 8 c.pc none)) ∧
    (c.tm = true → onCore (.retx t) s t fun c d => c.transfers d (some c.tpc) true ∧ d.st = c.st ∧ c.keepsRegs d ∧ d.flight = c.flight)) ∧
    ∀ (x : Slot) (target : Word), (s.core t).slot = some x → x.retx = true → x.target = some target →
      onCore (.nop t) s t fun c d =>
        d.pc = target ∧ d.slot = none ∧ (∀ n, n < 12 → n ≠ 4 → n ≠ 11 → d.st.getLsbD n = c.tst.getLsbD n) ∧ d.wpos = c.wpos ∧
        (fld c.tcause 7 0 = 6 → 1 ≤ c.wdepth → d.wdepth = c.wdepth - 1) ∧ (fld c.tcause 7 0 = 7 → c.wdepth ≤ 8 → d.wdepth = c.wdepth + 1) ∧
        (fld c.tcause 7 0 ≠ 6 → fld c.tcause 7 0 ≠ 7 → d.wdepth = c.wdepth)

/-- The bit instructions that change flags (R317): z or c follows the bit at ba, plus rx where IX = 1; no register and no bit changes. -/
def Obligations.BitTests : Prop :=
  ∀ (t : CoreId) (rx : Option RegCode) (ba : BitVec 16) (s : State), s.fetches t →
    let at_ (c : CoreState) : BitVec 16 := match rx with | none => ba | some r => ba + (c.reg r).truncate 16
    let gives (i : Instr) (f : Bool → Flags → Flags) : Prop :=
      onCore i s t fun c d => c.writesFlags d (f (bitSeen (s.begun t) t (at_ c)) c.flags)
    gives (.btst t rx ba) (fun v f => { f with z := !v }) ∧
    gives (.bmovToC t rx ba) (fun v f => { f with c := v }) ∧
    gives (.bmovn t rx ba) (fun v f => { f with c := !v }) ∧
    gives (.band t rx ba) (fun v f => { f with c := f.c && v }) ∧
    gives (.bandn t rx ba) (fun v f => { f with c := f.c && !v }) ∧
    gives (.bor t rx ba) (fun v f => { f with c := f.c || v }) ∧
    gives (.born t rx ba) (fun v f => { f with c := f.c || !v }) ∧
    gives (.bxor t rx ba) (fun v f => { f with c := f.c ^^ v })

/-- The bit instructions that write (R297, R317): a private bit takes the value and every other private bit stays; a lane's AMS_HOLD bit takes it for the core that may write it; a bit the space reserves stays as it is; BTAS gives c the bit and sets it. -/
def Obligations.BitWrites : Prop :=
  ∀ (t : CoreId) (rx : Option RegCode) (ba : BitVec 16) (s : State), s.fetches t →
    let b := s.begun t; let c := b.core t
    let a : BitVec 16 := match rx with | none => ba | some r => ba + (c.reg r).truncate 16
    let gives (i : Instr) (v : Bool) : Prop :=
      (∀ k, bitPlace a.toNat = .priv k → leads i s fun s' =>
        bitNow s' t (.priv k) = v ∧ (∀ j, j ≠ k → bitNow s' t (.priv j) = bitNow b t (.priv j)) ∧ b.keepsMem s' ∧ s'.lanes = b.lanes ∧
        c.keepsRegs (s'.core t) ∧ (s'.core t).pc = c.behind) ∧
      (∀ l, bitPlace a.toNat = .lane l 24 → laneBitOwner b t l = true → b.fusedOff l = false → leads i s fun s' =>
        (s'.lane l).swap.amsHold = v ∧ (∀ m, m ≠ l → s'.lane m = b.lane m) ∧ b.keepsMem s' ∧ c.keepsRegs (s'.core t) ∧ (s'.core t).pc = c.behind) ∧
      (bitPlace a.toNat = .reserved → leads i s fun s' => s'.lanes = b.lanes ∧ s'.groups = b.groups ∧ b.keepsMem s' ∧
        c.keepsRegs (s'.core t) ∧ (s'.core t).bits = c.bits ∧ (s'.core t).pc = c.behind)
    gives (.bset t rx ba) true ∧ gives (.bclr t rx ba) false ∧ gives (.bnot t rx ba) (!bitSeen b t a) ∧ gives (.bmovToBit t rx ba) c.flags.c ∧
    gives (.btas t rx ba) true ∧
    (∀ k, bitPlace a.toNat = .priv k → (s.core t).slot = none → leads (.btas t rx ba) s fun s' =>
      (s'.core t).flags = { c.flags with c := bitSeen b t a })

/-- MACD (R320): one word of X-RAM times one word of Y-RAM, added or subtracted exactly and limited by R319; both pointers advance by their increments in words; equal pointers raise trap 1, a misaligned one trap 3, one outside its RAM trap 4 and a word with a two-bit error trap 5, the lowest cause first (R302), with nothing done; of two equal causes X's address is saved. The model's choices: log 115. -/
def Obligations.MultiplyAccumulateDual : Prop :=
  ∀ (t : CoreId) (acc neg : Bool) (rx ry : RegCode) (xinc yinc : BitVec 4) (s : State), s.fetches t →
    let b := s.begun t; let c := b.core t; let x := (c.reg rx).toNat; let y := (c.reg ry).toNat
    let hx := 0x820000 + t.val * 0x40000 + (x - 0x100000); let hy := 0x830000 + t.val * 0x40000 + (y - 0x180000)
    (rx = ry → exec (.macd t acc neg rx ry xinc yinc) s = .next (b.takeTrap t 1 c.pc none)) ∧
    (rx ≠ ry → x % 4 = 0 → y % 4 = 0 → (x < 0x100000 ∨ 0x110000 ≤ x) →
      exec (.macd t acc neg rx ry xinc yinc) s = .next (b.takeTrap t 4 c.pc (some (c.reg rx)))) ∧
    (rx ≠ ry → x % 4 = 0 → y % 4 = 0 → 0x100000 ≤ x → x < 0x110000 → (y < 0x180000 ∨ 0x190000 ≤ y) →
      exec (.macd t acc neg rx ry xinc yinc) s = .next (b.takeTrap t 4 c.pc (some (c.reg ry)))) ∧
    (rx ≠ ry → x % 4 ≠ 0 → exec (.macd t acc neg rx ry xinc yinc) s = .next (b.takeTrap t 3 c.pc (some (c.reg rx)))) ∧
    (rx ≠ ry → x % 4 = 0 → y % 4 ≠ 0 → exec (.macd t acc neg rx ry xinc yinc) s = .next (b.takeTrap t 3 c.pc (some (c.reg ry)))) ∧
    (rx ≠ ry → x % 4 = 0 → y % 4 = 0 → 0x100000 ≤ x → x < 0x110000 → 0x180000 ≤ y → y < 0x190000 → wordBad b hx = true →
      exec (.macd t acc neg rx ry xinc yinc) s = .next (b.takeTrap t 5 c.pc (some (c.reg rx)))) ∧
    (rx ≠ ry → x % 4 = 0 → y % 4 = 0 → 0x100000 ≤ x → x < 0x110000 → 0x180000 ≤ y → y < 0x190000 → wordBad b hx = false → wordBad b hy = true →
      exec (.macd t acc neg rx ry xinc yinc) s = .next (b.takeTrap t 5 c.pc (some (c.reg ry)))) ∧
    (rx ≠ ry → x % 4 = 0 → y % 4 = 0 → 0x100000 ≤ x → x < 0x110000 → 0x180000 ≤ y → y < 0x190000 → wordBad b hx = false → wordBad b hy = false →
      let p := (memRead32 b.mem hx).toInt * (memRead32 b.mem hy).toInt
      let e := (c.acc acc).toInt + (if neg then -p else p)
      let fits := decide (-(2 ^ 71) ≤ e ∧ e < 2 ^ 71)
      onCore (.macd t acc neg rx ry xinc yinc) s t fun c d =>
        d.acc acc = (if fits || !c.satm then BitVec.ofInt 72 e else if e < 0 then BitVec.ofInt 72 (-(2 ^ 71)) else BitVec.ofInt 72 (2 ^ 71 - 1)) ∧
        d.acc (!acc) = c.acc (!acc) ∧ d.pc = c.behind ∧
        d.getDest (c.dest rx) = c.reg rx + 4 * xinc.signExtend 32 ∧ d.getDest (c.dest ry) = c.reg ry + 4 * yinc.signExtend 32 ∧
        (∀ z, z ≠ c.dest rx → z ≠ c.dest ry → d.getDest z = c.getDest z) ∧
        ((s.core t).slot = none → d.st = if fits then c.st else c.st ||| 0x200))

/-- MAC, MSU, MACU and ASL (R319, R321): the exact sum, where it leaves 72 bits, sets AS and wraps or, with SATM = 1, stops at the limit; a product is seen by the next product at once and by other readers at distance 3 (R298). -/
def Obligations.Accumulates : Prop :=
  ∀ (t : CoreId) (acc : Bool) (ra rb : RegCode) (n : BitVec 5) (s : State), s.fetches t →
    let gives (i : Instr) (e : CoreState → Int) (late : Bool) : Prop :=
      onCore i s t fun c d =>
        let fits := decide (-(2 ^ 71) ≤ e c ∧ e c < 2 ^ 71)
        d.acc acc = (if fits || !c.satm then BitVec.ofInt 72 (e c) else if e c < 0 then BitVec.ofInt 72 (-(2 ^ 71)) else BitVec.ofInt 72 (2 ^ 71 - 1)) ∧
        d.acc (!acc) = c.acc (!acc) ∧ c.keepsRegs d ∧ d.pc = c.behind ∧
        (late = true → d.flight = c.flight ++ [.acc 3 acc (c.acc acc)]) ∧ (late = false → d.flight = c.flight.map (InFlight.showAcc acc (d.acc acc))) ∧
        ((s.core t).slot = none → d.st = if fits then c.st else c.st ||| 0x200)
    gives (.mac t acc ra rb) (fun c => (c.acc acc).toInt + (c.reg ra).toInt * (c.reg rb).toInt) true ∧
    gives (.msu t acc ra rb) (fun c => (c.acc acc).toInt - (c.reg ra).toInt * (c.reg rb).toInt) true ∧
    gives (.macu t acc ra rb) (fun c => (c.acc acc).toInt + (c.reg ra).toNat * (c.reg rb).toNat) true ∧
    gives (.asl t acc n) (fun c => (c.accSeen acc).toInt * 2 ^ n.toNat) false

/-- ACLR, MFAL, MFAH, MFAG, MTAL, MTAH, MTAG, ASR and ARND (R321), on the accumulator as its distance shows it (R298): parts read and written, the arithmetic shift, and the rounded shift clamped to 32 bits with v. The model's choices: log 30. -/
def Obligations.AccumulatorParts : Prop :=
  ∀ (t : CoreId) (acc : Bool) (rd ra : RegCode) (n : BitVec 5) (s : State), s.fetches t →
    let reads (i : Instr) (v : BitVec 72 → Word) : Prop := onCore i s t fun c d => c.writesCode d rd (v (c.accSeen acc)) c.flags
    let sets (i : Instr) (v : CoreState → BitVec 72) : Prop :=
      onCore i s t fun c d => d.acc acc = v c ∧ d.acc (!acc) = c.acc (!acc) ∧ c.keepsRegs d ∧ c.goesOn d c.flags ∧ d.flight = c.flight.map (InFlight.showAcc acc (v c))
    sets (.aclr t acc) (fun _ => 0) ∧
    reads (.mfal t acc rd) (fun a => a.extractLsb' 0 32) ∧ reads (.mfah t acc rd) (fun a => a.extractLsb' 32 32) ∧
    reads (.mfag t acc rd) (fun a => (a.extractLsb' 64 8).signExtend 32) ∧
    sets (.mtal t acc ra) (fun c => (c.accSeen acc).extractLsb' 32 40 ++ c.reg ra) ∧
    sets (.mtah t acc ra) (fun c => (c.accSeen acc).extractLsb' 64 8 ++ c.reg ra ++ (c.accSeen acc).extractLsb' 0 32) ∧
    sets (.mtag t acc ra) (fun c => (c.reg ra).extractLsb' 0 8 ++ (c.accSeen acc).extractLsb' 0 64) ∧
    sets (.asr t acc n) (fun c => BitVec.ofInt 72 ((c.accSeen acc).toInt / 2 ^ n.toNat)) ∧
    (onCore (.arnd t acc rd n) s t fun c d =>
      let a := (c.accSeen acc).toInt
      let r : Int := if n = 0 then a else (a + 2 ^ (n.toNat - 1)) / 2 ^ n.toNat
      let v : Int := Max.max (-(2 ^ 31)) (Min.min (2 ^ 31 - 1) r)
      c.writesCode d rd (BitVec.ofInt 32 v) { c.flags with v := decide (v ≠ r) })

/-- STR with xc = 0 accesses no memory and completes (R324): CMPS sets z, and nothing else changes. One element of MOVS, CMPS and CRCS in X-RAM and Y-RAM (R322, R323): the copy and its frame, the comparison that ends on a difference with the pointers at it, and the step of the CRC; xc and the pointers count. -/
def Obligations.RepeatElements : Prop :=
  ∀ (t : CoreId) (rd ra : RegCode) (z : Fin 3) (dec : Bool) (poly : Fin 3) (s : State), s.fetches t → (s.core t).slot = none →
    (((s.begun t).core t).xc = 0 →
      (onCore (.movs t z dec) s t fun c d => c.sends d c.flight) ∧ (onCore (.fills t ra z dec) s t fun c d => c.sends d c.flight) ∧
    (onCore (.crcs t rd dec poly) s t fun c d => c.sends d c.flight) ∧ (onCore (.cmps t z dec) s t fun c d => c.writesFlags d { c.flags with z := true })) ∧
    (((s.begun t).core t).xc = 1 →
    let b := s.begun t; let c := b.core t; let n := 2 ^ z.val
    let step : Word := if dec then -(BitVec.ofNat 32 n) else BitVec.ofNat 32 n
    (∀ x, placeOf b t c.xs.toNat = some (.data x) → wordBad b x = false → leads (.crcs t rd dec poly) s fun s' =>
      b.keepsMem s' ∧ (s'.core t).xc = 0 ∧ (s'.core t).xs = c.xs + (if dec then -1 else 1) ∧ (s'.core t).pc = c.pc + 4 ∧
      (s'.core t).getDest (c.dest rd) = crcStep poly (c.reg rd) (memRead b.mem x) ∧ ∀ r, r ≠ c.dest rd → (s'.core t).getDest r = c.getDest r) ∧
    ∀ x y, placeOf b t c.xs.toNat = some (.data x) → placeOf b t c.xd.toNat = some (.data y) → wordBad b x = false → wordBad b y = false →
      (c.xs.toNat % n = 0 → c.xd.toNat % n = 0 → leads (.movs t z dec) s fun s' =>
        (∀ j, j < n → memRead s'.mem (y + j) = memRead b.mem (x + j)) ∧ b.keepsMemBut s' y n ∧
        (s'.core t).xc = 0 ∧ (s'.core t).xs = c.xs + step ∧ (s'.core t).xd = c.xd + step ∧ c.keepsRegs (s'.core t) ∧ (s'.core t).flags = c.flags ∧
        (s'.core t).pc = c.pc + 4) ∧
      (c.xs.toNat % n = 0 → c.xd.toNat % n = 0 → leads (.cmps t z dec) s fun s' =>
        let p := memReadN b.mem x n; let q := memReadN b.mem y n
        b.keepsMem s' ∧ c.keepsRegs (s'.core t) ∧ (s'.core t).pc = c.pc + 4 ∧
        (p = q → (s'.core t).xc = 0 ∧ (s'.core t).xs = c.xs + step ∧ (s'.core t).xd = c.xd + step ∧ (s'.core t).flags = { c.flags with z := true }) ∧
        (p ≠ q → (s'.core t).xc = 1 ∧ (s'.core t).xs = c.xs ∧ (s'.core t).xd = c.xd ∧
          (s'.core t).flags = { c.flags with z := false, c := decide (q < p), n := decide (p < q) })))

/-- FILLS over any number of elements in X-RAM, up or down (R322, R324): every element holds the low bytes of ra, every other byte of memory stays, and after completion xc = 0 and xd points one step beyond the last element. Where a claim is due and elements remain, the STR stops behind the element with the pc at itself and the rest to do (R301, R335). The model's choices: log 33. -/
def Obligations.FillRuns : Prop :=
  ∀ (t : CoreId) (ra : RegCode) (z : Fin 3) (dec : Bool) (s : State), s.fetches t → (s.core t).slot = none →
    let b := s.begun t; let c := b.core t; let size := 2 ^ z.val; let n := c.xc.toNat
    let el (k : Nat) : Word := if dec then c.xd - BitVec.ofNat 32 (k * size) else c.xd + BitVec.ofNat 32 (k * size)
    let host (k : Nat) : Nat := 0x820000 + t.val * 0x40000 + ((el k).toNat - 0x100000)
    c.xd.toNat % size = 0 → (∀ k, k < n → 0x100000 ≤ (el k).toNat ∧ (el k).toNat < 0x110000) →
    (claimDue b t = false → leads (.fills t ra z dec) s fun s' =>
      (∀ k j, k < n → j < size → memRead s'.mem (host k + j) = (c.reg ra).extractLsb' (8 * j) 8) ∧
      (∀ a, (∀ k, k < n → a < host k ∨ host k + size ≤ a) → memRead s'.mem a = memRead b.mem a) ∧
      (s'.core t).xc = 0 ∧ (s'.core t).xd = el n ∧ (s'.core t).xs = c.xs ∧ c.keepsRegs (s'.core t) ∧ (s'.core t).flags = c.flags ∧ (s'.core t).pc = c.pc + 4) ∧
    (claimDue b t = true → 2 ≤ n → leads (.fills t ra z dec) s fun s' =>
      (∀ j, j < size → memRead s'.mem (host 0 + j) = (c.reg ra).extractLsb' (8 * j) 8) ∧ b.keepsMemBut s' (host 0) size ∧
      (s'.core t).xc = c.xc - 1 ∧ (s'.core t).xd = el 1 ∧ (s'.core t).xs = c.xs ∧ c.keepsRegs (s'.core t) ∧ (s'.core t).flags = c.flags ∧ (s'.core t).pc = c.pc)

/-- CX (R327, R331): an entry that is not loaded raises trap 2; an entry whose first micro-op computes from RA and RB into RD and ends leaves that value in rd (R328, R329) and nothing else changed. -/
def Obligations.CustomerOpcodes : Prop :=
  ∀ (t : CoreId) (k : Fin 16) (rd ra rb : RegCode) (imm : BitVec 11) (s : State), s.fetches t →
    let b := s.begun t; let w := memRead32 b.mem (0xD000 + t.val * 0x800 + k.val * 0x80)
    let sextK : Word := (w.extractLsb' 0 11).signExtend 32
    ((b.core t).valid.getLsbD k.val = false → exec (.cx t k rd ra rb imm) s = .next (b.takeTrap t 2 (s.core t).pc none)) ∧
    ((b.core t).valid.getLsbD k.val = true → eccAt b t (0xD000 + t.val * 0x800 + k.val * 0x80) = false → w.getLsbD 31 = true →
      w.extractLsb' 21 5 = 8 → w.extractLsb' 16 5 = 9 → w.extractLsb' 11 5 = 10 →
      (w.extractLsb' 26 5 = 1 → onCore (.cx t k rd ra rb imm) s t fun c d => c.writesCode d rd (c.reg ra + (c.reg rb + sextK)) c.flags) ∧
      (w.extractLsb' 26 5 = 2 → onCore (.cx t k rd ra rb imm) s t fun c d => c.writesCode d rd (c.reg ra - (c.reg rb + sextK)) c.flags) ∧
      (w.extractLsb' 26 5 = 3 → onCore (.cx t k rd ra rb imm) s t fun c d => c.writesCode d rd (c.reg ra &&& (c.reg rb + sextK)) c.flags))

/-- The arbiter (R212): with a budget of at least 0 the ceilings together never exceed it; where the floors fit, every lane has at least the smaller of its floor and its want; a Twin lane has its want whole or no more than its floor; and no ceiling is negative or above both floor and want. -/
def Obligations.CeilingsWithinBudget : Prop :=
  ∀ (b : Int) (cs : List LaneClaim), 0 ≤ b →
    ((arbitrate b cs).map fun c => c.ceil).sum ≤ b ∧
    (((cs.map fun c => (c.floor : Int)).sum ≤ b) → ∀ c ∈ arbitrate b cs, Min.min (c.floor : Int) c.want ≤ c.ceil) ∧
    ∀ c ∈ arbitrate b cs, 0 ≤ c.ceil ∧ c.ceil ≤ Max.max (c.floor : Int) c.want ∧ (c.twin = true → c.ceil = c.want ∨ c.ceil ≤ c.floor)

/-- Supplies and RESET# (R10–R14, R155, R386, R387, R417, R446): power-up and RESET# leave BOOT with every core in reset and every lane at its reset values, and keep the fuses, the code store and the queue; power-up clears ALARM_STATUS and RESET# keeps it; the fuses are read behind both, and a word that AUDIT marked reads as Uncorrectable; where an alarm condition has been detected and whether it still holds is open (log 107), the power-up ends in BOOT or in HALTED; XIN and the PLL start the digital die and S0 in the boot ROM; a link or a supply that is lost isolates the lanes it serves. TAMPER#, the mesh and the voltage and clock glitch detectors (R417, R419, R420): each detection sets its bit and counts; level 0 does no more, level 1 resets the device, unless it is in HALTED (R422) or a higher level has acted within the AON sample (R426), level 2 zeroises the key store and halts, and level 3 blows KILL too; an alarm that meets the reset of a lower one in its AON sample acts by the policy before it. The model's choices: logs 13, 107. -/
def Obligations.SuppliesAndReset : Prop :=
  ∀ (g : GroupId) (s : State),
    let acts (lv : Nat) (s' : State) : Prop :=
    (lv = 0 → s'.dev.state = s.dev.state ∧ s'.lanes = s.lanes) ∧
    (lv = 1 → s.dev.state ≠ .halted → sameSample s = false → s'.dev.state = .boot ∧ s'.lanes = State.reset.lanes) ∧
    (lv = 1 → s.dev.state = .halted ∨ sameSample s = true → s'.dev.state = s.dev.state ∧ s'.lanes = s.lanes) ∧
    (lv = 2 → s'.sec.key = none ∧ s'.sec.zeroised = true ∧ s'.sec.killed = s.sec.killed) ∧
    (lv = 3 → s'.sec.key = none ∧ s'.sec.zeroised = true ∧ s'.sec.killed = true) ∧
    (2 ≤ lv → s'.dev.state = .halted ∨ s'.dev.halting = true) ∧
    (2 ≤ lv → s.dev.halting = false → s.dev.state ≠ .halted → s'.dev.state = .halted ∨ s'.dev.trans = .halting 2)
    (s.sec.standing = [] → leads .powerUp s fun s' => s'.dev.state = .boot ∧ s'.dev.vsysOk = true ∧ s'.lanes = State.reset.lanes ∧
      s'.cores = State.reset.cores ∧ s'.sec.alarms = 0 ∧ s'.sec.sources = 0 ∧
      s'.sec.fuses = s.sec.fuses ∧ s'.image.store = s.image.store ∧ s'.pending = s.pending) ∧
    (s.sec.standing ≠ [] → leads .powerUp s fun s' => s'.dev.vsysOk = true ∧ (s'.dev.state = .boot ∨ s'.dev.state = .halted) ∧
      s'.lanes = State.reset.lanes ∧ s'.image.store = s.image.store ∧ s'.pending = s.pending) ∧
    (leads .resetAsserted s fun s' => s'.dev.state = .boot ∧ s'.dev.resetLow = true ∧ s'.lanes = State.reset.lanes ∧ s'.cores = State.reset.cores ∧
      s'.sec.alarms = s.sec.alarms ∧
      s'.sec.fuses = s.sec.fuses ∧ s'.image.store = s.image.store ∧ s'.pending = s.pending) ∧
    (s.dev.resetLow = true → s.dev.vsysOk = true → s.sec.standing = [] → leads .resetReleased s fun s' => s'.dev.resetLow = false ∧
      ∀ i : Fin 512, (i.val ∉ s.sec.auditBad → s'.sec.shadow.get i = fuseValue (s.sec.fuses.get i) ∧
      s'.sec.wstat.get i = fuseState (s.sec.fuses.get i)) ∧ (i.val ∈ s.sec.auditBad → s'.sec.shadow.get i = 0 ∧ s'.sec.wstat.get i = 3)) ∧
    (leads .vsysNotValid s fun s' => s'.dev.state = .boot ∧ s'.dev.vsysOk = false ∧ s'.lanes = State.reset.lanes ∧ s'.cores = State.reset.cores) ∧
    (s.dev.state = .boot → s.dev.vsysOk = true → s.dev.resetLow = false → s.dev.xin = false → s.sec.standing = [] →
      leads .vcoreAndVioInRange s fun s' => s'.dev.xin = true ∧ s'.dev.vcoreOk = true ∧ s'.dev.vioOk = true ∧ ∀ k, (s'.group k).linkOk = true) ∧
    (s.dev.state ≠ .boot ∨ (s.dev.xin = true ∧ s.sec.standing = []) → leads .vcoreAndVioInRange s fun s' => s'.dev.vcoreOk = true ∧
      s'.dev.vioOk = true ∧ s'.dev.xin = s.dev.xin ∧ s'.lanes = s.lanes ∧ s'.groups = s.groups) ∧
    (s.dev.state = .boot → s.dev.xin = true → s.dev.pll = false → s.sec.standing = [] → leads .pllLocked s fun s' => s'.dev.pll = true ∧
      (s'.core 4).run = .running ∧ (s'.core 4).pc = 0x300000 ∧ (s'.core 4).rcause = 0 ∧ ∀ a, logBase ≤ a → a < 0x300000 → memRead s'.mem a = 0) ∧
    (leads .vcoreOutOfRange s fun s' => s'.dev.vcoreOk = false ∧ (∀ k, (s'.group k).linkOk = false) ∧ ∀ l, (s'.lane l).belay.sw = 0 ∧
      (s'.lane l).conv.on = false) ∧
    (leads .vioLow s fun s' => s'.dev.vioOk = false ∧ (∀ k, (s'.group k).linkOk = false) ∧ ∀ l, (s'.lane l).belay.sw = 0 ∧
      (s'.lane l).conv.on = false) ∧
    (leads (.linkFrameTimeout g) s fun s' => (s'.group g).linkOk = false ∧ (∀ k, k ≠ g → s'.group k = s.group k) ∧
      ∀ l, (groupOf l = g → (s'.lane l).belay.sw = 0 ∧ (s'.lane l).conv.on = false ∧ ((s.lane l).belay.sw ≠ 0 → (s.lane l).belay.tripOpen = false →
        (s'.lane l).belay.cause = 8)) ∧ (groupOf l ≠ g → s'.lane l = s.lane l)) ∧
    (leads (.linkRestored g) s fun s' => s'.dev.vcoreOk = true ∧ s'.dev.vioOk = true ∧ (s'.group g).linkOk = true ∧ ∀ l, groupOf l = g →
      (s'.lane l).belay.deferred = false) ∧
    (leads .vconnSupLow s fun s' => s'.dev.vconnSupOk = false ∧ ∀ l, (s'.lane l).cc.vconnOn = false) ∧
    (leads .vconnSupRestored s fun s' => s'.dev.vconnSupOk = true ∧ ∀ l, (s.lane l).pd.hrBusy = true →
      (s'.lane l).cc.vconnOn = (s.lane l).cc.vconnOn) ∧
    (s.dev.vsysWarn = false → leads .vsysWarn s fun s' => s'.dev.vsysWarn = true ∧ s'.dev.warnEvt = true) ∧
    (s.dev.vsysWarn = true → leads .vsysWarnClear s fun s' => s'.dev.vsysWarn = false) ∧
    (s.dev.vsysOk = true → s.dev.resetLow = false → leads .tamper s fun s' => s'.sec.sources.getLsbD 0 = true ∧ s'.sec.alarms = satInc s.sec.alarms ∧
      acts ((samplePolicy s).toNat / 1 % 4) s') ∧
    (s.dev.vsysOk = true → s.dev.resetLow = false → leads .mesh s fun s' => s'.sec.sources.getLsbD 1 = true ∧ s'.sec.alarms = satInc s.sec.alarms ∧
      acts ((samplePolicy s).toNat / 4 % 4) s') ∧
    (s.dev.vsysOk = true → s.dev.resetLow = false → leads .vglitch s fun s' => s'.sec.sources.getLsbD 2 = true ∧ s'.sec.alarms = satInc s.sec.alarms ∧
      acts ((samplePolicy s).toNat / 16 % 4) s') ∧
    (s.dev.vsysOk = true → s.dev.resetLow = false → leads .cglitch s fun s' => s'.sec.sources.getLsbD 3 = true ∧ s'.sec.alarms = satInc s.sec.alarms ∧
      acts ((samplePolicy s).toNat / 64 % 4) s')

/-- BOOT, LOADER, READY, RUN, WATCH and HALTED (R16–R23, R384, R386, R392, R401): what ends the image check, the check at RUN = 1 and its refusal, a check that runs on, which RUN = 0 abandons, a mailbox command fails and a PORT_EN meanwhile does not meet (R395), RUN = 0, watch entry and exit, PORT_EN and its lane check, group idle, and the limit of a takeover. Agents' writes act while the host port serves them (R439). The model's choices: logs 13, 17, 56, 68. -/
def Obligations.OperatingStates : Prop :=
  ∀ (a : Agent) (l : LaneId) (g : GroupId) (v : Word) (code r : Byte) (ports : Word) (s : State),
    let ctl := s.modDev fun d => { d with mapKeep := bitOf v 2, run := true, watch := false }
    let lc := s.modCfg l fun c => { c with laneCtrl := mergeMask (if s.locked then 1 else 0x31) c.laneCtrl v }
    (s.dev.state = .boot → s.dev.pll = true → s.sec.standing = [] → storeVerdict s = .inl (code, r) → code ≠ 4 → code ≠ 5 →
      leads .imageCheckComplete s fun s' => s'.dev.state = .loader ∧ s'.dev.bootCode = code ∧ s'.dev.hostIrq.getLsbD 0 = true) ∧
    (s.dev.state = .boot → s.dev.pll = true → s.sec.standing = [] →
      authFailCount (s.modImage fun x => { x with authFails := s.dev.dtime :: x.authFails }) < 3 →
      leads .imageCheckComplete s fun s' => storeVerdict s = .inl (code, r) → code = 4 ∨ code = 5 → s'.dev.state = .loader ∧ s'.dev.bootCode = code ∧
      s'.dev.hostIrq.getLsbD 0 = true ∧ s'.image.authFails = s.dev.dtime :: s.image.authFails) ∧
    (s.dev.state = .boot → s.dev.pll = true → s.sec.standing = [] → leads .imageCheckComplete s fun s' => ((s.dev.hostIrq.getLsbD 0 = true ∨
      (storeVerdict s).isRight = true) → s'.dev.hostIrq.getLsbD 0 = true) ∧ ((storeVerdict s).isRight = true → s'.dev.state = .ready ∧
      s'.dev.bootCode = 0 ∧ s'.image.storeOk = true ∧ s'.image.actPend = false ∧ ∀ t, (s'.core t).run = .running ∧ (s'.core t).rcause = 0)) ∧
    (hostServed s a = true → s.dev.state = .ready → s.dev.trans = .none → s.dev.takeover = none → s.dev.check = none → bitOf v 0 = true →
      runFails ctl (bitOf v 1) false = [] → leads (.runSet a v) s fun s' => s'.dev.state = .run ∧ s'.dev.run = true) ∧
    (hostServed s a = true → s.dev.state = .ready → s.dev.trans = .none → s.dev.takeover = none → s.dev.check = none → bitOf v 0 = true →
      runFails ctl (bitOf v 1) false ≠ [] → leads (.runSet a v) s fun s' => s'.dev.state = .ready ∧ s'.dev.run = false) ∧
    (hostServed s a = true → s.dev.state = .ready → s.dev.trans = .none → s.dev.takeover = none → s.dev.check = none → bitOf v 0 = true →
      leads (.registerWrite a 0x8 v) s fun s' => s'.dev.state = .ready ∧ s'.dev.run = true ∧ s'.dev.devCheck = s.dev.devCheck ∧
      (∃ j, s'.dev.check = some j ∧ j.fails = runFails ctl (bitOf v 1) false ∧ ∀ k, bitOf j.ports k.val = bitOf (s.lane k).cfg.laneCtrl 0) ∧
      s'.lanes = s.lanes) ∧
    (hostServed s a = true → s.dev.state = .ready → s.dev.trans = .none → s.dev.takeover = none → s.dev.check.isSome = true → bitOf v 0 = false →
      leads (.runClear a v) s fun s' => s'.dev.state = .ready ∧ s'.dev.run = false ∧ s'.dev.check = none ∧ s'.dev.devCheck = s.dev.devCheck ∧
      s'.lanes = s.lanes) ∧
    (hostServed s a = true → s.dev.state = .ready → s.dev.trans = .none → s.dev.takeover = none → s.dev.check = some { fails := [], ports := ports } →
      s.mbx.busy = false → bitOf v 0 = true → leads (.runSet a v) s fun s' => s'.dev.state = .run ∧ s'.dev.run = true ∧ s'.dev.check = none) ∧
    (hostServed s a = true → s.dev.state = .ready → s.dev.trans = .none → s.dev.takeover = none → s.dev.check = some { fails := [], ports := ports } →
      s.mbx.busy = true → bitOf v 0 = true → leads (.runSet a v) s fun s' => s'.dev.state = .ready ∧ s'.dev.run = false ∧ s'.dev.check = none ∧
      fld s'.dev.devCheck 7 0 = 0x0E ∧ s'.lanes = s.lanes) ∧
    (hostServed s a = true → s.fusedOff l = false → s.dev.state = .ready → s.dev.check.isSome = true → bitOf v 0 = true →
      leads (.portEnSet a l v) s fun s' => bitOf (s'.lane l).cfg.laneCtrl 0 = true ∧ (s'.lane l).enabled = (s.lane l).enabled ∧
      s'.dev.check = s.dev.check ∧ s'.dev.devCheck = s.dev.devCheck) ∧
    (hostServed s a = true → s.dev.state = .run → s.dev.trans = .none → s.dev.takeover = none → bitOf v 0 = false →
      leads (.runClear a v) s fun s' => s'.dev.run = false ∧ s'.dev.watch = false ∧ ((s'.dev.state = .run ∧ s'.dev.trans = .stopping) ∨
      (s'.dev.state = .ready ∧ s'.dev.trans = .none)) ∧
      ∀ k, (s.lane k).con.valid = false → (s'.lane k).cc.st = .disabled) ∧
    (hostServed s a = true → s.dev.state = .run → s.dev.trans = .none → s.dev.takeover = none → bitOf v 0 = true → bitOf v 1 = true →
      leads (.watchSet a v) s fun s' => s'.dev.state = .run ∧ s'.dev.trans = .enteringWatch ∧ s'.dev.watch = true ∧
      ∀ k, (s.lane k).con.valid = false → (s'.lane k).cc.st = .disabled) ∧
    (s.dev.trans = .enteringWatch → lanesDown s = true → s.dev.takeover = none → s.dev.run = true → s.dev.watch = true →
      leads .watchEntryComplete s fun s' => s'.dev.state = .watch ∧ s'.dev.trans = .none ∧ s'.dev.pll = false ∧ (∀ k, (s'.group k).coreRun = false ∧
      (s'.group k).leRun = false) ∧ (s.dev.mapKeep = false → s'.swath.powered = false)) ∧
    (hostServed s a = true → s.dev.state = .watch → s.dev.trans = .none → s.dev.takeover = none → s.dev.run = true → bitOf v 0 = true →
      bitOf v 1 = false → leads (.watchClear a v) s fun s' => s'.dev.state = .run ∧ s'.dev.watch = false ∧ s'.dev.pll = true ∧
      s'.swath.powered = true) ∧
    (hostServed s a = true → s.fusedOff l = false → s.dev.state = .run → s.dev.takeover = none → (s.lane l).enabled = false → bitOf v 0 = true →
      laneCodes lc l = [] → leads (.portEnSet a l v) s fun s' => (s'.lane l).enabled = true ∧ bitOf (s'.lane l).cfg.laneCtrl 0 = true ∧
      (s'.lane l).cc.st = unattachedState s' l) ∧
    (hostServed s a = true → s.fusedOff l = false → s.dev.state = .run → s.dev.takeover = none → (s.lane l).enabled = false → bitOf v 0 = true →
      laneCodes lc l ≠ [] → leads (.portEnSet a l v) s fun s' => (s'.lane l).enabled = false ∧ bitOf (s'.lane l).cfg.laneCtrl 0 = false) ∧
    (hostServed s a = true → s.fusedOff l = false → s.dev.takeover = none → (s.lane l).enabled = true → bitOf v 0 = false →
      leads (.portEnClear a l v) s fun s' => (s'.lane l).enabled = false ∧ bitOf (s'.lane l).cfg.laneCtrl 0 = false ∧ ((s.lane l).con.valid = false →
      (s'.lane l).cc.st = .disabled)) ∧
    (groupMayIdle s g = true → leads (.groupIdle g) s fun s' => (s'.group g).coreRun = false ∧ (s'.group g).leRun = false ∧ s'.lanes = s.lanes) ∧
    (groupMayIdle s g = false → exec (.groupIdle g) s = .next s) ∧
    (s.dev.takeover.isSome = true → s.dev.halting = false → leads .holdoverLimit s fun s' => s'.dev.state = .halted ∨ s'.dev.trans = .halting 1) ∧
    (s.dev.takeover = none ∨ s.dev.halting = true → exec .holdoverLimit s = .next s)

/-- Setting PORT_EN in RUN, or RUN with PORT_EN set, is refused with code 0x35 for MIN_W above 240 or MAX_W not 0 and below it (R211), and with code 0x38 for a window or a threshold of 0 (R339), the lane in DEV_CHECK[20:16]; setting RUN is refused with 0x0B for POS_ERR, no ACQ, EXPECT_N other than N, or more than one device without TIME_LOCK and SOLO, and with 0x71 while EXCLUDED (R375). A refusal returns PORT_EN or RUN to 0 and names the first failure found (R393). -/
def Obligations.CheckRefusals : Prop :=
  ∀ (a : Agent) (l : LaneId) (v : Word) (code : Nat) (s : State), hostServed s a = true → s.dev.trans = .none → s.dev.takeover = none →
    s.dev.check = none → bitOf v 0 = true →
    let ctl := s.modDev fun d => { d with mapKeep := bitOf v 2, run := true, watch := false }
    let lc := s.modCfg l fun c => { c with laneCtrl := mergeMask (if s.locked then 1 else 0x31) c.laneCtrl v }
    let c := (s.lane l).cfg
    let bad : Prop := (code = 0x35 ∧ (240 < fld c.laneBudget 8 0 ∨ (fld c.laneBudget 20 12 ≠ 0 ∧ fld c.laneBudget 20 12 < fld c.laneBudget 8 0))) ∨
      (code = 0x38 ∧ (fld c.fwWindow0 31 16 = 0 ∨ fld c.fwWindow0 15 0 = 0 ∨ fld c.fwWindow1 15 0 = 0 ∨ fld c.fwThresh 11 8 = 0 ∨
      fld c.fwThresh 7 4 = 0 ∨ fld c.fwThresh 3 0 = 0))
    let t := s.tether
    let unplaced : Prop := t.posErr = true ∨ t.acq = false ∨ (fld t.ctrl 11 8 ≠ 0 ∧ fld t.ctrl 11 8 ≠ t.n.val) ∨ (s.solo = false ∧ 1 < t.n.val ∧
      t.timeLock = false)
    let refused (f : CheckFail) (s' : State) : Prop := s'.dev.state = .ready ∧ s'.dev.run = false ∧ f ∈ runFails ctl (bitOf v 1) false ∧
      ((runFails ctl (bitOf v 1) false).head? = some f → fld s'.dev.devCheck 7 0 = f.code ∧ fld s'.dev.devCheck 20 16 = f.lane)
    (hostServed s a = true → s.fusedOff l = false → s.dev.state = .run → bad →
      leads (.portEnSet a l v) s fun s' => bitOf (s'.lane l).cfg.laneCtrl 0 = false ∧ (s'.lane l).enabled = false ∧
      fld s'.dev.devCheck 20 16 = l.val ∧ code ∈ laneCodes lc l ∧ ((laneCodes lc l).head? = some code → fld s'.dev.devCheck 7 0 = code)) ∧
    (hostServed s a = true → s.fusedOff l = false → s.dev.state = .ready → bitOf c.laneCtrl 0 = true → bad →
      leads (.runSet a v) s (refused { code := code, lane := l.val })) ∧
    (hostServed s a = true → s.dev.state = .ready → unplaced → leads (.runSet a v) s (refused { code := 0x0B })) ∧
    (hostServed s a = true → s.dev.state = .ready → t.excluded = true → leads (.runSet a v) s (refused { code := 0x71 }))

/-- Attach (R29–R32, R37, R46): a toggling lane changes sides at its duty timer; Rd on exactly one pin, or a termination of R31, starts AttachWait.SRC, and Rp on exactly one pin AttachWait.SNK; a debounce held to its end attaches the lane in RUN as source, or as sink once VBUS stands at 4.0 V, or tries the source role in MODE 4; a lost termination and the Try timers lead back. Every clause leaves all other lanes as they were. An unattached lane presents Rp at RP_LEVEL or Rd on both pins, in a harness mode on HARN_PIN alone, and a lane out of service none, nor one in WATCH between its probes (R27, R28, R37, R45). The model's choices: logs 13, 26. -/
def Obligations.AttachDetection : Prop :=
  ∀ (l : LaneId) (cc1 cc2 : CcTerm) (p : CcPin) (mv : Nat) (s : State),
    ((s.lane l).cfg.mode = 3 ∨ (s.lane l).cfg.mode = 4 → (s.lane l).cc.st = .unattachedSrc →
      leads (.drpToggle l) s fun s' => (s'.lane l).cc.st = .unattachedSnk ∧ s.onlyLanePosts s' l) ∧
    ((s.lane l).cfg.mode = 3 ∨ (s.lane l).cfg.mode = 4 → (s.lane l).cc.st = .unattachedSnk →
      leads (.drpToggle l) s fun s' => (s'.lane l).cc.st = .unattachedSrc ∧ s.onlyLanePosts s' l) ∧
    ((s.lane l).cc.st = .unattachedSrc → (s.lane l).cfg.harness = false → cc2 = .rd → cc1 ≠ .rd →
      leads (.attachWaitSrc l cc1 cc2) s fun s' => (s'.lane l).cc.st = .attachWaitSrc ∧ (s'.lane l).cc.debPin = some .cc2 ∧ s.onlyLanePosts s' l) ∧
    ((s.lane l).cc.st = .unattachedSrc → (s.lane l).cfg.harness = false → cc1 = .rd → cc2 ≠ .rd →
      leads (.attachWaitSrc l cc1 cc2) s fun s' => (s'.lane l).cc.st = .attachWaitSrc ∧ (s'.lane l).cc.debPin = some .cc1 ∧ s.onlyLanePosts s' l) ∧
    ((s.lane l).cc.st = .unattachedSrc → (s.lane l).cfg.harness = false → cc1 = cc2 → cc1 = .rd ∨ cc1 = .ra →
      leads (.attachWaitSrc l cc1 cc2) s fun s' => (s'.lane l).cc.st = .attachWaitSrc ∧ (s'.lane l).cc.debPin = none ∧ s.onlyLanePosts s' l) ∧
    ((s.lane l).cc.st = .unattachedSnk → (s.lane l).cfg.harness = false → isRp cc1 = true → isRp cc2 = false →
      leads (.attachWaitSnk l cc1 cc2) s fun s' => (s'.lane l).cc.st = .attachWaitSnk ∧ (s'.lane l).cc.debPin = some .cc1 ∧ s.onlyLanePosts s' l) ∧
    ((s.lane l).cc.st = .unattachedSnk → (s.lane l).cfg.harness = false → isRp cc2 = true → isRp cc1 = false →
      leads (.attachWaitSnk l cc1 cc2) s fun s' => (s'.lane l).cc.st = .attachWaitSnk ∧ (s'.lane l).cc.debPin = some .cc2 ∧ s.onlyLanePosts s' l) ∧
    (s.dev.state = .run → (s.lane l).cc.st = .attachWaitSrc → onePin (s.lane l).cfg isRd cc1 cc2 = some p → (s.lane l).cc.debPin = some p →
      leads (.ccDebounce l cc1 cc2 mv) s fun s' => (s'.lane l).cc.st = .attachedSrc ∧ (s'.lane l).cc.attachEvt = true ∧
      (s'.lane l).swap.powerRole = true ∧ (s'.lane l).swap.dataRole = true ∧ (s'.lane l).cc.raSeen = decide (onPin (otherPin p) cc1 cc2 = .ra ∧
      (s.lane l).cfg.harness = false) ∧ s.onlyLanePosts s' l) ∧
    (s.dev.state ≠ .run → (s.lane l).cc.st = .attachWaitSrc → onePin (s.lane l).cfg isRd cc1 cc2 = some p → (s.lane l).cc.debPin = some p →
      leads (.ccDebounce l cc1 cc2 mv) s fun s' => (s'.lane l).cc.st = .attachWaitSrc ∧ (s'.lane l).cc.held = true ∧ s.onlyLanePosts s' l) ∧
    (s.dev.state = .run → (s.lane l).cc.st = .attachWaitSnk → (s.lane l).cfg.mode ≠ 4 → onePin (s.lane l).cfg isRp cc1 cc2 = some p →
      (s.lane l).cc.debPin = some p → 4000 ≤ mv → leads (.ccDebounce l cc1 cc2 mv) s fun s' => (s'.lane l).cc.st = .attachedSnk ∧
      (s'.lane l).cc.attachEvt = true ∧ (s'.lane l).swap.powerRole = false ∧ (s'.lane l).swap.dataRole = false ∧
      (s'.lane l).cc.partnerRp = rpOf (onPin p cc1 cc2) ∧ s.onlyLanePosts s' l) ∧
    (s.dev.state = .run → (s.lane l).cc.st = .attachWaitSnk → (s.lane l).cfg.mode ≠ 4 → onePin (s.lane l).cfg isRp cc1 cc2 = some p →
      (s.lane l).cc.debPin = some p → mv < 4000 → leads (.ccDebounce l cc1 cc2 mv) s fun s' => (s'.lane l).cc.st = .attachWaitSnk ∧
      (s'.lane l).cc.held = true ∧ s.onlyLanePosts s' l) ∧
    (s.dev.state = .run → (s.lane l).cc.st = .attachWaitSnk → (s.lane l).cfg.mode = 4 → onePin (s.lane l).cfg isRp cc1 cc2 = some p →
      (s.lane l).cc.debPin = some p → leads (.ccDebounce l cc1 cc2 mv) s fun s' => (s'.lane l).cc.st = .trySrc ∧ s.onlyLanePosts s' l) ∧
    ((s.lane l).cc.st = .attachWaitSrc → leads (.terminationLost l) s fun s' => (s'.lane l).cc.st = .unattachedSrc ∧ (s'.lane l).cc.debPin = none ∧
      s.onlyLanePosts s' l) ∧
    ((s.lane l).cc.st = .attachWaitSnk → leads (.terminationLost l) s fun s' => (s'.lane l).cc.st = .unattachedSnk ∧ (s'.lane l).cc.debPin = none ∧
      s.onlyLanePosts s' l) ∧
    (s.dev.state = .run → (s.lane l).cc.st = .trySrc → (onePin (s.lane l).cfg isRd cc1 cc2).isSome = true →
      leads (.tryCcDebounce l cc1 cc2) s fun s' => (s'.lane l).cc.st = .attachedSrc ∧ (s'.lane l).cc.attachEvt = true ∧
      (s'.lane l).swap.powerRole = true ∧ (s'.lane l).swap.dataRole = true ∧ s.onlyLanePosts s' l) ∧
    ((s.lane l).cc.st = .trySrc → (s.lane l).cc.held = false → leads (.drpTry l) s fun s' => (s'.lane l).cc.st = .tryWaitSnk ∧ s.onlyLanePosts s' l) ∧
    (s.dev.state = .run → (s.lane l).cc.st = .tryWaitSnk → (onePin (s.lane l).cfg isRp cc1 cc2).isSome = true → 4000 ≤ mv →
      leads (.trywaitDebounce l cc1 cc2 mv) s fun s' => (s'.lane l).cc.st = .attachedSnk ∧ (s'.lane l).cc.attachEvt = true ∧
      (s'.lane l).swap.powerRole = false ∧ (s'.lane l).swap.dataRole = false ∧ s.onlyLanePosts s' l) ∧
    ((s.lane l).cc.st = .tryWaitSnk → leads (.tryTimeout l) s fun s' => (s'.lane l).cc.st = .unattachedSnk ∧ (s'.lane l).cc.debPin = none ∧
      s.onlyLanePosts s' l) ∧
    (s.dev.state = .run → (s.lane l).cc.st = .attachWaitSnk → (s.lane l).cc.held = true → (s.lane l).cc.debPin = some p → 4000 ≤ mv →
      leads (.sinkVbusPresent l mv) s fun s' => (s'.lane l).cc.st = .attachedSnk ∧ (s'.lane l).cc.attachEvt = true ∧
      (s'.lane l).swap.powerRole = false ∧ (s'.lane l).swap.dataRole = false ∧ s.onlyLanePosts s' l) ∧
    (mv < 4000 → exec (.sinkVbusPresent l mv) s = .next s) ∧
    ((s.lane l).cc.st = .unattachedSrc ∨ (s.lane l).cc.st = .attachWaitSrc ∨ (s.lane l).cc.st = .trySrc → (s.lane l).cfg.harness = false →
      pinDrive (s.lane l) p = .rp (rpField (s.lane l).cfg)) ∧
    ((s.lane l).cc.st = .unattachedSnk ∨ (s.lane l).cc.st = .attachWaitSnk ∨ (s.lane l).cc.st = .tryWaitSnk → (s.lane l).cfg.harness = false →
      pinDrive (s.lane l) p = .rd) ∧
    ((s.lane l).cfg.harness = true → p ≠ harnPin (s.lane l).cfg → (s.lane l).cc.attached = false → pinDrive (s.lane l) p = .opened) ∧
    ((s.lane l).cc.st = .disabled ∨ (s.lane l).cc.st = .watch ∨ (s.lane l).cc.st = .unattachedWait ∨ (s.lane l).cc.st = .cutState →
      pinDrive (s.lane l) p = .opened)

/-- Detach (R40), cut (R38, R39), VCONN overcurrent and its return (R35), attach detection in WATCH (R45), the attempts of cable discovery (R36) and the partner's Rp (R41): a detach ends contract, messages, VCONN, path and stage, and one that does not count changes nothing; in WATCH the first cycle reports nothing and a second equal probe after the baseline reports the attach; no clause changes another lane. The model's choices: logs 13, 62, 115. -/
def Obligations.DetachAndCable : Prop :=
  ∀ (a : Agent) (l : LaneId) (cc1 cc2 : CcTerm) (level : Fin 4) (s : State),
    (detachCounts (s.lane l) = true → leads (.detach l) s fun s' => (s'.lane l).cc.st = .unattachedWait ∧ (s'.lane l).cc.detachEvt = true ∧
      (s'.lane l).belay.sw = 0 ∧ (s'.lane l).conv.on = false ∧ (s'.lane l).con.valid = false ∧
      (s'.lane l).cc.vconnOn = false ∧ (s'.lane l).pd.fifo = [] ∧ (s'.lane l).pd.queue = [] ∧ (s'.lane l).pd.hrPhase = .idle ∧ s.onlyLanePosts s' l) ∧
    (detachCounts (s.lane l) = false → exec (.detach l) s = .next s) ∧
    ((s.lane l).cc.st = .unattachedWait → s.dev.trans = .none → leads (.unattachedWaitEnd l) s fun s' => (s'.lane l).cc.st = unattachedState s l ∧
      (s'.lane l).belay.dischOut = false ∧ s.onlyLanePosts s' l) ∧
    ((s.lane l).cc.attached = true → (s.lane l).cfg.harness = true → leads (.cut l) s fun s' => (s'.lane l).cc.st = .cutState ∧
      (s'.lane l).cc.cut = true ∧ (s'.lane l).belay.sw = 0 ∧ (s'.lane l).conv.on = false ∧ (s'.lane l).con.valid = false ∧
      s'.dev.hostIrq.getLsbD 4 = true ∧ s.onlyLaneLogs s' l) ∧
    (hostServed s a = true → s.fusedOff l = false → a = .host → (s.lane l).cc.st = .cutState →
      leads (.cutClear a l) s fun s' => (s'.lane l).cc.cut = false ∧ (s'.lane l).cc.st = unattachedState s' l ∧ s.onlyLanePosts s' l) ∧
    (hostServed s a = true → s.fusedOff l = false → a = .host → (s.lane l).cc.st ≠ .cutState →
      leads (.cutClear a l) s fun s' => (s'.lane l).cc.cut = false ∧ (s'.lane l).cc.st = (s.lane l).cc.st ∧ s.onlyLanePosts s' l) ∧
    ((s.lane l).cc.vconnOn = true → leads (.vconnOc l) s fun s' => (s'.lane l).cc.vconnOn = false ∧ (s'.lane l).cc.vconnOc = true ∧
      (s'.lane l).cc.discRun = false ∧ ((s'.lane l).cc.vconnRetry = true ∨ (s'.lane l).fw.vconnLast = true) ∧ s.onlyLaneLogs s' l) ∧
    ((s.lane l).cc.vconnRetry = true → (s.lane l).pd.hrBusy = false → (s.lane l).swap.vconnRole = true → s.dev.vconnSupOk = true →
      (s.lane l).fw.vconnLast = false → (s.lane l).cc.attached = true → dieUp s l = true →
      leads (.vconnReapply l) s fun s' => (s'.lane l).cc.vconnOn = true ∧ (s'.lane l).cc.vconnRetry = false ∧ s.onlyLanePosts s' l) ∧
    ((s.lane l).cc.st = .watch → (s.lane l).cfg.mode = 1 → (s.lane l).cc.probeCycles = 2 → (s.lane l).cc.probeLast = true →
      (s.lane l).cc.probeRun = 1 → cc1 = .rd → leads (.watchProbe l cc1 cc2) s fun s' => (s'.lane l).cc.attachEvt = true ∧
      s'.dev.hostIrq.getLsbD 3 = true ∧ s.onlyLaneLogs s' l) ∧
    ((s.lane l).cc.st = .watch → (s.lane l).cc.probeCycles = 0 →
      leads (.watchProbe l cc1 cc2) s fun s' => (s'.lane l).cc.attachEvt = (s.lane l).cc.attachEvt ∧ (s'.lane l).cc.probeCycles = 1 ∧
      (s'.lane l).cc.probeRun = 1 ∧ s.onlyLanePosts s' l) ∧
    ((s.lane l).cc.discRun = true → serves s l = true → (s.lane l).cc.discTries < 3 → (s.lane l).cc.vconnOn = true →
      leads (.discoveryResponseTimeout l) s fun s' => (s'.lane l).cc.discTries = (s.lane l).cc.discTries + 1 ∧ (s'.lane l).cc.discRun = true ∧
      s.onlyLanePosts s' l) ∧
    ((s.lane l).cc.discRun = true → serves s l = true → 3 ≤ (s.lane l).cc.discTries → (s.lane l).cc.discEpr = false →
      leads (.discoveryResponseTimeout l) s fun s' => (s'.lane l).cc.discTries = 0 ∧ (s'.lane l).cc.discRun = false ∧ s.onlyLanePosts s' l) ∧
    ((s.lane l).cc.attached = true → (s.lane l).swap.presentsRp = false →
      leads (.partnerRpChange l level) s fun s' => (s'.lane l).cc.partnerRp = BitVec.ofNat 2 level.val ∧ s.onlyLanePosts s' l)

/-- Transmission (R48, R50, R53, R57–R60, R65, R111): SEND with room queues the staged words with its SOP, EXT and AMS_START under NEXT_TAG, which advances, and AMS_START sets ams_hold on a source; the head's frame goes out stamped with its MessageID, and only one frame is in flight; a matching GoodCRC ends it Sent and advances the ID, for SOP the queue behind it stays as it is where the message is none of those whose end moves a contract, a swap or an AMS on; any other GoodCRC does nothing; the third frame without one ends it Failed; the collision gate and ams_hold; and a chunk not asked for in time ends its message Failed. The model's choices: logs 13, 20. -/
def Obligations.TransmitQueue : Prop :=
  ∀ (a : Agent) (l : LaneId) (v : Word) (id : BitVec 3) (k : Sop) (fl : Flight) (m : TxSlot) (r : List TxSlot) (s : State),
    let p := (s.lane l).pd
    let p' (s' : State) : PdLane := (s'.lane l).pd
    (hostServed s a = true → s.fusedOff l = false → v = 0x100 → p.queue.length < 2 → p.hrBusy = false → isPackWrite s l = false →
      leads (.send a l v) s fun s' => (p' s').queue = p.queue ++ [{ tag := p.nextTag, sop := .sop, ext := false, ams := false, data := (s.lane l).cfg.txData.toList }] ∧
      (p' s').nextTag = p.nextTag + 1 ∧ s.onlyLanePosts s' l) ∧
    (hostServed s a = true → s.fusedOff l = false → bitOf v 8 = true → bitOf v 9 = false → bitOf v 10 = false → fld v 1 0 = sopCode k → (k ≠ .sop →
      (s.lane l).swap.vconnRole = true) → (bitOf v 4 = true → fld (s.lane l).cfg.txData[0] 24 16 ≤ 260 ∧ p.queue.any (fun m => m.ext) = false) →
      p.queue.length < 2 → p.hrBusy = false → isPackWrite s l = false →
      leads (.send a l v) s fun s' => (p' s').queue = p.queue ++ [{ tag := p.nextTag, sop := k, ext := bitOf v 4, ams := bitOf v 5, data := (s.lane l).cfg.txData.toList }] ∧
      (p' s').nextTag = p.nextTag + 1 ∧ (s'.lane l).swap.amsHold = ((s.lane l).swap.amsHold || (bitOf v 5 && (s.lane l).swap.powerRole)) ∧
      s.onlyLanePosts s' l) ∧
    ((s.lane l).cc.attached = true → p.hrBusy = false → p.flight = none → p.bist = .off → p.hwq = [] → p.queue = m :: r → m.ext = false →
      m.ams = false → isCtl (slotFrame m) 13 = false → leads (.transmitStart l) s fun s' => (p' s').queue = { m with begun := true } :: r ∧
      (p' s').txId = p.txId ∧
      (p' s').flight = some { frame := { slotFrame m with header := stampHeader (s.lane l).swap m.sop (p.txId.get (sopIdx m.sop)) (slotFrame m).header } } ∧
        s.onlyLanePosts s' l) ∧
    (p.flight.isSome = true ∨ p.hrBusy = true ∨ (s.lane l).cc.attached = false → exec (.transmitStart l) s = .next s) ∧
    (p.flight = some fl → fl.ended = false → fl.hw = none → fl.frame.sop = k → msgId fl.frame.header = id → p.txId.get (sopIdx k) = id →
      p.queue = m :: r → m.ext = false → k ≠ .sop → leads (.goodcrcReceived l k id) s fun s' => (p' s').flight = none ∧ (p' s').queue = r ∧
      (p' s').txId.get (sopIdx k) = id + 1 ∧ (p' s').lastTag = m.tag ∧ (p' s').lastResult = 1 ∧ (p' s').txDone = true ∧ s.onlyLanePosts s' l) ∧
    (p.flight = some fl → fl.ended = false → fl.hw = none → fl.frame.sop = k → msgId fl.frame.header = id → p.txId.get (sopIdx k) = id →
      p.queue = m :: r → m.ext = false → k = .sop → leads (.goodcrcReceived l k id) s fun s' => (p' s').flight = none ∧
      (p' s').txId.get (sopIdx k) = id + 1 ∧ (p' s').lastTag = m.tag ∧ (p' s').lastResult = 1 ∧ (p' s').txDone = true ∧ s.onlyLanePosts s' l) ∧
    (p.flight = some fl → fl.ended = false → fl.hw = none → fl.frame.sop = k → msgId fl.frame.header = id → p.txId.get (sopIdx k) = id →
      p.queue = m :: r → m.ext = false → k = .sop → (∀ n, n ∈ [3, 4, 6, 10, 11, 12, 13] → isCtl fl.frame n = false) → (∀ n, n ∈ [1, 10] →
      isData fl.frame n = false) → leads (.goodcrcReceived l k id) s fun s' => (p' s').flight = none ∧ (p' s').queue = r ∧
      (p' s').txId.get (sopIdx k) = id + 1 ∧ (p' s').lastTag = m.tag ∧ (p' s').lastResult = 1 ∧ (p' s').txDone = true ∧ s.onlyLanePosts s' l) ∧
    (p.flight = some fl → fl.frame.sop ≠ k ∨ msgId fl.frame.header ≠ id → exec (.goodcrcReceived l k id) s = .next s) ∧
    (p.flight = some fl → fl.ended = false → fl.tries < 3 →
      leads (.goodcrcTimeout l) s fun s' => (p' s').flight = some { fl with tries := fl.tries + 1 } ∧ (p' s').queue = p.queue ∧
      s.onlyLanePosts s' l) ∧
    (p.flight = some fl → fl.ended = false → fl.hw = none → fl.tries = 3 → p.queue = m :: r →
      leads (.goodcrcTimeout l) s fun s' => (p' s').flight = none ∧ (p' s').queue = r ∧ (p' s').txId = p.txId ∧ (p' s').lastTag = m.tag ∧
      (p' s').lastResult = 2 ∧ (p' s').lastRetries = 2 ∧ s.onlyLanePosts s' l) ∧
    ((s.lane l).swap.amsHold = true → leads (.sinkTx l) s fun s' => (p' s').gateOpen = true ∧ s.onlyLanePosts s' l) ∧
    (leads (.amsHoldTimeout l) s fun s' => (s'.lane l).swap.amsHold = false ∧ s.onlyLanePosts s' l) ∧
    (p.txChunkWait = true → p.queue = m :: r → leads (.chunkSenderRequest l) s fun s' => (p' s').queue = r ∧ (p' s').txChunkWait = false ∧
      (p' s').lastTag = m.tag ∧ (p' s').lastResult = 2 ∧ s.onlyLanePosts s' l)

/-- R58: a SEND ends with result Refused, and takes no slot and no tag, where both slots are occupied, SOP = 3, SOP is 1 or 2 while the lane is not VCONN source, a hard reset is in progress, or EXT = 1 with a Data Size above 260. The model's choices: log 77. -/
def Obligations.SendRefused : Prop :=
  ∀ (a : Agent) (l : LaneId) (v : Word) (s : State),
    let p := (s.lane l).pd
    (hostServed s a = true → s.fusedOff l = false → bitOf v 8 = true → bitOf v 9 = false → bitOf v 10 = false → (2 ≤ p.queue.length ∨ fld v 1 0 = 3 ∨
      ((fld v 1 0 = 1 ∨ fld v 1 0 = 2) ∧ (s.lane l).swap.vconnRole = false) ∨ p.hrBusy = true ∨
      (bitOf v 4 = true ∧ 260 < fld (s.lane l).cfg.txData[0] 24 16)) → leads (.send a l v) s fun s' => (s'.lane l).pd.queue = p.queue ∧
        (s'.lane l).pd.nextTag = p.nextTag ∧ (s'.lane l).pd.lastResult = 5 ∧ (s'.lane l).pd.txDone = true ∧ s.onlyLanePosts s' l)

/-- Reception (R51–R56, R62–R65, R74, R463, R464): a frame with room fills a slot with its DTIME_LO and becomes the stored MessageID, shown for a control message, and for every message that is not extended, a VDM, a Soft_Reset or BIST where no base image serves the lane; a repeated MessageID is not stored again; with four slots held it is withheld and counted in OVF_CNT; POP releases the head slot; a BIST carrier ends; a chunk that does not come abandons the reassembly with EXT_ABORT, answered by the base image with Not_Supported; a Chunk Request lets the next chunk out; a rise of ar_active ends queued messages that had not begun; and an access to PD_EXT_DATA advances OFFSET. The model's choices: logs 13, 20, 81. -/
def Obligations.Reception : Prop :=
  ∀ (a : Agent) (l : LaneId) (f : Frame) (w : Option Word) (r : Reassembly) (s : State),
    let p := (s.lane l).pd
    let p' (s' : State) : PdLane := (s'.lane l).pd
    let hears : Prop := (s.lane l).cc.attached = true ∧ p.bist = .off ∧ p.hrPhase = .idle ∧ p.flight = none ∧ p.queue = [] ∧ p.reasm = none ∧
      p.arActive = false
    (hears → f.sop = .sop → isCtl f 17 = true → p.fifo.length < 4 → p.rxId.get 0 ≠ some (msgId f.header) →
      leads (.messageReceived l f) s fun s' => (p' s').fifo = p.fifo ++ [{ frame := f, time := BitVec.ofNat 32 s.dev.dtime }] ∧
      (p' s').rxId.get 0 = some (msgId f.header) ∧ s.onlyLanePosts s' l) ∧
    (hears → f.sop = .sop → isExtended f.header = false → isCtl f 1 = false → isCtl f 13 = false → isData f 3 = false → isData f 15 = false →
      (s.lane l).swap.ownVcs = false → serves s l = false → p.fifo.length < 4 → p.rxId.get 0 ≠ some (msgId f.header) →
      leads (.messageReceived l f) s fun s' => (p' s').fifo = p.fifo ++ [{ frame := f, time := BitVec.ofNat 32 s.dev.dtime }] ∧
      (p' s').rxId.get 0 = some (msgId f.header) ∧ (p' s').rxBuf = p.rxBuf ∧ s.onlyLanePosts s' l) ∧
    (hears → f.sop = .sop → isCtl f 17 = true → p.rxId.get 0 = some (msgId f.header) →
      leads (.messageReceived l f) s fun s' => (p' s').fifo = p.fifo ∧ (p' s').ovfCnt = p.ovfCnt ∧ s.onlyLanePosts s' l) ∧
    (hears → f.sop = .sop → isCtl f 17 = true → 4 ≤ p.fifo.length → p.rxId.get 0 ≠ some (msgId f.header) →
      leads (.messageReceived l f) s fun s' => (p' s').fifo = p.fifo ∧ (p' s').rxId = p.rxId ∧ (p' s').ovf = true ∧ (p' s').ovfCnt = satInc p.ovfCnt ∧
      s.onlyLanePosts s' l) ∧
    (hostServed s a = true → s.fusedOff l = false → leads (.pop a l) s fun s' => (p' s').fifo = p.fifo.drop 1 ∧ (p' s').rxId = p.rxId ∧
      s.onlyLane s' l) ∧
    (p.bist = .carrier → leads (.bistCarrierEnd l) s fun s' => (p' s').bist = .off ∧ s.onlyLane s' l) ∧
    (p.bist = .off → exec (.bistCarrierEnd l) s = .next s) ∧
    (p.reasm = some r → r.awaiting = true → p.arActive = true → leads (.chunkSenderResponse l) s fun s' => (p' s').reasm = none ∧
      (p' s').extAbort = true ∧ (p' s').fifo = p.fifo ∧ (p' s').queue = p.queue ∧ s.onlyLanePosts s' l) ∧
    (p.reasm = some r → r.awaiting = true → p.arActive = false → serves s l = false →
      leads (.chunkSenderResponse l) s fun s' => (p' s').reasm = none ∧ (p' s').extAbort = true ∧ (p' s').fifo = p.fifo ∧ (p' s').queue = p.queue ∧
      s.onlyLanePosts s' l) ∧
    (p.reasm = some r → r.awaiting = true → r.sop = .sop → serves s l = true → p.queue = [] → p.hrPhase = .idle →
      leads (.chunkSenderResponse l) s fun s' => (p' s').reasm = none ∧ (p' s').extAbort = true ∧ (p' s').fifo = p.fifo ∧ (s'.lane l).says [ctl 16] ∧
      s.onlyLanePosts s' l) ∧
    (p.reasm.any (·.awaiting) = false → exec (.chunkSenderResponse l) s = .next s) ∧
    ((s.lane l).cc.attached = true → p.bist = .off → p.hrPhase = .idle → f.sop = .sop → isExtended f.header = true → exChunked (extHeader f) = true →
      exRequest (extHeader f) = true → p.rxId.get 0 ≠ some (msgId f.header) → p.txChunkWait = true → exChunk (extHeader f) = p.txChunk.getD 0 + 1 →
      leads (.chunkRequest l f) s fun s' => (p' s').txChunk = some (p.txChunk.getD 0 + 1) ∧ (p' s').txChunkWait = false ∧ (p' s').queue = p.queue ∧
      s.onlyLanePosts s' l) ∧
    (p.arActive = false → p.unanswered = [] → p.queue.length ≤ 1 → (s.lane l).swap.state = 0 → p.acceptPending = false →
      leads (.arActiveRise l) s fun s' => (p' s').arActive = true ∧ (p' s').queue = p.queue.filter (fun m => m.begun) ∧ s.onlyLanePosts s' l) ∧
    (w = none ∨ bitOf (s.lane l).cfg.extPtr 16 = true → hostServed s a = true → s.fusedOff l = false →
      leads (.pdExtData a l w) s fun s' => (s'.lane l).cfg.extPtr = advanceExt (s.lane l).cfg.extPtr ∧ (p' s').rxBuf = p.rxBuf ∧ s.onlyLane s' l)

/-- Hard reset (R69–R73, R162): a cause starts signalling on an attached lane, a received one sets HR_RCVD, and both clear the contract, the FIFO, the queue and both MessageIDs, and a latched lane ends Disabled; a source waits tPSHardReset with VBUS up, opens and discharges, waits tSrcRecover below vSafe0V, and asks the belay for the close; its ramp's end ends the reset with HR_DONE; a sink waits for VBUS to return and detaches where it does not; a third without a contract is error recovery; Cable Reset clears the cable SOP types alone. The model's choices: logs 13, 115. -/
def Obligations.HardResets : Prop :=
  ∀ (a : Agent) (l : LaneId) (side : PathSide) (mv : Nat) (s : State),
    let p := (s.lane l).pd
    let p' (s' : State) : PdLane := (s'.lane l).pd
    let cleared (s' : State) : Prop := (s'.lane l).con.valid = false ∧ (p' s').fifo = [] ∧ (p' s').queue = [] ∧ (p' s').txId = Vector.replicate 3 0 ∧
      (p' s').rxId = Vector.replicate 3 none
    ((s.lane l).cc.attached = true → p.hrPhase = .idle → p.hrCount.toNat < 2 → leads (.hardReset l) s fun s' => (p' s').hrPhase = .signalling ∧
      (p' s').hrThen = .normal ∧ s.onlyLane s' l) ∧
    ((s.lane l).cc.attached = false ∨ p.hrPhase ≠ .idle → exec (.hardReset l) s = .next s) ∧
    ((s.lane l).cc.attached = true → p.hrPhase = .idle → 2 ≤ p.hrCount.toNat → leads (.hardReset l) s fun s' => ((s'.lane l).cc.st = .unattachedWait ∨
      (s'.lane l).cc.st = .disabled) ∧ (s'.lane l).cc.detachEvt = true ∧ (s'.lane l).belay.sw = 0 ∧ (s'.lane l).conv.on = false ∧
      s.onlyLaneLogs s' l) ∧
    ((s.lane l).cc.attached = true → p.hrPhase = .idle → (s.lane l).cc.attachSrc = true → (s.lane l).swap.powerRole = true →
      (s.lane l).swap.dataRole = true → (s.lane l).swap.vconnRole = vconnAtAttach (s.lane l) → (s.lane l).swap.state = 0 →
      (s.lane l).swap.holdOn = false → (s.lane l).belay.latched = false → (s.lane l).fw.protoLast = false →
      leads (.hardResetReceived l) s fun s' => (p' s').hrRcvd = true ∧ cleared s' ∧ (s'.lane l).cc.vconnOn = false ∧ (p' s').hrPhase = .psWait ∧
      s.onlyLanePosts s' l) ∧
    ((s.lane l).cc.attached = true → p.hrPhase = .idle → (s.lane l).cc.attachSrc = true → (s.lane l).swap.dataRole = false →
      (s.lane l).belay.latched = false → (s.lane l).fw.protoLast = false → leads (.hardResetReceived l) s fun s' => (p' s').hrRcvd = true ∧
      cleared s' ∧ (s'.lane l).cc.vconnOn = false ∧ (p' s').hrPhase = .vbusOff ∧ (s'.lane l).swap.powerRole = true ∧
      (s'.lane l).swap.dataRole = true ∧ (s'.lane l).swap.vconnRole = vconnAtAttach (s.lane l) ∧ s.onlyLanePosts s' l) ∧
    (p.hrPhase = .signalling → p.hrThen = .normal → (s.lane l).cc.attachSrc = false → (s.lane l).swap.powerRole = false → (s.lane l).swap.state = 0 →
      (s.lane l).swap.holdOn = false → (s.lane l).belay.latched = false → (s.lane l).fw.protoLast = false → bitOf (s.lane l).cfg.laneCtrl 0 = true →
      leads (.hardResetComplete l) s fun s' => cleared s' ∧ (s'.lane l).belay.sw = 0 ∧ (s'.lane l).conv.on = false ∧ (p' s').hrPhase = .sinkWait ∧
      s.onlyLanePosts s' l) ∧
    (p.hrPhase = .signalling → (s.lane l).cc.attachSrc = true → (s.lane l).swap.powerRole = true → (s.lane l).swap.dataRole = true →
      (s.lane l).swap.vconnRole = vconnAtAttach (s.lane l) → (s.lane l).swap.state = 0 → (s.lane l).swap.holdOn = false →
      (s.lane l).belay.latched = false → (s.lane l).fw.protoLast = false → leads (.hardResetComplete l) s fun s' => cleared s' ∧
      (s'.lane l).cc.vconnOn = false ∧ (p' s').hrPhase = .psWait ∧ (s'.lane l).belay.sw = (s.lane l).belay.sw ∧
      (s'.lane l).conv.on = (s.lane l).conv.on ∧ (s'.lane l).swap.powerRole = true ∧ s.onlyLanePosts s' l) ∧
    (p.hrPhase = .signalling → (s.lane l).cc.attached = true → (s.lane l).swap.state = 0 → (s.lane l).belay.latched = true ∨
      (s.lane l).fw.protoLast = true → s.dev.trans = .none → leads (.hardResetComplete l) s fun s' => cleared s' ∧ (s'.lane l).belay.sw = 0 ∧
      (s'.lane l).conv.on = false ∧ (p' s').hrPhase = .idle ∧ (s'.lane l).cc.st = .disabled ∧ (s.onlyLanePosts s' l)) ∧
    (p.hrPhase ≠ .signalling → exec (.hardResetComplete l) s = .next s) ∧
    (p.hrPhase = .psWait → (s.lane l).belay.dischOut = true → leads (.psHardReset l) s fun s' => (p' s').hrPhase = .vbusOff ∧
      (s'.lane l).belay.sw = 0 ∧ (s'.lane l).belay.dischOut = true ∧ (s'.lane l).conv.on = false ∧ s.onlyLane s' l) ∧
    (p.hrPhase = .psWait → (s.lane l).belay.sw ≠ 0 → (s.lane l).swap.powerRole = true →
      leads (.psHardReset l) s fun s' => (p' s').hrPhase = .vbusOff ∧ (s'.lane l).belay.sw = 0 ∧ (s'.lane l).belay.dischOut = true ∧
      (s'.lane l).conv.on = false ∧ s.onlyLane s' l) ∧
    (p.hrPhase = .psWait → resetEnds (s.lane l) = false → (s.lane l).belay.sw = 0 → (s.lane l).belay.dischOut = false →
      leads (.psHardReset l) s fun s' => (p' s').hrPhase = .srcRecover ∧ (s'.lane l).belay.sw = 0 ∧ (s'.lane l).belay.dischOut = false ∧
      (s'.lane l).conv.on = false ∧ s.onlyLane s' l) ∧
    (side = .vbout → (s.lane l).belay.dischOut = true → p.hrPhase = .vbusOff → resetEnds (s.lane l) = false →
      leads (.dischargeEnd l side) s fun s' => (s'.lane l).belay.dischOut = false ∧ (p' s').hrPhase = .srcRecover ∧ s.onlyLane s' l) ∧
    (side = .vbin → (s.lane l).belay.dischIn = true → s.dev.trans = .none →
      leads (.dischargeEnd l side) s fun s' => (s'.lane l).belay.dischIn = false ∧ s.onlyLane s' l) ∧
    (p.hrPhase = .srcRecover → liveBit s l = true → dieUp s l = true → (s.lane l).belay.latched = false → (s.lane l).belay.sw = 0 →
      leads (.srcRecover l) s fun s' => (p' s').hrPhase = .rising ∧ (s'.lane l).belay.want = .asSource ∧ s.onlyLane s' l) ∧
    (p.hrPhase = .rising → (s.lane l).conv.on = true → (s.lane l).conv.soft = true → (s.lane l).conv.vs = (s.lane l).conv.vsetEff →
      vbinSettled (s.lane l).conv mv = true → leads (.rampComplete ⟨l, mv⟩) s fun s' => (p' s').hrPhase = .idle ∧ (p' s').hrDone = true ∧
      (s'.lane l).conv.soft = false ∧ (s'.lane l).conv.ramp = false ∧ s.onlyLanePosts s' l) ∧
    ((s.lane l).conv.on = false ∨ (s.lane l).conv.vs ≠ (s.lane l).conv.vsetEff ∨ vbinSettled (s.lane l).conv mv = false →
      exec (.rampComplete ⟨l, mv⟩) s = .next s) ∧
    (p.hrPhase = .sinkWait → 4000 ≤ mv → liveBit s l = true → dieUp s l = true → (s.lane l).belay.latched = false → (s.lane l).belay.sw = 0 →
      leads (.sinkVbusReturn l mv) s fun s' => (p' s').hrPhase = .idle ∧ (p' s').hrDone = true ∧ (s'.lane l).belay.want = .asSink ∧
      s.onlyLanePosts s' l) ∧
    (p.hrPhase = .sinkWait → mv < 4000 → leads (.sinkHardResetTimeout l mv) s fun s' => (s'.lane l).cc.st = .unattachedWait ∧
      (s'.lane l).cc.detachEvt = true ∧ (p' s').hrPhase = .idle ∧ s.onlyLanePosts s' l) ∧
    (hostServed s a = true → s.fusedOff l = false → (s.lane l).swap.vconnRole = true → p.hrPhase = .idle → (s.lane l).cc.attached = true →
      (s.lane l).cc.vconnOn = false ∨ serves s l = false → leads (.cableReset a l) s fun s' => (s'.lane l).cc.cableValid = false ∧
      (p' s').queue = p.queue.filter (fun m => m.sop = .sop) ∧ (∀ i : Fin 3, (p' s').txId.get i = if i = 0 then p.txId.get 0 else 0) ∧
      (∀ i : Fin 3, (p' s').rxId.get i = if i = 0 then p.rxId.get 0 else none) ∧ s.onlyLanePosts s' l) ∧
    (hostServed s a = true → s.fusedOff l = false → (s.lane l).swap.vconnRole = true → p.hrPhase = .idle → (s.lane l).cc.attached = true →
      (s.lane l).cc.vconnOn = true → serves s l = true → p.queue = [] → leads (.cableReset a l) s fun s' => (s'.lane l).cc.cableValid = false ∧
      (s'.lane l).cc.discRun = true ∧ (s'.lane l).cc.discTries = 1 ∧ (s'.lane l).says [cableIdentity] ∧ s.onlyLanePosts s' l)

/-- Contracts (R79–R86, R88, R116): a Request in the wrong mode draws Soft_Reset, one of no offered object Reject, one during an arm Wait, and one of an offered Fixed object within its current Accept, with the change it opens; the changes of limits; Soft_Reset, Get_Source_Cap, keep-alive and EPR_Mode; and a sink's Request to a list. Message codes and object layouts are the model's (PRESUMED, log 20). The model's choices: logs 13, 20. -/
def Obligations.Contracts : Prop :=
  ∀ (l : LaneId) (f : Frame) (v i : Nat) (d : Change) (s : State),
    let x := s.lane l
    let o := x.con.offer.getD (fld (obj f 0) 31 28 - 1) 0
    (s.hears l f → isData f 2 = true ∨ isData f 9 = true → x.swap.powerRole = true → isData f 9 ≠ x.con.eprMode →
      leads (.request l f) s fun s' => (s'.lane l).says [ctl 13] ∧ (s'.lane l).con.change = x.con.change ∧ s.onlyLanePosts s' l) ∧
    (s.hears l f → isData f 2 = true → x.swap.powerRole = true → x.con.eprMode = false → fld (obj f 0) 31 28 = 0 ∨ o = 0 →
      leads (.request l f) s fun s' => (s'.lane l).says [ctl 4] ∧ (s'.lane l).con.change = x.con.change ∧ s.onlyLanePosts s' l) ∧
    (s.hears l f → isData f 2 = true → x.swap.powerRole = true → x.con.eprMode = false → fld (obj f 0) 31 28 ≠ 0 → o ≠ 0 → readPdo o = .fixed v i →
      fld (obj f 0) 19 10 ≤ i → x.con.armState = 1 ∨ x.con.armState = 2 → leads (.request l f) s fun s' => (s'.lane l).says [ctl 12] ∧
      (s'.lane l).con.change = x.con.change ∧ s.onlyLanePosts s' l) ∧
    (s.hears l f → isData f 2 = true → x.swap.powerRole = true → x.con.eprMode = false → fld (obj f 0) 31 28 ≠ 0 → o ≠ 0 → readPdo o = .fixed v i →
      fld (obj f 0) 19 10 ≤ i → x.con.armState = 0 → x.cc.discRepeat = false → v * fld (obj f 0) 19 10 ≤ x.budget.ceil.toNat * 2000 →
      bitOf (obj f 0) 26 = false → leads (.request l f) s fun s' => (s'.lane l).says [ctl 3] ∧ (s'.lane l).pd.acceptPending = true ∧
      (s'.lane l).con.rdo = obj f 0 ∧
      (s'.lane l).con.change = some { kind := 0, objPos := BitVec.ofNat 4 (fld (obj f 0) 31 28), volt := BitVec.ofNat 14 v, curr := BitVec.ofNat 10 (fld (obj f 0) 19 10) } ∧
        s.onlyLanePosts s' l) ∧
    (x.con.change = some d → d.started = true → d.moving = false → d.ready = false → d.asSink = false → serves s l = true → x.con.twinOn = false →
      x.con.valid = true → x.con.curr.toNat < d.curr.toNat →
      leads (.srcTransition l) s fun s' => fld (s'.lane l).cfg.ilimSet 7 0 = ilimStored (fld x.cfg.ilimSet 23 16) (ilimFor d.curr.toNat) ∧
      fld (s'.lane l).cfg.convVset 13 0 = Min.min d.volt.toNat (fld x.cfg.vconvMax 13 0) ∧ s.onlyLanePosts s' l) ∧
    (x.con.change = none ∨ x.pd.arActive = true → exec (.srcTransition l) s = .next s) ∧
    (x.con.fall = some (20, d.curr) → x.con.step5 = true → serves s l = true →
      leads (.contractLimitFall l) s fun s' => fld (s'.lane l).cfg.ilimSet 7 0 = ilimStored (fld x.cfg.ilimSet 23 16) 20 ∧
      fld (s'.lane l).cfg.convIset 9 0 = Min.min d.curr.toNat 700 ∧ (s'.lane l).con.fall = none ∧ (s'.lane l).budget.counted = 0 ∧ s.onlyLane s' l) ∧
    (s.hears l f → isCtl f 13 = true → changeRuns x = false → x.swap.powerRole = true → x.con.eprMode = false → x.con.armState = 0 →
      x.cc.discRepeat = false → leads (.softReset l f) s fun s' => (s'.lane l).pd.queue.length = 2 ∧
      ((s'.lane l).pd.queue.map (fun m => m.data)).head? = some (stageWords (ctl 3)).toList ∧ (s'.lane l).pd.rxId.get 0 = none ∧
      (s'.lane l).pd.txId.get 0 = 0 ∧ s.onlyLanePosts s' l) ∧
    (s.hears l f → isCtl f 13 = true → changeRuns x = true → x.pd.hrCount.toNat < 2 →
      leads (.softReset l f) s fun s' => (s'.lane l).pd.hrPhase = .signalling ∧ (s'.lane l).pd.queue = [] ∧ s.onlyLanePosts s' l) ∧
    (s.hears l f → isCtl f 7 = true → x.swap.powerRole = true → x.con.eprMode = false → x.cc.discRepeat = false →
      leads (.getSourceCap l f) s fun s' => (s'.lane l).says [dataMsg 1 (buildList s l false (twinCap x x.sect.want))] ∧
      (s'.lane l).con.capsCeil = x.budget.ceil ∧ s.onlyLanePosts s' l) ∧
    (s.hears l f → isData f 1 = true → x.swap.powerRole = false → x.swap.holdOn = false → x.con.eprMode = false → bitOf (obj f 0) 23 = false →
      f.objs = [obj f 0] → readPdo (obj f 0) = .fixed v i → v ≤ fld x.cfg.vconvMax 13 0 →
      leads (.sourceCapabilities l f) s fun s' => (s'.lane l).says [dataMsg 2 [packFields [(1, 28), (Min.min (revIlim x.cfg) i, 10), (Min.min (revIlim x.cfg) i, 0)]]] ∧
      (s'.lane l).con.rxCaps = some f ∧
      (s'.lane l).con.change.any (·.asSink) = true ∧ s.onlyLanePosts s' l) ∧
    (s.hears l f → isExtCtl f 3 = true → (exChunked (extHeader f) = true) ∧ exChunk (extHeader f) = 0 ∧ exSize (extHeader f) = 2 →
      leads (.eprKeepalive l f) s fun s' => (s'.lane l).pd.queue.map (fun m => m.ext) = [true] ∧ (x.con.kaKind = 2 →
      (s'.lane l).con.kaStart = s.dev.dtime) ∧ s.onlyLanePosts s' l) ∧
    (x.con.kaKind ≠ 0 → x.swap.powerRole = true → x.swap.holdOn = false → x.cc.attached = true → x.pd.hrPhase = .idle → x.pd.hrCount.toNat < 2 →
      leads (.keepaliveMissed l) s fun s' => (s'.lane l).pd.hrPhase = .signalling ∧ s.onlyLanePosts s' l) ∧
    (x.con.kaKind = 0 ∨ x.swap.powerRole = false → exec (.keepaliveMissed l) s = .next s) ∧
    (x.swap.powerRole = false → x.con.valid = true → x.swap.holdOn = false → x.con.kaKind = 2 →
      leads (.sinkKeepalive l) s fun s' => (s'.lane l).pd.hwq = x.pd.hwq ++ [{ kind := .keepalive false, frame := extCtl 3 }] ∧ s.onlyLane s' l) ∧
    (s.hears l f → isData f 10 = true → fld (obj f 0) 31 24 = 1 → x.swap.powerRole = true → x.con.valid = false →
      leads (.eprMode l f) s fun s' => (s'.lane l).says [eprModeMsg 4 3] ∧ (s'.lane l).con.eprMode = x.con.eprMode ∧ s.onlyLanePosts s' l) ∧
    (s.hears l f → isData f 10 = true → fld (obj f 0) 31 24 = 5 → x.swap.powerRole = true → x.cc.discRepeat = false →
      leads (.eprMode l f) s fun s' => (s'.lane l).con.eprMode = false ∧ (s'.lane l).con.eprEntry = 0 ∧ (s'.lane l).pd.queue.length = 1 ∧
      s.onlyLanePosts s' l)

/-- The Urkai mode (R89–R93, R97, R105, R423): the sequence starts once on a source and DFP with a contract, another lane's partner is authenticated at once where AUTH_MODE asks for it, and the sequence ends at a command not answered in time, as a Time Mark exchange and an arm's sequence do (R111); an ACK to Enter Mode enters the mode, one to TWIN_SET sets TWIN_ON, one to Exit Mode ends it and lapses the arm and lock; the partner's own Discover Identity and SVIDs are ACKed and its other structured VDMs NAKed; Security_Request draws Not_Supported; Time Mark numbers its exchanges and TM_LOCK follows the answer. Message layouts are the model's (PRESUMED, log 20). The model's choices: logs 13, 20, 86, 87, 116. -/
def Obligations.UrkaiMode : Prop :=
  ∀ (l : LaneId) (f : Frame) (s : State),
    let x := s.lane l
    (s.hears l f → isSvdm f = true → vdmType f = 0 → vdmCmd f = 1 → vdmSvid f = 0xFF00 →
      leads (.discoverIdentity l f) s fun s' => (s'.lane l).says [vdmAnswer f 1 (identityVdos s)] ∧ s.onlyLanePosts s' l) ∧
    (s.hears l f → isSvdm f = true → vdmType f = 0 → vdmCmd f = 2 → vdmSvid f = 0xFF00 →
      leads (.discoverIdentity l f) s fun s' => (s'.lane l).says [vdmAnswer f 1 [0]] ∧ s.onlyLanePosts s' l) ∧
    (s.hears l f → isSvdm f = true → vdmType f = 0 → vdmCmd f ≠ 1 → vdmCmd f ≠ 2 →
      leads (.discoverIdentity l f) s fun s' => (s'.lane l).says [vdmAnswer f 2 []] ∧ s.onlyLanePosts s' l) ∧
    (x.con.valid = true → x.swap.powerRole = true → x.swap.dataRole = true → x.con.seqRun = false → serves s l = true → x.cc.attached = true →
      x.pd.queue = [] → x.pd.hrPhase = .idle → leads (.urkaiDiscovery l) s fun s' => (s'.lane l).says [vdmReq 0xFF00 1 0 []] ∧
      (s'.lane l).con.seq = .identity ∧ (s'.lane l).con.seqRun = true ∧ (s'.lane l).con.seqWait = true ∧ (s'.lane l).swap.amsHold = true ∧
      s.onlyLane s' l) ∧
    (x.con.valid = false ∨ (x.swap.powerRole = true ∧ x.swap.dataRole = true ∧ x.con.seqRun = true) ∨ ((x.swap.powerRole = false ∨
      x.swap.dataRole = false) ∧ s.sec.authMode = 0) → exec (.urkaiDiscovery l) s = .next s) ∧
    (x.con.valid = true → x.swap.powerRole = false ∨ x.swap.dataRole = false → s.sec.authMode = 1 ∨ s.sec.authMode = 2 → x.con.authState = 0 →
      x.con.seqWait = false → rootPresent s 138 = true → serves s l = true → x.cc.attached = true → x.pd.queue = [] → x.pd.hrPhase = .idle →
      leads (.urkaiDiscovery l) s fun s' => (s'.lane l).con.seq = .digests ∧ (s'.lane l).con.seqWait = true ∧ (s'.lane l).con.authState = 1 ∧
      (s'.lane l).pd.queue.length = 1 ∧ s.onlyLane s' l) ∧
    (x.con.seqWait = true → serves s l = true → x.con.seq = .identity ∨ x.con.seq = .enterMode ∨ (x.con.seq = .twinSet ∧ isPack x = false) →
      x.pd.queue.any (·.ams) = false → x.pd.hwq.any (·.ams) = false → s.sec.authMode = 0 → x.con.recRetry = false →
      leads (.urkaiResponseTimeout l) s fun s' => (s'.lane l).con.seq = .done ∧ (s'.lane l).con.seqWait = false ∧ (s'.lane l).swap.amsHold = false ∧
      (s'.lane l).pd.queue = x.pd.queue ∧ s.onlyLanePosts s' l) ∧
    (x.con.seqWait = true → serves s l = true → x.con.seq = .twinSet → isPack x = true → x.pd.queue = [] → x.pd.hrPhase = .idle →
      leads (.urkaiResponseTimeout l) s fun s' => (s'.lane l).says [ctl 8] ∧ (s'.lane l).con.seq = .sinkCap ∧ (s'.lane l).con.seqWait = true ∧
      s.onlyLanePosts s' l) ∧
    (x.con.seqWait = false → x.con.armCmd.isSome = true → serves s l = true → x.pd.queue.any (·.ams) = false → x.pd.hwq.any (·.ams) = false →
      leads (.urkaiResponseTimeout l) s fun s' => (s'.lane l).swap.amsHold = false ∧ s.onlyLane s' l) ∧
    (x.con.seqWait = false → x.con.tmPhase ≠ .idle → leads (.urkaiResponseTimeout l) s fun s' => (s'.lane l).con.tmPhase = .idle ∧
      (s'.lane l).con.tmFails = x.con.tmFails + 1 ∧ (s'.lane l).con.tmLock = (x.con.tmLock && decide (x.con.tmFails + 1 < 2)) ∧ s.onlyLane s' l) ∧
    (s.hears l f → isSvdm f = true → pdSvid s ≠ 0 → vdmSvid f = pdSvid s → vdmType f = 1 → vdmCmd f = 4 → x.con.seq = .enterMode →
      x.con.seqWait = true → leads (.enterModeAck l f) s fun s' => (s'.lane l).con.urkai = true ∧
      (s'.lane l).con.rowLink = rowLinkOffered x (x.con.modeVdo.getD 0) ∧ s.onlyLanePosts s' l) ∧
    (s.hears l f → pdSvid s = 0 → leads (.enterModeAck l f) s fun s' => (s'.lane l).con.urkai = x.con.urkai ∧ s.onlyLanePosts s' l) ∧
    (s.hears l f → isSvdm f = true → pdSvid s ≠ 0 → vdmSvid f = pdSvid s → vdmType f = 1 → vdmCmd f = 5 →
      leads (.exitModeAck l f) s fun s' => (s'.lane l).con.urkai = false ∧ (s'.lane l).con.twinOn = false ∧ (s'.lane l).con.tmLock = false ∧
      (s'.lane l).con.rowLink = false ∧ (s'.lane l).con.modeVdo = none ∧ (s'.lane l).con.armState ≠ 1 ∧ (s'.lane l).con.armState ≠ 2 ∧
      (s'.lane l).swap.frsArm = false ∧ (s'.lane l).swap.holdAgreed = false ∧ s.onlyLanePosts s' l) ∧
    (s.hears l f → isSvdm f = true → pdSvid s ≠ 0 → vdmSvid f = pdSvid s → vdmType f = 1 → vdmCmd f = 18 → x.con.urkai = true → x.con.seq = .twinSet →
      x.con.seqWait = true → leads (.twinSetAck l f) s fun s' => (s'.lane l).con.twinOn = true ∧ bitOf (s'.lane l).cfg.convFf 16 = true ∧
      s.onlyLanePosts s' l) ∧
    (x.con.urkai = true → bitOf (x.con.modeVdo.getD 0) 2 = true → x.swap.powerRole = true → fld x.cfg.umodeCtrl 11 8 ≠ 0 → x.pd.queue = [] →
      x.pd.fifo = [] → x.pd.reasm = none → x.pd.hrPhase = .idle → x.con.tmPhase = .idle → x.pd.hwq = [] → s.dev.state = .run →
      leads (.timeMark l) s fun s' => (s'.lane l).con.tmSeq = x.con.tmSeq + 1 ∧
      (s'.lane l).pd.hwq = x.pd.hwq ++ [{ kind := .tmMark, frame := vdmReq (pdSvid s) 16 1 [(x.con.tmSeq + 1).zeroExtend 32], ams := true }] ∧
      (s'.lane l).swap.amsHold = true ∧ s.onlyLane s' l) ∧
    (x.con.urkai = false ∨ fld x.cfg.umodeCtrl 11 8 = 0 ∨ x.con.tmPhase ≠ .idle → exec (.timeMark l) s = .next s) ∧
    (s.hears l f → isSvdm f = true → pdSvid s ≠ 0 → vdmSvid f = pdSvid s → vdmType f = 1 → vdmCmd f = 17 → x.con.tmPhase = .followSent →
      leads (.tmFollowAck l f) s fun s' => (s'.lane l).con.tmLock = (bitOf (obj f 1) 0 && decide (fld (obj f 1) 15 8 ≤ 20)) ∧
      (s'.lane l).con.tmPhase = .idle ∧ (s'.lane l).con.tmFails = 0 ∧ (s'.lane l).pd.fifo = [] ∧ s.onlyLanePosts s' l) ∧
    (s.hears l f → isExtended f.header = true → msgType f.header = 8 → exChunked (extHeader f) = true → exChunk (extHeader f) = 0 →
      exSize (extHeader f) ≤ 26 → exRequest (extHeader f) = false → leads (.securityRequest l f) s fun s' => (s'.lane l).says [ctl 16] ∧
      s.onlyLanePosts s' l)

/-- The Twin Contract's switch (R98–R104): ARM takes ARM_ID, TARGET and T; where a condition of R99 fails it is voided with cause 3, otherwise ARM_STATE becomes 1 and TWIN_ARM goes out; an ACK of its ARM_ID at least 100 µs before T arms it, a TWIN_DISARM that is ACKed in time cancels it, and T − 100 µs voids an arm not yet ACKed; the RUN limits rise before T, the switch takes the other contract's current and counts, and the STANDBY limits fall after it. The model's choices: logs 13, 20, 71. -/
def Obligations.TwinSwitch : Prop :=
  ∀ (a : Agent) (l : LaneId) (v : Word) (f : Frame) (s : State),
    let x := s.lane l
    (hostServed s a = true → s.fusedOff l = false → bitOf v 16 = true → bitOf v 17 = false → x.con.armState ≠ 1 → x.con.armState ≠ 2 →
      armRefused s l (bitOf v 23) = false → leads (.arm a l v) s fun s' => (s'.lane l).con.armState = 1 ∧
      (s'.lane l).con.armId = BitVec.ofNat 4 (fld v 27 24) ∧ (s'.lane l).con.target = bitOf v 23 ∧
      (s'.lane l).con.armedId = BitVec.ofNat 4 (fld v 27 24) ∧ (s'.lane l).con.armedTarget = bitOf v 23 ∧ (s'.lane l).con.armT = armTime x.cfg ∧
      s.onlyLanePosts s' l) ∧
    (hostServed s a = true → s.fusedOff l = false → bitOf v 16 = true → bitOf v 17 = false → x.con.armState ≠ 1 → x.con.armState ≠ 2 →
      x.con.twinOn = false ∨ x.con.tmLock = false ∨ armTime x.cfg < s.dev.dtime + 5000000 ∨ x.pd.hrBusy = true →
      leads (.arm a l v) s fun s' => (s'.lane l).con.armState = 4 ∧ (s'.lane l).con.voidCause = 3 ∧ (s'.lane l).con.twinOn = x.con.twinOn ∧
      (s'.lane l).con.curr = x.con.curr ∧ s.onlyLaneLogs s' l) ∧
    (hostServed s a = true → s.fusedOff l = false → bitOf v 16 = true → bitOf v 17 = false → x.con.armState = 1 ∨ x.con.armState = 2 →
      leads (.arm a l v) s fun s' => s' = s.modCon l fun c => { c with armId := BitVec.ofNat 4 (fld v 27 24), target := bitOf v 23 }) ∧
    (hostServed s a = true → s.fusedOff l = false → bitOf v 17 = true → bitOf v 16 = false → x.con.armState = 1 ∨ x.con.armState = 2 →
      serves s l = true → x.pd.queue = [] → x.pd.hrPhase = .idle → leads (.disarm a l v) s fun s' => (s'.lane l).con.armState = x.con.armState ∧
      (s'.lane l).con.armCmd = some 20 ∧ (s'.lane l).pd.queue.length = 1 ∧ s.onlyLanePosts s' l) ∧
    (hostServed s a = true → s.fusedOff l = false → bitOf v 17 = true → bitOf v 16 = false → x.con.armState = 0 ∨ x.con.armState = 3 →
      leads (.disarm a l v) s fun s' => s' = s.modCon l fun c => { c with armId := BitVec.ofNat 4 (fld v 27 24), target := bitOf v 23 }) ∧
    (s.hears l f → isSvdm f = true → pdSvid s ≠ 0 → vdmSvid f = pdSvid s → vdmType f = 1 → vdmCmd f = 19 → x.con.armState = 1 →
      fld (obj f 1) 3 0 = x.con.armedId.toNat → s.dev.dtime + 100000 ≤ x.con.armT → leads (.twinArmAck l f) s fun s' => (s'.lane l).con.armState = 2 ∧
      (s'.lane l).con.armCmd = none ∧ s.onlyLanePosts s' l) ∧
    (s.hears l f → isSvdm f = true → pdSvid s ≠ 0 → vdmSvid f = pdSvid s → vdmType f = 1 → vdmCmd f = 19 → x.con.armState = 1 →
      fld (obj f 1) 3 0 ≠ x.con.armedId.toNat → leads (.twinArmAck l f) s fun s' => (s'.lane l).con.armState = 1 ∧ s.onlyLanePosts s' l) ∧
    (s.hears l f → isSvdm f = true → pdSvid s ≠ 0 → vdmSvid f = pdSvid s → vdmType f = 1 → vdmCmd f = 20 → x.con.armState = 1 ∨ x.con.armState = 2 →
      fld (obj f 1) 3 0 = x.con.armedId.toNat → s.dev.dtime + 100000 ≤ x.con.armT →
      leads (.twinDisarmAck l f) s fun s' => (s'.lane l).con.armState = 5 ∧ (s'.lane l).con.armCmd = none ∧ s.onlyLanePosts s' l) ∧
    (x.con.armState = 1 → leads (.armDeadline l) s fun s' => (s'.lane l).con.armState = 4 ∧ (s'.lane l).con.voidCause = 2 ∧
      (s'.lane l).con.armCmd = none ∧ s.onlyLaneLogs s' l) ∧
    (x.con.armState ≠ 1 → exec (.armDeadline l) s = .next s) ∧
    (x.con.armState = 2 → x.con.armedTarget = true → x.con.runStep = false → x.belay.sw = 2 → x.pd.hrPhase = .idle →
      leads (.runLimit l) s fun s' => fld (s'.lane l).cfg.ilimSet 7 0 = ilimStored (fld x.cfg.ilimSet 23 16) (fld x.cfg.twinRun 23 16) ∧
      fld (s'.lane l).cfg.convIset 9 0 = Min.min (fld x.cfg.twinRun 9 0) 700 ∧ (s'.lane l).con.runStep = true ∧ s.onlyLane s' l) ∧
    (x.con.armState = 2 → x.con.armedTarget = true → x.con.runStep = false → x.belay.sw ≠ 2 → x.con.fellBack = true ∨ serves s l = false →
      leads (.runLimit l) s fun s' => (s'.lane l).con.armState = 4 ∧ (s'.lane l).con.voidCause = 2 ∧ s.onlyLanePosts s' l) ∧
    (x.con.armState = 2 → x.con.armedTarget = true → x.con.runStep = true → leads (.twinSwitch l) s fun s' => (s'.lane l).con.armState = 3 ∧
      (s'.lane l).con.curr = BitVec.ofNat 10 (fld x.cfg.twinRun 9 0) ∧ (s'.lane l).con.switchCnt = x.con.switchCnt + 1 ∧
      (s'.lane l).sect.loads.getLast?.map (·.2) = some true ∧ s.onlyLanePosts s' l) ∧
    (x.con.armState = 2 → x.con.armedTarget = false → x.belay.sw = 2 → x.pd.hrPhase = .idle →
      leads (.twinSwitch l) s fun s' => (s'.lane l).con.armState = 3 ∧ (s'.lane l).con.curr = BitVec.ofNat 10 (fld x.cfg.twinStandby 9 0) ∧
      (s'.lane l).con.switchCnt = x.con.switchCnt + 1 ∧ (s'.lane l).con.standbyWait = true ∧ (s'.lane l).sect.loads.getLast?.map (·.2) = some false ∧
      s.onlyLanePosts s' l) ∧
    (x.con.standbyWait = true →
      leads (.standbyLimit l) s fun s' => fld (s'.lane l).cfg.ilimSet 7 0 = ilimStored (fld x.cfg.ilimSet 23 16) (fld x.cfg.twinStandby 23 16) ∧
      fld (s'.lane l).cfg.convIset 9 0 = Min.min (fld x.cfg.twinStandby 9 0) 700 ∧ (s'.lane l).con.standbyWait = false ∧ s.onlyLane s' l) ∧
    (x.con.standbyWait = false → exec (.standbyLimit l) s = .next s)

/-- Role swaps (R106, R112–R116, R123, R124, R126): PRS_REQ acts only with SWAP_STATE 0, and a request that the partner's sequence has displaced is sent again only after that sequence; a PR_Swap draws Wait during a swap, an arm or a hard reset, Reject from a lane that may not swap, and Accept otherwise; as initial source the lane opens its path, presents Rd below vSafe0V and sends PS_RDY, and the partner's PS_RDY makes it sink without a contract; as initial sink it then opens, presents Rp and asks for the close; a PS_RDY that does not come is error recovery; DR_Swap and VCONN_Swap follow their tables. The model's choices: logs 13, 20, 63. -/
def Obligations.RoleSwaps : Prop :=
  ∀ (a : Agent) (l : LaneId) (f : Frame) (s : State),
    let x := s.lane l
    let w' (s' : State) : SwapLane := (s'.lane l).swap
    (hostServed s a = true → s.fusedOff l = false → x.swap.state ≠ 0 → leads (.prsReq a l) s fun s' => s' = s) ∧
    (hostServed s a = true → s.fusedOff l = false → judgePrSwap x = .accept → serves s l = true → x.cc.attached = true → x.swap.ownPending = false →
      x.swap.prAccept = false → x.swap.prDropped = false ∨ partnerBusy x = false → x.pd.queue = [] →
      leads (.prsReq a l) s fun s' => (s'.lane l).says [ctl 10] ∧ (w' s').amsHold = (x.swap.amsHold || x.swap.powerRole) ∧ s.onlyLane s' l) ∧
    (hostServed s a = true → s.fusedOff l = false → x.swap.state = 0 → x.swap.prDropped = true → partnerBusy x = true →
      exec (.prsReq a l) s = .next s) ∧
    (s.hears l f → isCtl f 10 = true → x.swap.state ≠ 0 ∨ x.con.armState = 1 ∨ x.con.armState = 2 →
      leads (.prSwap l f) s fun s' => (s'.lane l).says [ctl 12] ∧ (w' s').ownPending = false ∧ s.onlyLanePosts s' l) ∧
    (s.hears l f → isCtl f 10 = true → x.swap.state = 0 → x.con.armState = 0 → bitOf x.cfg.swapCtrl 1 = false ∨ x.cfg.mode = 1 ∨ x.cfg.mode = 2 ∨
      x.con.urkai = false → leads (.prSwap l f) s fun s' => (s'.lane l).says [ctl 4] ∧ (w' s').ownPending = false ∧ s.onlyLanePosts s' l) ∧
    (s.hears l f → isCtl f 10 = true → x.swap.state = 0 → x.con.armState = 0 → bitOf x.cfg.swapCtrl 1 = true → x.cfg.mode ≠ 1 → x.cfg.mode ≠ 2 →
      isPack x = true → x.swap.packHold = false → x.swap.powerRole = false ∨ revIlim x.cfg ≠ 0 →
      leads (.prSwap l f) s fun s' => (s'.lane l).says [ctl 3] ∧ (w' s').prAccept = true ∧ (w' s').ownPending = false ∧ s.onlyLanePosts s' l) ∧
    (x.swap.prAccept = true ∨ x.swap.ownPending = true → x.cc.attached = true → x.swap.state = 0 → x.pd.hrPhase = .idle →
      leads (.prSwapAccept l) s fun s' => (w' s').state = (if x.swap.powerRole then 1 else 2) ∧ (w' s').frsArm = false ∧ (x.swap.powerRole = false →
      (s'.lane l).conv.on = false) ∧ s.onlyLane s' l) ∧
    (s.hears l f → isCtl f 4 = true → x.swap.ownPending = true → x.swap.ownVcs = false → x.pd.hwq.any (·.ams) = false →
      leads (.swapRefused l f) s fun s' => (w' s').last = 5 ∧ (w' s').state = 0 ∧ (w' s').evt = true ∧ (w' s').ownPending = false ∧
      (w' s').amsHold = false ∧ s.onlyLanePosts s' l) ∧
    (s.hears l f → isCtl f 12 = true → x.swap.ownPending = true → leads (.swapRefused l f) s fun s' => (w' s').last = 6 ∧ (w' s').state = 0 ∧
      (w' s').evt = true ∧ (w' s').ownPending = false ∧ s.onlyLanePosts s' l) ∧
    (x.swap.state = 1 → x.swap.presentsRp = true → leads (.swapSrcTransition l) s fun s' => (s'.lane l).belay.sw = 0 ∧
      (s'.lane l).belay.dischOut = true ∧ (s'.lane l).conv.on = false ∧ (w' s').presentsRp = true ∧ s.onlyLane s' l) ∧
    (x.swap.state = 1 → x.swap.presentsRp = true → x.belay.sw = 0 → leads (.swapVsafe0v l) s fun s' => (w' s').presentsRp = false ∧
      (s'.lane l).belay.dischOut = false ∧ (s'.lane l).pd.hwq = x.pd.hwq ++ [{ kind := .swapPsRdy, frame := ctl 6 }] ∧ s.onlyLane s' l) ∧
    (s.hears l f → isCtl f 6 = true → x.swap.state = 1 → x.swap.presentsRp = false → leads (.psRdy l f) s fun s' => (w' s').powerRole = false ∧
      (w' s').state = 0 ∧ (w' s').last = 1 ∧ (s'.lane l).con.valid = false ∧ (s'.lane l).con.kind = 3 ∧ s.onlyLanePosts s' l) ∧
    (s.hears l f → isCtl f 6 = true → x.swap.state = 2 → x.swap.presentsRp = false → liveBit s l = true → x.belay.sw = 0 → dieUp s l = true →
      x.belay.latched = false → leads (.psRdy l f) s fun s' => (w' s').presentsRp = true ∧ (w' s').state = 2 ∧ (s'.lane l).belay.want = .asSource ∧
      s.onlyLanePosts s' l) ∧
    (x.swap.state = 1 → x.swap.presentsRp = false → leads (.psSourceOn l) s fun s' => (w' s').last = 8 ∧ (w' s').state = 0 ∧
      (s'.lane l).cc.detachEvt = true ∧ (s'.lane l).belay.sw = 0 ∧ s.onlyLaneLogs s' l) ∧
    (x.swap.state ≠ 1 ∨ x.swap.presentsRp = true → exec (.psSourceOn l) s = .next s) ∧
    (x.swap.state = 2 → x.swap.presentsRp = false → leads (.psSourceOff l) s fun s' => (w' s').last = 8 ∧ (w' s').state = 0 ∧
      (s'.lane l).cc.detachEvt = true ∧ (s'.lane l).belay.sw = 0 ∧ s.onlyLaneLogs s' l) ∧
    (s.hears l f → isCtl f 9 = true → x.swap.state = 0 → x.con.urkai = false → bitOf x.cfg.swapCtrl 3 = true →
      leads (.drSwap l f) s fun s' => (s'.lane l).says [ctl 3] ∧ (w' s').state = 6 ∧ (w' s').dataRole = x.swap.dataRole ∧ s.onlyLanePosts s' l) ∧
    (s.hears l f → isCtl f 9 = true → x.swap.state = 0 → x.con.urkai = true ∨ bitOf x.cfg.swapCtrl 3 = false →
      leads (.drSwap l f) s fun s' => (s'.lane l).says [ctl 4] ∧ (w' s').state = 0 ∧ s.onlyLanePosts s' l) ∧
    (s.hears l f → isCtl f 11 = true → x.swap.state = 0 → bitOf x.cfg.swapCtrl 2 = false →
      leads (.vconnSwap l f) s fun s' => (s'.lane l).says [ctl 4] ∧ (w' s').swapAccept = x.swap.swapAccept ∧ s.onlyLanePosts s' l) ∧
    (s.hears l f → isCtl f 11 = true → x.swap.state = 0 → bitOf x.cfg.swapCtrl 2 = true → x.swap.vconnRole = true →
      leads (.vconnSwap l f) s fun s' => (s'.lane l).says [ctl 3] ∧ (w' s').swapAccept = true ∧ (w' s').vconnRole = true ∧ s.onlyLanePosts s' l) ∧
    (x.swap.state = 5 → x.swap.vcsTake = true → x.cc.vconnOn = true → x.swap.vcsTried = false →
      leads (.vconnStable l) s fun s' => (w' s').vconnRole = true ∧ (w' s').state = 0 ∧ (w' s').last = 4 ∧
      (s'.lane l).pd.hwq = x.pd.hwq ++ [{ kind := .answer, frame := ctl 6 }] ∧ s.onlyLanePosts s' l) ∧
    (x.swap.state = 5 → x.swap.vcsTake = false → x.swap.psSent = false → x.cc.attached = true → x.pd.hrPhase = .idle → x.pd.hrCount.toNat < 2 →
      leads (.vconnSourceTimeout l) s fun s' => (s'.lane l).pd.hrPhase = .signalling ∧ (s'.lane l).cc.vconnOn = x.cc.vconnOn ∧ s.onlyLane s' l) ∧
    (x.swap.state = 5 → x.swap.vcsTake = false → x.swap.psSent = true → leads (.vconnSourceOff l) s fun s' => (s'.lane l).cc.vconnOn = false ∧
      (w' s').vconnRole = false ∧ (w' s').state = 0 ∧ (w' s').last = 4 ∧ s.onlyLanePosts s' l) ∧
    (leads (.packHoldEnd l) s fun s' => (w' s').packHold = false ∧ s.onlyLane s' l)

/-- Fast role swap and the hold, each command with where it completes. frsArm (R110, R118, R297): a write of a core that may write the lane's bits (its present policy core, S0 or S1) sets frs_arm on a source with a contract, FRS_EN, the hold agreed, no swap, no PACK_HOLD and no hard reset, and changes nothing otherwise; another core's write changes nothing. sinkCapabilities (R118, R135): frs_cap follows bits 24–23 of the first object. holdSetAck (R118): in the Urkai mode the hold is agreed, whichever image sent the command, and the read of the record follows where it is owed. frsTrig (R119, R205): with a threshold other than 0 and the trigger low it sets frs and FRS_EVT; each armed lane in no swap takes SWAP_STATE 3, HOLD_ON and the FRS signal with its stage stopped, and a lane that is not armed is unchanged; otherwise it changes nothing. frsTrigClear clears frs and keeps FRS_EVT. frsSwapTx ends the signal. frsHoldCheck (R119): VBUS at 90 % of VC in SWAP_STATE 3 with the stage off starts it in reverse at the hold current, on a die that is up; below 90 %, or in another state, it changes nothing. frSwap (R119, R128): Accept and SWAP_STATE 4 in SWAP_STATE 3, and Hard Reset in any other where HR_COUNT is below 2. frsTimeout (R119): Hard Reset of an attached lane in SWAP_STATE 3 or 4. holdEnd (R122): PR_Swap is queued for a sink in a hold whose swap is allowed, and nothing is changed outside a hold, as source, in a swap or while frs is set. The model's choices: logs 13, 20, 108. -/
def Obligations.FastRoleSwap : Prop :=
  ∀ (c : CoreId) (l : LaneId) (f : Frame) (mv : Nat) (s : State),
    let x := s.lane l
    let w' (s' : State) : SwapLane := (s'.lane l).swap
    (laneBitOwner s c l = true → s.fusedOff l = false → x.swap.powerRole = true → x.con.valid = true → bitOf x.cfg.swapCtrl 0 = true →
      x.swap.holdAgreed = true → x.swap.state = 0 → x.swap.packHold = false → x.pd.hrPhase = .idle →
      leads (.frsArm c l) s fun s' => (w' s').frsArm = true ∧ s.onlyLane s' l) ∧
    (x.swap.powerRole = false ∨ x.con.valid = false ∨ bitOf x.cfg.swapCtrl 0 = false ∨ x.swap.holdAgreed = false ∨ x.swap.state ≠ 0 ∨
      x.swap.packHold = true ∨ x.pd.hrBusy = true → exec (.frsArm c l) s = .next s) ∧
    (c.val < 4 → serverOf s (groupOf l) ≠ c → exec (.frsArm c l) s = .next s) ∧
    (s.hears l f → isData f 4 = true → x.con.seqWait = false →
      leads (.sinkCapabilities l f) s fun s' => (w' s').frsCap = decide (fld (obj f 0) 24 23 ≠ 0) ∧ s.onlyLanePosts s' l) ∧
    (s.hears l f → x.con.urkai = true → isSvdm f = true → pdSvid s ≠ 0 → vdmSvid f = pdSvid s → vdmType f = 1 → vdmCmd f = 21 → x.con.seqWait = true →
      x.con.seq = .holdSet → leads (.holdSetAck l f) s fun s' => (w' s').holdAgreed = true ∧ (x.con.packRead = false →
      (s'.lane l).con.seq = .recRead) ∧ s.onlyLanePosts s' l) ∧
    (x.cc.attached = true → x.pd.bist = .off → x.pd.hrPhase = .idle → x.pd.flight = none → x.pd.queue = [] → x.pd.fifo = [] → x.pd.reasm = none →
      f.sop = .sop → x.pd.rxId.get 0 ≠ some (msgId f.header) → x.con.urkai = true → isSvdm f = true → pdSvid s ≠ 0 → vdmSvid f = pdSvid s →
      vdmType f = 1 → vdmCmd f = 21 → serves s l = false → leads (.holdSetAck l f) s fun s' => (w' s').holdAgreed = true ∧
      (s'.lane l).con.seq = x.con.seq ∧ s.onlyLanePosts s' l) ∧
    (s.bus.frs = false → fld s.bus.vsnsTh 11 0 ≠ 0 → leads .frsTrig s fun s' => s'.bus.frs = true ∧ s'.bus.frsEvt = true ∧
      ∀ m, ((s.lane m).swap.frsArm = true → (s.lane m).belay.tripOpen = false → (s.lane m).belay.deferred = false → (s.lane m).swap.state = 0 →
      (s.lane m).swap.packHold = false → (s.lane m).pd.hrPhase = .idle → (s'.lane m).swap.state = 3 ∧ (s'.lane m).swap.holdOn = true ∧
      (s'.lane m).swap.frsSignal = true ∧ (s'.lane m).conv.on = false) ∧
      ((s.lane m).swap.frsArm = false ∨ (s.lane m).belay.tripOpen = true → s'.lane m = s.lane m)) ∧
    (s.bus.frs = true ∨ fld s.bus.vsnsTh 11 0 = 0 → exec .frsTrig s = .next s) ∧
    (leads .frsTrigClear s fun s' => s'.bus.frs = false ∧ s'.bus.frsEvt = s.bus.frsEvt ∧ s'.lanes = s.lanes) ∧
    (x.swap.frsSignal = true → leads (.frsSwapTx l) s fun s' => (w' s').frsSignal = false ∧ s.onlyLane s' l) ∧
    (x.swap.state = 3 → x.conv.on = false → 45 * x.con.vc ≤ 10 * mv → revIlim x.cfg ≠ 0 → dieUp s l = true →
      leads (.frsHoldCheck l mv) s fun s' => (s'.lane l).conv.revStart = true ∧ (s'.lane l).conv.on = true ∧
      fld (s'.lane l).cfg.convIset 25 16 = Min.min (revIlim x.cfg) 700 ∧ (s'.lane l).con.curr = BitVec.ofNat 10 (revIlim x.cfg) ∧
      (s'.group (groupOf l)).leRun = true ∧ s.onlyLanePosts s' l) ∧
    (10 * mv < 45 * x.con.vc ∨ x.swap.state ≠ 3 → exec (.frsHoldCheck l mv) s = .next s) ∧
    (s.hears l f → isCtl f 19 = true → x.swap.state = 3 → leads (.frSwap l f) s fun s' => (w' s').state = 4 ∧ (w' s').psSent = false ∧
      (s'.lane l).pd.hwq = x.pd.hwq ++ [{ kind := .swapAccept, frame := ctl 3 }] ∧ s.onlyLanePosts s' l) ∧
    (s.hears l f → isCtl f 19 = true → x.swap.state ≠ 3 → x.pd.hrCount.toNat < 2 →
      leads (.frSwap l f) s fun s' => (s'.lane l).pd.hrPhase = .signalling ∧ s.onlyLanePosts s' l) ∧
    (x.swap.state = 3 ∨ x.swap.state = 4 → x.cc.attached = true → x.pd.hrPhase = .idle → x.pd.hrCount.toNat < 2 →
      leads (.frsTimeout l) s fun s' => (s'.lane l).pd.hrPhase = .signalling ∧ s.onlyLane s' l) ∧
    (x.swap.holdOn = true → x.swap.powerRole = false → judgePrSwap x = .accept → serves s l = true → x.cc.attached = true → s.bus.frs = false →
      x.swap.ownPending = false → x.swap.prAccept = false → x.swap.prDropped = false ∨ partnerBusy x = false → x.pd.queue = [] →
      leads (.holdEnd l) s fun s' => (s'.lane l).says [ctl 10] ∧ s.onlyLane s' l) ∧
    (x.swap.holdOn = false ∨ x.swap.powerRole = true ∨ x.swap.state ≠ 0 ∨ s.bus.frs = true → exec (.holdEnd l) s = .next s)

/-- The charge tally, each command with where it completes. fullAnchor (R131): with CV met, not yet done and TALLY_FULL_T not 0. emptyAnchor (R131): an attached sink with TALLY_EMPTY_V not 0 and the anchor not yet done; with 0 it changes nothing. emptyMark: always. batteryStatus (R131): a battery that is present and empty (bits 31–16 are 0 and bit 9 is 1); of any other the message is consumed and the tally stays. Each anchor clears the tally and the throughput, names itself in LAST_ANCHOR (1 full, 3 empty, 2 marked), sets ANCHOR_EVT, restarts the age and learns the capacity as R133 says. A full or empty anchor whose condition fails changes nothing. clr (R130) clears tally, throughput, LAST_ANCHOR and SAT and keeps the capacity. recCommitAck (R135, R136): the answer to REC_COMMIT ends the write. The model's choices: logs 13, 20, 89, 108. -/
def Obligations.TallyAnchors : Prop :=
  ∀ (a : Agent) (l : LaneId) (f : Frame) (s : State),
    let x := s.lane l
    (x.tally.cv = true → x.tally.cvDone = false → x.cfg.tallyFullT ≠ 0 → leads (.fullAnchor l) s fun s' => (s'.lane l).tally.q = 0 ∧
      (s'.lane l).tally.thru = 0 ∧ (s'.lane l).tally.lastAnchor = 1 ∧ (s'.lane l).tally.anchorEvt = true ∧ (s'.lane l).tally.ageStart = s.dev.dtime ∧
      (s'.lane l).tally.cap = (match learned x.tally 1 with | some n => BitVec.ofNat 32 n | none => x.tally.cap) ∧ (s'.lane l).tally.cvDone = true ∧
        s.onlyLaneLogs s' l) ∧
    (x.tally.cv = false ∨ x.tally.cvDone = true ∨ x.cfg.tallyFullT = 0 → exec (.fullAnchor l) s = .next s) ∧
    (x.swap.powerRole = false → x.cc.attached = true → x.cfg.tallyEmptyV ≠ 0 → x.tally.emptyDone = false →
      leads (.emptyAnchor l) s fun s' => (s'.lane l).tally.q = 0 ∧ (s'.lane l).tally.thru = 0 ∧ (s'.lane l).tally.lastAnchor = 3 ∧
      (s'.lane l).tally.anchorEvt = true ∧ (s'.lane l).tally.ageStart = s.dev.dtime ∧
      (s'.lane l).tally.cap = (match learned x.tally 3 with | some n => BitVec.ofNat 32 n | none => x.tally.cap) ∧
        (s'.lane l).tally.emptyDone = true ∧ s.onlyLaneLogs s' l) ∧
    (x.swap.powerRole = true ∨ x.cc.attached = false ∨ x.tally.emptyDone = true → exec (.emptyAnchor l) s = .next s) ∧
    (x.cfg.tallyEmptyV = 0 → exec (.emptyAnchor l) s = .next s) ∧
    (hostServed s a = true → s.fusedOff l = false → leads (.emptyMark a l) s fun s' => (s'.lane l).tally.q = 0 ∧ (s'.lane l).tally.thru = 0 ∧
      (s'.lane l).tally.lastAnchor = 2 ∧ (s'.lane l).tally.anchorEvt = true ∧ (s'.lane l).tally.ageStart = s.dev.dtime ∧
      (s'.lane l).tally.cap = (match learned x.tally 2 with | some n => BitVec.ofNat 32 n | none => x.tally.cap) ∧ s.onlyLaneLogs s' l) ∧
    (hostServed s a = true → s.fusedOff l = false → leads (.clr a l) s fun s' => (s'.lane l).tally.q = 0 ∧ (s'.lane l).tally.thru = 0 ∧
      (s'.lane l).tally.lastAnchor = 0 ∧ (s'.lane l).tally.sat = false ∧ (s'.lane l).tally.cap = x.tally.cap ∧
      (s'.lane l).tally.anchorEvt = x.tally.anchorEvt ∧ s.onlyLane s' l) ∧
    (s.hears l f → isData f 5 = true → fld (obj f 0) 31 16 = 0 → bitOf (obj f 0) 9 = true →
      leads (.batteryStatus l f) s fun s' => (s'.lane l).tally.q = 0 ∧ (s'.lane l).tally.thru = 0 ∧ (s'.lane l).tally.lastAnchor = 2 ∧
      (s'.lane l).tally.anchorEvt = true ∧ (s'.lane l).tally.ageStart = s.dev.dtime ∧
      (s'.lane l).tally.cap = (match learned x.tally 2 with | some n => BitVec.ofNat 32 n | none => x.tally.cap) ∧ s.onlyLaneLogs s' l) ∧
    (s.hears l f → isData f 5 = true → fld (obj f 0) 31 16 ≠ 0 ∨ bitOf (obj f 0) 9 = false →
      leads (.batteryStatus l f) s fun s' => (s'.lane l).tally = x.tally ∧ (s'.lane l).pd.fifo = [] ∧ s.onlyLanePosts s' l) ∧
    (s.hears l f → isSvdm f = true → pdSvid s ≠ 0 → vdmSvid f = pdSvid s → vdmType f ≠ 0 → vdmCmd f = 24 → x.con.seqWait = true →
      x.con.seq = .recCommit → s.sec.authMode = 0 → x.con.recRetry = false → leads (.recCommitAck l f) s fun s' => (s'.lane l).con.seq = .done ∧
      (s'.lane l).con.seqWait = false ∧ s.onlyLaneLogs s' l)

/-- Closing a path, each command with where it completes. preCloseTest (R140, R159, R160, R465): a passed test of a wanted close enables the comparators; a failed one trips with CAUSE 10, marks FAIL_A and FAIL_B and keeps the close for a retry where it joined a hard reset and did not latch; with no test running nothing changes. comparatorAccept (R139, R153, R158, R160): at accepted levels within R139 the gate ramp begins, as sink and as source; a source close with VBIN above 5.5 V runs the VBIN discharge and one with VBOUT above 0.8 V sets BACKFEED, with the path open; in a self-test it goes on from OCP A to OCP B, and ends the test of B, and where OCP A has failed it ends with B left in the trip path (R166); otherwise nothing changes. closeComplete (R140, R184, R189): SW becomes 2, and on a die that is up the stage starts softly as source with ILIM_FWD at the Rp current, or in reverse on a lane attached as sink; without a ramp nothing changes. backfeed (R139): VBOUT above 0.8 V keeps BACKFEED and counts the try, after ten tries it is error recovery, and at or below it the gate ramp begins; without a source close that waits nothing changes. preCloseRetry (R465): the close that a hard reset joined is asked for again; otherwise nothing changes. The model's choices: logs 13, 64, 108. -/
def Obligations.BelayCloses : Prop :=
  ∀ (l : LaneId) (r : TestResult) (mv mi : Nat) (s : State),
    let x := s.lane l
    let b' (s' : State) : BelayLane := (s'.lane l).belay
    (x.belay.stest = 3 → x.belay.want ≠ .none → (r.aRef && r.aPol) = true → (r.bRef && r.bPol) = true → r.othersPass = true →
      leads (.preCloseTest l r) s fun s' => (b' s').testPassed = true ∧ (b' s').settling = true ∧ (b' s').stest = 0 ∧ (b' s').failA = false ∧
      (b' s').failB = false ∧ (b' s').want = x.belay.want ∧ s.onlyLanePosts s' l) ∧
    (x.belay.stest = 3 → x.belay.want ≠ .none → (r.aRef && r.aPol) = false ∨ (r.bRef && r.bPol) = false ∨ r.othersPass = false →
      x.belay.tripOpen = false → leads (.preCloseTest l r) s fun s' => (s'.lane l).belay.sw = 0 ∧ (s'.lane l).conv.on = false ∧
      (s'.lane l).belay.tripEvt = true ∧ (s'.lane l).belay.dischIn = true ∧ (s'.lane l).con.armState ≠ 1 ∧ (s'.lane l).con.armState ≠ 2 ∧
      (b' s').cause = 10 ∧ (b' s').failA = !(r.aRef && r.aPol) ∧ (b' s').failB = !(r.bRef && r.bPol) ∧
      (b' s').closeRetry = (x.pd.hrBusy && !(b' s').latched) ∧ s.onlyLaneLogs s' l) ∧
    (x.belay.stest ≠ 3 ∨ x.belay.want = .none → exec (.preCloseTest l r) s = .next s) ∧
    (x.belay.want = .asSink → 4000 ≤ mv → windowLo x ≤ 100 * mv → 100 * mv ≤ windowHi x → x.belay.testPassed = true → x.belay.sw = 0 →
      closeAllowed s l = true → x.belay.failA = false → x.belay.failB = false → (s.group (groupOf l)).thermShut = false →
      leads (.comparatorAccept ⟨l, mv, mi⟩) s fun s' => (b' s').settling = false ∧ (b' s').sw = 1 ∧ s.onlyLane s' l) ∧
    (x.belay.want = .asSource → x.belay.dischIn = false → mv ≤ 800 → mi ≤ 5500 → x.belay.testPassed = true → x.belay.sw = 0 →
      closeAllowed s l = true → x.belay.failA = false → x.belay.failB = false → (s.group (groupOf l)).thermShut = false →
      leads (.comparatorAccept ⟨l, mv, mi⟩) s fun s' => (b' s').settling = false ∧ (b' s').sw = 1 ∧ s.onlyLane s' l) ∧
    (x.belay.want = .asSource → 800 < mv ∨ 5500 < mi → x.belay.testPassed = true → x.belay.sw = 0 →
      leads (.comparatorAccept ⟨l, mv, mi⟩) s fun s' => (b' s').settling = false ∧ (b' s').sw = 0 ∧
      (b' s').dischIn = (x.belay.dischIn || decide (5500 < mi)) ∧ (b' s').backfeed = (x.belay.backfeed || decide (800 < mv)) ∧ s.onlyLane s' l) ∧
    (x.belay.sw = 2 → x.belay.stest = 1 → x.belay.failA = false → leads (.comparatorAccept ⟨l, mv, mi⟩) s fun s' => (b' s').stest = 2 ∧
      (b' s').settling = true ∧ (b' s').sw = 2 ∧ (b' s').failA = x.belay.failA ∧ (b' s').failB = !passB x x.belay.test ∧ s.onlyLaneLogs s' l) ∧
    (x.belay.sw = 2 → x.belay.stest = 1 → x.belay.failA = true → leads (.comparatorAccept ⟨l, mv, mi⟩) s fun s' => (b' s').stest = 0 ∧
      (b' s').settling = false ∧ (b' s').sw = 2 ∧ (b' s').failA = true ∧ (b' s').failB = x.belay.failB ∧ s.onlyLane s' l) ∧
    (x.belay.sw = 2 → x.belay.stest = 2 → leads (.comparatorAccept ⟨l, mv, mi⟩) s fun s' => (b' s').stest = 0 ∧ (b' s').settling = false ∧
      (b' s').sw = 2 ∧ s.onlyLane s' l) ∧
    (x.belay.sw ≠ 0 ∨ x.belay.testPassed = false → x.belay.sw ≠ 2 ∨ (x.belay.stest ≠ 1 ∧ x.belay.stest ≠ 2) →
      exec (.comparatorAccept ⟨l, mv, mi⟩) s = .next s) ∧
    (x.belay.sw = 1 → x.belay.want = .asSource → dieUp s l = true → leads (.closeComplete l) s fun s' => (b' s').sw = 2 ∧ (s'.lane l).conv.on = true ∧
      (s'.lane l).conv.soft = true ∧ (b' s').want = .none ∧ fld (s'.lane l).cfg.convIset 9 0 = Min.min x.cfg.rpCurrent 700 ∧
      (s'.group (groupOf l)).leRun = true ∧ s.onlyLanePosts s' l) ∧
    (x.belay.sw = 1 → x.belay.want = .asSink → x.cc.st = .attachedSnk → x.conv.revEff ≠ 0 → dieUp s l = true →
      leads (.closeComplete l) s fun s' => (b' s').sw = 2 ∧ (s'.lane l).conv.on = true ∧ (s'.lane l).conv.revStart = true ∧ (b' s').want = .none ∧
      (s'.group (groupOf l)).leRun = true ∧ s.onlyLanePosts s' l) ∧
    (x.belay.sw ≠ 1 → exec (.closeComplete l) s = .next s) ∧
    (x.belay.want = .asSource → x.belay.sw = 0 → x.belay.testPassed = true → x.belay.settling = false → 800 < mv → x.belay.backfeedTries < 9 →
      leads (.backfeed l mv) s fun s' => (b' s').backfeed = true ∧ (b' s').backfeedTries = x.belay.backfeedTries + 1 ∧ (b' s').sw = 0 ∧
      s.onlyLane s' l) ∧
    (x.belay.want = .asSource → x.belay.sw = 0 → x.belay.testPassed = true → x.belay.settling = false → 800 < mv → 9 ≤ x.belay.backfeedTries →
      leads (.backfeed l mv) s fun s' => (s'.lane l).cc.detachEvt = true ∧ ((s'.lane l).cc.st = .unattachedWait ∨ (s'.lane l).cc.st = .disabled) ∧
      s.onlyLaneLogs s' l) ∧
    (x.belay.want = .asSource → x.belay.sw = 0 → x.belay.testPassed = true → x.belay.settling = false → mv ≤ 800 → x.belay.vinHigh = false →
      x.belay.dischIn = false → closeAllowed s l = true → x.belay.failA = false → x.belay.failB = false → (s.group (groupOf l)).thermShut = false →
      leads (.backfeed l mv) s fun s' => (b' s').sw = 1 ∧ s.onlyLane s' l) ∧
    (x.belay.want ≠ .asSource ∨ x.belay.sw ≠ 0 ∨ x.belay.testPassed = false ∨ x.belay.settling = true → exec (.backfeed l mv) s = .next s) ∧
    (x.belay.closeRetry = true → x.pd.hrBusy = true → closeAllowed s l = true → x.belay.sw = 0 →
      leads (.preCloseRetry l) s fun s' => (b' s').closeRetry = false ∧ (b' s').want = (if x.cc.attachSrc then .asSource else .asSink) ∧
      s.onlyLane s' l) ∧
    (x.belay.closeRetry = false ∨ x.belay.latched = true ∨ x.pd.hrBusy = false → exec (.preCloseRetry l) s = .next s)

/-- Trips of the belay and die temperature, each command with where it completes. A trip opens the path, stops the stage, sets TRIP_EVT, discharges VBIN, leaves no arm and has the command's CAUSE. ocp (R142, R145, R156): an OCP comparator in the trip path above ILIM_EFF in the direction of the power flow (CAUSE 2), or the short-circuit comparator above its limit (CAUSE 1). ovp (R148): VBOUT above V_hi (CAUSE 3). uvp (R149): VBOUT below V_lo once it had risen above it, on a source with its path closed and no hold (CAUSE 4); at or above V_lo it marks the rise. reverseCurrent (R119, R151): a current against the flow beyond three quarters of the limit, but for a source in a hold (CAUSE 5). overload (R146): with the path closed (CAUSE 6). Each changes nothing where its levels are within the limits or its condition fails. thermWarn, thermalShutdown, thermalRestart (R152): each takes DIE_TEMP; from 135 °C every lane of the die has THERM_WARN, below 130 °C none has, between them no lane changes; from 150 °C the lanes of the die stand open with VCONN off, those that were active with CAUSE 7, and the die stays shut; below 125 °C it is no longer shut and the closes that were held begin their test; lanes of other dies never change. The model's choices: logs 13, 26. -/
def Obligations.BelayTrips : Prop :=
  ∀ (l : LaneId) (g : GroupId) (qa qb qs : Int) (ma : Int) (mv : Nat) (temp : Byte) (s : State),
    let x := s.lane l
    (x.belay.sw ≠ 0 → (50 * (ilimEff x : Int) < flowCurrent x qa ∧ x.belay.failA = false ∧ x.belay.stest ≠ 1) ∨
      (50 * (ilimEff x : Int) < flowCurrent x qb ∧ x.belay.failB = false ∧ x.belay.stest ≠ 2) ∨ 50 * (shortLimit x : Int) < flowCurrent x qs →
      x.belay.tripOpen = false → leads (.ocp l qa qb qs) s fun s' => (s'.lane l).belay.sw = 0 ∧ (s'.lane l).conv.on = false ∧
      (s'.lane l).belay.tripEvt = true ∧ (s'.lane l).belay.dischIn = true ∧ (s'.lane l).con.armState ≠ 1 ∧ (s'.lane l).con.armState ≠ 2 ∧
      (s'.lane l).belay.cause = (if 50 * (shortLimit x : Int) < flowCurrent x qs then 1 else 2) ∧ s.onlyLaneLogs s' l) ∧
    (¬(50 * (ilimEff x : Int) < flowCurrent x qa) ∨ x.belay.failA = true ∨ x.belay.stest = 1 → ¬(50 * (ilimEff x : Int) < flowCurrent x qb) ∨
      x.belay.failB = true ∨ x.belay.stest = 2 → ¬(50 * (shortLimit x : Int) < flowCurrent x qs) → exec (.ocp l qa qb qs) s = .next s) ∧
    (x.belay.sw = 0 ∧ x.belay.tripOpen = false ∧ x.belay.leftAt = none → exec (.ocp l qa qb qs) s = .next s) ∧
    (x.belay.sw ≠ 0 → windowHi x < 100 * mv → x.belay.tripOpen = false → leads (.ovp ⟨l, mv⟩) s fun s' => (s'.lane l).belay.sw = 0 ∧
      (s'.lane l).conv.on = false ∧ (s'.lane l).belay.tripEvt = true ∧ (s'.lane l).belay.dischIn = true ∧ (s'.lane l).con.armState ≠ 1 ∧
      (s'.lane l).con.armState ≠ 2 ∧ (s'.lane l).belay.cause = 3 ∧ s.onlyLaneLogs s' l) ∧
    (100 * mv ≤ windowHi x ∨ (x.belay.sw = 0 ∧ x.belay.tripOpen = false ∧ x.belay.leftAt = none) → exec (.ovp ⟨l, mv⟩) s = .next s) ∧
    (x.belay.sw = 2 → x.swap.powerRole = true → x.swap.holdOn = false → x.con.kind ≠ 1 → 100 * mv < windowLo x → x.belay.risen = true →
      x.belay.tripOpen = false → leads (.uvp ⟨l, mv⟩) s fun s' => (s'.lane l).belay.sw = 0 ∧ (s'.lane l).conv.on = false ∧
      (s'.lane l).belay.tripEvt = true ∧ (s'.lane l).belay.dischIn = true ∧ (s'.lane l).con.armState ≠ 1 ∧ (s'.lane l).con.armState ≠ 2 ∧
      (s'.lane l).belay.cause = 4 ∧ s.onlyLaneLogs s' l) ∧
    (uvpApplies x = true → windowLo x ≤ 100 * mv → leads (.uvp ⟨l, mv⟩) s fun s' => (s'.lane l).belay.risen = true ∧ (s'.lane l).belay.sw = 2 ∧
      s.onlyLane s' l) ∧
    (x.belay.sw ≠ 2 ∨ x.swap.holdOn = true ∨ (x.swap.powerRole = false ∧ x.swap.presentsRp = false) → windowLo x ≤ 100 * mv ∨ x.belay.sw ≠ 0 ∨
      x.belay.tripOpen = false → exec (.uvp ⟨l, mv⟩) s = .next s) ∧
    (x.belay.sw ≠ 0 → x.swap.holdOn = false ∨ x.swap.powerRole = false → 3 * (reverseLimit x : Int) < 4 * (if sourceClosed x then -ma else ma) →
      x.belay.tripOpen = false → leads (.reverseCurrent l ma) s fun s' => (s'.lane l).belay.sw = 0 ∧ (s'.lane l).conv.on = false ∧
      (s'.lane l).belay.tripEvt = true ∧ (s'.lane l).belay.dischIn = true ∧ (s'.lane l).con.armState ≠ 1 ∧ (s'.lane l).con.armState ≠ 2 ∧
      (s'.lane l).belay.cause = 5 ∧ s.onlyLaneLogs s' l) ∧
    ((x.swap.holdOn = true ∧ x.swap.powerRole = true) ∨ 4 * (if sourceClosed x then -ma else ma) ≤ 3 * (reverseLimit x : Int) →
      exec (.reverseCurrent l ma) s = .next s) ∧
    (x.belay.sw = 2 → x.belay.tripOpen = false → leads (.overload l) s fun s' => (s'.lane l).belay.sw = 0 ∧ (s'.lane l).conv.on = false ∧
      (s'.lane l).belay.tripEvt = true ∧ (s'.lane l).belay.dischIn = true ∧ (s'.lane l).con.armState ≠ 1 ∧ (s'.lane l).con.armState ≠ 2 ∧
      (s'.lane l).belay.cause = 6 ∧ s.onlyLaneLogs s' l) ∧
    (x.belay.sw ≠ 2 → x.belay.sw ≠ 0 ∨ x.belay.tripOpen = false → exec (.overload l) s = .next s) ∧
    (199 ≤ temp.toNat → temp.toNat < 214 → leads (.thermWarn g temp) s fun s' => (s'.group g).dieTemp = temp ∧ ∀ m, (groupOf m = g →
      (s'.lane m).belay.thermWarn = true ∧ (s'.lane m).belay.sw = (s.lane m).belay.sw) ∧ (groupOf m ≠ g → s'.lane m = s.lane m)) ∧
    (temp.toNat < 194 → leads (.thermWarn g temp) s fun s' => (s'.group g).dieTemp = temp ∧ ∀ m, (groupOf m = g →
      (s'.lane m).belay.thermWarn = false) ∧ (groupOf m ≠ g → s'.lane m = s.lane m)) ∧
    (194 ≤ temp.toNat → temp.toNat < 199 → leads (.thermWarn g temp) s fun s' => (s'.group g).dieTemp = temp ∧ s'.lanes = s.lanes) ∧
    (214 ≤ temp.toNat → leads (.thermalShutdown g temp) s fun s' => (s'.group g).dieTemp = temp ∧ (s'.group g).thermShut = true ∧
      (∀ m, groupOf m = g → (s'.lane m).belay.sw = 0 ∧ (s'.lane m).cc.vconnOn = false ∧ (s'.lane m).belay.thermWarn = true ∧
        ((s.lane m).belay.tripOpen = false → (s.lane m).belay.sw ≠ 0 ∨ (s.lane m).cc.vconnOn = true → (s'.lane m).belay.cause = 7 ∧
          (s'.lane m).belay.tripEvt = true)) ∧
      ∀ m, groupOf m ≠ g → s'.lane m = s.lane m) ∧
    (189 ≤ temp.toNat → temp.toNat < 214 → leads (.thermalShutdown g temp) s fun s' => (s'.group g).thermShut = (s.group g).thermShut ∧
      ∀ m, (s'.lane m).belay.sw = (s.lane m).belay.sw) ∧
    (temp.toNat < 189 → leads (.thermalRestart g temp) s fun s' => (s'.group g).dieTemp = temp ∧ (s'.group g).thermShut = false ∧
      ∀ m, (groupOf m = g → (s'.lane m).belay.thermWarn = false ∧ ((s.group g).thermShut = true → (s.lane m).belay.want ≠ .none →
      (s.lane m).belay.sw = 0 → closeAllowed s m = true → (s'.lane m).belay.stest = 3)) ∧ (groupOf m ≠ g → s'.lane m = s.lane m)) ∧
    (189 ≤ temp.toNat → temp.toNat < 214 → (s.group g).thermShut = true → leads (.thermalRestart g temp) s fun s' => (s'.group g).thermShut = true ∧
      ∀ m, (s'.lane m).belay.stest = (s.lane m).belay.stest)

/-- Self-test, latch and limits, each command with where it completes. selfTest (R158) with STEST_PERIOD not 0, and stestNow (R158, R160, R163): on a closed path with no test running, OCP A leaves the trip path (STEST_STATE 1) and FAIL_A follows its checks, with HOST_IRQ bit 6 at a new failure; where OCP B has failed, A stays in the trip path and B is tested again (R166). selfTest changes nothing with STEST_PERIOD 0, an open path or a test running. latchClr (R157, R337): a latched lane is latched no more, its POWER count clears, and a Disabled lane returns to the unattached state; one not latched is unchanged. ilimSet (R141): ILIM is stored under its ceiling, which a locked lane keeps and an unlocked one takes from the write. shedIlim (R144, R163): 0 restores the belay limit at once; a value from 10 and below ILIM is stored and waits, 1 to 9 wait as 10, and one that does not act below ILIM restores it. shedIlimBelay (R144): the waiting limit reaches the comparators; with none waiting nothing changes. The model's choices: logs 13, 108. -/
def Obligations.SelfTestAndLimits : Prop :=
  ∀ (a : Agent) (l : LaneId) (v : Word) (r : TestResult) (s : State),
    let x := s.lane l
    let b' (s' : State) : BelayLane := (s'.lane l).belay
    (fld x.cfg.belayCtrl 11 8 ≠ 0 → x.belay.sw = 2 → x.belay.stest = 0 → x.belay.failA = false → x.belay.failB = true →
      leads (.selfTest l r) s fun s' => (b' s').stest = 2 ∧ (b' s').failA = x.belay.failA ∧ (b' s').failB = !passB x r ∧ (b' s').sw = 2 ∧
      s.onlyLanePosts s' l) ∧
    (fld x.cfg.belayCtrl 11 8 ≠ 0 → x.belay.sw = 2 → x.belay.stest = 0 → x.belay.failB = false → leads (.selfTest l r) s fun s' => (b' s').stest = 1 ∧
      (b' s').settling = true ∧ (b' s').test = r ∧ (b' s').failA = !passA x r ∧ (b' s').failB = x.belay.failB ∧ (b' s').sw = 2 ∧
      s.onlyLaneLogs s' l) ∧
    (fld x.cfg.belayCtrl 11 8 = 0 ∨ x.belay.sw ≠ 2 ∨ x.belay.stest ≠ 0 → exec (.selfTest l r) s = .next s) ∧
    (hostServed s a = true → s.fusedOff l = false → x.belay.sw = 2 → x.belay.stest = 0 → x.belay.failB = false →
      leads (.stestNow a l r) s fun s' => (b' s').stest = 1 ∧ (b' s').failA = !passA x r ∧ (b' s').failB = x.belay.failB ∧ (b' s').sw = 2 ∧
      (passA x r = false → x.belay.failA = false → s'.dev.hostIrq.getLsbD 6 = true) ∧ s.onlyLaneLogs s' l) ∧
    (hostServed s a = true → s.fusedOff l = false → x.belay.sw = 2 → x.belay.stest = 0 → x.belay.failA = false → x.belay.failB = true →
      leads (.stestNow a l r) s fun s' => (b' s').stest = 2 ∧ (b' s').failA = false ∧ (b' s').failB = !passB x r ∧ (b' s').sw = 2 ∧
      s.onlyLanePosts s' l) ∧
    (hostServed s a = true → s.fusedOff l = false → x.belay.latched = true → leads (.latchClr a l) s fun s' => (b' s').latched = false ∧
      (s'.lane l).fw.power = [] ∧ (x.cc.st = .disabled → (s'.lane l).cc.st = unattachedState s' l) ∧ s.onlyLanePosts s' l) ∧
    (hostServed s a = true → s.fusedOff l = false → x.belay.latched = false → leads (.latchClr a l) s fun s' => s' = s) ∧
    (hostServed s a = true → s.fusedOff l = false → s.locked = true →
      leads (.ilimSet a l v) s fun s' => fld (s'.lane l).cfg.ilimSet 7 0 = ilimStored (fld x.cfg.ilimSet 23 16) (fld v 7 0) ∧
      fld (s'.lane l).cfg.ilimSet 23 16 = fld x.cfg.ilimSet 23 16 ∧ s.onlyLane s' l) ∧
    (hostServed s a = true → s.fusedOff l = false → s.locked = false →
      leads (.ilimSet a l v) s fun s' => fld (s'.lane l).cfg.ilimSet 7 0 = ilimStored (fld v 23 16) (fld v 7 0) ∧
      fld (s'.lane l).cfg.ilimSet 23 16 = fld v 23 16 ∧ s.onlyLane s' l) ∧
    (hostServed s a = true → s.fusedOff l = false → fld v 23 16 = 0 → bitOf v 2 = false → bitOf v 3 = false →
      leads (.shedIlim a l v) s fun s' => (b' s').shedApplied = 0 ∧ (b' s').shedPending = false ∧ fld (s'.lane l).cfg.belayCtrl 23 16 = 0 ∧
      s.onlyLane s' l) ∧
    (hostServed s a = true → s.fusedOff l = false → 10 ≤ fld v 23 16 → fld v 23 16 < fld x.cfg.ilimSet 7 0 → bitOf v 2 = false → bitOf v 3 = false →
      leads (.shedIlim a l v) s fun s' => (b' s').shedApplied = x.belay.shedApplied ∧ (b' s').shedPending = true ∧
      fld (s'.lane l).cfg.belayCtrl 23 16 = fld v 23 16 ∧ s.onlyLane s' l) ∧
    (hostServed s a = true → s.fusedOff l = false → 1 ≤ fld v 23 16 → fld v 23 16 ≤ 9 → 10 < fld x.cfg.ilimSet 7 0 → bitOf v 2 = false →
      bitOf v 3 = false → leads (.shedIlim a l v) s fun s' => (b' s').shedApplied = x.belay.shedApplied ∧ (b' s').shedPending = true ∧
      shedField (s'.lane l).cfg = 10 ∧ s.onlyLane s' l) ∧
    (hostServed s a = true → s.fusedOff l = false → fld v 23 16 ≠ 0 → fld x.cfg.ilimSet 7 0 ≤ Max.max 10 (fld v 23 16) → bitOf v 2 = false →
      bitOf v 3 = false → leads (.shedIlim a l v) s fun s' => fld x.cfg.ilimSet 7 0 ≤ (b' s').shedApplied.toNat ∧ (b' s').shedPending = false ∧
      fld (s'.lane l).cfg.belayCtrl 23 16 = fld v 23 16 ∧ s.onlyLane s' l) ∧
    (x.belay.shedPending = true → leads (.shedIlimBelay l) s fun s' => (b' s').shedApplied = BitVec.ofNat 8 (shedField x.cfg) ∧
      (b' s').shedPending = false ∧ s.onlyLane s' l) ∧
    (x.belay.shedPending = false → exec (.shedIlimBelay l) s = .next s)

/-- Loop engines, each command with where it completes. ratioModeChange, currentLimit (R171, R174, R181, R183, R185, R186): a valley of the lane's carrier, at which the duties computed at the last one take effect, IL_AVG is taken, the ratio mode of R181 is chosen and at most one clamp holds; in slew-bound control the ratio is frozen, and a stopped stage is unchanged. slewEnter (R180, R190): three samples beyond the threshold begin slew-bound control of their kind toward the sign of the error, and count; otherwise nothing changes. leave (R191, R192): a sample leaves, turns to phase 2, holds at IL_MAX or stays; leaving reloads both loops and blocks entry for four periods. slewTo (R192): 16 periods end it with SLEW_TO. ffRampEnd (R193): the feed-forward term moves into the voltage loop. convVset, convIset (R182, R185, R199): setpoints are stored clamped, and in force at once but in HOLDOVER. phaseOffset (R173): stored, and taken at once by a stopped carrier. reverseRampEnd (R189): the ramp that has reached ILIM_REV ends. leave, ffRampEnd and reverseRampEnd change nothing outside their state. A stage that is off holds its four PWM outputs low (R195), and the two switches of a leg are never on together (R172). The model's choices: logs 13, 95. -/
def Obligations.LoopEngines : Prop :=
  ∀ (a : Agent) (l : LaneId) (v : Word) (k : SlewKind) (m1 : SlewSample) (w : SlewTriple) (m : StageSample) (s : State),
    let x := s.lane l
    let c' (s' : State) : ConvLane := (s'.lane l).conv
    (x.conv.on = true → x.conv.slew = false → x.conv.first = false → x.conv.rev = false → x.conv.revStart = false →
      leads (.ratioModeChange l m) s fun s' => (c' s') = { valley x m with inAt := (c' s').inAt, outAt := (c' s').outAt } ∧ (x.conv.on = true →
      (c' s').corr = carrierCorr x.conv.slip) ∧ (c' s').ratio = x.conv.ratioNew ∧
      (c' s').ratioNew = ratioNext (fld x.cfg.convCtrl 1 0) x.conv.ratioNew x.conv.vs.toNat m.vin ∧ (c' s').on = true ∧ (c' s').d1 = x.conv.d1Next ∧
      (c' s').d2 = x.conv.d2Next ∧ s.onlyLane s' l) ∧
    (x.conv.on = false ∨ x.conv.slew = true →
      leads (.ratioModeChange l m) s fun s' => (c' s').ratio = (if x.conv.on then x.conv.ratioNew else x.conv.ratio) ∧
      (c' s').ratioNew = x.conv.ratioNew ∧ s.onlyLane s' l) ∧
    (x.conv.on = true → x.conv.slew = false → x.conv.rev = false → x.conv.revStart = false →
      leads (.currentLimit l m) s fun s' => (c' s') = { valley x m with inAt := (c' s').inAt, outAt := (c' s').outAt } ∧ (x.conv.on = true →
      (c' s').corr = carrierCorr x.conv.slip) ∧ ((c' s').fwdClamp && (c' s').floorClamp) = false ∧
      (c' s').ilAvg = BitVec.ofInt 16 (ilOf x.cfg m.code) ∧ s.onlyLane s' l) ∧
    (x.conv.on = false → leads (.currentLimit l m) s fun s' => s' = s) ∧
    (slewMay x s.dev.dtime k w = true → leads (.slewEnter l k w) s fun s' => (c' s').slew = true ∧ (c' s').slewKind = k ∧
      (c' s').slewCnt = x.conv.slewCnt + 1 ∧ (c' s').slewUp = decide (0 < slewError x k w.c) ∧ (c' s').ratio = x.conv.ratio ∧
      (c' s').ratioNew = x.conv.ratio ∧ s.onlyLane s' l) ∧
    (slewMay x s.dev.dtime k w = false → exec (.slewEnter l k w) s = .next s) ∧
    (x.conv.slew = true → slewAct x m1 = .leave → leads (.leave l m1) s fun s' => (c' s').slew = false ∧ (c' s').iu = 0 ∧
      (c' s').vu = List.replicate 3 (loopState m1.ipath (fld x.cfg.convLoop 19 16)) ∧ (c' s').slewTo = x.conv.slewTo ∧
      (c' s').slewFree = s.dev.dtime + 10 * fld x.cfg.convCtrl 27 16 ∧ s.onlyLane s' l) ∧
    (x.conv.slew = true → slewAct x m1 = .turn → leads (.leave l m1) s fun s' => (c' s').slew = true ∧ (c' s').slewBack = true ∧
      (c' s').slewHold = false ∧ s.onlyLane s' l) ∧
    (x.conv.slew = true → slewAct x m1 = .hold → leads (.leave l m1) s fun s' => (c' s').slew = true ∧ (c' s').slewHold = true ∧
      (c' s').slewBack = x.conv.slewBack ∧ s.onlyLane s' l) ∧
    (x.conv.slew = true → slewAct x m1 = .stay → leads (.leave l m1) s fun s' => (c' s').slew = true ∧ (c' s').slewBack = x.conv.slewBack ∧
      s.onlyLane s' l) ∧
    (x.conv.slew = false → exec (.leave l m1) s = .next s) ∧
    (x.conv.slew = true → leads (.slewTo l m1) s fun s' => (c' s').slew = false ∧ (c' s').slewTo = true ∧ (c' s').slewCnt = x.conv.slewCnt ∧
      s.onlyLaneLogs s' l) ∧
    (x.conv.ffAct = true → leads (.ffRampEnd l) s fun s' => (c' s').ffAct = false ∧ (c' s').ffTerm = 0 ∧
      (c' s').vu = x.conv.vu.map (· + loopState x.conv.ffTerm (fld x.cfg.convLoop 19 16)) ∧ s.onlyLane s' l) ∧
    (x.conv.ffAct = false → exec (.ffRampEnd l) s = .next s) ∧
    (hostServed s a = true → s.fusedOff l = false →
      leads (.convVset a l v) s fun s' => fld (s'.lane l).cfg.convVset 13 0 = Min.min (fld v 13 0) (fld x.cfg.vconvMax 13 0) ∧
      fld (s'.lane l).cfg.convVset 23 16 = clampNat 1 250 (fld v 23 16) ∧ (s.dev.state ≠ .holdover →
      (c' s').vsetEff.toNat = fld (s'.lane l).cfg.convVset 13 0) ∧ s.onlyLane s' l) ∧
    (hostServed s a = true → s.fusedOff l = false → s.dev.state = .holdover → leads (.convVset a l v) s fun s' => (c' s') = x.conv ∧
      s.onlyLane s' l) ∧
    (hostServed s a = true → s.fusedOff l = false → leads (.convIset a l v) s fun s' => fld (s'.lane l).cfg.convIset 9 0 = Min.min (fld v 9 0) 700 ∧
      fld (s'.lane l).cfg.convIset 25 16 = Min.min (fld v 25 16) 700 ∧ (s.dev.state ≠ .holdover → (c' s').fwdEff.toNat = Min.min (fld v 9 0) 700 ∧
      (c' s').revEff.toNat = Min.min (fld v 25 16) 700) ∧ s.onlyLane s' l) ∧
    (hostServed s a = true → s.fusedOff l = false → leads (.phaseOffset a l v) s fun s' => (s'.lane l).cfg.phaseOffset = v &&& 0xFFF ∧
      (c' s').phase = (if x.conv.on then x.conv.phase else BitVec.ofNat 12 (fld v 11 0)) ∧ s.onlyLane s' l) ∧
    (x.conv.revStart = true → x.conv.revNow = x.conv.revEff.toNat → leads (.reverseRampEnd l) s fun s' => (c' s').revStart = false ∧
      (c' s').rev = true ∧ s.onlyLane s' l) ∧
    (x.conv.revStart = false ∨ x.conv.revNow ≠ x.conv.revEff.toNat → exec (.reverseRampEnd l) s = .next s) ∧
    (x.conv.on = false → pwmLevels s l = (false, false, false, false)) ∧
    ((pwmLevels s l).1 = false ∨ (pwmLevels s l).2.1 = false) ∧
    ((pwmLevels s l).2.2.1 = false ∨ (pwmLevels s l).2.2.2 = false)

/-- The budget, each command with where it completes. budgetFrame (R212, R267): takes the bus and VSYS means and adds every lane's charge to its tally; where the device is not a hitch in RUN it takes each lane's credit and changes no ceiling, and a hitch in RUN ends FROZEN and shows the stack's sag, and the CEILs of the stack, its own lanes' and those sent to the others, sum to at most the budget in force less the idle allocations. arbitrationResult (R22, R214, R219, R221, R373): gives each lane named in it its CEIL, ends FROZEN and clears the count of missing results, and leaves other lanes alone; a hitch, an EXCLUDED device and one in HOLDOVER or under SOLO take none. frozen (R221): sets FROZEN on a device that is not a hitch in RUN and changes no lane that waits for no stagger slot; a hitch in RUN is unchanged. busSag, sagEnd (R205): SAG is set, unless SAG_V is 0, and cleared, and no lane changes. shedMeasure (R215, R221): a Twin lane whose arm to RUN is in force disarms with SHED 1 where CEIL lies below its RUN power and at or above its floor; a lane that is not served, not a budget source, or within its ceiling, and any lane while FROZEN, is unchanged. shedDeadline (R216): SHED 3 and SHED_ILIM from CEIL where the deadline runs and CEIL lies below the allocation; without a deadline nothing changes. busBudget (R202): stores its 24 bits, but 0 in RUN is ignored; a host's write ends SUCC and forgets missing devices. staggerRequest (R219): a hitch with slots places another device's request; without slots, or on another device, nothing changes. The model's choices: logs 13, 52, 90. -/
def Obligations.BusAndBudget : Prop :=
  ∀ (a : Agent) (l : LaneId) (v : Word) (b : BusSample) (r : List (BitVec 12 × BitVec 4)) (p : Fin 8) (t : Nat) (s : State),
    let x := s.lane l
    let m : State := ((s.forEach allLanes State.laneClock).setFrozen false).measure b
    (s.tether.hitch = false ∨ s.dev.state ≠ .run → leads (.budgetFrame b) s fun s' => s'.bus.busV = b.busV ∧ s'.dev.vsysV = b.vsysV ∧
      ∀ m, (s'.lane m).tally.q = ((s.lane m).tally.charge (b.lanes.getD m.val {}).charge).q ∧
      (s'.lane m).budget.credit = laneCredit (s.lane m) (b.lanes.getD m.val {}).power ∧ (s'.lane m).budget.ceil = (s.lane m).budget.ceil) ∧
    (arbiterRuns s = true → s.tether.settling ≤ 1 → leads (.budgetFrame b) s fun s' => s'.bus.busV = b.busV ∧ s'.dev.vsysV = b.vsysV ∧
      s'.bus.frozen = false ∧ s'.bus.asked = [] ∧ (∀ m, (s'.lane m).tally.q = ((s.lane m).tally.charge (b.lanes.getD m.val {}).charge).q) ∧
      s'.bus.effSag = stackSag s) ∧
    (s.tether.hitch = true → s.dev.state = .run → imageRuns (s.core (arbiterCore s)) = false ∨ 2 ≤ s.tether.settling →
      leads (.budgetFrame b) s fun s' => s'.bus.busV = b.busV ∧ s'.bus.frozen = s.bus.frozen ∧ s'.bus.asked = s.bus.asked ∧
      ∀ m, (s'.lane m).budget.ceil = (s.lane m).budget.ceil) ∧
    (arbiterRuns s = true → s.tether.settling ≤ 1 →
      leads (.budgetFrame b) s fun s' => (((allLanes.map fun m => (s'.lane m).budget.ceil.toNat).sum + (s'.bus.prev.map fun e => e.2.2.1).sum : Nat) : Int) ≤ Max.max 0 ((effBudget m (stackClaims m) : Int) - idleAlloc m) ∧
      s'.bus.effW = BitVec.ofNat 24 (effBudget m (stackClaims m) / 10)) ∧
    (s.tether.hitch = false → s.tether.excluded = false → s.dev.state ≠ .holdover → bitOf s.tether.ctrl 0 = false →
      leads (.arbitrationResult r) s fun s' => s'.bus.frozen = false ∧ s'.tether.noResult = 0 ∧ ∀ m, (∀ e, r[m.val]? = some e →
      (s'.lane m).budget.ceil = e.1) ∧ (r[m.val]? = none → s'.lane m = s.lane m)) ∧
    (s.tether.hitch = true ∨ s.tether.excluded = true ∨ s.dev.state = .holdover ∨ bitOf s.tether.ctrl 0 = true →
      exec (.arbitrationResult r) s = .next s) ∧
    (arbiterRuns s = false → leads .frozen s fun s' => s'.bus.frozen = true ∧ ∀ m, (s.lane m).budget.staggerReq = none → s'.lane m = s.lane m) ∧
    (arbiterRuns s = true → exec .frozen s = .next s) ∧
    (fld s.bus.vsnsTh 23 12 ≠ 0 → leads .busSag s fun s' => s'.bus.sag = true ∧ s'.lanes = s.lanes) ∧
    (fld s.bus.vsnsTh 23 12 = 0 → exec .busSag s = .next s) ∧
    (leads .sagEnd s fun s' => s'.bus.sag = false ∧ s'.lanes = s.lanes) ∧
    (x.pd.arActive = true ∨ s.bus.frozen = true ∨ budgetSource s l = false ∨ (allocation s l ≤ x.budget.ceil.toNat ∧ x.con.twinOn = false) →
      exec (.shedMeasure l) s = .next s) ∧
    (serves s l = true → s.bus.frozen = false → budgetSource s l = true → x.con.twinOn = true → armInForce x = true → x.con.armedTarget = true →
      x.budget.ceil.toNat < runPower x → laneFloor s l ≤ x.budget.ceil.toNat → leads (.shedMeasure l) s fun s' => (s'.lane l).budget.shed = 1 ∧
      (s'.lane l).con.armCmd = some 20 ∧ (s'.lane l).con.armState = x.con.armState ∧ s.onlyLaneLogs s' l) ∧
    (x.budget.deadline = true → serves s l = true → s.bus.frozen = false → x.budget.ceil.toNat < allocation s l →
      leads (.shedDeadline l) s fun s' => (s'.lane l).budget.deadline = false ∧ (s'.lane l).budget.shed = 3 ∧
      fld (s'.lane l).cfg.belayCtrl 23 16 = shedValue x ∧ s.onlyLane s' l) ∧
    (x.budget.deadline = false → exec (.shedDeadline l) s = .next s) ∧
    (hostServed s a = true → (v.truncate 24 : BitVec 24) ≠ 0 ∨ s.dev.state ≠ .run →
      leads (.busBudget a v) s fun s' => s'.bus.budgetW = v.truncate 24 ∧ s'.lanes = s.lanes ∧ (a = .host → s'.tether.succ = false ∧
      s'.tether.missing = Vector.replicate 8 false)) ∧
    (hostServed s a = true → (v.truncate 24 : BitVec 24) = 0 → s.dev.state = .run → leads (.busBudget a v) s fun s' => s'.bus = s.bus ∧
      s'.lanes = s.lanes) ∧
    (s.tether.hitch = true → fld s.bus.stagger 11 8 ≠ 0 → p.val ≠ ownPos s → leads (.staggerRequest p l t) s fun s' => s'.lanes = s.lanes ∧
      s'.bus.placed = s.bus.placed ∧ (p.val, l.val, t) ∈ s'.bus.asked) ∧
    (s.tether.hitch = true → fld s.bus.stagger 11 8 ≠ 0 → p.val = ownPos s →
      leads (.staggerRequest p l t) s fun s' => (s'.lane l).budget.staggerReq = some t ∧ s'.bus = s.bus ∧ s.onlyLane s' l) ∧
    (s.tether.hitch = false ∨ fld s.bus.stagger 11 8 = 0 → exec (.staggerRequest p l t) s = .next s)

/-- The swath engine, each command with where it completes. fixCommit (R226): RESULT 6 with EN clear or outside RUN and HOLDOVER, and 5 with a heading of a turn or more, with nothing else of the swath changed; a fix with verdict 1 counts, gives the yaw rate and a pose and ends STALE. swathStep (R230, R235, R239, R241): without a pose no section but a forced one is wanted and no tile is asked for; with one the blocked fraction and the want of every section are those of R238 and R239 at the pose carried ahead, by the overlap where nothing forces it, and off without MASTER, in reverse or below the least speed; every cell of value 0 that the line of an applied section swept is marked 1, other cells keep their value, and without an applied section no memory changes; with EN clear, or outside RUN and HOLDOVER, and with stagger slots it changes nothing. pospps (R228) latches DTIME. fixStale, drOut (R232) and poseLost (R243) set their flags with EN, poseLost once and with POSE_SRC only. postLapse (R240, R242): a post whose time has come is no longer pending, with the want kept; else nothing changes. applied (R241): APPLIED takes the earliest change of the load, which is then done; with none nothing changes. sectCtrl (R237): FORCE 3 stores 0, and SECT_MODE is stored where the lane is not locked. tileLoad (R236): result 5 outside the window, 3 in READY, and 0 into an Absent slot, which becomes Present with that tile. tileTake (R236): result 6 from a slot that is not Leaving, and 0 from one that is, which becomes Absent with TILE_EVT and HOST_IRQ.TILE. swathMark (R243): marks every clear cell of its run and no other cell, a run of one in its byte alone, and nothing of a tile that is not Present or under SOLO. tileChunk (R367): opens a tile with its first chunk; without EN, a pose or RUN or HOLDOVER, or under SOLO, nothing changes. The model's choices: logs 13, 25, 66, 91, 117. -/
def Obligations.SwathEngine : Prop :=
  ∀ (a : Agent) (l : LaneId) (v : Word) (tag : Byte) (tx ty : Int) (row col : Byte) (n : Nat) (i : Fin 128) (d : List Byte) (s : State),
    let cell : Int × Int := (256 * tx + col.toNat, 256 * ty + row.toNat)
    let x := s.lane l
    let T : Int × Int := argTile s.mbx.arg[0]
    let u : State := s.deadReckon.followWindow
    let seen (m : LaneId) : List Nat := samples u (s.lane m).cfg (u.swath.poseAhead (postLead s m + (if (s.lane m).sect.want then latOff s m else latOn s m) + 500000))
    let may : Prop := mbxServed s = true ∧ s.mbx.busy = false ∧ s.dev.state = .run ∧ s.swath.en = true ∧ s.swath.poseOk = true
    (hostServed s a = true → s.swath.en = false ∨ s.live = false → leads (.fixCommit a) s fun s' => s'.swath = { s.swath with fixResult := 6 } ∧
      s'.lanes = s.lanes) ∧
    (hostServed s a = true → s.swath.en = true → s.live = true → turnUrad < fld s.swath.fix[2] 22 0 →
      leads (.fixCommit a) s fun s' => s'.swath = { s.swath with fixResult := 5 } ∧ s'.lanes = s.lanes) ∧
    (hostServed s a = true → fixVerdict s = 1 → s.swath.fromHitch = false → leads (.fixCommit a) s fun s' => s'.swath.fixResult = 1 ∧
      s'.swath.fixCnt = s.swath.fixCnt + 1 ∧ s'.swath.poseOk = true ∧ s'.swath.stale = false ∧ s'.swath.yaw = s.swath.fix[3].toInt ∧
      s'.lanes = s.lanes) ∧
    (s.swath.en = true → s.live = true → s.swath.poseOk = false → leads (.swathStep ()) s fun s' => (∀ m, sectMode s m ≠ 0 →
      fld (s.lane m).cfg.sectCtrl 9 8 ≠ 2 → (s'.lane m).sect.want = false) ∧ (∀ m, sectMode s m = 0 → (s'.lane m).sect.want = (s.lane m).sect.want) ∧
      s'.swath.poseOk = false ∧ s'.swath.tileReq = 0) ∧
    (s.swath.en = true → s.live = true → s.swath.poseOk = true → leads (.swathStep ()) s fun s' => ∀ m, sectMode s m ≠ 0 →
      (s'.lane m).sect.blockPct = BitVec.ofNat 8 (blocked (seen m)) ∧ (s'.lane m).sect.want = decide1 u m (seen m) ∧
      (s'.lane m).sect.line = some (lineEnds (s.lane m).cfg u.swath.pose)) ∧
    (s.swath.en = true → s.live = true → s.swath.poseOk = true → s.swath.master = true → s.swath.exclHard = false → s.swath.drOut = false →
      s.swath.rev = false → 100 * s.swath.minSpd ≤ groundSpeed u.swath → leads (.swathStep ()) s fun s' => ∀ m, sectMode s m ≠ 0 →
      fld (s.lane m).cfg.sectCtrl 9 8 = 0 → 5 ≤ fld (s.lane m).cfg.sectCtrl 22 16 →
      (s'.lane m).sect.want = (if (s.lane m).sect.want then !(decide (fld (s.lane m).cfg.sectCtrl 22 16 < 100 ∧
      fld (s.lane m).cfg.sectCtrl 22 16 < blocked (seen m)) || decide (blocked (seen m) = 100)) else decide (blocked (seen m) + 5 ≤ fld (s.lane m).cfg.sectCtrl 22 16))) ∧
    (s.swath.en = true → s.live = true → s.swath.poseOk = true → s.swath.master = false ∨ s.swath.rev = true ∨
      groundSpeed u.swath < 100 * s.swath.minSpd → leads (.swathStep ()) s fun s' => ∀ m, sectMode s m ≠ 0 → fld (s.lane m).cfg.sectCtrl 9 8 = 0 →
      (s'.lane m).sect.want = false) ∧
    (s.swath.en = true → s.live = true → s.swath.poseOk = true → leads (.swathStep ()) s fun s' => ∀ m o, sectMode s m ≠ 0 →
      (s.lane m).sect.applied = true → (s.lane m).sect.line = some o → ∀ c, c ∈ sweptCells u.swath o (lineEnds (s.lane m).cfg u.swath.pose) →
      cellValue u c = 0 → cellValue s' c = 1) ∧
    (s.swath.en = true → s.live = true → s.swath.poseOk = true → leads (.swathStep ()) s fun s' => ∀ c, cellValue u c ≠ 0 →
      cellValue s' c = cellValue u c) ∧
    (s.swath.en = true → s.live = true → s.swath.poseOk = true → (∀ m, sectMode s m = 0 ∨ (s.lane m).sect.applied = false ∨
      (s.lane m).sect.line = none) → leads (.swathStep ()) s fun s' => s'.mem = s.mem) ∧
    (s.swath.en = false ∨ s.live = false → fld s.bus.stagger 11 8 ≠ 0 → exec (.swathStep ()) s = .next s) ∧
    (leads .pospps s fun s' => s'.swath = { s.swath with pps := s.dev.dtime } ∧ s'.lanes = s.lanes) ∧
    (s.swath.en = true → leads .fixStale s fun s' => s' = { s with swath := { s.swath with stale := true } }) ∧
    (s.swath.en = true → leads .drOut s fun s' => s' = { s with swath := { s.swath with drOut := true } }) ∧
    (s.swath.en = true → s.swath.fromHitch = true → s.swath.poseLost = false →
      leads .poseLost s fun s' => s'.swath = { s.swath with poseLost := true } ∧ s'.lanes = s.lanes) ∧
    (s.swath.en = false ∨ s.swath.fromHitch = false ∨ s.swath.poseLost = true → exec .poseLost s = .next s) ∧
    (x.sect.pending = true → x.sect.postT2 ≤ s.dev.dtime → leads (.postLapse l) s fun s' => (s'.lane l).sect.pending = false ∧
      (s'.lane l).budget.staggerReq = none ∧ (s'.lane l).sect.want = x.sect.want ∧ s.onlyLanePosts s' l) ∧
    (x.sect.pending = false ∨ s.dev.dtime < x.sect.postT2 → exec (.postLapse l) s = .next s) ∧
    (x.sect.loads ≠ [] → leads (.applied l) s fun s' => some (s'.lane l).sect.applied = x.sect.loads.head?.map (·.2) ∧
      (s'.lane l).sect.loads = x.sect.loads.tail ∧ s.onlyLanePosts s' l) ∧
    (x.sect.loads = [] → exec (.applied l) s = .next s) ∧
    (hostServed s a = true → s.fusedOff l = false →
      leads (.sectCtrl a l v) s fun s' => fld (s'.lane l).cfg.sectCtrl 9 8 = (if fld v 9 8 = 3 then 0 else fld v 9 8) ∧ (s.locked = true →
      fld (s'.lane l).cfg.sectCtrl 1 0 = fld x.cfg.sectCtrl 1 0) ∧ (s.locked = false → fld (s'.lane l).cfg.sectCtrl 1 0 = fld v 1 0) ∧
      s.onlyLane s' l) ∧
    (hostServed s a = true → may → inWindow s.swath T = false → leads (.tileLoad a tag) s fun s' => s'.mbx.busy = false ∧ s'.mbx.done = true ∧
      s'.mbx.tag = tag ∧ s'.mbx.result = 5 ∧ s'.swath = s.swath ∧ s'.mem = s.mem) ∧
    (hostServed s a = true → may → inWindow s.swath T = true → s.swath.tiles.get (slotOf T) = 0 →
      leads (.tileLoad a tag) s fun s' => s'.mbx.busy = false ∧ s'.mbx.tag = tag ∧ s'.mbx.result = 0 ∧ s'.swath.tiles.get (slotOf T) = 1 ∧
      s'.swath.held.get (slotOf T) = some T) ∧
    (hostServed s a = true → mbxServed s = true → s.mbx.busy = false → s.dev.state = .ready → leads (.tileLoad a tag) s fun s' => s'.mbx.result = 3 ∧
      s'.mbx.busy = false ∧ s'.swath = s.swath ∧ s'.mem = s.mem) ∧
    (hostServed s a = true → may → s.swath.tiles.get (slotOf T) ≠ 2 → leads (.tileTake a tag) s fun s' => s'.mbx.result = 6 ∧ s'.mbx.busy = false ∧
      s'.swath = s.swath ∧ s'.mem = s.mem) ∧
    (hostServed s a = true → may → s.swath.tiles.get (slotOf T) = 2 → s.swath.held.get (slotOf T) = some T →
      leads (.tileTake a tag) s fun s' => s'.mbx.result = 0 ∧ s'.mbx.busy = false ∧ s'.swath.tiles.get (slotOf T) = 0 ∧
      s'.swath.held.get (slotOf T) = none ∧ s'.swath.tileEvt = true ∧ s'.dev.hostIrq.getLsbD 7 = true) ∧
    (s.swath.en = false ∨ tilePresent s.swath (tx, ty) = false → leads (.swathMark tx ty row col n) s fun s' => s'.mem = s.mem ∧ s'.lanes = s.lanes ∧
      s'.swath.tiles = s.swath.tiles ∧ s'.swath.held = s.swath.held) ∧
    (s.swath.en = true → bitOf s.tether.ctrl 0 = false → n = 1 → cellValue s cell = 0 →
      leads (.swathMark tx ty row col n) s fun s' => cellValue s' cell = 1 ∧ s.keepsMemBut s' (cellPlace cell).1 1 ∧ s'.lanes = s.lanes ∧
      s'.swath = s.swath) ∧
    (s.swath.en = true → bitOf s.tether.ctrl 0 = false → leads (.swathMark tx ty row col n) s fun s' => ∀ k, k < n → col.toNat + k < 256 →
      cellValue s (cell.1 + k, cell.2) = 0 → cellValue s' (cell.1 + k, cell.2) = 1) ∧
    (s.swath.en = true → bitOf s.tether.ctrl 0 = false → leads (.swathMark tx ty row col n) s fun s' => ∀ c, (cellValue s c ≠ 0 ∨ c.2 ≠ cell.2 ∨
      c.1 < cell.1 ∨ cell.1 + n ≤ c.1 ∨ cell.1 + 256 ≤ c.1 + col.toNat) → cellValue s' c = cellValue s c) ∧
    (bitOf s.tether.ctrl 0 = true → exec (.swathMark tx ty row col n) s = .next s) ∧
    (s.swath.en = false ∨ s.swath.poseOk = false ∨ s.live = false ∨ bitOf s.tether.ctrl 0 = true → exec (.tileChunk tx ty i d) s = .next s) ∧
    (s.swath.en = true → s.swath.poseOk = true → s.live = true → bitOf s.tether.ctrl 0 = false → s.tether.tiles = [] →
      leads (.tileChunk tx ty i d) s fun s' => s'.tether.tiles = [{ tx := tx, ty := ty, got := [(i, d)] }] ∧ s'.mem = s.mem ∧ s'.swath = s.swath)

/-- The counters, each command with where it completes. turnEvent (R249): an enabled counter stands at 0 counting up with its flag, and a counter chained to it counts one. peakEvent (R249): an enabled counter that counts up stands at TOP with its flag. compareMatch (R257): the count stands at CMPA or CMPB with its flag, where its direction allows a match and the counter does not capture into it. capture (R255): an edge that CAP_EDGE selects puts the count into CMPB and counts in CAP_N, or only in the prescaler until that is reached. Each changes nothing where its counter is not enabled, not counting that way, or captures nothing. cntnVal (R250): VAL waits for the next tick. cntnTop (R250): 0 stores 1, and a leader's TOP reaches its running set. cntnCmp (R250, R258): the compare value waits, and CMPB is not written while the counter captures. cntnCtrl (R251): flags are W1C, EN, UD and, where unlocked, CLK and SET_LEN are stored. cntnCap (R254, R255): FILT 0 stores 1 and the prescaler restarts. The host writes none of a claimed counter in RUN. cntnValRead (R253): latches the value of the next counter of the chain for its reader alone. slotTimeConversion (R263): the first slot time of a counter that the arbiter holds becomes its next CMPA; with no slot, or released, nothing changes. The model's choices: logs 13, 48. -/
def Obligations.Counters : Prop :=
  ∀ (a : Agent) (n m : CounterId) (b rising : Bool) (v : Word) (s : State),
    let c := s.counter n
    let c' (s' : State) : Counter := s'.counter n
    (c.en = true → (∀ k, n.val < k.val → (s.counter k).clkSrc ≠ 1) → leads (.turnEvent n) s fun s' => (c' s').val = 0 ∧ (c' s').down = false ∧
      (c' s').turnF = true ∧ (∀ k, k ≠ n → s'.counter k = s.counter k)) ∧
    (c.en = true → m.val = n.val + 1 → (s.counter m).clkSrc = 1 → (s.counter m).en = true → (s.counter m).act = 0 → (s.counter m).down = false →
      (s.counter m).resetNext = false → (s.counter m).valNew = none → (s.counter m).val.toNat < (s.counter m).top.toNat → (∀ k, m.val < k.val →
      (s.counter k).clkSrc ≠ 1) → leads (.turnEvent n) s fun s' => (c' s').val = 0 ∧ (s'.counter m).val = (s.counter m).val + 1 ∧ ∀ k, k ≠ n → k ≠ m →
      s'.counter k = s.counter k) ∧
    (c.en = false → exec (.turnEvent n) s = .next s) ∧
    (c.en = true → c.down = false → leads (.peakEvent n) s fun s' => (c' s').val = c.top ∧ (c' s').peakF = true ∧ (c' s').turnF = c.turnF ∧
      (∀ k, k ≠ n → s'.counter k = s.counter k)) ∧
    (c.en = false ∨ c.down = true → exec (.peakEvent n) s = .next s) ∧
    (c.en = true → c.dirAllows b c.down = true → b = false ∨ c.bIdle = false → (if b then c.cmpB else c.cmpA).toNat ≤ c.topEff.toNat →
      c.link = n.val → fld c.act 5 4 ≠ 1 → fld c.act 7 6 ≠ 1 → c.claim ≠ 3 →
      leads (.compareMatch n b) s fun s' => (c' s').val = (if b then c.cmpB else c.cmpA) ∧ (if b then (c' s').bF else (c' s').aF) = true ∧
      (∀ k, k ≠ n → s'.counter k = s.counter k)) ∧
    (c.en = false ∨ c.dirAllows b c.down = false ∨ (b = true ∧ c.bIdle = true) → exec (.compareMatch n b) s = .next s) ∧
    (c.capSrc ≠ 0 → c.capSrc ≤ 5 → edgeCounts c rising = true → fld c.cap 7 0 ≤ c.presc → c.clkSrc ≠ 2 →
      leads (.capture n rising) s fun s' => (c' s').cmpB = capturedCount c ∧ (c' s').capN = c.capN + 1 ∧ (c' s').bF = true ∧ (c' s').presc = 0 ∧
      (c' s').val = c.val ∧ (∀ k, k ≠ n → s'.counter k = s.counter k)) ∧
    (c.capSrc ≠ 0 → c.capSrc ≤ 5 → edgeCounts c rising = true → c.presc < fld c.cap 7 0 →
      leads (.capture n rising) s fun s' => (c' s').cmpB = c.cmpB ∧ (c' s').capN = c.capN ∧ (c' s').presc = c.presc + 1 ∧ (∀ k, k ≠ n →
      s'.counter k = s.counter k)) ∧
    (c.capSrc = 0 ∨ 5 < c.capSrc → exec (.capture n rising) s = .next s) ∧
    (hostServed s a = true → cntWritable s a n = true → leads (.cntnVal a n v) s fun s' => (c' s').valNew = some v ∧ (c' s').val = c.val ∧
      (∀ k, k ≠ n → s'.counter k = s.counter k)) ∧
    (hostServed s a = true → a = .host → s.dev.state = .run → 2 ≤ c.claim.toNat → leads (.cntnVal a n v) s fun s' => s' = s) ∧
    (hostServed s a = true → cntWritable s a n = true → leads (.cntnTop a n v) s fun s' => (c' s').top = (if v = 0 then 1 else v) ∧ ∀ k, k ≠ n →
      (s'.counter k).top = (if c.en = true ∧ n.val < k.val ∧ k.val < n.val + c.setLen then (if v = 0 then 1 else v) else (s.counter k).top)) ∧
    (hostServed s a = true → cntWritable s a n = true → b = false ∨ c.bIdle = false →
      leads (.cntnCmp a n b v) s fun s' => (if b then (c' s').cmpBNew else (c' s').cmpANew) = some v ∧ (c' s').cmpA = c.cmpA ∧ (c' s').cmpB = c.cmpB ∧
      (∀ k, k ≠ n → s'.counter k = s.counter k)) ∧
    (hostServed s a = true → b = true → c.bIdle = true → leads (.cntnCmp a n b v) s fun s' => s' = s) ∧
    (hostServed s a = true → cntWritable s a n = true → s.locked = false → fld v 19 16 < 2 →
      leads (.cntnCtrl a n v) s fun s' => (c' s').turnF = (c.turnF && !bitOf v 14) ∧ (c' s').aF = (c.aF && !bitOf v 12) ∧
      bitOf (c' s').ctrl 0 = bitOf v 0 ∧ bitOf (c' s').ctrl 4 = bitOf v 4 ∧ fld (c' s').ctrl 9 8 = fld v 9 8 ∧ (∀ k, k ≠ n →
      s'.counter k = s.counter k)) ∧
    (hostServed s a = true → cntWritable s a n = true → s.locked = true → c.setLen < 2 →
      leads (.cntnCtrl a n v) s fun s' => fld (c' s').ctrl 9 8 = fld c.ctrl 9 8 ∧ fld (c' s').ctrl 19 16 = fld c.ctrl 19 16 ∧
      bitOf (c' s').ctrl 0 = bitOf v 0 ∧ (∀ k, k ≠ n → s'.counter k = s.counter k)) ∧
    (hostServed s a = true → cntWritable s a n = true →
      leads (.cntnCap a n v) s fun s' => fld (c' s').cap 15 8 = (if fld v 15 8 = 0 then 1 else fld v 15 8) ∧ fld (c' s').cap 7 0 = fld v 7 0 ∧
      (c' s').presc = 0 ∧ (∀ k, k ≠ n → s'.counter k = s.counter k)) ∧
    (hostServed s a = true → hostReads s a = true → leads (.cntnValRead a n) s fun s' => s'.counters = s.counters ∧ (∀ k, k.val = n.val + 1 →
      (s'.latch a).snap.get n = (s.counter k).val) ∧ ∀ x, x ≠ a → s'.latch x = s.latch x) ∧
    (c.slots = [] ∨ c.arbiter = false → leads (.slotTimeConversion n) s fun s' => s' = s) ∧
    (c.slots ≠ [] → c.arbiter = true →
      leads (.slotTimeConversion n) s fun s' => c.slots.head?.map (fun e => some (slotCount s c e.1)) = some (c' s').cmpANew ∧
      (c' s').slots = c.slots ∧ (∀ k, k ≠ n → s'.counter k = s.counter k))

/-- The interrupt controller, each command with where it completes. doorbell (R271): the source is posted where it is routed to that core and enabled, is dropped where it is not enabled, and counts a mispost where it is routed elsewhere. interruptClaim (R274, R284, R299): at a boundary a running or waiting core with a chosen source sets ACTIVE, clears its count and starts the hold-off of its group where that is not 0, and enters the normal handler with the window slid by one CALL, or the fast one with the window as it was, with pc and st saved and CUR set; a withdrawn request of either class reports 0x3FF, counts in SPUR and consumes nothing; between boundaries, held in reset, halted or with no source, nothing changes. holdOff (R277, R278): the hold-off of one group ends. icClr (R269): count and PEND clear and ACTIVE stays. take, release (R282): the core's lock is held and free. mlockBreak (R282): a held lock that a rewrite waits for is broken; a free one is unchanged. mpClr (R285): the mispost count clears. debugHalt, debugResume (R305, R315): with debug unlocked a running core stops at a boundary with its pc, and a stopped one runs on; locked, nothing changes. The model's choices: logs 13, 43, 44. -/
def Obligations.InterruptController : Prop :=
  ∀ (a : Agent) (t : CoreId) (g : Fin 32) (x : SourceId) (s : State),
    let y := s.src x
    let c := s.core t
    (hostServed s a = true → y.target.toNat = t.val → y.routeEn = true → leads (.doorbell a t x) s fun s' => s'.src x = y.posted ∧ (∀ z, z ≠ x →
      s'.src z = s.src z) ∧ s'.ics = s.ics) ∧
    (hostServed s a = true → y.target.toNat = t.val → y.routeEn = false → leads (.doorbell a t x) s fun s' => s' = s) ∧
    (hostServed s a = true → y.target.toNat ≠ t.val → leads (.doorbell a t x) s fun s' => s'.srcs = s.srcs ∧
      (s'.ic t).mispost = satInc (s.ic t).mispost ∧ ∀ u, u ≠ t → s'.ic u = s.ic u) ∧
    (c.run = .running ∨ c.run = .waiting → c.boundary = true → (s.ic t).withdrawn = none → chosen s t = some x → y.fast = false → c.wdepth ≠ 8 →
      eccAt s t (vecBase t + 4 * x.val) = false → leads (.interruptClaim t) s fun s' => (s'.src x).active = true ∧ (s'.src x).count = 0 ∧
      (s'.src x).pend = false ∧ (s'.core t).na = true ∧ (s'.core t).ipc = c.pc ∧ (s'.core t).ist = c.st ∧ (s'.core t).pc = vecEntry s t x.val ∧
      (s'.ic t).curN = curWord (if y.cntEn then y.count.toNat else 1) x.val ∧ (s'.core t).run = .running ∧ (s'.core t).base = octUp c.base 2 ∧
      (s'.core t).wdepth = c.wdepth + 1 ∧
      (∀ k, (s'.ic t).holdRun.get k = ((s.ic t).holdRun.get k || decide (k.val = y.group.toNat ∧ (s.ic t).hold.get k ≠ 0)))) ∧
    (c.run = .running ∨ c.run = .waiting → c.boundary = true → (s.ic t).withdrawn = none → chosen s t = some x → y.fast = true →
      eccAt s t (vecBase t + 4 * x.val) = false → leads (.interruptClaim t) s fun s' => (s'.core t).fa = true ∧ (s'.core t).fpc = c.pc ∧
      (s'.core t).fst = c.st ∧ (s'.core t).pc = vecEntry s t x.val ∧ (s'.ic t).curF = curWord (if y.cntEn then y.count.toNat else 1) x.val ∧
      (s'.src x).active = true ∧ (s'.src x).count = 0 ∧ (s'.core t).base = c.base ∧ (s'.core t).wdepth = c.wdepth ∧
      (∀ k, (s'.ic t).holdRun.get k = ((s.ic t).holdRun.get k || decide (k.val = y.group.toNat ∧ (s.ic t).hold.get k ≠ 0)))) ∧
    (c.run = .running ∨ c.run = .waiting → c.boundary = true → (s.ic t).withdrawn = some true → c.ie = true → c.fa = false →
      eccAt s t (vecBase t + 4 * 0x3FF) = false → leads (.interruptClaim t) s fun s' => (s'.ic t).spurCnt = satInc (s.ic t).spurCnt ∧
      (s'.ic t).withdrawn = none ∧ (s'.ic t).curF = curWord 0 0x3FF ∧ (s'.core t).pc = vecEntry s t 0x3FF ∧ s'.srcs = s.srcs) ∧
    (c.run = .running ∨ c.run = .waiting → c.boundary = true → (s.ic t).withdrawn = some false → c.ie = true → c.fa = false → c.na = false →
      c.wdepth ≠ 8 → eccAt s t (vecBase t + 4 * 0x3FF) = false → leads (.interruptClaim t) s fun s' => (s'.ic t).spurCnt = satInc (s.ic t).spurCnt ∧
      (s'.ic t).withdrawn = none ∧ (s'.ic t).curN = curWord 0 0x3FF ∧ (s'.core t).pc = vecEntry s t 0x3FF ∧ (s'.core t).ipc = c.pc ∧
      s'.srcs = s.srcs ∧ (s'.ic t).holdRun = (s.ic t).holdRun) ∧
    (c.boundary = false ∨ c.run = .halted ∨ c.run = .inReset ∨ ((s.ic t).withdrawn = none ∧ chosen s t = none) →
      exec (.interruptClaim t) s = .next s) ∧
    (leads (.holdOff t g) s fun s' => (s'.ic t).holdRun.get g = false ∧ (∀ k, k ≠ g → (s'.ic t).holdRun.get k = (s.ic t).holdRun.get k) ∧
      s'.srcs = s.srcs ∧ ∀ u, u ≠ t → s'.ic u = s.ic u) ∧
    (hostServed s a = true → leads (.icClr a x) s fun s' => (s'.src x).count = 0 ∧ (s'.src x).pend = false ∧ (s'.src x).active = y.active ∧
      ∀ z, z ≠ x → s'.src z = s.src z) ∧
    (hostServed s a = true → (s.ic t).rewroteAt ≠ some s.dev.dtime → leads (.take a t) s fun s' => (s'.ic t).held = true ∧ (∀ u, u ≠ t →
      s'.ic u = s.ic u) ∧ s'.srcs = s.srcs) ∧
    (hostServed s a = true → (s.ic t).rewroteAt = some s.dev.dtime → leads (.take a t) s fun s' => (s'.ic t).held = (s.ic t).held ∧ (∀ u, u ≠ t →
      s'.ic u = s.ic u) ∧ s'.srcs = s.srcs) ∧
    (hostServed s a = true → s.sup.rewrites = [] → leads (.release a t) s fun s' => (s'.ic t).held = false ∧ s'.srcs = s.srcs) ∧
    ((s.ic t).held = true → s.sup.rewrites.any (fun e => e.1 = t || e.2.1 = t) = true → leads (.mlockBreak t) s fun s' => (s'.ic t).held = false ∧
      (s'.ic t).broken = true) ∧
    ((s.ic t).held = false → exec (.mlockBreak t) s = .next s) ∧
    (hostServed s a = true → leads (.mpClr a t) s fun s' => (s'.ic t).mispost = 0 ∧ (s'.ic t).spurCnt = (s.ic t).spurCnt ∧ ∀ u, u ≠ t →
      s'.ic u = s.ic u) ∧
    (s.sec.unlocked = true → c.boundary = true → c.run = .running → leads (.debugHalt t) s fun s' => (s'.core t).run = .debug ∧
      (s'.core t).pc = c.pc ∧ s.onlyCore s' t) ∧
    (s.sec.unlocked = false ∨ c.boundary = false ∨ c.run = .halted → exec (.debugHalt t) s = .next s) ∧
    (s.sec.unlocked = true → c.run = .debug ∨ c.run = .halted → leads (.debugResume t) s fun s' => (s'.core t).run = .running ∧
      (s'.core t).pc = c.pc ∧ s.onlyCore s' t) ∧
    (s.sec.unlocked = false ∨ c.run = .running → exec (.debugResume t) s = .next s)

/-- Supervision, each command with where it completes. decCtrl (R327): a policy core's write does nothing; another's sets VALID of the entries that were valid or pass validation, and clears the rest. heartbeatPeriod (R342): where all beat only the beat bits change; a judged core that did not beat is DOWN with MISS_EVT; outside the judged states nothing changes. takeG (R343): the serving core takes its group, whose lanes leave the auto-responder. rtnG (R345): the group's own core asks for it back, its lanes on the auto-responder. relG, returnTimeout (R345): the partner's release, or its time, ends the splice with the source routed back, or waits while a lock is held. coreRst (R347): a supervisor restarts a core that is DOWN, with rcause 4 where its group is spliced and 1 otherwise; a policy core's or the host's write does nothing. wardenTakeover (R16, R349, R407): with both supervisors failed in RUN the device enters HOLDOVER with every core in reset and every lane on its auto-responder. wardenAttempt, wardenAttemptTimeout (R349): an attempt starts every core with cause 2, or without an image ends in HALTED. wardenSuccess ends the takeover: STATE is the one that it interrupted, and no lane is on its auto-responder. orphanTimeout (R351): the group's lanes with a contract are hard reset to Disabled. protoLast (R336, R338): the lasting class ends. eccError (R340): a corrected error of PD memories, map, tables or vectors changes nothing, one of a core's memories counts in its window, and one of the shared RAM is logged once; an uncorrected one of a private memory, the shared RAM, a decode table, a vector entry or the map marks its word, logged where no access met it, one of a transmit buffer ends its message Failed, and one of a running loop engine rebuilds its state. evtLogRsv (R357): a core reserves a record, and the host none. takeG, returnTimeout, the warden's rows and orphanTimeout change nothing where their condition fails. The model's choices: logs 13, 40, 41, 43. -/
def Obligations.Supervision : Prop :=
  ∀ (a : Agent) (t u : CoreId) (g : GroupId) (l : LaneId) (v : Word) (site : EccSite) (n : Nat) (x : SourceId) (b : Bool) (st : DevState) (s : State),
    let c := s.core t
    let y := s.group g
    (hostServed s a = true → a = .core u → u.val < 4 → leads (.decCtrl a t v) s fun s' => s' = s) ∧
    (hostServed s a = true → a = .host ∨ a = .core 4 ∨ a = .core 5 → leads (.decCtrl a t v) s fun s' => s'.mem = s.mem ∧
      ∀ k : Fin 16, (s'.core t).valid.getLsbD k.val = (bitOf v k.val && (c.valid.getLsbD k.val || decide (entryError (entryWords s t k.val) = 0)))) ∧
    (watchdogRuns s = true → (∀ k, (s.core k).beat = true) →
      leads .heartbeatPeriod s fun s' => s' = { s with cores := s.cores.map fun (c : CoreState) => { c with beat := false, waited := decide (c.run = .waiting) } }) ∧
    (watchdogRuns s = true → s.dev.takeover = none → leads .heartbeatPeriod s fun s' => ∀ k, judged s k = true → (s.core k).beat = false →
      (s'.core k).down = true ∧ (s'.core k).missEvt = true ∧ (s'.core k).beat = false) ∧
    (s.dev.state = .boot ∨ s.dev.state = .loader ∨ s.dev.state = .halted → exec .heartbeatPeriod s = .next s) ∧
    (serverOf s g = t → c.run = .running → s.dev.takeover = none → leads (.takeG t g) s fun s' => (s'.group g).taken = true ∧
      (s'.group g).orphan = false ∧ ∀ m, groupOf m = g → (s'.lane m).pd.arActive = false) ∧
    (serverOf s g ≠ t ∨ c.run ≠ .running → exec (.takeG t g) s = .next s) ∧
    (coreOf g = t → y.spliced = true → c.run = .running → leads (.rtnG t g) s fun s' => (s'.group g).returning = true ∧ (s'.group g).taken = false ∧
      (s'.group g).spliced = true ∧ ∀ m, groupOf m = g → (s'.lane m).pd.arActive = true) ∧
    (coreOf (partnerOf g) = t → y.spliced = true → y.returning = true → c.run = .running → rewriteWaits s g = false → (s.ic (coreOf g)).held = false →
      (s.ic (coreOf (partnerOf g))).held = false → leads (.relG t g) s fun s' => (s'.group g).spliced = false ∧
      (s'.src (spliceSource g)).target = BitVec.ofNat 3 g.val) ∧
    (coreOf (partnerOf g) = t → y.spliced = true → y.returning = true → c.run = .running → rewriteWaits s g = false → (s.ic (coreOf g)).held = true ∨
      (s.ic (coreOf (partnerOf g))).held = true →
      leads (.relG t g) s fun s' => s'.sup.rewrites = s.sup.rewrites ++ [(coreOf (partnerOf g), coreOf g, g, true)] ∧ s'.groups = s.groups ∧
      s'.srcs = s.srcs) ∧
    (y.spliced = true → y.returning = true → rewriteWaits s g = false → (s.ic (coreOf g)).held = false → (s.ic (coreOf (partnerOf g))).held = false →
      leads (.returnTimeout g) s fun s' => (s'.group g).spliced = false ∧ (s'.src (spliceSource g)).target = BitVec.ofNat 3 g.val) ∧
    (y.spliced = false ∨ y.returning = false → exec (.returnTimeout g) s = .next s) ∧
    (hostServed s a = true → a = .host ∨ (a = .core u ∧ u.val < 4) → leads (.coreRst a v) s fun s' => s' = s) ∧
    (hostServed s a = true → coreOf g = t ∨ 4 ≤ t.val → a = .core u → 4 ≤ u.val → u ≠ t → v = BitVec.ofNat 32 (2 ^ t.val) → c.down = true →
      c.grace = false → c.out = false → s.dev.state = .run → leads (.coreRst a v) s fun s' => (s'.core t).run = .running ∧ (s'.core t).pc = 0 ∧
      (s'.core t).rcause = (if coreOf g = t ∧ y.spliced = true then 4 else 1) ∧ (∀ k, k ≠ t → (s'.core k).rcause = (s.core k).rcause)) ∧
    (supFailed s 4 = true → supFailed s 5 = true → s.dev.takeover = none → s.dev.halting = false → s.dev.state = .run →
      leads .wardenTakeover s fun s' => s'.dev.takeover = some .run ∧ s'.dev.state = .holdover ∧ s'.sup.takeovers = satInc s.sup.takeovers ∧
      s'.sup.attempt = 0 ∧ (∀ k, (s'.core k).run = .inReset) ∧ ∀ m, (s'.lane m).pd.arActive = true) ∧
    (supFailed s 4 = false ∨ supFailed s 5 = false → exec .wardenTakeover s = .next s) ∧
    (s.dev.takeover.isSome = true → s.dev.halting = false → s.sup.attempt = 0 → s.dev.state ≠ .halted →
      leads .wardenAttempt s fun s' => ((storeVerdict s).isRight = true → s'.dev = s.dev ∧ s'.sup.attempt = 1 ∧ ∀ k, (s'.core k).run = .running ∧
      (s'.core k).rcause = 2 ∧ (s'.core k).out = false) ∧
      ((storeVerdict s).isLeft = true → (s'.dev.state = .halted ∨ s'.dev.trans = .halting 0) ∧ s'.sup.failCause = 1 ∧
        ∀ k, (s'.core k).run = .inReset)) ∧
    (s.dev.takeover = none ∨ s.sup.attempt ≠ 0 → exec .wardenAttempt s = .next s) ∧
    (s.dev.takeover = some st → wardenDone s = true → leads .wardenSuccess s fun s' => s'.dev.takeover = none ∧ s'.sup.attempt = 0) ∧
    (s.dev.takeover = some .run → s.dev.trans = .none → s.dev.run = true → s.dev.watch = false → wardenDone s = true →
      leads .wardenSuccess s fun s' => s'.dev.state = .run ∧ s'.dev.trans = .none ∧ ∀ m, (s'.lane m).pd.arActive = false) ∧
    (s.dev.takeover = some st → st = .watch ∨ st = .ready → s.dev.trans = .none → s.dev.run = decide (st = .watch) →
      s.dev.watch = decide (st = .watch) → s.dev.check = none → wardenDone s = true → leads .wardenSuccess s fun s' => s'.dev.state = st ∧
      ∀ m, (s'.lane m).pd.arActive = false) ∧
    (wardenDone s = false → exec .wardenSuccess s = .next s) ∧
    (s.dev.takeover.isSome = true → s.dev.halting = false → s.sup.attempt ≠ 0 → s.dev.state ≠ .halted →
      leads .wardenAttemptTimeout s fun s' => (storeVerdict s).isLeft = true → (s'.dev.state = .halted ∨ s'.dev.trans = .halting 0) ∧
      ∀ k, (s'.core k).run = .inReset) ∧
    (s.dev.takeover.isSome = true → s.dev.halting = false → s.sup.attempt = 1 ∨ s.sup.attempt = 2 → s.sup.fails.length ≤ 1 →
      leads .wardenAttemptTimeout s fun s' => (storeVerdict s).isRight = true → s'.sup.failCause = 3 ∧ s'.sup.attempt = s.sup.attempt + 1 ∧
      s'.dev = { s.dev with logHead := s'.dev.logHead, hostIrq := s'.dev.hostIrq } ∧ ∀ k, (s'.core k).run = .running ∧ (s'.core k).rcause = 2) ∧
    (s.dev.takeover = none ∨ s.sup.attempt = 0 → exec .wardenAttemptTimeout s = .next s) ∧
    (y.orphan = true → leads (.orphanTimeout g) s fun s' => ∀ m, (groupOf m = g → (s.lane m).con.valid = true → (s.lane m).cc.attached = true →
      ((s'.lane m).pd.hrThen = .disable ∧ (s'.lane m).pd.hrBusy = true) ∨ (s'.lane m).cc.st = .disabled) ∧ (groupOf m ≠ g ∨
      (s.lane m).con.valid = false → s'.lane m = s.lane m)) ∧
    (y.orphan = false → exec (.orphanTimeout g) s = .next s) ∧
    (hostServed s a = true → s.fusedOff l = false → (s.lane l).fw.protoLast = true →
      leads (.protoLast a l) s fun s' => (s'.lane l).fw.protoLast = false ∧ (s'.lane l).fw.proto = [] ∧ ((s.lane l).cc.st = .disabled →
      (s'.lane l).cc.st = unattachedState s' l) ∧ s.onlyLane s' l) ∧
    (site = .pdReceive l ∨ (b = false ∧ (site = .pdTransmit l ∨ site = .swathMap n ∨ site = .decodeTable t n ∨ site = .vectorEntry t x ∨
      site = .loopEngine l)) → leads (.eccError site b) s fun s' => s' = s) ∧
    (site = .decodeTable t n → b = true → leads (.eccError site b) s fun s' => (s'.core t).eccBad.contains (n / 4 * 4) = true ∧ s'.mem = s.mem ∧
      s.onlyCore s' t) ∧
    (site = .swathMap n → b = true → leads (.eccError site b) s fun s' => s'.swath.eccBad.contains (n / 4 * 4) = true ∧ s'.mem = s.mem ∧
      s'.lanes = s.lanes) ∧
    (site = .coreMemory t n b → (privAddr t n).isSome = true → leads (.eccError site b) s fun s' => (∀ k, privAddr t n = some k →
      (s'.core t).eccBad.contains (k / 4 * 4) = true) ∧ s'.dev.logHead = (if b then s.dev.logHead + 1 else s.dev.logHead) ∧ s'.lanes = s.lanes ∧
      ∀ k, k ≠ t → s'.core k = s.core k) ∧
    (site = .coreMemory t n true ∨ site = .coreMemory t n false → b = false → (privAddr t n).isSome = true →
      leads (.eccError site b) s fun s' => (s'.core t).ecc = pushEvent s.dev.dtime c.ecc ∧ (s'.core t).eccBad = c.eccBad ∧ (s'.core t).pc = c.pc ∧
      s'.lanes = s.lanes ∧ ∀ k, k ≠ t → s'.core k = s.core k) ∧
    (site = .sharedRam n none ∨ site = .sharedRam n (some .host) → b = true →
      leads (.eccError site b) s fun s' => s'.sup.eccShared.contains (n / 4 * 4) = true ∧ s'.lanes = s.lanes ∧ s'.cores = s.cores ∧
      s'.dev.logHead = s.dev.logHead + 1) ∧
    (site = .sharedRam n (some (.core t)) → b = true → leads (.eccError site b) s fun s' => s'.sup.eccShared.contains (n / 4 * 4) = true ∧
      s'.lanes = s.lanes ∧ s'.cores = s.cores ∧ s'.mem = s.mem ∧ s'.dev = s.dev) ∧
    (site = .sharedRam n none → b = false → leads (.eccError site b) s fun s' => s'.sup.eccLogged.contains (n / 4 * 4) = true ∧
      s'.sup.eccShared = s.sup.eccShared ∧ s'.lanes = s.lanes ∧ s'.cores = s.cores ∧
      s'.dev.logHead = (if s.sup.eccLogged.contains (n / 4 * 4) then s.dev.logHead else s.dev.logHead + 1)) ∧
    (site = .vectorEntry t x → b = true → leads (.eccError site b) s fun s' => (s'.core t).eccBad.contains ((vecBase t + 4 * x.val) / 4 * 4) = true ∧
      s'.mem = s.mem ∧ s.onlyCore s' t) ∧
    (site = .loopEngine l → b = true → (s.lane l).conv.on = true → leads (.eccError site b) s fun s' => (s'.lane l).conv.iu = 0 ∧
      (s'.lane l).conv.slew = (s.lane l).conv.slew ∧ (s'.lane l).conv.on = true ∧ (s'.lane l).belay = (s.lane l).belay ∧ s'.mem = s.mem ∧ ∀ k, k ≠ l →
      s'.lane k = s.lane k) ∧
    (site = .loopEngine l → b = true → (s.lane l).conv.on = false → leads (.eccError site b) s fun s' => s' = s) ∧
    (site = .pdTransmit l → b = true → (s.lane l).pd.queue ≠ [] → (s.lane l).pd.arActive = true → (s.lane l).pd.queue.all (fun m => !m.begun) = true →
      leads (.eccError site b) s fun s' => (s'.lane l).pd.queue.length = (s.lane l).pd.queue.length - 1 ∧ (s'.lane l).pd.lastResult = 2 ∧
      (s'.lane l).pd.txDone = true ∧ some (s'.lane l).pd.lastTag = (s.lane l).pd.queue.head?.map (·.tag)) ∧
    (a = .core u → leads (.evtLogRsv a) s fun s' => s'.dev.logHead = s.dev.logHead + 1 ∧ s'.mem = s.mem ∧ s'.lanes = s.lanes) ∧
    (a = .host → leads (.evtLogRsv a) s fun s' => s' = s)

/-- The tether, each command with where it completes. linkUp (R361, R362, R369): the port is up with TETHER in HOST_IRQ, and on TU an unplaced device takes the position after its neighbour's, or with a neighbour at 7 POS_ERR and none. linkDown (R361): the port is down and the position stays. acqTimeout (R362, R369): without TU the device has ACQ and position 0. frameStart (R364, R371): the hitch's frame carries DTIME's frame number, its position, N, HOLD and 256 results. downstreamFrame (R363, R365, R371): a hitch ignores a frame of its own or a higher position or with a wrong CRC; a hitch in HOLDOVER yields to one of lower position too, and keeps its CEILs; any other device in RUN follows a good one, takes its lanes' CEIL and sends the results on. upstreamFrame (R364, R366): this device's slot joins the frame, and at the hitch the reported slots are taken. timingMarker (R368): a returned marker away from the hitch measures that link, and one that arrived from the hitch is kept for its frame. timeLock (R369): follows, is always held by the hitch, and is not gained with DTIME apart. watchBeacon (R369): in WATCH takes the error and keeps the rate within ±45 ppm. hitchSuccession (R371, R372): a live device with a position becomes hitch under B_SEG with TIME_LOCK. solo (R369, R374): SOLO stores and gives position 0 of a stack of one; locked it does nothing. tunnel (R370, R389, R390): result 8 toward an absent position and 3 in LOADER, toward the device itself the answer at once (shown by a read of DEV_ID), and otherwise it waits for its answer. linkDown, frameStart, timingMarker, watchBeacon and hitchSuccession change nothing where the port is down, the device is not hitch, SOLO is set or the state is another. The model's choices: logs 13, 49, 50, 52, 53, 97, 99, 100. -/
def Obligations.TetherStack : Prop :=
  ∀ (a : Agent) (p : Port) (nb : Neighbour) (f : DownFrame) (w : UpFrame) (e : Int) (ms : MarkerStamp) (t1 t4 : Nat) (b : Bool) (tag : Byte) (v : Word) (q j : Fin 8) (s : State),
    let t := s.tether
    let hd := hspiHeader (memBytes s.mem mbxBuf 8)
    let up : Bool := match p with | .tu => t.tuUp | .td => t.tdUp
    (s.solo = false → up = false → leads (.linkUp p nb) s fun s' => (match p with | .tu => s'.tether.tuUp | .td => s'.tether.tdUp) = true ∧
      s'.dev.hostIrq.getLsbD 10 = true ∧ (p = .tu → t.pos = none → t.posErr = false → nb.pos = some q → (q.val < 7 →
      s'.tether.pos.map (·.val) = some (q.val + 1) ∧ s'.tether.posErr = false) ∧ (q.val = 7 → s'.tether.pos = none ∧ s'.tether.posErr = true)) ∧
      s.keepsLanes s') ∧
    (s.solo = false → up = true → leads (.linkDown p) s fun s' => (match p with | .tu => s'.tether.tuUp | .td => s'.tether.tdUp) = false ∧
      s'.tether.pos = t.pos ∧ s'.dev.hostIrq.getLsbD 10 = true ∧ s'.lanes = s.lanes) ∧
    (up = false ∨ s.solo = true → exec (.linkDown p) s = .next s) ∧
    (t.tuUp = false → s.solo = false → t.pos = none → t.posErr = false → leads .acqTimeout s fun s' => s'.tether.acq = true ∧ s'.tether.pos = some 0 ∧
      s'.dev = s.dev ∧ s.keepsLanes s') ∧
    (t.hitch = true → s.live = true → s.solo = false → leads .frameStart s fun s' => (∃ d, s'.tether.down = some d ∧
      d.fseq = BitVec.ofNat 32 (s.dev.dtime / 100000) ∧ d.hitchPos = t.pos.getD 0 ∧ d.n = t.n ∧ d.hold = decide (s.dev.state = .holdover) ∧
      d.results.length = 256) ∧ s'.lanes = s.lanes ∧ s'.dev = s.dev) ∧
    (t.hitch = false ∨ s.solo = true → exec .frameStart s = .next s) ∧
    (s.solo = true ∨ s.dev.state = .watch ∨ (t.hitch = true ∧ (f.crcOk = false ∨ t.hitchPos ≤ f.hitchPos)) →
      exec (.downstreamFrame p f) s = .next s) ∧
    (s.solo = false → s.dev.state = .run → t.hitch = false ∨ f.hitchPos < t.hitchPos → f.crcOk = true → f.resValid = true → f.hold = false →
      t.excluded = false → versionsApart f.version.toNat (ownVersion s) = false → f.pose = none → f.records = [] →
      leads (.downstreamFrame p f) s fun s' => s'.tether.hitch = false ∧ s'.tether.heard = true ∧ s'.tether.facing = p ∧
      s'.tether.hitchPos = f.hitchPos ∧ s'.tether.n = f.n ∧ s'.bus.frozen = false ∧ (∀ m, ∀ x, f.results[32 * ownPos s + m.val]? = some x →
      (s'.lane m).budget.ceil = x.1) ∧ s'.tether.down.map (·.results) = some f.results) ∧
    (s.solo = false → s.dev.state = .holdover → t.hitch = true → f.hitchPos < t.hitchPos → f.crcOk = true → f.pose = none → f.records = [] →
      leads (.downstreamFrame p f) s fun s' => s'.tether.hitch = false ∧ s'.tether.facing = p ∧ s'.tether.hitchPos = f.hitchPos ∧
      s'.dev.state = .holdover ∧ ∀ m, (s'.lane m).budget.ceil = (s.lane m).budget.ceil) ∧
    (s.solo = false → s.dev.state ≠ .watch → t.hitch = false → t.pos = some q → w.records = [] →
      leads (.upstreamFrame p w) s fun s' => (∃ d, s'.tether.up = some d ∧ d.slots = w.slots.filter (fun x => x.pos ≠ q) ++ [ownSlot s q]) ∧
      s.keepsLanes s') ∧
    (s.solo = false → s.dev.state ≠ .watch → t.hitch = true → w.crcOk = true → w.records = [] →
      leads (.upstreamFrame p w) s fun s' => (∀ k, s'.tether.slots.get k = ((w.slots.find? fun x => x.pos = k).or (t.slots.get k))) ∧
      s.keepsLanes s') ∧
    (ms = .returned t1 t4 → t.hitch = true ∨ p ≠ t.facing → s.solo = false → s.dev.state ≠ .watch →
      leads (.timingMarker p ms) s fun s' => s'.tether.linkTime p = (t.linkTime p).measure t1 t4 ∧ s'.tether.marked = t.marked ∧ s'.dev = s.dev ∧
      s'.lanes = s.lanes) ∧
    (ms = .arrived t1 → t.hitch = false → p = t.facing → s.solo = false → s.dev.state ≠ .watch →
      leads (.timingMarker p ms) s fun s' => s'.tether.marked = some t1 ∧ s'.tether.linkTime p = t.linkTime p ∧ s'.dev = s.dev ∧ s'.lanes = s.lanes) ∧
    (s.solo = true ∨ s.dev.state = .watch → exec (.timingMarker p ms) s = .next s) ∧
    (leads (.timeLock b) s fun s' => s'.tether.timeLock = ((b && !t.apart) || t.hitch) ∧ s'.lanes = s.lanes) ∧
    (s.dev.state = .watch → s.solo = false → leads (.watchBeacon e) s fun s' => s'.tether.err = sat16 e ∧ -45000000 ≤ s'.tether.rate ∧
      s'.tether.rate ≤ 45000000 ∧ s'.dev = { s.dev with fresh := s'.dev.fresh } ∧ s'.lanes = s.lanes) ∧
    (s.dev.state ≠ .watch ∨ s.solo = true → exec (.watchBeacon e) s = .next s) ∧
    (s.live = true → t.hitch = false → s.solo = false → t.pos.isSome = true → leads .hitchSuccession s fun s' => s'.tether.hitch = true ∧
      s'.tether.succ = true ∧ s'.tether.bSeg = segmentBudget s ∧ s'.tether.timeLock = true ∧ some s'.tether.hitchPos = t.pos ∧
      s'.dev.hostIrq.getLsbD 10 = true ∧ s'.lanes = s.lanes) ∧
    (t.hitch = true ∨ s.solo = true ∨ t.pos = none → exec .hitchSuccession s = .next s) ∧
    (hostServed s a = true → s.locked = false → leads (.solo a v) s fun s' => s'.tether.ctrl = v &&& 0xF01 ∧ (bitOf v 0 = true →
      s'.tether.acq = true ∧ s'.tether.pos = some 0 ∧ s'.tether.n = 1) ∧ (bitOf v 0 = false → s'.tether.pos = t.pos) ∧ s'.lanes = s.lanes) ∧
    (hostServed s a = true → s.locked = true → leads (.solo a v) s fun s' => s' = s) ∧
    (hostServed s a = true → mbxServed s = true → s.mbx.busy = false → s.dev.state = .run →
      t.pos ≠ some ⟨fld (vecAt s.mbx.arg 0) 2 0, by unfold fld; omega⟩ →
      tunnelKnown s ⟨fld (vecAt s.mbx.arg 0) 2 0, by unfold fld; omega⟩ = some false → leads (.tunnel a tag) s fun s' => s'.mbx.result = 8 ∧
      s'.mbx.busy = false ∧ s'.mbx.done = true ∧ s'.mbx.tag = tag ∧ s'.tether = s.tether) ∧
    (hostServed s a = true → mbxServed s = true → s.mbx.busy = false → s.dev.state = .run → fld (vecAt s.mbx.arg 0) 2 0 = j.val → t.pos ≠ some j →
      tunnelKnown s j = some true → leads (.tunnel a tag) s fun s' => s'.mbx.busy = true ∧ s'.mbx.tag = tag ∧ s'.mbx.code = 4 ∧
      s'.tether.tunnelOut = some (j, BitVec.ofNat 8 (32 * ownPos s + tag.toNat % 32)) ∧ s'.mem = s.mem ∧ s'.lanes = s.lanes) ∧
    (hostServed s a = true → mbxServed s = true → s.mbx.busy = false → s.dev.state = .run → fld (vecAt s.mbx.arg 0) 2 0 = j.val → t.pos = some j →
      hspiOn s = true → hd.crcOk = true → hd.cmd = 3 → hd.addr = 0 → hd.len = 1 → leads (.tunnel a tag) s fun s' => s'.mbx.result = 0 ∧
      s'.mbx.busy = false ∧ s'.mbx.done = true ∧ s'.mbx.tag = tag ∧ s'.tether = s.tether ∧ s'.lanes = s.lanes ∧ s'.mbx.res0 = 10 ∧
      memBytes s'.mem (mbxBuf + 0x2000) 10 = [0] ++ wordBytes [devId s] ++ wordBytes [crc32 (wordBytes [devId s])] ++ [0]) ∧
    (hostServed s a = true → s.mbx.busy = false → s.dev.state = .loader → leads (.tunnel a tag) s fun s' => s'.mbx.result = 3 ∧ s'.mbx.busy = false ∧
      s'.tether = s.tether)

/-- The host port, each command with where it completes. hspiWrite (R379): nothing with the lines off; ABORTED for fewer than 8 bytes; REFUSED with code 1 and nothing driven for a wrong header CRC; code 4 for two words at 0xFFFC; and a whole write of one word with a right CRC acts as that register write and drives 0. hspiRead (R380): DEV_ID drives status, word, CRC and ending, and an address in no region code 5. hspiClr (R383) clears ABORTED, REFUSED and LAST. registerWrite (R6): off a word or outside every region nothing changes; shared RAM changes in its four bytes alone; CC_CTRL of a lane that is fitted and unlocked stores its fields, and otherwise nothing changes. dtimeLoRead (R12), tallyQLoRead (R130), poseERead (R231), ppsLoRead (R228): each latches its other words for its reader alone and changes nothing else. vsysMon (R431): WARN_V is stored between 80 and 250 where unlocked, and WARN_EVT is W1C. The model's choices: log 13. -/
def Obligations.HostPort : Prop :=
  ∀ (a x : Agent) (l : LaneId) (bs : List Byte) (k : Option ReadCut) (n : Nat) (v : Word) (s : State),
    let h := hspiHeader bs
    let out (s' : State) : State := s'.modDev fun d => { d with hspiOut := s.dev.hspiOut, hspiOnes := s.dev.hspiOnes }
    (hspiOn s = false → leads (.hspiWrite bs) s fun s' => s'.dev.hspiOut = [] ∧ out s' = s) ∧
    (hspiOn s = true → bs.length < 8 → leads (.hspiWrite bs) s fun s' => s'.dev.hspiOut = [] ∧ s'.dev.hspiAborted = satInc s.dev.hspiAborted ∧
      s'.lanes = s.lanes ∧ s'.mem = s.mem) ∧
    (hspiOn s = true → 8 ≤ bs.length → h.crcOk = false → leads (.hspiWrite bs) s fun s' => s'.dev.hspiOut = [] ∧ s'.dev.hspiOnes = false ∧
      s'.dev.hspiRefused = satInc s.dev.hspiRefused ∧ s'.dev.hspiLast = 1 ∧ s'.lanes = s.lanes ∧ s'.mem = s.mem) ∧
    (hspiOn s = true → 8 ≤ bs.length → h.crcOk = true → h.cmd = 2 → h.addr = 0xFFFC → 12 + 4 * h.len ≤ bs.length → h.len = 2 →
      leads (.hspiWrite bs) s fun s' => s'.dev.hspiOut = [4] ∧ s'.dev.hspiOnes = true ∧ s'.dev.hspiRefused = satInc s.dev.hspiRefused ∧
      s'.dev.hspiLast = 4 ∧ s'.lanes = s.lanes ∧ s'.mem = s.mem) ∧
    (hspiOn s = true → 12 + 4 * h.len ≤ bs.length → h.len = 1 → h.cmd = 2 → hspiTest s h = 0 → payloadWord bs 1 = crc32 ((bs.drop 8).take 4) →
      leads (.hspiWrite bs) s fun s' => s' = (s.writeReg .host h.addr (payloadWord bs 0)).modDev fun d => { d with hspiOut := if hspiOn (s.writeReg .host h.addr (payloadWord bs 0)) then [0] else [], hspiOnes := hspiOn (s.writeReg .host h.addr (payloadWord bs 0)) }) ∧
    (hspiOn s = true → 8 ≤ bs.length → h.crcOk = true → h.cmd = 3 → h.addr = 0 → h.len = 1 → k = none →
      leads (.hspiRead bs k) s fun s' => s'.dev.hspiOut = [0] ++ wordBytes [devId s] ++ wordBytes [crc32 (wordBytes [devId s])] ++ [0] ∧
      s'.dev.hspiOnes = false ∧ out s' = s) ∧
    (hspiOn s = true → 8 ≤ bs.length → h.crcOk = true → h.cmd = 3 → h.addr = 0x40000 → h.len = 1 →
      leads (.hspiRead bs k) s fun s' => s'.dev.hspiOut = [5] ∧ s'.dev.hspiOnes = true ∧ s'.dev.hspiLast = 5 ∧ s'.lanes = s.lanes ∧ s'.mem = s.mem) ∧
    (hspiOn s = true → 8 ≤ bs.length → h.cmd = 3 → hspiTest s h = 0 → k = some .turnaround → leads (.hspiRead bs k) s fun s' => s'.dev.hspiOut = [] ∧
      s'.dev.hspiAborted = satInc s.dev.hspiAborted ∧ s'.lanes = s.lanes ∧ s'.latches = s.latches ∧ s'.mem = s.mem) ∧
    (hostServed s a = true → leads (.hspiClr a) s fun s' => s' = { s with dev := { s.dev with hspiAborted := 0, hspiRefused := 0, hspiLast := 0 } }) ∧
    (hostServed s a = true → n % 4 ≠ 0 ∨ (0x40000 ≤ n ∧ n < 0x100000) ∨ 0x980000 ≤ n → leads (.registerWrite a n v) s fun s' => s' = s) ∧
    (hostServed s a = true → n % 4 = 0 → 0x104000 ≤ n → n < 0x2C0000 → leads (.registerWrite a n v) s fun s' => memRead32 s'.mem n = v ∧
      s.keepsMemBut s' n 4 ∧ s'.lanes = s.lanes ∧ s'.dev = s.dev) ∧
    (hostServed s a = true → n = 0x20010 + 0x1000 * l.val → s.locked = false → s.fusedOff l = false →
      leads (.registerWrite a n v) s fun s' => (s'.lane l).cfg.ccCtrl = v &&& 0x00077F7F ∧ s.onlyLane s' l) ∧
    (hostServed s a = true → n = 0x20010 + 0x1000 * l.val → s.locked = true ∨ s.fusedOff l = true → leads (.registerWrite a n v) s fun s' => s' = s) ∧
    (hostReads s a = true → leads (.dtimeLoRead a) s fun s' => (s'.latch a).dtimeHi = BitVec.ofNat 32 (s.dev.dtime / 2 ^ 32) ∧ (x ≠ a →
      s'.latch x = s.latch x) ∧ { s' with latches := s.latches } = s) ∧
    (hostReads s a = true → s.fusedOff l = false →
      leads (.tallyQLoRead a l) s fun s' => (s'.latch a).tallyHi.get l = BitVec.ofInt 32 (Int.fdiv (s.lane l).tally.q (2 ^ 32)) ∧ (x ≠ a →
      s'.latch x = s.latch x) ∧ { s' with latches := s.latches } = s) ∧
    (hostReads s a = true → leads (.poseERead a) s fun s' => (s'.latch a).poseN = mmOf s.swath.n ∧
      (s'.latch a).poseHdg = BitVec.ofNat 32 s.swath.hdg ∧ (s'.latch a).poseSpd = poseSpd s.swath ∧ (x ≠ a → s'.latch x = s.latch x) ∧
      { s' with latches := s.latches } = s) ∧
    (hostReads s a = true → leads (.ppsLoRead a) s fun s' => (s'.latch a).ppsHi = BitVec.ofNat 32 (s.swath.pps / 2 ^ 32) ∧ (x ≠ a →
      s'.latch x = s.latch x) ∧ { s' with latches := s.latches } = s) ∧
    (hostServed s a = true →
      leads (.vsysMon a v) s fun s' => s'.dev.warnV.toNat = (if s.locked then s.dev.warnV.toNat else clampNat 80 250 (fld v 15 8)) ∧
      s'.dev.warnEvt = (s.dev.warnEvt && !bitOf v 1) ∧ s'.dev.vsysWarn = s.dev.vsysWarn ∧ s'.lanes = s.lanes)

/-- Mailbox commands and security, each command with where it completes. check (R389, R392): in READY result 0 with DEV_CHECK telling what fails, 3 in RUN or LOADER and 1 in HOLDOVER with DEV_CHECK unchanged. imageWrite (R389, R398, R399, R400): 0x66 for a first chunk below 512 bytes, 0x6D during ACTIVATE and R399's result for a refused header (0x63 apart, which may raise an alarm), all with the store unchanged; an accepted first chunk or one before the last stores its bytes alone, reports the total and ends with 0; the last ends with the verdict of R400, and where that is 0 the image is committed, stored as OK and pending. activate (R389, R402, R403): 0x6C with nothing to activate; otherwise it goes on, with S0's order of cores from core 0. activateNextCore (R403): the next core of C0 to C3, S1, S0 follows with cause 3; behind S0 ACTIVATING and ACT_PEND clear, the running version is the stored one and the command ends with 0; with none running nothing changes. fuseProgram (R413): 4 for no words, 0x40 for a programming voltage below its limit, both with no fuse burnt; one blank word is burnt with its code and reads as programmed. audit (R416): result 0 with every word kept where the margin reads agree. meas (R417): takes the voltage. dbgPass7 (R418): with mode 1 the pass of DBG_HASH unlocks, is logged and cleared, and any other, one too soon after a failure and any with mode 2 counts, raises the debug alarm and clears the pass; with mode 0 it is only stored. relock (R417, R418): debug locks. alarmPolicy (R417): each field is the larger of the written and the fused one. secCtrl (R417): AUTH_MODE 3 stores 0, and a locked device keeps it. The model's choices: logs 13, 17, 18, 60, 111. -/
def Obligations.CommandsAndSecurity : Prop :=
  ∀ (a : Agent) (tag : Byte) (mv : BitVec 12) (v : Word) (b : Bool) (u : CoreId) (i : Fin 512) (s : State),
    let o := s.mbx.arg[0].toNat
    let k := s.mbx.arg[1].toNat
    let c : State := s.storeImage o (bytesAt (chunkBytes s) 0 k)
    let w : State := s.modSec fun x => { x with dbgPass := x.dbgPass.set 7 v }
    (hostServed s a = true → mbxServed s = true → s.mbx.busy = false → s.dev.state = .ready → leads (.check a tag) s fun s' => s'.mbx.busy = false ∧
      s'.mbx.done = true ∧ s'.mbx.tag = tag ∧ s'.mbx.result = 0 ∧ s'.dev.devCheck = checkWord false true 0 (runFails s false true) ∧
      (runFails s false true ≠ [] → s'.dev.hostIrq.getLsbD 1 = true) ∧ s'.lanes = s.lanes) ∧
    (hostServed s a = true → mbxServed s = true → s.mbx.busy = false → s.dev.state = .run ∨ s.dev.state = .loader →
      leads (.check a tag) s fun s' => s'.mbx.busy = false ∧ s'.mbx.done = true ∧ s'.mbx.tag = tag ∧ s'.mbx.result = 3 ∧
      s'.dev.devCheck = s.dev.devCheck ∧ s'.lanes = s.lanes) ∧
    (hostServed s a = true → s.mbx.busy = false → s.dev.state = .holdover → leads (.check a tag) s fun s' => s'.mbx.busy = false ∧
      s'.mbx.done = true ∧ s'.mbx.tag = tag ∧ s'.mbx.result = 1 ∧ s'.dev.devCheck = s.dev.devCheck) ∧
    (hostServed s a = true → mbxServed s = true → s.mbx.busy = false → s.dev.state = .ready → s.image.activating = false → s.mbx.arg[0] = 0 →
      s.mbx.arg[1].toNat < 512 → leads (.imageWrite a ⟨tag, b⟩) s fun s' => s'.mbx.busy = false ∧ s'.mbx.done = true ∧ s'.mbx.tag = tag ∧
      s'.mbx.result = 0x66 ∧ s'.image = s.image) ∧
    (hostServed s a = true → s.image.activating = true → s.mbx.busy = true → s.mbx.code = 0x11 →
      leads (.imageWrite a ⟨tag, b⟩) s fun s' => s'.mbx = { s.mbx with done := true, result := 0x6D } ∧ s'.dev.hostIrq.getLsbD 2 = true ∧
      s'.image = s.image ∧ s'.lanes = s.lanes ∧ s'.cores = s.cores) ∧
    (hostServed s a = true → mbxServed s = true → s.mbx.busy = false → s.dev.state = .ready → s.image.activating = false → s.image.writing = true →
      o = s.image.accepted → 512 ≤ o → k % 16 = 0 → k ≤ 16384 → o + k < 512 + imgLength (storeBytes s) →
      leads (.imageWrite a ⟨tag, b⟩) s fun s' => s'.mbx.busy = false ∧ s'.mbx.done = true ∧ s'.mbx.tag = tag ∧ s'.mbx.result = 0 ∧
      s'.image.accepted = o + k ∧ s'.mbx.res0 = BitVec.ofNat 32 (o + k) ∧ s'.image.writing = true ∧ (∀ j, j < k →
      storeBytes s' (o + j) = memRead s.mem (mbxBuf + j)) ∧ ∀ z, z < o ∨ o + k ≤ z → storeBytes s' z = storeBytes s z) ∧
    (hostServed s a = true → mbxServed s = true → s.mbx.busy = false → s.dev.state = .ready → s.image.activating = false → o = 0 → 512 ≤ k →
      k ≤ 16384 → k < 512 + imgLength (chunkBytes s) → headerRefusal s (chunkBytes s) true = none →
      leads (.imageWrite a ⟨tag, b⟩) s fun s' => s'.mbx.busy = false ∧ s'.mbx.done = true ∧ s'.mbx.tag = tag ∧ s'.mbx.result = 0 ∧
      s'.image.accepted = k ∧ s'.mbx.res0 = BitVec.ofNat 32 k ∧ s'.image.writing = true ∧ s'.image.storeOk = false ∧ (∀ j, j < k →
      storeBytes s' j = chunkBytes s j) ∧ ∀ z, k ≤ z → storeBytes s' z = storeBytes s z) ∧
    (hostServed s a = true → mbxServed s = true → s.mbx.busy = false → s.dev.state = .ready → s.image.activating = false → o = 0 → 512 ≤ k →
      k ≤ 16384 → k ≤ 512 + imgLength (chunkBytes s) → headerRefusal s (chunkBytes s) true ≠ none → headerRefusal s (chunkBytes s) true ≠ some 0x63 →
      leads (.imageWrite a ⟨tag, b⟩) s fun s' => s'.mbx.busy = false ∧ s'.mbx.done = true ∧ s'.mbx.tag = tag ∧
      some s'.mbx.result = headerRefusal s (chunkBytes s) true ∧ s'.image.store = s.image.store ∧ s'.image.storeOk = s.image.storeOk ∧
      s'.cores.map (·.rcause) = s.cores.map (·.rcause)) ∧
    (hostServed s a = true → mbxServed s = true → s.mbx.busy = false → s.dev.state = .ready → s.image.activating = false → s.image.writing = true →
      o = s.image.accepted → 512 ≤ o → k % 16 = 0 → k ≤ 16384 → o + k = 512 + imgLength (storeBytes s) → s.image.authFails = [] →
      leads (.imageWrite a ⟨tag, b⟩) s fun s' => s'.mbx.busy = false ∧ s'.mbx.done = true ∧ s'.mbx.tag = tag ∧
      s'.mbx.result = bodyVerdict c (storeBytes c) b ∧ s'.mbx.res0 = BitVec.ofNat 32 (o + k) ∧ s'.image.writing = false ∧
      (bodyVerdict c (storeBytes c) b = 0 → s'.image.storeOk = true ∧ s'.image.actPend = true ∧ imgCommit (storeBytes s') = 0 ∧
      s'.image.storeVer = imgVersion (storeBytes c) ∧ s'.image.storeAbi = imgAbi (storeBytes c)) ∧ (bodyVerdict c (storeBytes c) b ≠ 0 →
      s'.image.storeOk = s.image.storeOk ∧ s'.image.store = c.image.store)) ∧
    (hostServed s a = true → mbxServed s = true → s.mbx.busy = false → s.dev.state = .ready → s.image.writing = false → s.image.activating = false →
      s.image.storeOk = false ∨ s.image.actPend = false → leads (.activate a tag) s fun s' => s'.mbx.busy = false ∧ s'.mbx.done = true ∧
      s'.mbx.tag = tag ∧ s'.mbx.result = 0x6C ∧ s'.image = s.image ∧ s'.cores.map (·.rcause) = s.cores.map (·.rcause)) ∧
    (hostServed s a = true → mbxServed s = true → s.mbx.busy = false → s.dev.state = .ready → s.image.activating = false → activateRefusal s = none →
      leads (.activate a tag) s fun s' => s'.mbx.busy = true ∧ s'.mbx.tag = tag ∧ s'.image.activating = true ∧ (s'.core 0).rcause = 3 ∧
      (s'.core 0).run = .running ∧ ∀ k, k ≠ 0 → (s'.core k).rcause = (s.core k).rcause) ∧
    (s.image.activating = true → afterCore s.image.actCore = some u → b = true → leads (.activateNextCore b) s fun s' => s'.image.actCore = u ∧
      (s'.core u).rcause = 3 ∧ (s'.core u).run = .running ∧ s'.image.activating = true ∧ s'.image.actPend = s.image.actPend) ∧
    (afterCore 0 = some 1 ∧ afterCore 1 = some 2 ∧ afterCore 2 = some 3 ∧ afterCore 3 = some 5 ∧ afterCore 5 = some 4 ∧ afterCore 4 = none) ∧
    (s.image.activating = true → s.image.actCore = 4 → b = true → leads (.activateNextCore b) s fun s' => s'.image.activating = false ∧
      s'.image.actPend = false ∧ s'.image.runVer = s.image.storeVer ∧ s'.image.runAbi = s.image.storeAbi ∧ s'.mbx.res0 = s.image.storeVer ∧
      (s.mbx.busy = true → s'.mbx.busy = false ∧ s'.mbx.done = true ∧ s'.mbx.result = 0 ∧ s'.dev.hostIrq.getLsbD 2 = true)) ∧
    (s.image.activating = false → exec (.activateNextCore b) s = .next s) ∧
    (hostServed s a = true → mbxServed s = true → s.mbx.busy = false → s.dev.state = .ready → s.mbx.arg[1] = 0 →
      leads (.fuseProgram a tag [2500] []) s fun s' => s'.mbx.busy = false ∧ s'.mbx.done = true ∧ s'.mbx.tag = tag ∧ s'.mbx.result = 4 ∧
      s'.sec.fuses = s.sec.fuses ∧ s'.lanes = s.lanes) ∧
    (hostServed s a = true → mbxServed s = true → s.mbx.busy = false → s.dev.state = .ready → s.mbx.arg[0].toNat = i.val → s.mbx.arg[1] = 1 →
      s.mbx.arg[2] = 0 → leads (.fuseProgram a tag [2399] []) s fun s' => s'.mbx.busy = false ∧ s'.mbx.done = true ∧ s'.mbx.tag = tag ∧
      s'.mbx.result = 0x40 ∧ s'.sec.fuses = s.sec.fuses ∧ s'.lanes = s.lanes) ∧
    (hostServed s a = true → mbxServed s = true → s.mbx.busy = false → s.dev.state = .ready → s.mbx.arg[0].toNat = i.val → s.mbx.arg[1] = 1 →
      s.mbx.arg[2] = 0 → i.val ≠ 224 → i.val < 128 ∨ 137 < i.val → i.val % 32 ≠ 31 → blockLocked s.sec i.val = false → s.sec.wordState i.val = 0 →
      bufWord s 0 ≠ 0 → leads (.fuseProgram a tag [2500] []) s fun s' => s'.mbx.busy = false ∧ s'.mbx.done = true ∧ s'.mbx.tag = tag ∧
      s'.mbx.result = 0 ∧ s'.sec.fuses = s.sec.fuses.set i.val (encodeFuse (bufWord s 0)) i.isLt ∧ s'.sec.wstat.get i = 1 ∧ s'.lanes = s.lanes) ∧
    (hostServed s a = true → mbxServed s = true → s.mbx.busy = false → s.dev.state = .run → (∀ j, fuseState (s.sec.fuses.get j) ≠ 3 ∧
      fuseState (s.sec.fuses.get j) ≠ 2) → leads (.audit a tag []) s fun s' => s'.mbx.busy = false ∧ s'.mbx.done = true ∧ s'.mbx.tag = tag ∧
      s'.mbx.result = 0 ∧ s'.sec.audited = true ∧ s'.sec.fuses = s.sec.fuses ∧ s'.sec.wstat = s.sec.wstat ∧ s'.lanes = s.lanes) ∧
    (hostServed s a = true → leads (.meas a mv) s fun s' => s' = { s with sec := { s.sec with vprog := mv } }) ∧
    (hostServed s a = true → dbgMode s.sec ≠ 0 → dbgPasses w = false → s.dev.resetLow = false → s.dev.vsysOk = true → samplePolicy s = 0 →
      leads (.dbgPass7 a v) s fun s' => s'.sec.unlocked = s.sec.unlocked ∧ s'.sec.dbgFails = satInc s.sec.dbgFails ∧ s'.sec.sources.getLsbD 4 = true ∧
      s'.sec.dbgPass = Vector.replicate 8 0) ∧
    (hostServed s a = true → dbgMode s.sec = 1 → (s.sec.dbgLast.all fun z => decide (z + 100000000 ≤ s.dev.dtime)) = true →
      fieldState s.sec 208 8 = .present → digestWords (Config.sha256 (wordBytes w.sec.dbgPass.toList)) = fieldWords s.sec 208 8 →
      leads (.dbgPass7 a v) s fun s' => s'.sec.unlocked = true ∧ s'.sec.dbgFails = s.sec.dbgFails ∧ s'.sec.sources = s.sec.sources ∧
      s'.sec.dbgPass = Vector.replicate 8 0 ∧ s'.dev.logHead = s.dev.logHead + 1 ∧ s'.lanes = s.lanes) ∧
    (hostServed s a = true → dbgMode s.sec = 1 → fieldState s.sec 208 8 = .present →
      digestWords (Config.sha256 (wordBytes w.sec.dbgPass.toList)) ≠ fieldWords s.sec 208 8 ∨ s.sec.dbgLast = some s.dev.dtime →
      s.dev.resetLow = false → s.dev.vsysOk = true → samplePolicy s = 0 → leads (.dbgPass7 a v) s fun s' => s'.sec.dbgFails = satInc s.sec.dbgFails ∧
      s'.sec.unlocked = s.sec.unlocked) ∧
    (hostServed s a = true → dbgMode s.sec = 0 →
      leads (.dbgPass7 a v) s fun s' => s' = { s with sec := { s.sec with dbgPass := s.sec.dbgPass.set 7 v } }) ∧
    (hostServed s a = true → leads (.relock a) s fun s' => s' = { s with sec := { s.sec with unlocked := false } }) ∧
    (hostServed s a = true →
      leads (.alarmPolicy a v) s fun s' => (∀ j : Fin 6, s'.sec.policy.toNat / 4 ^ j.val % 4 = Max.max (v.toNat / 4 ^ j.val % 4) ((fusedPolicy s.sec).toNat / 4 ^ j.val % 4)) ∧
      { s' with sec := { s'.sec with policy := s.sec.policy, raised := s.sec.raised } } = s) ∧
    (hostServed s a = true → s.locked = false → leads (.secCtrl a v) s fun s' => s'.sec.authMode.toNat = (if fld v 1 0 = 3 then 0 else fld v 1 0) ∧
      s'.lanes = s.lanes) ∧
    (hostServed s a = true → s.locked = true → leads (.secCtrl a v) s fun s' => s' = s)
end

