-- ==== Sys2Proof/Laws/State.lean ====
section
/-! SUPPORT. One law for each field of the state and each named update: what the update leaves alone, and what it puts in its own place. -/

namespace Sys2Proof.Machine


section setLane
variable (s : State) (l : LaneId) (x : Lane)
@[simp] theorem State.setLane_dev : (s.setLane l x).dev = s.dev := rfl
@[simp] theorem State.setLane_groups : (s.setLane l x).groups = s.groups := rfl
@[simp] theorem State.setLane_cores : (s.setLane l x).cores = s.cores := rfl
@[simp] theorem State.setLane_counters : (s.setLane l x).counters = s.counters := rfl
@[simp] theorem State.setLane_slIn : (s.setLane l x).slIn = s.slIn := rfl
@[simp] theorem State.setLane_srcs : (s.setLane l x).srcs = s.srcs := rfl
@[simp] theorem State.setLane_ics : (s.setLane l x).ics = s.ics := rfl
@[simp] theorem State.setLane_latches : (s.setLane l x).latches = s.latches := rfl
@[simp] theorem State.setLane_bus : (s.setLane l x).bus = s.bus := rfl
@[simp] theorem State.setLane_swath : (s.setLane l x).swath = s.swath := rfl
@[simp] theorem State.setLane_sup : (s.setLane l x).sup = s.sup := rfl
@[simp] theorem State.setLane_tether : (s.setLane l x).tether = s.tether := rfl
@[simp] theorem State.setLane_mbx : (s.setLane l x).mbx = s.mbx := rfl
@[simp] theorem State.setLane_image : (s.setLane l x).image = s.image := rfl
@[simp] theorem State.setLane_sec : (s.setLane l x).sec = s.sec := rfl
@[simp] theorem State.setLane_mem : (s.setLane l x).mem = s.mem := rfl
@[simp] theorem State.setLane_pending : (s.setLane l x).pending = s.pending := rfl
end setLane

section modLane
variable (s : State) (l : LaneId) (f : Lane → Lane)
@[simp] theorem State.modLane_dev : (s.modLane l f).dev = s.dev := rfl
@[simp] theorem State.modLane_groups : (s.modLane l f).groups = s.groups := rfl
@[simp] theorem State.modLane_cores : (s.modLane l f).cores = s.cores := rfl
@[simp] theorem State.modLane_counters : (s.modLane l f).counters = s.counters := rfl
@[simp] theorem State.modLane_slIn : (s.modLane l f).slIn = s.slIn := rfl
@[simp] theorem State.modLane_srcs : (s.modLane l f).srcs = s.srcs := rfl
@[simp] theorem State.modLane_ics : (s.modLane l f).ics = s.ics := rfl
@[simp] theorem State.modLane_latches : (s.modLane l f).latches = s.latches := rfl
@[simp] theorem State.modLane_bus : (s.modLane l f).bus = s.bus := rfl
@[simp] theorem State.modLane_swath : (s.modLane l f).swath = s.swath := rfl
@[simp] theorem State.modLane_sup : (s.modLane l f).sup = s.sup := rfl
@[simp] theorem State.modLane_tether : (s.modLane l f).tether = s.tether := rfl
@[simp] theorem State.modLane_mbx : (s.modLane l f).mbx = s.mbx := rfl
@[simp] theorem State.modLane_image : (s.modLane l f).image = s.image := rfl
@[simp] theorem State.modLane_sec : (s.modLane l f).sec = s.sec := rfl
@[simp] theorem State.modLane_mem : (s.modLane l f).mem = s.mem := rfl
@[simp] theorem State.modLane_pending : (s.modLane l f).pending = s.pending := rfl
end modLane

section modCfg
variable (s : State) (l : LaneId) (f : LaneCfg → LaneCfg)
@[simp] theorem State.modCfg_dev : (s.modCfg l f).dev = s.dev := rfl
@[simp] theorem State.modCfg_groups : (s.modCfg l f).groups = s.groups := rfl
@[simp] theorem State.modCfg_cores : (s.modCfg l f).cores = s.cores := rfl
@[simp] theorem State.modCfg_counters : (s.modCfg l f).counters = s.counters := rfl
@[simp] theorem State.modCfg_slIn : (s.modCfg l f).slIn = s.slIn := rfl
@[simp] theorem State.modCfg_srcs : (s.modCfg l f).srcs = s.srcs := rfl
@[simp] theorem State.modCfg_ics : (s.modCfg l f).ics = s.ics := rfl
@[simp] theorem State.modCfg_latches : (s.modCfg l f).latches = s.latches := rfl
@[simp] theorem State.modCfg_bus : (s.modCfg l f).bus = s.bus := rfl
@[simp] theorem State.modCfg_swath : (s.modCfg l f).swath = s.swath := rfl
@[simp] theorem State.modCfg_sup : (s.modCfg l f).sup = s.sup := rfl
@[simp] theorem State.modCfg_tether : (s.modCfg l f).tether = s.tether := rfl
@[simp] theorem State.modCfg_mbx : (s.modCfg l f).mbx = s.mbx := rfl
@[simp] theorem State.modCfg_image : (s.modCfg l f).image = s.image := rfl
@[simp] theorem State.modCfg_sec : (s.modCfg l f).sec = s.sec := rfl
@[simp] theorem State.modCfg_mem : (s.modCfg l f).mem = s.mem := rfl
@[simp] theorem State.modCfg_pending : (s.modCfg l f).pending = s.pending := rfl
end modCfg

section modCc
variable (s : State) (l : LaneId) (f : CcLane → CcLane)
@[simp] theorem State.modCc_dev : (s.modCc l f).dev = s.dev := rfl
@[simp] theorem State.modCc_groups : (s.modCc l f).groups = s.groups := rfl
@[simp] theorem State.modCc_cores : (s.modCc l f).cores = s.cores := rfl
@[simp] theorem State.modCc_counters : (s.modCc l f).counters = s.counters := rfl
@[simp] theorem State.modCc_slIn : (s.modCc l f).slIn = s.slIn := rfl
@[simp] theorem State.modCc_srcs : (s.modCc l f).srcs = s.srcs := rfl
@[simp] theorem State.modCc_ics : (s.modCc l f).ics = s.ics := rfl
@[simp] theorem State.modCc_latches : (s.modCc l f).latches = s.latches := rfl
@[simp] theorem State.modCc_bus : (s.modCc l f).bus = s.bus := rfl
@[simp] theorem State.modCc_swath : (s.modCc l f).swath = s.swath := rfl
@[simp] theorem State.modCc_sup : (s.modCc l f).sup = s.sup := rfl
@[simp] theorem State.modCc_tether : (s.modCc l f).tether = s.tether := rfl
@[simp] theorem State.modCc_mbx : (s.modCc l f).mbx = s.mbx := rfl
@[simp] theorem State.modCc_image : (s.modCc l f).image = s.image := rfl
@[simp] theorem State.modCc_sec : (s.modCc l f).sec = s.sec := rfl
@[simp] theorem State.modCc_mem : (s.modCc l f).mem = s.mem := rfl
@[simp] theorem State.modCc_pending : (s.modCc l f).pending = s.pending := rfl
end modCc

section modPd
variable (s : State) (l : LaneId) (f : PdLane → PdLane)
@[simp] theorem State.modPd_dev : (s.modPd l f).dev = s.dev := rfl
@[simp] theorem State.modPd_groups : (s.modPd l f).groups = s.groups := rfl
@[simp] theorem State.modPd_cores : (s.modPd l f).cores = s.cores := rfl
@[simp] theorem State.modPd_counters : (s.modPd l f).counters = s.counters := rfl
@[simp] theorem State.modPd_slIn : (s.modPd l f).slIn = s.slIn := rfl
@[simp] theorem State.modPd_srcs : (s.modPd l f).srcs = s.srcs := rfl
@[simp] theorem State.modPd_ics : (s.modPd l f).ics = s.ics := rfl
@[simp] theorem State.modPd_latches : (s.modPd l f).latches = s.latches := rfl
@[simp] theorem State.modPd_bus : (s.modPd l f).bus = s.bus := rfl
@[simp] theorem State.modPd_swath : (s.modPd l f).swath = s.swath := rfl
@[simp] theorem State.modPd_sup : (s.modPd l f).sup = s.sup := rfl
@[simp] theorem State.modPd_tether : (s.modPd l f).tether = s.tether := rfl
@[simp] theorem State.modPd_mbx : (s.modPd l f).mbx = s.mbx := rfl
@[simp] theorem State.modPd_image : (s.modPd l f).image = s.image := rfl
@[simp] theorem State.modPd_sec : (s.modPd l f).sec = s.sec := rfl
@[simp] theorem State.modPd_mem : (s.modPd l f).mem = s.mem := rfl
@[simp] theorem State.modPd_pending : (s.modPd l f).pending = s.pending := rfl
end modPd

section modCon
variable (s : State) (l : LaneId) (f : ContractLane → ContractLane)
@[simp] theorem State.modCon_dev : (s.modCon l f).dev = s.dev := rfl
@[simp] theorem State.modCon_groups : (s.modCon l f).groups = s.groups := rfl
@[simp] theorem State.modCon_cores : (s.modCon l f).cores = s.cores := rfl
@[simp] theorem State.modCon_counters : (s.modCon l f).counters = s.counters := rfl
@[simp] theorem State.modCon_slIn : (s.modCon l f).slIn = s.slIn := rfl
@[simp] theorem State.modCon_srcs : (s.modCon l f).srcs = s.srcs := rfl
@[simp] theorem State.modCon_ics : (s.modCon l f).ics = s.ics := rfl
@[simp] theorem State.modCon_latches : (s.modCon l f).latches = s.latches := rfl
@[simp] theorem State.modCon_bus : (s.modCon l f).bus = s.bus := rfl
@[simp] theorem State.modCon_swath : (s.modCon l f).swath = s.swath := rfl
@[simp] theorem State.modCon_sup : (s.modCon l f).sup = s.sup := rfl
@[simp] theorem State.modCon_tether : (s.modCon l f).tether = s.tether := rfl
@[simp] theorem State.modCon_mbx : (s.modCon l f).mbx = s.mbx := rfl
@[simp] theorem State.modCon_image : (s.modCon l f).image = s.image := rfl
@[simp] theorem State.modCon_sec : (s.modCon l f).sec = s.sec := rfl
@[simp] theorem State.modCon_mem : (s.modCon l f).mem = s.mem := rfl
@[simp] theorem State.modCon_pending : (s.modCon l f).pending = s.pending := rfl
end modCon

section modSwap
variable (s : State) (l : LaneId) (f : SwapLane → SwapLane)
@[simp] theorem State.modSwap_dev : (s.modSwap l f).dev = s.dev := rfl
@[simp] theorem State.modSwap_groups : (s.modSwap l f).groups = s.groups := rfl
@[simp] theorem State.modSwap_cores : (s.modSwap l f).cores = s.cores := rfl
@[simp] theorem State.modSwap_counters : (s.modSwap l f).counters = s.counters := rfl
@[simp] theorem State.modSwap_slIn : (s.modSwap l f).slIn = s.slIn := rfl
@[simp] theorem State.modSwap_srcs : (s.modSwap l f).srcs = s.srcs := rfl
@[simp] theorem State.modSwap_ics : (s.modSwap l f).ics = s.ics := rfl
@[simp] theorem State.modSwap_latches : (s.modSwap l f).latches = s.latches := rfl
@[simp] theorem State.modSwap_bus : (s.modSwap l f).bus = s.bus := rfl
@[simp] theorem State.modSwap_swath : (s.modSwap l f).swath = s.swath := rfl
@[simp] theorem State.modSwap_sup : (s.modSwap l f).sup = s.sup := rfl
@[simp] theorem State.modSwap_tether : (s.modSwap l f).tether = s.tether := rfl
@[simp] theorem State.modSwap_mbx : (s.modSwap l f).mbx = s.mbx := rfl
@[simp] theorem State.modSwap_image : (s.modSwap l f).image = s.image := rfl
@[simp] theorem State.modSwap_sec : (s.modSwap l f).sec = s.sec := rfl
@[simp] theorem State.modSwap_mem : (s.modSwap l f).mem = s.mem := rfl
@[simp] theorem State.modSwap_pending : (s.modSwap l f).pending = s.pending := rfl
end modSwap

section modTally
variable (s : State) (l : LaneId) (f : TallyLane → TallyLane)
@[simp] theorem State.modTally_dev : (s.modTally l f).dev = s.dev := rfl
@[simp] theorem State.modTally_groups : (s.modTally l f).groups = s.groups := rfl
@[simp] theorem State.modTally_cores : (s.modTally l f).cores = s.cores := rfl
@[simp] theorem State.modTally_counters : (s.modTally l f).counters = s.counters := rfl
@[simp] theorem State.modTally_slIn : (s.modTally l f).slIn = s.slIn := rfl
@[simp] theorem State.modTally_srcs : (s.modTally l f).srcs = s.srcs := rfl
@[simp] theorem State.modTally_ics : (s.modTally l f).ics = s.ics := rfl
@[simp] theorem State.modTally_latches : (s.modTally l f).latches = s.latches := rfl
@[simp] theorem State.modTally_bus : (s.modTally l f).bus = s.bus := rfl
@[simp] theorem State.modTally_swath : (s.modTally l f).swath = s.swath := rfl
@[simp] theorem State.modTally_sup : (s.modTally l f).sup = s.sup := rfl
@[simp] theorem State.modTally_tether : (s.modTally l f).tether = s.tether := rfl
@[simp] theorem State.modTally_mbx : (s.modTally l f).mbx = s.mbx := rfl
@[simp] theorem State.modTally_image : (s.modTally l f).image = s.image := rfl
@[simp] theorem State.modTally_sec : (s.modTally l f).sec = s.sec := rfl
@[simp] theorem State.modTally_mem : (s.modTally l f).mem = s.mem := rfl
@[simp] theorem State.modTally_pending : (s.modTally l f).pending = s.pending := rfl
end modTally

section modBelay
variable (s : State) (l : LaneId) (f : BelayLane → BelayLane)
@[simp] theorem State.modBelay_dev : (s.modBelay l f).dev = s.dev := rfl
@[simp] theorem State.modBelay_groups : (s.modBelay l f).groups = s.groups := rfl
@[simp] theorem State.modBelay_cores : (s.modBelay l f).cores = s.cores := rfl
@[simp] theorem State.modBelay_counters : (s.modBelay l f).counters = s.counters := rfl
@[simp] theorem State.modBelay_slIn : (s.modBelay l f).slIn = s.slIn := rfl
@[simp] theorem State.modBelay_srcs : (s.modBelay l f).srcs = s.srcs := rfl
@[simp] theorem State.modBelay_ics : (s.modBelay l f).ics = s.ics := rfl
@[simp] theorem State.modBelay_latches : (s.modBelay l f).latches = s.latches := rfl
@[simp] theorem State.modBelay_bus : (s.modBelay l f).bus = s.bus := rfl
@[simp] theorem State.modBelay_swath : (s.modBelay l f).swath = s.swath := rfl
@[simp] theorem State.modBelay_sup : (s.modBelay l f).sup = s.sup := rfl
@[simp] theorem State.modBelay_tether : (s.modBelay l f).tether = s.tether := rfl
@[simp] theorem State.modBelay_mbx : (s.modBelay l f).mbx = s.mbx := rfl
@[simp] theorem State.modBelay_image : (s.modBelay l f).image = s.image := rfl
@[simp] theorem State.modBelay_sec : (s.modBelay l f).sec = s.sec := rfl
@[simp] theorem State.modBelay_mem : (s.modBelay l f).mem = s.mem := rfl
@[simp] theorem State.modBelay_pending : (s.modBelay l f).pending = s.pending := rfl
end modBelay

section modConv
variable (s : State) (l : LaneId) (f : ConvLane → ConvLane)
@[simp] theorem State.modConv_dev : (s.modConv l f).dev = s.dev := rfl
@[simp] theorem State.modConv_groups : (s.modConv l f).groups = s.groups := rfl
@[simp] theorem State.modConv_cores : (s.modConv l f).cores = s.cores := rfl
@[simp] theorem State.modConv_counters : (s.modConv l f).counters = s.counters := rfl
@[simp] theorem State.modConv_slIn : (s.modConv l f).slIn = s.slIn := rfl
@[simp] theorem State.modConv_srcs : (s.modConv l f).srcs = s.srcs := rfl
@[simp] theorem State.modConv_ics : (s.modConv l f).ics = s.ics := rfl
@[simp] theorem State.modConv_latches : (s.modConv l f).latches = s.latches := rfl
@[simp] theorem State.modConv_bus : (s.modConv l f).bus = s.bus := rfl
@[simp] theorem State.modConv_swath : (s.modConv l f).swath = s.swath := rfl
@[simp] theorem State.modConv_sup : (s.modConv l f).sup = s.sup := rfl
@[simp] theorem State.modConv_tether : (s.modConv l f).tether = s.tether := rfl
@[simp] theorem State.modConv_mbx : (s.modConv l f).mbx = s.mbx := rfl
@[simp] theorem State.modConv_image : (s.modConv l f).image = s.image := rfl
@[simp] theorem State.modConv_sec : (s.modConv l f).sec = s.sec := rfl
@[simp] theorem State.modConv_mem : (s.modConv l f).mem = s.mem := rfl
@[simp] theorem State.modConv_pending : (s.modConv l f).pending = s.pending := rfl
end modConv

section modBudget
variable (s : State) (l : LaneId) (f : BudgetLane → BudgetLane)
@[simp] theorem State.modBudget_dev : (s.modBudget l f).dev = s.dev := rfl
@[simp] theorem State.modBudget_groups : (s.modBudget l f).groups = s.groups := rfl
@[simp] theorem State.modBudget_cores : (s.modBudget l f).cores = s.cores := rfl
@[simp] theorem State.modBudget_counters : (s.modBudget l f).counters = s.counters := rfl
@[simp] theorem State.modBudget_slIn : (s.modBudget l f).slIn = s.slIn := rfl
@[simp] theorem State.modBudget_srcs : (s.modBudget l f).srcs = s.srcs := rfl
@[simp] theorem State.modBudget_ics : (s.modBudget l f).ics = s.ics := rfl
@[simp] theorem State.modBudget_latches : (s.modBudget l f).latches = s.latches := rfl
@[simp] theorem State.modBudget_bus : (s.modBudget l f).bus = s.bus := rfl
@[simp] theorem State.modBudget_swath : (s.modBudget l f).swath = s.swath := rfl
@[simp] theorem State.modBudget_sup : (s.modBudget l f).sup = s.sup := rfl
@[simp] theorem State.modBudget_tether : (s.modBudget l f).tether = s.tether := rfl
@[simp] theorem State.modBudget_mbx : (s.modBudget l f).mbx = s.mbx := rfl
@[simp] theorem State.modBudget_image : (s.modBudget l f).image = s.image := rfl
@[simp] theorem State.modBudget_sec : (s.modBudget l f).sec = s.sec := rfl
@[simp] theorem State.modBudget_mem : (s.modBudget l f).mem = s.mem := rfl
@[simp] theorem State.modBudget_pending : (s.modBudget l f).pending = s.pending := rfl
end modBudget

section modSect
variable (s : State) (l : LaneId) (f : SectLane → SectLane)
@[simp] theorem State.modSect_dev : (s.modSect l f).dev = s.dev := rfl
@[simp] theorem State.modSect_groups : (s.modSect l f).groups = s.groups := rfl
@[simp] theorem State.modSect_cores : (s.modSect l f).cores = s.cores := rfl
@[simp] theorem State.modSect_counters : (s.modSect l f).counters = s.counters := rfl
@[simp] theorem State.modSect_slIn : (s.modSect l f).slIn = s.slIn := rfl
@[simp] theorem State.modSect_srcs : (s.modSect l f).srcs = s.srcs := rfl
@[simp] theorem State.modSect_ics : (s.modSect l f).ics = s.ics := rfl
@[simp] theorem State.modSect_latches : (s.modSect l f).latches = s.latches := rfl
@[simp] theorem State.modSect_bus : (s.modSect l f).bus = s.bus := rfl
@[simp] theorem State.modSect_swath : (s.modSect l f).swath = s.swath := rfl
@[simp] theorem State.modSect_sup : (s.modSect l f).sup = s.sup := rfl
@[simp] theorem State.modSect_tether : (s.modSect l f).tether = s.tether := rfl
@[simp] theorem State.modSect_mbx : (s.modSect l f).mbx = s.mbx := rfl
@[simp] theorem State.modSect_image : (s.modSect l f).image = s.image := rfl
@[simp] theorem State.modSect_sec : (s.modSect l f).sec = s.sec := rfl
@[simp] theorem State.modSect_mem : (s.modSect l f).mem = s.mem := rfl
@[simp] theorem State.modSect_pending : (s.modSect l f).pending = s.pending := rfl
end modSect

section modFw
variable (s : State) (l : LaneId) (f : FwLane → FwLane)
@[simp] theorem State.modFw_dev : (s.modFw l f).dev = s.dev := rfl
@[simp] theorem State.modFw_groups : (s.modFw l f).groups = s.groups := rfl
@[simp] theorem State.modFw_cores : (s.modFw l f).cores = s.cores := rfl
@[simp] theorem State.modFw_counters : (s.modFw l f).counters = s.counters := rfl
@[simp] theorem State.modFw_slIn : (s.modFw l f).slIn = s.slIn := rfl
@[simp] theorem State.modFw_srcs : (s.modFw l f).srcs = s.srcs := rfl
@[simp] theorem State.modFw_ics : (s.modFw l f).ics = s.ics := rfl
@[simp] theorem State.modFw_latches : (s.modFw l f).latches = s.latches := rfl
@[simp] theorem State.modFw_bus : (s.modFw l f).bus = s.bus := rfl
@[simp] theorem State.modFw_swath : (s.modFw l f).swath = s.swath := rfl
@[simp] theorem State.modFw_sup : (s.modFw l f).sup = s.sup := rfl
@[simp] theorem State.modFw_tether : (s.modFw l f).tether = s.tether := rfl
@[simp] theorem State.modFw_mbx : (s.modFw l f).mbx = s.mbx := rfl
@[simp] theorem State.modFw_image : (s.modFw l f).image = s.image := rfl
@[simp] theorem State.modFw_sec : (s.modFw l f).sec = s.sec := rfl
@[simp] theorem State.modFw_mem : (s.modFw l f).mem = s.mem := rfl
@[simp] theorem State.modFw_pending : (s.modFw l f).pending = s.pending := rfl
end modFw

section modGroup
variable (s : State) (g : GroupId) (f : Group → Group)
@[simp] theorem State.modGroup_dev : (s.modGroup g f).dev = s.dev := rfl
@[simp] theorem State.modGroup_lanes : (s.modGroup g f).lanes = s.lanes := rfl
@[simp] theorem State.modGroup_cores : (s.modGroup g f).cores = s.cores := rfl
@[simp] theorem State.modGroup_counters : (s.modGroup g f).counters = s.counters := rfl
@[simp] theorem State.modGroup_slIn : (s.modGroup g f).slIn = s.slIn := rfl
@[simp] theorem State.modGroup_srcs : (s.modGroup g f).srcs = s.srcs := rfl
@[simp] theorem State.modGroup_ics : (s.modGroup g f).ics = s.ics := rfl
@[simp] theorem State.modGroup_latches : (s.modGroup g f).latches = s.latches := rfl
@[simp] theorem State.modGroup_bus : (s.modGroup g f).bus = s.bus := rfl
@[simp] theorem State.modGroup_swath : (s.modGroup g f).swath = s.swath := rfl
@[simp] theorem State.modGroup_sup : (s.modGroup g f).sup = s.sup := rfl
@[simp] theorem State.modGroup_tether : (s.modGroup g f).tether = s.tether := rfl
@[simp] theorem State.modGroup_mbx : (s.modGroup g f).mbx = s.mbx := rfl
@[simp] theorem State.modGroup_image : (s.modGroup g f).image = s.image := rfl
@[simp] theorem State.modGroup_sec : (s.modGroup g f).sec = s.sec := rfl
@[simp] theorem State.modGroup_mem : (s.modGroup g f).mem = s.mem := rfl
@[simp] theorem State.modGroup_pending : (s.modGroup g f).pending = s.pending := rfl
end modGroup

section setCore
variable (s : State) (t : CoreId) (c : CoreState)
@[simp] theorem State.setCore_dev : (s.setCore t c).dev = s.dev := rfl
@[simp] theorem State.setCore_lanes : (s.setCore t c).lanes = s.lanes := rfl
@[simp] theorem State.setCore_groups : (s.setCore t c).groups = s.groups := rfl
@[simp] theorem State.setCore_counters : (s.setCore t c).counters = s.counters := rfl
@[simp] theorem State.setCore_slIn : (s.setCore t c).slIn = s.slIn := rfl
@[simp] theorem State.setCore_srcs : (s.setCore t c).srcs = s.srcs := rfl
@[simp] theorem State.setCore_ics : (s.setCore t c).ics = s.ics := rfl
@[simp] theorem State.setCore_latches : (s.setCore t c).latches = s.latches := rfl
@[simp] theorem State.setCore_bus : (s.setCore t c).bus = s.bus := rfl
@[simp] theorem State.setCore_swath : (s.setCore t c).swath = s.swath := rfl
@[simp] theorem State.setCore_sup : (s.setCore t c).sup = s.sup := rfl
@[simp] theorem State.setCore_tether : (s.setCore t c).tether = s.tether := rfl
@[simp] theorem State.setCore_mbx : (s.setCore t c).mbx = s.mbx := rfl
@[simp] theorem State.setCore_image : (s.setCore t c).image = s.image := rfl
@[simp] theorem State.setCore_sec : (s.setCore t c).sec = s.sec := rfl
@[simp] theorem State.setCore_mem : (s.setCore t c).mem = s.mem := rfl
@[simp] theorem State.setCore_pending : (s.setCore t c).pending = s.pending := rfl
end setCore

section modCore
variable (s : State) (t : CoreId) (f : CoreState → CoreState)
@[simp] theorem State.modCore_dev : (s.modCore t f).dev = s.dev := rfl
@[simp] theorem State.modCore_lanes : (s.modCore t f).lanes = s.lanes := rfl
@[simp] theorem State.modCore_groups : (s.modCore t f).groups = s.groups := rfl
@[simp] theorem State.modCore_counters : (s.modCore t f).counters = s.counters := rfl
@[simp] theorem State.modCore_slIn : (s.modCore t f).slIn = s.slIn := rfl
@[simp] theorem State.modCore_srcs : (s.modCore t f).srcs = s.srcs := rfl
@[simp] theorem State.modCore_ics : (s.modCore t f).ics = s.ics := rfl
@[simp] theorem State.modCore_latches : (s.modCore t f).latches = s.latches := rfl
@[simp] theorem State.modCore_bus : (s.modCore t f).bus = s.bus := rfl
@[simp] theorem State.modCore_swath : (s.modCore t f).swath = s.swath := rfl
@[simp] theorem State.modCore_sup : (s.modCore t f).sup = s.sup := rfl
@[simp] theorem State.modCore_tether : (s.modCore t f).tether = s.tether := rfl
@[simp] theorem State.modCore_mbx : (s.modCore t f).mbx = s.mbx := rfl
@[simp] theorem State.modCore_image : (s.modCore t f).image = s.image := rfl
@[simp] theorem State.modCore_sec : (s.modCore t f).sec = s.sec := rfl
@[simp] theorem State.modCore_mem : (s.modCore t f).mem = s.mem := rfl
@[simp] theorem State.modCore_pending : (s.modCore t f).pending = s.pending := rfl
end modCore

section modCounter
variable (s : State) (n : CounterId) (f : Counter → Counter)
@[simp] theorem State.modCounter_dev : (s.modCounter n f).dev = s.dev := rfl
@[simp] theorem State.modCounter_lanes : (s.modCounter n f).lanes = s.lanes := rfl
@[simp] theorem State.modCounter_groups : (s.modCounter n f).groups = s.groups := rfl
@[simp] theorem State.modCounter_cores : (s.modCounter n f).cores = s.cores := rfl
@[simp] theorem State.modCounter_slIn : (s.modCounter n f).slIn = s.slIn := rfl
@[simp] theorem State.modCounter_srcs : (s.modCounter n f).srcs = s.srcs := rfl
@[simp] theorem State.modCounter_ics : (s.modCounter n f).ics = s.ics := rfl
@[simp] theorem State.modCounter_latches : (s.modCounter n f).latches = s.latches := rfl
@[simp] theorem State.modCounter_bus : (s.modCounter n f).bus = s.bus := rfl
@[simp] theorem State.modCounter_swath : (s.modCounter n f).swath = s.swath := rfl
@[simp] theorem State.modCounter_sup : (s.modCounter n f).sup = s.sup := rfl
@[simp] theorem State.modCounter_tether : (s.modCounter n f).tether = s.tether := rfl
@[simp] theorem State.modCounter_mbx : (s.modCounter n f).mbx = s.mbx := rfl
@[simp] theorem State.modCounter_image : (s.modCounter n f).image = s.image := rfl
@[simp] theorem State.modCounter_sec : (s.modCounter n f).sec = s.sec := rfl
@[simp] theorem State.modCounter_mem : (s.modCounter n f).mem = s.mem := rfl
@[simp] theorem State.modCounter_pending : (s.modCounter n f).pending = s.pending := rfl
end modCounter

section modIc
variable (s : State) (t : CoreId) (f : IcCore → IcCore)
@[simp] theorem State.modIc_dev : (s.modIc t f).dev = s.dev := rfl
@[simp] theorem State.modIc_lanes : (s.modIc t f).lanes = s.lanes := rfl
@[simp] theorem State.modIc_groups : (s.modIc t f).groups = s.groups := rfl
@[simp] theorem State.modIc_cores : (s.modIc t f).cores = s.cores := rfl
@[simp] theorem State.modIc_counters : (s.modIc t f).counters = s.counters := rfl
@[simp] theorem State.modIc_slIn : (s.modIc t f).slIn = s.slIn := rfl
@[simp] theorem State.modIc_srcs : (s.modIc t f).srcs = s.srcs := rfl
@[simp] theorem State.modIc_latches : (s.modIc t f).latches = s.latches := rfl
@[simp] theorem State.modIc_bus : (s.modIc t f).bus = s.bus := rfl
@[simp] theorem State.modIc_swath : (s.modIc t f).swath = s.swath := rfl
@[simp] theorem State.modIc_sup : (s.modIc t f).sup = s.sup := rfl
@[simp] theorem State.modIc_tether : (s.modIc t f).tether = s.tether := rfl
@[simp] theorem State.modIc_mbx : (s.modIc t f).mbx = s.mbx := rfl
@[simp] theorem State.modIc_image : (s.modIc t f).image = s.image := rfl
@[simp] theorem State.modIc_sec : (s.modIc t f).sec = s.sec := rfl
@[simp] theorem State.modIc_mem : (s.modIc t f).mem = s.mem := rfl
@[simp] theorem State.modIc_pending : (s.modIc t f).pending = s.pending := rfl
end modIc

section modSrc
variable (s : State) (x : SourceId) (f : IcSrc → IcSrc)
@[simp] theorem State.modSrc_dev : (s.modSrc x f).dev = s.dev := rfl
@[simp] theorem State.modSrc_lanes : (s.modSrc x f).lanes = s.lanes := rfl
@[simp] theorem State.modSrc_groups : (s.modSrc x f).groups = s.groups := rfl
@[simp] theorem State.modSrc_cores : (s.modSrc x f).cores = s.cores := rfl
@[simp] theorem State.modSrc_counters : (s.modSrc x f).counters = s.counters := rfl
@[simp] theorem State.modSrc_slIn : (s.modSrc x f).slIn = s.slIn := rfl
@[simp] theorem State.modSrc_ics : (s.modSrc x f).ics = s.ics := rfl
@[simp] theorem State.modSrc_latches : (s.modSrc x f).latches = s.latches := rfl
@[simp] theorem State.modSrc_bus : (s.modSrc x f).bus = s.bus := rfl
@[simp] theorem State.modSrc_swath : (s.modSrc x f).swath = s.swath := rfl
@[simp] theorem State.modSrc_sup : (s.modSrc x f).sup = s.sup := rfl
@[simp] theorem State.modSrc_tether : (s.modSrc x f).tether = s.tether := rfl
@[simp] theorem State.modSrc_mbx : (s.modSrc x f).mbx = s.mbx := rfl
@[simp] theorem State.modSrc_image : (s.modSrc x f).image = s.image := rfl
@[simp] theorem State.modSrc_sec : (s.modSrc x f).sec = s.sec := rfl
@[simp] theorem State.modSrc_mem : (s.modSrc x f).mem = s.mem := rfl
@[simp] theorem State.modSrc_pending : (s.modSrc x f).pending = s.pending := rfl
end modSrc

section modLatch
variable (s : State) (a : Agent) (f : Latches → Latches)
@[simp] theorem State.modLatch_dev : (s.modLatch a f).dev = s.dev := rfl
@[simp] theorem State.modLatch_lanes : (s.modLatch a f).lanes = s.lanes := rfl
@[simp] theorem State.modLatch_groups : (s.modLatch a f).groups = s.groups := rfl
@[simp] theorem State.modLatch_cores : (s.modLatch a f).cores = s.cores := rfl
@[simp] theorem State.modLatch_counters : (s.modLatch a f).counters = s.counters := rfl
@[simp] theorem State.modLatch_slIn : (s.modLatch a f).slIn = s.slIn := rfl
@[simp] theorem State.modLatch_srcs : (s.modLatch a f).srcs = s.srcs := rfl
@[simp] theorem State.modLatch_ics : (s.modLatch a f).ics = s.ics := rfl
@[simp] theorem State.modLatch_bus : (s.modLatch a f).bus = s.bus := rfl
@[simp] theorem State.modLatch_swath : (s.modLatch a f).swath = s.swath := rfl
@[simp] theorem State.modLatch_sup : (s.modLatch a f).sup = s.sup := rfl
@[simp] theorem State.modLatch_tether : (s.modLatch a f).tether = s.tether := rfl
@[simp] theorem State.modLatch_mbx : (s.modLatch a f).mbx = s.mbx := rfl
@[simp] theorem State.modLatch_image : (s.modLatch a f).image = s.image := rfl
@[simp] theorem State.modLatch_sec : (s.modLatch a f).sec = s.sec := rfl
@[simp] theorem State.modLatch_mem : (s.modLatch a f).mem = s.mem := rfl
@[simp] theorem State.modLatch_pending : (s.modLatch a f).pending = s.pending := rfl
end modLatch

section modDev
variable (s : State) (f : Dev → Dev)
@[simp] theorem State.modDev_dev : (s.modDev f).dev = f s.dev := rfl
@[simp] theorem State.modDev_lanes : (s.modDev f).lanes = s.lanes := rfl
@[simp] theorem State.modDev_groups : (s.modDev f).groups = s.groups := rfl
@[simp] theorem State.modDev_cores : (s.modDev f).cores = s.cores := rfl
@[simp] theorem State.modDev_counters : (s.modDev f).counters = s.counters := rfl
@[simp] theorem State.modDev_slIn : (s.modDev f).slIn = s.slIn := rfl
@[simp] theorem State.modDev_srcs : (s.modDev f).srcs = s.srcs := rfl
@[simp] theorem State.modDev_ics : (s.modDev f).ics = s.ics := rfl
@[simp] theorem State.modDev_latches : (s.modDev f).latches = s.latches := rfl
@[simp] theorem State.modDev_bus : (s.modDev f).bus = s.bus := rfl
@[simp] theorem State.modDev_swath : (s.modDev f).swath = s.swath := rfl
@[simp] theorem State.modDev_sup : (s.modDev f).sup = s.sup := rfl
@[simp] theorem State.modDev_tether : (s.modDev f).tether = s.tether := rfl
@[simp] theorem State.modDev_mbx : (s.modDev f).mbx = s.mbx := rfl
@[simp] theorem State.modDev_image : (s.modDev f).image = s.image := rfl
@[simp] theorem State.modDev_sec : (s.modDev f).sec = s.sec := rfl
@[simp] theorem State.modDev_mem : (s.modDev f).mem = s.mem := rfl
@[simp] theorem State.modDev_pending : (s.modDev f).pending = s.pending := rfl
end modDev

section modBus
variable (s : State) (f : Bus → Bus)
@[simp] theorem State.modBus_dev : (s.modBus f).dev = s.dev := rfl
@[simp] theorem State.modBus_lanes : (s.modBus f).lanes = s.lanes := rfl
@[simp] theorem State.modBus_groups : (s.modBus f).groups = s.groups := rfl
@[simp] theorem State.modBus_cores : (s.modBus f).cores = s.cores := rfl
@[simp] theorem State.modBus_counters : (s.modBus f).counters = s.counters := rfl
@[simp] theorem State.modBus_slIn : (s.modBus f).slIn = s.slIn := rfl
@[simp] theorem State.modBus_srcs : (s.modBus f).srcs = s.srcs := rfl
@[simp] theorem State.modBus_ics : (s.modBus f).ics = s.ics := rfl
@[simp] theorem State.modBus_latches : (s.modBus f).latches = s.latches := rfl
@[simp] theorem State.modBus_bus : (s.modBus f).bus = f s.bus := rfl
@[simp] theorem State.modBus_swath : (s.modBus f).swath = s.swath := rfl
@[simp] theorem State.modBus_sup : (s.modBus f).sup = s.sup := rfl
@[simp] theorem State.modBus_tether : (s.modBus f).tether = s.tether := rfl
@[simp] theorem State.modBus_mbx : (s.modBus f).mbx = s.mbx := rfl
@[simp] theorem State.modBus_image : (s.modBus f).image = s.image := rfl
@[simp] theorem State.modBus_sec : (s.modBus f).sec = s.sec := rfl
@[simp] theorem State.modBus_mem : (s.modBus f).mem = s.mem := rfl
@[simp] theorem State.modBus_pending : (s.modBus f).pending = s.pending := rfl
end modBus

section modSwath
variable (s : State) (f : Swath → Swath)
@[simp] theorem State.modSwath_dev : (s.modSwath f).dev = s.dev := rfl
@[simp] theorem State.modSwath_lanes : (s.modSwath f).lanes = s.lanes := rfl
@[simp] theorem State.modSwath_groups : (s.modSwath f).groups = s.groups := rfl
@[simp] theorem State.modSwath_cores : (s.modSwath f).cores = s.cores := rfl
@[simp] theorem State.modSwath_counters : (s.modSwath f).counters = s.counters := rfl
@[simp] theorem State.modSwath_slIn : (s.modSwath f).slIn = s.slIn := rfl
@[simp] theorem State.modSwath_srcs : (s.modSwath f).srcs = s.srcs := rfl
@[simp] theorem State.modSwath_ics : (s.modSwath f).ics = s.ics := rfl
@[simp] theorem State.modSwath_latches : (s.modSwath f).latches = s.latches := rfl
@[simp] theorem State.modSwath_bus : (s.modSwath f).bus = s.bus := rfl
@[simp] theorem State.modSwath_swath : (s.modSwath f).swath = f s.swath := rfl
@[simp] theorem State.modSwath_sup : (s.modSwath f).sup = s.sup := rfl
@[simp] theorem State.modSwath_tether : (s.modSwath f).tether = s.tether := rfl
@[simp] theorem State.modSwath_mbx : (s.modSwath f).mbx = s.mbx := rfl
@[simp] theorem State.modSwath_image : (s.modSwath f).image = s.image := rfl
@[simp] theorem State.modSwath_sec : (s.modSwath f).sec = s.sec := rfl
@[simp] theorem State.modSwath_mem : (s.modSwath f).mem = s.mem := rfl
@[simp] theorem State.modSwath_pending : (s.modSwath f).pending = s.pending := rfl
end modSwath

section modTether
variable (s : State) (f : Tether → Tether)
@[simp] theorem State.modTether_dev : (s.modTether f).dev = s.dev := rfl
@[simp] theorem State.modTether_lanes : (s.modTether f).lanes = s.lanes := rfl
@[simp] theorem State.modTether_groups : (s.modTether f).groups = s.groups := rfl
@[simp] theorem State.modTether_cores : (s.modTether f).cores = s.cores := rfl
@[simp] theorem State.modTether_counters : (s.modTether f).counters = s.counters := rfl
@[simp] theorem State.modTether_slIn : (s.modTether f).slIn = s.slIn := rfl
@[simp] theorem State.modTether_srcs : (s.modTether f).srcs = s.srcs := rfl
@[simp] theorem State.modTether_ics : (s.modTether f).ics = s.ics := rfl
@[simp] theorem State.modTether_latches : (s.modTether f).latches = s.latches := rfl
@[simp] theorem State.modTether_bus : (s.modTether f).bus = s.bus := rfl
@[simp] theorem State.modTether_swath : (s.modTether f).swath = s.swath := rfl
@[simp] theorem State.modTether_sup : (s.modTether f).sup = s.sup := rfl
@[simp] theorem State.modTether_tether : (s.modTether f).tether = f s.tether := rfl
@[simp] theorem State.modTether_mbx : (s.modTether f).mbx = s.mbx := rfl
@[simp] theorem State.modTether_image : (s.modTether f).image = s.image := rfl
@[simp] theorem State.modTether_sec : (s.modTether f).sec = s.sec := rfl
@[simp] theorem State.modTether_mem : (s.modTether f).mem = s.mem := rfl
@[simp] theorem State.modTether_pending : (s.modTether f).pending = s.pending := rfl
end modTether

section modSec
variable (s : State) (f : Security → Security)
@[simp] theorem State.modSec_dev : (s.modSec f).dev = s.dev := rfl
@[simp] theorem State.modSec_lanes : (s.modSec f).lanes = s.lanes := rfl
@[simp] theorem State.modSec_groups : (s.modSec f).groups = s.groups := rfl
@[simp] theorem State.modSec_cores : (s.modSec f).cores = s.cores := rfl
@[simp] theorem State.modSec_counters : (s.modSec f).counters = s.counters := rfl
@[simp] theorem State.modSec_slIn : (s.modSec f).slIn = s.slIn := rfl
@[simp] theorem State.modSec_srcs : (s.modSec f).srcs = s.srcs := rfl
@[simp] theorem State.modSec_ics : (s.modSec f).ics = s.ics := rfl
@[simp] theorem State.modSec_latches : (s.modSec f).latches = s.latches := rfl
@[simp] theorem State.modSec_bus : (s.modSec f).bus = s.bus := rfl
@[simp] theorem State.modSec_swath : (s.modSec f).swath = s.swath := rfl
@[simp] theorem State.modSec_sup : (s.modSec f).sup = s.sup := rfl
@[simp] theorem State.modSec_tether : (s.modSec f).tether = s.tether := rfl
@[simp] theorem State.modSec_mbx : (s.modSec f).mbx = s.mbx := rfl
@[simp] theorem State.modSec_image : (s.modSec f).image = s.image := rfl
@[simp] theorem State.modSec_sec : (s.modSec f).sec = f s.sec := rfl
@[simp] theorem State.modSec_mem : (s.modSec f).mem = s.mem := rfl
@[simp] theorem State.modSec_pending : (s.modSec f).pending = s.pending := rfl
end modSec

section modImage
variable (s : State) (f : Image → Image)
@[simp] theorem State.modImage_dev : (s.modImage f).dev = s.dev := rfl
@[simp] theorem State.modImage_lanes : (s.modImage f).lanes = s.lanes := rfl
@[simp] theorem State.modImage_groups : (s.modImage f).groups = s.groups := rfl
@[simp] theorem State.modImage_cores : (s.modImage f).cores = s.cores := rfl
@[simp] theorem State.modImage_counters : (s.modImage f).counters = s.counters := rfl
@[simp] theorem State.modImage_slIn : (s.modImage f).slIn = s.slIn := rfl
@[simp] theorem State.modImage_srcs : (s.modImage f).srcs = s.srcs := rfl
@[simp] theorem State.modImage_ics : (s.modImage f).ics = s.ics := rfl
@[simp] theorem State.modImage_latches : (s.modImage f).latches = s.latches := rfl
@[simp] theorem State.modImage_bus : (s.modImage f).bus = s.bus := rfl
@[simp] theorem State.modImage_swath : (s.modImage f).swath = s.swath := rfl
@[simp] theorem State.modImage_sup : (s.modImage f).sup = s.sup := rfl
@[simp] theorem State.modImage_tether : (s.modImage f).tether = s.tether := rfl
@[simp] theorem State.modImage_mbx : (s.modImage f).mbx = s.mbx := rfl
@[simp] theorem State.modImage_image : (s.modImage f).image = f s.image := rfl
@[simp] theorem State.modImage_sec : (s.modImage f).sec = s.sec := rfl
@[simp] theorem State.modImage_mem : (s.modImage f).mem = s.mem := rfl
@[simp] theorem State.modImage_pending : (s.modImage f).pending = s.pending := rfl
end modImage

section modSup
variable (s : State) (f : Sup → Sup)
@[simp] theorem State.modSup_dev : (s.modSup f).dev = s.dev := rfl
@[simp] theorem State.modSup_lanes : (s.modSup f).lanes = s.lanes := rfl
@[simp] theorem State.modSup_groups : (s.modSup f).groups = s.groups := rfl
@[simp] theorem State.modSup_cores : (s.modSup f).cores = s.cores := rfl
@[simp] theorem State.modSup_counters : (s.modSup f).counters = s.counters := rfl
@[simp] theorem State.modSup_slIn : (s.modSup f).slIn = s.slIn := rfl
@[simp] theorem State.modSup_srcs : (s.modSup f).srcs = s.srcs := rfl
@[simp] theorem State.modSup_ics : (s.modSup f).ics = s.ics := rfl
@[simp] theorem State.modSup_latches : (s.modSup f).latches = s.latches := rfl
@[simp] theorem State.modSup_bus : (s.modSup f).bus = s.bus := rfl
@[simp] theorem State.modSup_swath : (s.modSup f).swath = s.swath := rfl
@[simp] theorem State.modSup_sup : (s.modSup f).sup = f s.sup := rfl
@[simp] theorem State.modSup_tether : (s.modSup f).tether = s.tether := rfl
@[simp] theorem State.modSup_mbx : (s.modSup f).mbx = s.mbx := rfl
@[simp] theorem State.modSup_image : (s.modSup f).image = s.image := rfl
@[simp] theorem State.modSup_sec : (s.modSup f).sec = s.sec := rfl
@[simp] theorem State.modSup_mem : (s.modSup f).mem = s.mem := rfl
@[simp] theorem State.modSup_pending : (s.modSup f).pending = s.pending := rfl
end modSup

section modMbx
variable (s : State) (f : Mailbox → Mailbox)
@[simp] theorem State.modMbx_dev : (s.modMbx f).dev = s.dev := rfl
@[simp] theorem State.modMbx_lanes : (s.modMbx f).lanes = s.lanes := rfl
@[simp] theorem State.modMbx_groups : (s.modMbx f).groups = s.groups := rfl
@[simp] theorem State.modMbx_cores : (s.modMbx f).cores = s.cores := rfl
@[simp] theorem State.modMbx_counters : (s.modMbx f).counters = s.counters := rfl
@[simp] theorem State.modMbx_slIn : (s.modMbx f).slIn = s.slIn := rfl
@[simp] theorem State.modMbx_srcs : (s.modMbx f).srcs = s.srcs := rfl
@[simp] theorem State.modMbx_ics : (s.modMbx f).ics = s.ics := rfl
@[simp] theorem State.modMbx_latches : (s.modMbx f).latches = s.latches := rfl
@[simp] theorem State.modMbx_bus : (s.modMbx f).bus = s.bus := rfl
@[simp] theorem State.modMbx_swath : (s.modMbx f).swath = s.swath := rfl
@[simp] theorem State.modMbx_sup : (s.modMbx f).sup = s.sup := rfl
@[simp] theorem State.modMbx_tether : (s.modMbx f).tether = s.tether := rfl
@[simp] theorem State.modMbx_mbx : (s.modMbx f).mbx = f s.mbx := rfl
@[simp] theorem State.modMbx_image : (s.modMbx f).image = s.image := rfl
@[simp] theorem State.modMbx_sec : (s.modMbx f).sec = s.sec := rfl
@[simp] theorem State.modMbx_mem : (s.modMbx f).mem = s.mem := rfl
@[simp] theorem State.modMbx_pending : (s.modMbx f).pending = s.pending := rfl
end modMbx

-- vectors

theorem get_set_self {α : Type} {n : Nat} (v : Vector α n) (i : Fin n) (x : α) : (v.set i.val x i.isLt).get i = x := by
  change (v.set i.val x i.isLt)[i.val] = x
  exact Vector.getElem_set_self ..

theorem get_set_ne {α : Type} {n : Nat} (v : Vector α n) {i j : Fin n} (x : α) (h : j ≠ i) : (v.set i.val x i.isLt).get j = v.get j := by
  change (v.set i.val x i.isLt)[j.val] = v[j.val]
  exact Vector.getElem_set_ne _ _ fun e => h (Fin.ext e.symm)

-- what an indexed update leaves at its index and beside it

@[simp] theorem State.lane_setLane (s : State) (l : LaneId) (x : Lane) : (s.setLane l x).lane l = x := get_set_self ..

theorem State.lane_setLane_ne (s : State) {l k : LaneId} (x : Lane) (h : k ≠ l) : (s.setLane l x).lane k = s.lane k := get_set_ne _ _ h

@[simp] theorem State.lane_modLane (s : State) (l : LaneId) (f : Lane → Lane) : (s.modLane l f).lane l = f (s.lane l) := by
  simp [State.modLane]

theorem State.lane_modLane_ne (s : State) {l k : LaneId} (f : Lane → Lane) (h : k ≠ l) : (s.modLane l f).lane k = s.lane k :=
  s.lane_setLane_ne _ h

@[simp] theorem State.lane_modCfg (s : State) (l : LaneId) (f : LaneCfg → LaneCfg) : (s.modCfg l f).lane l = { s.lane l with cfg := f (s.lane l).cfg } := by
  simp [State.modCfg]

theorem State.lane_modCfg_ne (s : State) {l k : LaneId} (f : LaneCfg → LaneCfg) (h : k ≠ l) : (s.modCfg l f).lane k = s.lane k :=
  s.lane_modLane_ne _ h

@[simp] theorem State.lane_modCc (s : State) (l : LaneId) (f : CcLane → CcLane) : (s.modCc l f).lane l = { s.lane l with cc := f (s.lane l).cc } := by
  simp [State.modCc]

theorem State.lane_modCc_ne (s : State) {l k : LaneId} (f : CcLane → CcLane) (h : k ≠ l) : (s.modCc l f).lane k = s.lane k :=
  s.lane_modLane_ne _ h

@[simp] theorem State.lane_modPd (s : State) (l : LaneId) (f : PdLane → PdLane) : (s.modPd l f).lane l = { s.lane l with pd := f (s.lane l).pd } := by
  simp [State.modPd]

theorem State.lane_modPd_ne (s : State) {l k : LaneId} (f : PdLane → PdLane) (h : k ≠ l) : (s.modPd l f).lane k = s.lane k :=
  s.lane_modLane_ne _ h

@[simp] theorem State.lane_modCon (s : State) (l : LaneId) (f : ContractLane → ContractLane) : (s.modCon l f).lane l = { s.lane l with con := f (s.lane l).con } := by
  simp [State.modCon]

theorem State.lane_modCon_ne (s : State) {l k : LaneId} (f : ContractLane → ContractLane) (h : k ≠ l) : (s.modCon l f).lane k = s.lane k :=
  s.lane_modLane_ne _ h

@[simp] theorem State.lane_modSwap (s : State) (l : LaneId) (f : SwapLane → SwapLane) : (s.modSwap l f).lane l = { s.lane l with swap := f (s.lane l).swap } := by
  simp [State.modSwap]

theorem State.lane_modSwap_ne (s : State) {l k : LaneId} (f : SwapLane → SwapLane) (h : k ≠ l) : (s.modSwap l f).lane k = s.lane k :=
  s.lane_modLane_ne _ h

@[simp] theorem State.lane_modTally (s : State) (l : LaneId) (f : TallyLane → TallyLane) : (s.modTally l f).lane l = { s.lane l with tally := f (s.lane l).tally } := by
  simp [State.modTally]

theorem State.lane_modTally_ne (s : State) {l k : LaneId} (f : TallyLane → TallyLane) (h : k ≠ l) : (s.modTally l f).lane k = s.lane k :=
  s.lane_modLane_ne _ h

@[simp] theorem State.lane_modBelay (s : State) (l : LaneId) (f : BelayLane → BelayLane) : (s.modBelay l f).lane l = { s.lane l with belay := f (s.lane l).belay } := by
  simp [State.modBelay]

theorem State.lane_modBelay_ne (s : State) {l k : LaneId} (f : BelayLane → BelayLane) (h : k ≠ l) : (s.modBelay l f).lane k = s.lane k :=
  s.lane_modLane_ne _ h

@[simp] theorem State.lane_modConv (s : State) (l : LaneId) (f : ConvLane → ConvLane) : (s.modConv l f).lane l = { s.lane l with conv := f (s.lane l).conv } := by
  simp [State.modConv]

theorem State.lane_modConv_ne (s : State) {l k : LaneId} (f : ConvLane → ConvLane) (h : k ≠ l) : (s.modConv l f).lane k = s.lane k :=
  s.lane_modLane_ne _ h

@[simp] theorem State.lane_modBudget (s : State) (l : LaneId) (f : BudgetLane → BudgetLane) : (s.modBudget l f).lane l = { s.lane l with budget := f (s.lane l).budget } := by
  simp [State.modBudget]

theorem State.lane_modBudget_ne (s : State) {l k : LaneId} (f : BudgetLane → BudgetLane) (h : k ≠ l) : (s.modBudget l f).lane k = s.lane k :=
  s.lane_modLane_ne _ h

@[simp] theorem State.lane_modSect (s : State) (l : LaneId) (f : SectLane → SectLane) : (s.modSect l f).lane l = { s.lane l with sect := f (s.lane l).sect } := by
  simp [State.modSect]

theorem State.lane_modSect_ne (s : State) {l k : LaneId} (f : SectLane → SectLane) (h : k ≠ l) : (s.modSect l f).lane k = s.lane k :=
  s.lane_modLane_ne _ h

@[simp] theorem State.lane_modFw (s : State) (l : LaneId) (f : FwLane → FwLane) : (s.modFw l f).lane l = { s.lane l with fw := f (s.lane l).fw } := by
  simp [State.modFw]

theorem State.lane_modFw_ne (s : State) {l k : LaneId} (f : FwLane → FwLane) (h : k ≠ l) : (s.modFw l f).lane k = s.lane k :=
  s.lane_modLane_ne _ h

@[simp] theorem State.group_modGroup (s : State) (i : GroupId) (f : Group → Group) : (s.modGroup i f).group i = f (s.group i) := get_set_self ..

theorem State.group_modGroup_ne (s : State) {i j : GroupId} (f : Group → Group) (h : j ≠ i) : (s.modGroup i f).group j = s.group j := get_set_ne _ _ h

@[simp] theorem State.core_modCore (s : State) (i : CoreId) (f : CoreState → CoreState) : (s.modCore i f).core i = f (s.core i) := get_set_self ..

theorem State.core_modCore_ne (s : State) {i j : CoreId} (f : CoreState → CoreState) (h : j ≠ i) : (s.modCore i f).core j = s.core j := get_set_ne _ _ h

@[simp] theorem State.counter_modCounter (s : State) (i : CounterId) (f : Counter → Counter) : (s.modCounter i f).counter i = f (s.counter i) := get_set_self ..

theorem State.counter_modCounter_ne (s : State) {i j : CounterId} (f : Counter → Counter) (h : j ≠ i) : (s.modCounter i f).counter j = s.counter j := get_set_ne _ _ h

@[simp] theorem State.ic_modIc (s : State) (i : CoreId) (f : IcCore → IcCore) : (s.modIc i f).ic i = f (s.ic i) := get_set_self ..

theorem State.ic_modIc_ne (s : State) {i j : CoreId} (f : IcCore → IcCore) (h : j ≠ i) : (s.modIc i f).ic j = s.ic j := get_set_ne _ _ h

@[simp] theorem State.src_modSrc (s : State) (i : SourceId) (f : IcSrc → IcSrc) : (s.modSrc i f).src i = f (s.src i) := get_set_self ..

theorem State.src_modSrc_ne (s : State) {i j : SourceId} (f : IcSrc → IcSrc) (h : j ≠ i) : (s.modSrc i f).src j = s.src j := get_set_ne _ _ h

@[simp] theorem State.core_setCore (s : State) (t : CoreId) (c : CoreState) : (s.setCore t c).core t = c := get_set_self ..

theorem State.core_setCore_ne (s : State) {t u : CoreId} (c : CoreState) (h : u ≠ t) : (s.setCore t c).core u = s.core u := get_set_ne _ _ h

-- an accessor reads its own vector alone

section accessors
variable {s r : State}
theorem State.lane_congr (h : r.lanes = s.lanes) (l : LaneId) : r.lane l = s.lane l := by rw [State.lane, State.lane, h]
theorem State.core_congr (h : r.cores = s.cores) (t : CoreId) : r.core t = s.core t := by rw [State.core, State.core, h]
theorem State.group_congr (h : r.groups = s.groups) (g : GroupId) : r.group g = s.group g := by rw [State.group, State.group, h]
theorem State.src_congr (h : r.srcs = s.srcs) (x : SourceId) : r.src x = s.src x := by rw [State.src, State.src, h]
theorem State.ic_congr (h : r.ics = s.ics) (t : CoreId) : r.ic t = s.ic t := by rw [State.ic, State.ic, h]
end accessors

@[simp] theorem State.setLane_core (s : State) (l : LaneId) (x : Lane) (k : CoreId) : (s.setLane l x).core k = s.core k := rfl
@[simp] theorem State.setLane_group (s : State) (l : LaneId) (x : Lane) (k : GroupId) : (s.setLane l x).group k = s.group k := rfl
@[simp] theorem State.setLane_src (s : State) (l : LaneId) (x : Lane) (k : SourceId) : (s.setLane l x).src k = s.src k := rfl
@[simp] theorem State.setLane_ic (s : State) (l : LaneId) (x : Lane) (k : CoreId) : (s.setLane l x).ic k = s.ic k := rfl
@[simp] theorem State.modLane_core (s : State) (l : LaneId) (f : Lane → Lane) (k : CoreId) : (s.modLane l f).core k = s.core k := rfl
@[simp] theorem State.modLane_group (s : State) (l : LaneId) (f : Lane → Lane) (k : GroupId) : (s.modLane l f).group k = s.group k := rfl
@[simp] theorem State.modLane_src (s : State) (l : LaneId) (f : Lane → Lane) (k : SourceId) : (s.modLane l f).src k = s.src k := rfl
@[simp] theorem State.modLane_ic (s : State) (l : LaneId) (f : Lane → Lane) (k : CoreId) : (s.modLane l f).ic k = s.ic k := rfl
@[simp] theorem State.modCfg_core (s : State) (l : LaneId) (f : LaneCfg → LaneCfg) (k : CoreId) : (s.modCfg l f).core k = s.core k := rfl
@[simp] theorem State.modCfg_group (s : State) (l : LaneId) (f : LaneCfg → LaneCfg) (k : GroupId) : (s.modCfg l f).group k = s.group k := rfl
@[simp] theorem State.modCfg_src (s : State) (l : LaneId) (f : LaneCfg → LaneCfg) (k : SourceId) : (s.modCfg l f).src k = s.src k := rfl
@[simp] theorem State.modCfg_ic (s : State) (l : LaneId) (f : LaneCfg → LaneCfg) (k : CoreId) : (s.modCfg l f).ic k = s.ic k := rfl
@[simp] theorem State.modCc_core (s : State) (l : LaneId) (f : CcLane → CcLane) (k : CoreId) : (s.modCc l f).core k = s.core k := rfl
@[simp] theorem State.modCc_group (s : State) (l : LaneId) (f : CcLane → CcLane) (k : GroupId) : (s.modCc l f).group k = s.group k := rfl
@[simp] theorem State.modCc_src (s : State) (l : LaneId) (f : CcLane → CcLane) (k : SourceId) : (s.modCc l f).src k = s.src k := rfl
@[simp] theorem State.modCc_ic (s : State) (l : LaneId) (f : CcLane → CcLane) (k : CoreId) : (s.modCc l f).ic k = s.ic k := rfl
@[simp] theorem State.modPd_core (s : State) (l : LaneId) (f : PdLane → PdLane) (k : CoreId) : (s.modPd l f).core k = s.core k := rfl
@[simp] theorem State.modPd_group (s : State) (l : LaneId) (f : PdLane → PdLane) (k : GroupId) : (s.modPd l f).group k = s.group k := rfl
@[simp] theorem State.modPd_src (s : State) (l : LaneId) (f : PdLane → PdLane) (k : SourceId) : (s.modPd l f).src k = s.src k := rfl
@[simp] theorem State.modPd_ic (s : State) (l : LaneId) (f : PdLane → PdLane) (k : CoreId) : (s.modPd l f).ic k = s.ic k := rfl
@[simp] theorem State.modCon_core (s : State) (l : LaneId) (f : ContractLane → ContractLane) (k : CoreId) : (s.modCon l f).core k = s.core k := rfl
@[simp] theorem State.modCon_group (s : State) (l : LaneId) (f : ContractLane → ContractLane) (k : GroupId) : (s.modCon l f).group k = s.group k := rfl
@[simp] theorem State.modCon_src (s : State) (l : LaneId) (f : ContractLane → ContractLane) (k : SourceId) : (s.modCon l f).src k = s.src k := rfl
@[simp] theorem State.modCon_ic (s : State) (l : LaneId) (f : ContractLane → ContractLane) (k : CoreId) : (s.modCon l f).ic k = s.ic k := rfl
@[simp] theorem State.modSwap_core (s : State) (l : LaneId) (f : SwapLane → SwapLane) (k : CoreId) : (s.modSwap l f).core k = s.core k := rfl
@[simp] theorem State.modSwap_group (s : State) (l : LaneId) (f : SwapLane → SwapLane) (k : GroupId) : (s.modSwap l f).group k = s.group k := rfl
@[simp] theorem State.modSwap_src (s : State) (l : LaneId) (f : SwapLane → SwapLane) (k : SourceId) : (s.modSwap l f).src k = s.src k := rfl
@[simp] theorem State.modSwap_ic (s : State) (l : LaneId) (f : SwapLane → SwapLane) (k : CoreId) : (s.modSwap l f).ic k = s.ic k := rfl
@[simp] theorem State.modTally_core (s : State) (l : LaneId) (f : TallyLane → TallyLane) (k : CoreId) : (s.modTally l f).core k = s.core k := rfl
@[simp] theorem State.modTally_group (s : State) (l : LaneId) (f : TallyLane → TallyLane) (k : GroupId) : (s.modTally l f).group k = s.group k := rfl
@[simp] theorem State.modTally_src (s : State) (l : LaneId) (f : TallyLane → TallyLane) (k : SourceId) : (s.modTally l f).src k = s.src k := rfl
@[simp] theorem State.modTally_ic (s : State) (l : LaneId) (f : TallyLane → TallyLane) (k : CoreId) : (s.modTally l f).ic k = s.ic k := rfl
@[simp] theorem State.modBelay_core (s : State) (l : LaneId) (f : BelayLane → BelayLane) (k : CoreId) : (s.modBelay l f).core k = s.core k := rfl
@[simp] theorem State.modBelay_group (s : State) (l : LaneId) (f : BelayLane → BelayLane) (k : GroupId) : (s.modBelay l f).group k = s.group k := rfl
@[simp] theorem State.modBelay_src (s : State) (l : LaneId) (f : BelayLane → BelayLane) (k : SourceId) : (s.modBelay l f).src k = s.src k := rfl
@[simp] theorem State.modBelay_ic (s : State) (l : LaneId) (f : BelayLane → BelayLane) (k : CoreId) : (s.modBelay l f).ic k = s.ic k := rfl
@[simp] theorem State.modConv_core (s : State) (l : LaneId) (f : ConvLane → ConvLane) (k : CoreId) : (s.modConv l f).core k = s.core k := rfl
@[simp] theorem State.modConv_group (s : State) (l : LaneId) (f : ConvLane → ConvLane) (k : GroupId) : (s.modConv l f).group k = s.group k := rfl
@[simp] theorem State.modConv_src (s : State) (l : LaneId) (f : ConvLane → ConvLane) (k : SourceId) : (s.modConv l f).src k = s.src k := rfl
@[simp] theorem State.modConv_ic (s : State) (l : LaneId) (f : ConvLane → ConvLane) (k : CoreId) : (s.modConv l f).ic k = s.ic k := rfl
@[simp] theorem State.modBudget_core (s : State) (l : LaneId) (f : BudgetLane → BudgetLane) (k : CoreId) : (s.modBudget l f).core k = s.core k := rfl
@[simp] theorem State.modBudget_group (s : State) (l : LaneId) (f : BudgetLane → BudgetLane) (k : GroupId) : (s.modBudget l f).group k = s.group k := rfl
@[simp] theorem State.modBudget_src (s : State) (l : LaneId) (f : BudgetLane → BudgetLane) (k : SourceId) : (s.modBudget l f).src k = s.src k := rfl
@[simp] theorem State.modBudget_ic (s : State) (l : LaneId) (f : BudgetLane → BudgetLane) (k : CoreId) : (s.modBudget l f).ic k = s.ic k := rfl
@[simp] theorem State.modSect_core (s : State) (l : LaneId) (f : SectLane → SectLane) (k : CoreId) : (s.modSect l f).core k = s.core k := rfl
@[simp] theorem State.modSect_group (s : State) (l : LaneId) (f : SectLane → SectLane) (k : GroupId) : (s.modSect l f).group k = s.group k := rfl
@[simp] theorem State.modSect_src (s : State) (l : LaneId) (f : SectLane → SectLane) (k : SourceId) : (s.modSect l f).src k = s.src k := rfl
@[simp] theorem State.modSect_ic (s : State) (l : LaneId) (f : SectLane → SectLane) (k : CoreId) : (s.modSect l f).ic k = s.ic k := rfl
@[simp] theorem State.modFw_core (s : State) (l : LaneId) (f : FwLane → FwLane) (k : CoreId) : (s.modFw l f).core k = s.core k := rfl
@[simp] theorem State.modFw_group (s : State) (l : LaneId) (f : FwLane → FwLane) (k : GroupId) : (s.modFw l f).group k = s.group k := rfl
@[simp] theorem State.modFw_src (s : State) (l : LaneId) (f : FwLane → FwLane) (k : SourceId) : (s.modFw l f).src k = s.src k := rfl
@[simp] theorem State.modFw_ic (s : State) (l : LaneId) (f : FwLane → FwLane) (k : CoreId) : (s.modFw l f).ic k = s.ic k := rfl
@[simp] theorem State.modGroup_lane (s : State) (g : GroupId) (f : Group → Group) (k : LaneId) : (s.modGroup g f).lane k = s.lane k := rfl
@[simp] theorem State.modGroup_core (s : State) (g : GroupId) (f : Group → Group) (k : CoreId) : (s.modGroup g f).core k = s.core k := rfl
@[simp] theorem State.modGroup_src (s : State) (g : GroupId) (f : Group → Group) (k : SourceId) : (s.modGroup g f).src k = s.src k := rfl
@[simp] theorem State.modGroup_ic (s : State) (g : GroupId) (f : Group → Group) (k : CoreId) : (s.modGroup g f).ic k = s.ic k := rfl
@[simp] theorem State.setCore_lane (s : State) (t : CoreId) (c : CoreState) (k : LaneId) : (s.setCore t c).lane k = s.lane k := rfl
@[simp] theorem State.setCore_group (s : State) (t : CoreId) (c : CoreState) (k : GroupId) : (s.setCore t c).group k = s.group k := rfl
@[simp] theorem State.setCore_src (s : State) (t : CoreId) (c : CoreState) (k : SourceId) : (s.setCore t c).src k = s.src k := rfl
@[simp] theorem State.setCore_ic (s : State) (t : CoreId) (c : CoreState) (k : CoreId) : (s.setCore t c).ic k = s.ic k := rfl
@[simp] theorem State.modCore_lane (s : State) (t : CoreId) (f : CoreState → CoreState) (k : LaneId) : (s.modCore t f).lane k = s.lane k := rfl
@[simp] theorem State.modCore_group (s : State) (t : CoreId) (f : CoreState → CoreState) (k : GroupId) : (s.modCore t f).group k = s.group k := rfl
@[simp] theorem State.modCore_src (s : State) (t : CoreId) (f : CoreState → CoreState) (k : SourceId) : (s.modCore t f).src k = s.src k := rfl
@[simp] theorem State.modCore_ic (s : State) (t : CoreId) (f : CoreState → CoreState) (k : CoreId) : (s.modCore t f).ic k = s.ic k := rfl
@[simp] theorem State.modCounter_lane (s : State) (n : CounterId) (f : Counter → Counter) (k : LaneId) : (s.modCounter n f).lane k = s.lane k := rfl
@[simp] theorem State.modCounter_core (s : State) (n : CounterId) (f : Counter → Counter) (k : CoreId) : (s.modCounter n f).core k = s.core k := rfl
@[simp] theorem State.modCounter_group (s : State) (n : CounterId) (f : Counter → Counter) (k : GroupId) : (s.modCounter n f).group k = s.group k := rfl
@[simp] theorem State.modCounter_src (s : State) (n : CounterId) (f : Counter → Counter) (k : SourceId) : (s.modCounter n f).src k = s.src k := rfl
@[simp] theorem State.modCounter_ic (s : State) (n : CounterId) (f : Counter → Counter) (k : CoreId) : (s.modCounter n f).ic k = s.ic k := rfl
@[simp] theorem State.modIc_lane (s : State) (t : CoreId) (f : IcCore → IcCore) (k : LaneId) : (s.modIc t f).lane k = s.lane k := rfl
@[simp] theorem State.modIc_core (s : State) (t : CoreId) (f : IcCore → IcCore) (k : CoreId) : (s.modIc t f).core k = s.core k := rfl
@[simp] theorem State.modIc_group (s : State) (t : CoreId) (f : IcCore → IcCore) (k : GroupId) : (s.modIc t f).group k = s.group k := rfl
@[simp] theorem State.modIc_src (s : State) (t : CoreId) (f : IcCore → IcCore) (k : SourceId) : (s.modIc t f).src k = s.src k := rfl
@[simp] theorem State.modSrc_lane (s : State) (x : SourceId) (f : IcSrc → IcSrc) (k : LaneId) : (s.modSrc x f).lane k = s.lane k := rfl
@[simp] theorem State.modSrc_core (s : State) (x : SourceId) (f : IcSrc → IcSrc) (k : CoreId) : (s.modSrc x f).core k = s.core k := rfl
@[simp] theorem State.modSrc_group (s : State) (x : SourceId) (f : IcSrc → IcSrc) (k : GroupId) : (s.modSrc x f).group k = s.group k := rfl
@[simp] theorem State.modSrc_ic (s : State) (x : SourceId) (f : IcSrc → IcSrc) (k : CoreId) : (s.modSrc x f).ic k = s.ic k := rfl
@[simp] theorem State.modLatch_lane (s : State) (a : Agent) (f : Latches → Latches) (k : LaneId) : (s.modLatch a f).lane k = s.lane k := rfl
@[simp] theorem State.modLatch_core (s : State) (a : Agent) (f : Latches → Latches) (k : CoreId) : (s.modLatch a f).core k = s.core k := rfl
@[simp] theorem State.modLatch_group (s : State) (a : Agent) (f : Latches → Latches) (k : GroupId) : (s.modLatch a f).group k = s.group k := rfl
@[simp] theorem State.modLatch_src (s : State) (a : Agent) (f : Latches → Latches) (k : SourceId) : (s.modLatch a f).src k = s.src k := rfl
@[simp] theorem State.modLatch_ic (s : State) (a : Agent) (f : Latches → Latches) (k : CoreId) : (s.modLatch a f).ic k = s.ic k := rfl
@[simp] theorem State.modDev_lane (s : State) (f : Dev → Dev) (k : LaneId) : (s.modDev f).lane k = s.lane k := rfl
@[simp] theorem State.modDev_core (s : State) (f : Dev → Dev) (k : CoreId) : (s.modDev f).core k = s.core k := rfl
@[simp] theorem State.modDev_group (s : State) (f : Dev → Dev) (k : GroupId) : (s.modDev f).group k = s.group k := rfl
@[simp] theorem State.modDev_src (s : State) (f : Dev → Dev) (k : SourceId) : (s.modDev f).src k = s.src k := rfl
@[simp] theorem State.modDev_ic (s : State) (f : Dev → Dev) (k : CoreId) : (s.modDev f).ic k = s.ic k := rfl
@[simp] theorem State.modBus_lane (s : State) (f : Bus → Bus) (k : LaneId) : (s.modBus f).lane k = s.lane k := rfl
@[simp] theorem State.modBus_core (s : State) (f : Bus → Bus) (k : CoreId) : (s.modBus f).core k = s.core k := rfl
@[simp] theorem State.modBus_group (s : State) (f : Bus → Bus) (k : GroupId) : (s.modBus f).group k = s.group k := rfl
@[simp] theorem State.modBus_src (s : State) (f : Bus → Bus) (k : SourceId) : (s.modBus f).src k = s.src k := rfl
@[simp] theorem State.modBus_ic (s : State) (f : Bus → Bus) (k : CoreId) : (s.modBus f).ic k = s.ic k := rfl
@[simp] theorem State.modSwath_lane (s : State) (f : Swath → Swath) (k : LaneId) : (s.modSwath f).lane k = s.lane k := rfl
@[simp] theorem State.modSwath_core (s : State) (f : Swath → Swath) (k : CoreId) : (s.modSwath f).core k = s.core k := rfl
@[simp] theorem State.modSwath_group (s : State) (f : Swath → Swath) (k : GroupId) : (s.modSwath f).group k = s.group k := rfl
@[simp] theorem State.modSwath_src (s : State) (f : Swath → Swath) (k : SourceId) : (s.modSwath f).src k = s.src k := rfl
@[simp] theorem State.modSwath_ic (s : State) (f : Swath → Swath) (k : CoreId) : (s.modSwath f).ic k = s.ic k := rfl
@[simp] theorem State.modTether_lane (s : State) (f : Tether → Tether) (k : LaneId) : (s.modTether f).lane k = s.lane k := rfl
@[simp] theorem State.modTether_core (s : State) (f : Tether → Tether) (k : CoreId) : (s.modTether f).core k = s.core k := rfl
@[simp] theorem State.modTether_group (s : State) (f : Tether → Tether) (k : GroupId) : (s.modTether f).group k = s.group k := rfl
@[simp] theorem State.modTether_src (s : State) (f : Tether → Tether) (k : SourceId) : (s.modTether f).src k = s.src k := rfl
@[simp] theorem State.modTether_ic (s : State) (f : Tether → Tether) (k : CoreId) : (s.modTether f).ic k = s.ic k := rfl
@[simp] theorem State.modSec_lane (s : State) (f : Security → Security) (k : LaneId) : (s.modSec f).lane k = s.lane k := rfl
@[simp] theorem State.modSec_core (s : State) (f : Security → Security) (k : CoreId) : (s.modSec f).core k = s.core k := rfl
@[simp] theorem State.modSec_group (s : State) (f : Security → Security) (k : GroupId) : (s.modSec f).group k = s.group k := rfl
@[simp] theorem State.modSec_src (s : State) (f : Security → Security) (k : SourceId) : (s.modSec f).src k = s.src k := rfl
@[simp] theorem State.modSec_ic (s : State) (f : Security → Security) (k : CoreId) : (s.modSec f).ic k = s.ic k := rfl
@[simp] theorem State.modImage_lane (s : State) (f : Image → Image) (k : LaneId) : (s.modImage f).lane k = s.lane k := rfl
@[simp] theorem State.modImage_core (s : State) (f : Image → Image) (k : CoreId) : (s.modImage f).core k = s.core k := rfl
@[simp] theorem State.modImage_group (s : State) (f : Image → Image) (k : GroupId) : (s.modImage f).group k = s.group k := rfl
@[simp] theorem State.modImage_src (s : State) (f : Image → Image) (k : SourceId) : (s.modImage f).src k = s.src k := rfl
@[simp] theorem State.modImage_ic (s : State) (f : Image → Image) (k : CoreId) : (s.modImage f).ic k = s.ic k := rfl
@[simp] theorem State.modSup_lane (s : State) (f : Sup → Sup) (k : LaneId) : (s.modSup f).lane k = s.lane k := rfl
@[simp] theorem State.modSup_core (s : State) (f : Sup → Sup) (k : CoreId) : (s.modSup f).core k = s.core k := rfl
@[simp] theorem State.modSup_group (s : State) (f : Sup → Sup) (k : GroupId) : (s.modSup f).group k = s.group k := rfl
@[simp] theorem State.modSup_src (s : State) (f : Sup → Sup) (k : SourceId) : (s.modSup f).src k = s.src k := rfl
@[simp] theorem State.modSup_ic (s : State) (f : Sup → Sup) (k : CoreId) : (s.modSup f).ic k = s.ic k := rfl
@[simp] theorem State.modMbx_lane (s : State) (f : Mailbox → Mailbox) (k : LaneId) : (s.modMbx f).lane k = s.lane k := rfl
@[simp] theorem State.modMbx_core (s : State) (f : Mailbox → Mailbox) (k : CoreId) : (s.modMbx f).core k = s.core k := rfl
@[simp] theorem State.modMbx_group (s : State) (f : Mailbox → Mailbox) (k : GroupId) : (s.modMbx f).group k = s.group k := rfl
@[simp] theorem State.modMbx_src (s : State) (f : Mailbox → Mailbox) (k : SourceId) : (s.modMbx f).src k = s.src k := rfl
@[simp] theorem State.modMbx_ic (s : State) (f : Mailbox → Mailbox) (k : CoreId) : (s.modMbx f).ic k = s.ic k := rfl

/-- A list of changes keeps what each change keeps. -/
theorem State.forEach_keeps {α : Type} {P : State → Prop} {f : State → α → State} (h : ∀ s x, P s → P (f s x)) (xs : List α) (s : State) (hs : P s) :
    P (s.forEach xs f) := by
  induction xs generalizing s with
  | nil => exact hs
  | cons x r ih => exact ih _ (h s x hs)

end Sys2Proof.Machine
end

