-- ==== Sys2Proof/Laws/Camku.lean ====
section
/-! SUPPORT. What the frame of a Camku instruction does: results that age, the state an instruction sees, and how it goes on, transfers or traps. -/

namespace Sys2Proof.Machine

variable (s : State) (t : CoreId)

@[simp] theorem CoreState.putDest_run (c : CoreState) (d : Dest) (v : Word) : (c.putDest d v).run = c.run := by cases d <;> rfl
@[simp] theorem CoreState.putDest_slot (c : CoreState) (d : Dest) (v : Word) : (c.putDest d v).slot = c.slot := by cases d <;> rfl
@[simp] theorem CoreState.putDest_flight (c : CoreState) (d : Dest) (v : Word) : (c.putDest d v).flight = c.flight := by cases d <;> rfl
@[simp] theorem CoreState.putDest_pc (c : CoreState) (d : Dest) (v : Word) : (c.putDest d v).pc = c.pc := by cases d <;> rfl
@[simp] theorem CoreState.putDest_st (c : CoreState) (d : Dest) (v : Word) : (c.putDest d v).st = c.st := by cases d <;> rfl

theorem CoreState.setCtrl_run (c : CoreState) (n : Nat) (v : Word) : (c.setCtrl n v).run = c.run := by
  unfold CoreState.setCtrl; split <;> rfl
theorem CoreState.setCtrl_slot (c : CoreState) (n : Nat) (v : Word) : (c.setCtrl n v).slot = c.slot := by
  unfold CoreState.setCtrl; split <;> rfl
theorem CoreState.setCtrl_pc (c : CoreState) (n : Nat) (v : Word) : (c.setCtrl n v).pc = c.pc := by
  unfold CoreState.setCtrl; split <;> rfl

/-- A committed item leaves how the core stands, its pc, its slot and everything outside the core's registers and interrupt block. -/
theorem State.commit_run (x : InFlight) : ((s.commit t x).core t).run = (s.core t).run := by
  cases x <;> simp only [State.commit, State.core_modCore, CoreState.putDest_run, CoreState.setCtrl_run, CoreState.setStBit] <;> rfl
theorem State.commit_slot (x : InFlight) : ((s.commit t x).core t).slot = (s.core t).slot := by
  cases x <;> simp only [State.commit, State.core_modCore, CoreState.putDest_slot, CoreState.setCtrl_slot, CoreState.setStBit] <;> rfl
theorem State.commit_pc (x : InFlight) : ((s.commit t x).core t).pc = (s.core t).pc := by
  cases x <;> simp only [State.commit, State.core_modCore, CoreState.putDest_pc, CoreState.setCtrl_pc, CoreState.setStBit] <;> rfl
theorem State.commit_dev (x : InFlight) : (s.commit t x).dev = s.dev := by cases x <;> rfl
theorem State.commit_mem (x : InFlight) : (s.commit t x).mem = s.mem := by cases x <;> rfl
theorem State.commit_lanes (x : InFlight) : (s.commit t x).lanes = s.lanes := by cases x <;> rfl

/-- What no change of a list of changes touches stays. -/
theorem State.forEach_same {α β : Type} (p : State → β) (f : State → α → State) (h : ∀ r a, p (f r a) = p r) (xs : List α) (r : State) :
    p (r.forEach xs f) = p r := by
  induction xs generalizing r with
  | nil => rfl
  | cons a xs ih => exact (ih (f r a)).trans (h r a)

theorem State.begun_run : ((s.begun t).core t).run = (s.core t).run := by
  simp only [State.begun, State.ageFlight, State.core_modCore]
  exact State.forEach_same (fun r => (r.core t).run) _ (fun r x => r.commit_run t x) _ s
theorem State.begun_slot : ((s.begun t).core t).slot = (s.core t).slot := by
  simp only [State.begun, State.ageFlight, State.core_modCore]
  exact State.forEach_same (fun r => (r.core t).slot) _ (fun r x => r.commit_slot t x) _ s
theorem State.begun_pc : ((s.begun t).core t).pc = (s.core t).pc := by
  simp only [State.begun, State.ageFlight, State.core_modCore]
  exact State.forEach_same (fun r => (r.core t).pc) _ (fun r x => r.commit_pc t x) _ s
theorem State.begun_dev : (s.begun t).dev = s.dev := by
  simp only [State.begun, State.ageFlight, State.modCore_dev]
  exact State.forEach_same (fun r => r.dev) _ (fun r x => r.commit_dev t x) _ s
theorem State.begun_mem : (s.begun t).mem = s.mem := by
  simp only [State.begun, State.ageFlight, State.modCore_mem]
  exact State.forEach_same (fun r => r.mem) _ (fun r x => r.commit_mem t x) _ s
theorem State.begun_lanes : (s.begun t).lanes = s.lanes := by
  simp only [State.begun, State.ageFlight, State.modCore_lanes]
  exact State.forEach_same (fun r => r.lanes) _ (fun r x => r.commit_lanes t x) _ s

variable {s t}

/-- An instruction that runs: past its fetch, in a place that may hold it, and at no breakpoint. -/
theorem State.instr_runs {bars : Bool} {f : State → InstrEnd} (hr : (s.core t).run = .running) (hc : s.clocked t = true)
    (hf : fetchCause (s.begun t) t = none) (hk : breaksAt (s.begun t) t = false) (hb : (bars && (s.core t).slot.isSome) = false) :
    s.instr t bars f = match f (s.begun t) with
      | .next s2 => s2.goOn t CoreState.advance
      | .branch target retx s2 =>
        s2.goOn t fun d => { d with
          slot := some { target := target, from_ := (s.core t).pc, retx := retx, base := ((s.begun t).core t).base,
                         st := ((s.begun t).core t).st, lk := ((s.begun t).core t).lk, flight := ((s.begun t).core t).flight }, pc := (s.core t).pc + 4 }
      | .trap k a s2 => s2.takeTrap t k (s.core t).pc a
      | .soft k s2 => s2.takeTrap t k ((s.core t).pc + 4) none
      | .hold s2 => s2 := by
  simp only [State.instr, hr, hc, hf, hk, Bool.false_and, State.begun_slot, hb, State.begun_pc]
  simp only [ne_eq, not_true_eq_false, decide_false, Bool.not_true, Bool.or_self, Bool.false_eq_true, if_false] <;>
    cases f (s.begun t) <;> rfl

/-- An instruction that a slot must not hold traps there (R316). -/
theorem State.instr_barred {f : State → InstrEnd} (hr : (s.core t).run = .running) (hc : s.clocked t = true)
    (hf : fetchCause (s.begun t) t = none) (hb : (s.core t).slot.isSome = true) :
    s.instr t true f = (s.begun t).takeTrap t 1 (s.core t).pc none := by
  simp only [State.instr, hr, hc, hf, State.begun_slot, hb, State.begun_pc]
  simp

/-- A fetch that raises a trap. -/
theorem State.instr_noFetch {bars : Bool} {f : State → InstrEnd} {k : Nat} (hr : (s.core t).run = .running) (hc : s.clocked t = true)
    (hf : fetchCause (s.begun t) t = some k) : s.instr t bars f = (s.begun t).takeTrap t k (s.core t).pc (some (s.core t).pc) := by
  simp only [State.instr, hr, hc, hf, State.begun_pc]
  simp

/-- A core that does not run, or has no clock. -/
theorem State.instr_idle {bars : Bool} {f : State → InstrEnd} (h : (s.core t).run ≠ .running ∨ s.clocked t = false) : s.instr t bars f = s := by
  unfold State.instr
  rcases h with h | h <;> simp [h]

/-- At a breakpoint an instruction traps with cause 9, unless a lower cause of its own comes first (R302). -/
theorem State.instr_breaks {f : State → InstrEnd} (hr : (s.core t).run = .running) (hc : s.clocked t = true)
    (hf : fetchCause (s.begun t) t = none) (hk : breaksAt (s.begun t) t = true) (hb : (f (s.begun t)).breakFirst = true) :
    s.instr t false f = (s.begun t).takeTrap t 9 (s.core t).pc none := by
  simp only [State.instr, hr, hc, hf, hk, hb, State.begun_pc]
  simp

/-- An instruction that changes its core alone, and leaves how the core stands. -/
theorem State.coreInstr_runs {f : CoreState → CoreState} (hr : (s.core t).run = .running) (hc : s.clocked t = true)
    (hf : fetchCause (s.begun t) t = none) (hk : breaksAt (s.begun t) t = false) (h : (f ((s.begun t).core t)).run = ((s.begun t).core t).run) :
    s.coreInstr t f = (s.begun t).modCore t fun c => (f c).advance := by
  rw [State.coreInstr, State.instr_runs hr hc hf hk (by simp)]
  simp only [State.goOn, State.core_modCore, h, State.begun_run, hr]
  simp [State.modCore, State.setCore, get_set_self, State.core]

end Sys2Proof.Machine
end

