-- ==== Sys2Proof/Laws/Memory.lean ====
section
/-! SUPPORT. What every memory operation keeps and reads back: the canonical form of a memory, read after write, and the bytes a write leaves alone. -/

namespace Sys2Proof.Machine

/-- A bound below every address of a memory may be lowered or dropped. -/
theorem memAbove_weaken {a : Nat} {m : Mem} (h : memAbove (some a) m = true) :
    memAbove none m = true ∧ ∀ b, b ≤ a → memAbove (some b) m = true := by
  cases m with
  | nil => simp [memAbove]
  | cons c r =>
    obtain ⟨k, v⟩ := c
    simp only [memAbove, Bool.and_eq_true, decide_eq_true_eq] at h ⊢
    exact ⟨⟨⟨trivial, h.1.2⟩, h.2⟩, fun b hb => ⟨⟨by omega, h.1.2⟩, h.2⟩⟩

theorem memAbove_put {m : Mem} {o : Option Nat} {a : Nat} {v : Byte} (hv : v ≠ 0) (ho : ∀ b, o = some b → b < a)
    (h : memAbove o m = true) : memAbove o (memPut m a v) = true := by
  induction m generalizing o with
  | nil => cases o <;> simp_all [memAbove, memPut]
  | cons c r ih =>
    obtain ⟨k, b⟩ := c
    simp only [memAbove, Bool.and_eq_true, decide_eq_true_eq] at h
    unfold memPut
    split
    · next hlt => cases o <;> simp_all [memAbove]
    · split
      · next heq => subst heq; cases o <;> simp_all [memAbove]
      · have hk : k < a := by omega
        simp only [memAbove, Bool.and_eq_true, decide_eq_true_eq]
        exact ⟨h.1, ih (by intro b hb; cases hb; exact hk) h.2⟩

theorem memAbove_drop {m : Mem} {o : Option Nat} {a : Nat} (h : memAbove o m = true) : memAbove o (memDrop m a) = true := by
  induction m generalizing o with
  | nil => simp [memAbove, memDrop]
  | cons c r ih =>
    obtain ⟨k, b⟩ := c
    simp only [memAbove, Bool.and_eq_true, decide_eq_true_eq] at h
    unfold memDrop
    split
    · cases o with
      | none => exact (memAbove_weaken h.2).1
      | some x =>
        have hx : x < k := by simpa using h.1.1
        exact (memAbove_weaken h.2).2 x (by omega)
    · simp only [memAbove, Bool.and_eq_true, decide_eq_true_eq]
      exact ⟨h.1, ih h.2⟩

theorem memAbove_filter {m : Mem} {o : Option Nat} (p : Host.Cell → Bool) (h : memAbove o m = true) : memAbove o (m.filter p) = true := by
  induction m generalizing o with
  | nil => simp [memAbove]
  | cons c r ih =>
    obtain ⟨k, b⟩ := c
    simp only [memAbove, Bool.and_eq_true, decide_eq_true_eq] at h
    rw [List.filter_cons]
    split
    · simp only [memAbove, Bool.and_eq_true, decide_eq_true_eq]
      exact ⟨h.1, ih h.2⟩
    · cases o with
      | none => exact ih (memAbove_weaken h.2).1
      | some x =>
        have hx : x < k := by simpa using h.1.1
        exact ih ((memAbove_weaken h.2).2 x (by omega))

/-- Writing a byte keeps the canonical form. -/
@[simp] theorem memWrite_wf {m : Mem} (a : Nat) (v : Byte) (h : Memory.wf m = true) : Memory.wf (memWrite m a v) = true := by
  unfold memWrite Memory.wf
  split
  · exact memAbove_drop h
  · next hv => exact memAbove_put hv (by simp) h

/-- Writing n bytes keeps the canonical form. -/
@[simp] theorem memWriteN_wf {m : Mem} (a v n : Nat) (h : Memory.wf m = true) : Memory.wf (memWriteN m a v n) = true := by
  induction n generalizing m a v with
  | zero => exact h
  | succ n ih => exact ih _ _ (memWrite_wf a _ h)

/-- Storing a word keeps the canonical form. -/
@[simp] theorem memWrite32_wf {m : Mem} (a : Nat) (v : Word) (h : Memory.wf m = true) : Memory.wf (memWrite32 m a v) = true :=
  memWriteN_wf a _ 4 h

/-- Storing a list of bytes keeps the canonical form. -/
@[simp] theorem memWriteList_wf {m : Mem} (a : Nat) (bs : List Byte) (h : Memory.wf m = true) : Memory.wf (memWriteList m a bs) = true := by
  induction bs generalizing m a with
  | nil => exact h
  | cons b r ih => exact ih _ (memWrite_wf a b h)

/-- Clearing a range keeps the canonical form. -/
@[simp] theorem memClear_wf {m : Mem} (lo hi : Nat) (h : Memory.wf m = true) : Memory.wf (memClear m lo hi) = true :=
  memAbove_filter _ h

/-- An address below a memory's bound is not listed. -/
theorem memRead_below {m : Mem} {x a : Nat} (h : memAbove (some x) m = true) (ha : a ≤ x) : memRead m a = 0 := by
  induction m generalizing x with
  | nil => rfl
  | cons c r ih =>
    obtain ⟨k, b⟩ := c
    simp only [memAbove, Bool.and_eq_true, decide_eq_true_eq] at h
    unfold memRead
    rw [if_neg (by omega)]
    exact ih h.2 (by omega)

theorem memRead_put (m : Mem) (a : Nat) (v : Byte) (b : Nat) : memRead (memPut m a v) b = if b = a then v else memRead m b := by
  induction m with
  | nil => simp only [memPut, memRead]; grind
  | cons c r ih =>
    obtain ⟨k, w⟩ := c
    unfold memPut
    split
    · simp only [memRead]; grind
    · split
      · simp only [memRead]; grind
      · simp only [memRead, ih]; grind

theorem memRead_drop {m : Mem} {o : Option Nat} (h : memAbove o m = true) (a b : Nat) :
    memRead (memDrop m a) b = if b = a then 0 else memRead m b := by
  induction m generalizing o with
  | nil => simp [memDrop, memRead]
  | cons c r ih =>
    obtain ⟨k, w⟩ := c
    simp only [memAbove, Bool.and_eq_true, decide_eq_true_eq] at h
    unfold memDrop
    split
    · next hk =>
      subst hk
      by_cases hb : b = k
      · subst hb; rw [if_pos rfl]; exact memRead_below h.2 (by omega)
      · rw [if_neg hb]; simp [memRead, eq_comm, hb]
    · have := ih h.2
      simp only [memRead, this]; grind

/-- A byte reads back as it was written, and every other byte as before. -/
theorem memRead_write {m : Mem} (h : Memory.wf m = true) (a : Nat) (v : Byte) (b : Nat) :
    memRead (memWrite m a v) b = if b = a then v else memRead m b := by
  unfold memWrite
  split
  · next hv => rw [memRead_drop h, hv]
  · exact memRead_put m a v b

/-- Bytes outside [a, a + n) read as before a write of n bytes. -/
theorem memRead_writeN_frame {m : Mem} (h : Memory.wf m = true) (a v n b : Nat) (hb : b < a ∨ a + n ≤ b) :
    memRead (memWriteN m a v n) b = memRead m b := by
  induction n generalizing m a v with
  | zero => rfl
  | succ n ih =>
    rw [memWriteN, ih (memWrite_wf _ _ h) _ _ (by omega), memRead_write h, if_neg (by omega)]

/-- A list of bytes changes no byte outside its range. -/
theorem memRead_writeList_frame {m : Mem} (h : Memory.wf m = true) (a : Nat) (bs : List Byte) (b : Nat) (hb : b < a ∨ a + bs.length ≤ b) :
    memRead (memWriteList m a bs) b = memRead m b := by
  induction bs generalizing m a with
  | nil => rfl
  | cons x r ih =>
    simp only [List.length_cons] at hb
    rw [memWriteList, ih (memWrite_wf _ _ h) _ (by omega), memRead_write h, if_neg (by omega)]

/-- n bytes read back as the number written, modulo 2^(8n). -/
theorem memReadN_writeN {m : Mem} (h : Memory.wf m = true) (a v n : Nat) : memReadN (memWriteN m a v n) a n = v % 256 ^ n := by
  induction n generalizing m a v with
  | zero => simp [memReadN, Nat.mod_one]
  | succ n ih =>
    rw [memReadN, memWriteN, ih (memWrite_wf _ _ h), memRead_writeN_frame (memWrite_wf _ _ h) _ _ _ _ (by omega), memRead_write h, if_pos rfl]
    rw [BitVec.toNat_ofNat, Nat.pow_succ 256 n, Nat.mul_comm (256 ^ n), Nat.mod_mul]

/-- A word reads back as it was stored. -/
theorem memRead32_write32 {m : Mem} (h : Memory.wf m = true) (a : Nat) (v : Word) : memRead32 (memWrite32 m a v) a = v := by
  unfold memRead32 memWrite32
  rw [memReadN_writeN h]
  have := v.isLt
  rw [Nat.mod_eq_of_lt (by omega), BitVec.ofNat_toNat, BitVec.setWidth_eq]

end Sys2Proof.Machine
end

