-- ==== Sys2Proof/Laws/Ops.lean ====
section
/-! SUPPORT. What a posting, a wake, an interrupt line of the host and an event log record leave alone (R268, R278, R357, R385). -/

namespace Sys2Proof.Machine


section wakeCore
variable (s : State) (t : CoreId)
@[simp] theorem State.wakeCore_dev : (s.wakeCore t).dev = s.dev := by unfold State.wakeCore; split <;> rfl
@[simp] theorem State.wakeCore_lanes : (s.wakeCore t).lanes = s.lanes := by unfold State.wakeCore; split <;> rfl
@[simp] theorem State.wakeCore_groups : (s.wakeCore t).groups = s.groups := by unfold State.wakeCore; split <;> rfl
@[simp] theorem State.wakeCore_counters : (s.wakeCore t).counters = s.counters := by unfold State.wakeCore; split <;> rfl
@[simp] theorem State.wakeCore_slIn : (s.wakeCore t).slIn = s.slIn := by unfold State.wakeCore; split <;> rfl
@[simp] theorem State.wakeCore_srcs : (s.wakeCore t).srcs = s.srcs := by unfold State.wakeCore; split <;> rfl
@[simp] theorem State.wakeCore_ics : (s.wakeCore t).ics = s.ics := by unfold State.wakeCore; split <;> rfl
@[simp] theorem State.wakeCore_latches : (s.wakeCore t).latches = s.latches := by unfold State.wakeCore; split <;> rfl
@[simp] theorem State.wakeCore_bus : (s.wakeCore t).bus = s.bus := by unfold State.wakeCore; split <;> rfl
@[simp] theorem State.wakeCore_swath : (s.wakeCore t).swath = s.swath := by unfold State.wakeCore; split <;> rfl
@[simp] theorem State.wakeCore_sup : (s.wakeCore t).sup = s.sup := by unfold State.wakeCore; split <;> rfl
@[simp] theorem State.wakeCore_tether : (s.wakeCore t).tether = s.tether := by unfold State.wakeCore; split <;> rfl
@[simp] theorem State.wakeCore_mbx : (s.wakeCore t).mbx = s.mbx := by unfold State.wakeCore; split <;> rfl
@[simp] theorem State.wakeCore_image : (s.wakeCore t).image = s.image := by unfold State.wakeCore; split <;> rfl
@[simp] theorem State.wakeCore_sec : (s.wakeCore t).sec = s.sec := by unfold State.wakeCore; split <;> rfl
@[simp] theorem State.wakeCore_mem : (s.wakeCore t).mem = s.mem := by unfold State.wakeCore; split <;> rfl
@[simp] theorem State.wakeCore_pending : (s.wakeCore t).pending = s.pending := by unfold State.wakeCore; split <;> rfl
end wakeCore

section wakeGroup
variable (s : State) (t : CoreId)
@[simp] theorem State.wakeGroup_dev : (s.wakeGroup t).dev = s.dev := by
  unfold State.wakeGroup; dsimp only; repeat' split
  all_goals rfl
@[simp] theorem State.wakeGroup_lanes : (s.wakeGroup t).lanes = s.lanes := by
  unfold State.wakeGroup; dsimp only; repeat' split
  all_goals rfl
@[simp] theorem State.wakeGroup_cores : (s.wakeGroup t).cores = s.cores := by
  unfold State.wakeGroup; dsimp only; repeat' split
  all_goals rfl
@[simp] theorem State.wakeGroup_counters : (s.wakeGroup t).counters = s.counters := by
  unfold State.wakeGroup; dsimp only; repeat' split
  all_goals rfl
@[simp] theorem State.wakeGroup_slIn : (s.wakeGroup t).slIn = s.slIn := by
  unfold State.wakeGroup; dsimp only; repeat' split
  all_goals rfl
@[simp] theorem State.wakeGroup_srcs : (s.wakeGroup t).srcs = s.srcs := by
  unfold State.wakeGroup; dsimp only; repeat' split
  all_goals rfl
@[simp] theorem State.wakeGroup_ics : (s.wakeGroup t).ics = s.ics := by
  unfold State.wakeGroup; dsimp only; repeat' split
  all_goals rfl
@[simp] theorem State.wakeGroup_latches : (s.wakeGroup t).latches = s.latches := by
  unfold State.wakeGroup; dsimp only; repeat' split
  all_goals rfl
@[simp] theorem State.wakeGroup_bus : (s.wakeGroup t).bus = s.bus := by
  unfold State.wakeGroup; dsimp only; repeat' split
  all_goals rfl
@[simp] theorem State.wakeGroup_swath : (s.wakeGroup t).swath = s.swath := by
  unfold State.wakeGroup; dsimp only; repeat' split
  all_goals rfl
@[simp] theorem State.wakeGroup_sup : (s.wakeGroup t).sup = s.sup := by
  unfold State.wakeGroup; dsimp only; repeat' split
  all_goals rfl
@[simp] theorem State.wakeGroup_tether : (s.wakeGroup t).tether = s.tether := by
  unfold State.wakeGroup; dsimp only; repeat' split
  all_goals rfl
@[simp] theorem State.wakeGroup_mbx : (s.wakeGroup t).mbx = s.mbx := by
  unfold State.wakeGroup; dsimp only; repeat' split
  all_goals rfl
@[simp] theorem State.wakeGroup_image : (s.wakeGroup t).image = s.image := by
  unfold State.wakeGroup; dsimp only; repeat' split
  all_goals rfl
@[simp] theorem State.wakeGroup_sec : (s.wakeGroup t).sec = s.sec := by
  unfold State.wakeGroup; dsimp only; repeat' split
  all_goals rfl
@[simp] theorem State.wakeGroup_mem : (s.wakeGroup t).mem = s.mem := by
  unfold State.wakeGroup; dsimp only; repeat' split
  all_goals rfl
@[simp] theorem State.wakeGroup_pending : (s.wakeGroup t).pending = s.pending := by
  unfold State.wakeGroup; dsimp only; repeat' split
  all_goals rfl
end wakeGroup

section post
variable (s : State) (n : Nat)
@[simp] theorem State.post_dev : (s.post n).dev = s.dev := by
  unfold State.post; dsimp only; repeat' split
  all_goals simp
@[simp] theorem State.post_lanes : (s.post n).lanes = s.lanes := by
  unfold State.post; dsimp only; repeat' split
  all_goals simp
@[simp] theorem State.post_counters : (s.post n).counters = s.counters := by
  unfold State.post; dsimp only; repeat' split
  all_goals simp
@[simp] theorem State.post_slIn : (s.post n).slIn = s.slIn := by
  unfold State.post; dsimp only; repeat' split
  all_goals simp
@[simp] theorem State.post_ics : (s.post n).ics = s.ics := by
  unfold State.post; dsimp only; repeat' split
  all_goals simp
@[simp] theorem State.post_latches : (s.post n).latches = s.latches := by
  unfold State.post; dsimp only; repeat' split
  all_goals simp
@[simp] theorem State.post_bus : (s.post n).bus = s.bus := by
  unfold State.post; dsimp only; repeat' split
  all_goals simp
@[simp] theorem State.post_swath : (s.post n).swath = s.swath := by
  unfold State.post; dsimp only; repeat' split
  all_goals simp
@[simp] theorem State.post_sup : (s.post n).sup = s.sup := by
  unfold State.post; dsimp only; repeat' split
  all_goals simp
@[simp] theorem State.post_tether : (s.post n).tether = s.tether := by
  unfold State.post; dsimp only; repeat' split
  all_goals simp
@[simp] theorem State.post_mbx : (s.post n).mbx = s.mbx := by
  unfold State.post; dsimp only; repeat' split
  all_goals simp
@[simp] theorem State.post_image : (s.post n).image = s.image := by
  unfold State.post; dsimp only; repeat' split
  all_goals simp
@[simp] theorem State.post_sec : (s.post n).sec = s.sec := by
  unfold State.post; dsimp only; repeat' split
  all_goals simp
@[simp] theorem State.post_mem : (s.post n).mem = s.mem := by
  unfold State.post; dsimp only; repeat' split
  all_goals simp
@[simp] theorem State.post_pending : (s.post n).pending = s.pending := by
  unfold State.post; dsimp only; repeat' split
  all_goals simp
end post

section postLane
variable (s : State) (l : LaneId) (k : Nat)
@[simp] theorem State.postLane_dev : (s.postLane l k).dev = s.dev := s.post_dev _
@[simp] theorem State.postLane_lanes : (s.postLane l k).lanes = s.lanes := s.post_lanes _
@[simp] theorem State.postLane_counters : (s.postLane l k).counters = s.counters := s.post_counters _
@[simp] theorem State.postLane_slIn : (s.postLane l k).slIn = s.slIn := s.post_slIn _
@[simp] theorem State.postLane_ics : (s.postLane l k).ics = s.ics := s.post_ics _
@[simp] theorem State.postLane_latches : (s.postLane l k).latches = s.latches := s.post_latches _
@[simp] theorem State.postLane_bus : (s.postLane l k).bus = s.bus := s.post_bus _
@[simp] theorem State.postLane_swath : (s.postLane l k).swath = s.swath := s.post_swath _
@[simp] theorem State.postLane_sup : (s.postLane l k).sup = s.sup := s.post_sup _
@[simp] theorem State.postLane_tether : (s.postLane l k).tether = s.tether := s.post_tether _
@[simp] theorem State.postLane_mbx : (s.postLane l k).mbx = s.mbx := s.post_mbx _
@[simp] theorem State.postLane_image : (s.postLane l k).image = s.image := s.post_image _
@[simp] theorem State.postLane_sec : (s.postLane l k).sec = s.sec := s.post_sec _
@[simp] theorem State.postLane_mem : (s.postLane l k).mem = s.mem := s.post_mem _
@[simp] theorem State.postLane_pending : (s.postLane l k).pending = s.pending := s.post_pending _
end postLane

section irq
variable (s : State) (n : Fin 11)
@[simp] theorem State.irq_lanes : (s.irq n).lanes = s.lanes := rfl
@[simp] theorem State.irq_groups : (s.irq n).groups = s.groups := rfl
@[simp] theorem State.irq_cores : (s.irq n).cores = s.cores := rfl
@[simp] theorem State.irq_counters : (s.irq n).counters = s.counters := rfl
@[simp] theorem State.irq_slIn : (s.irq n).slIn = s.slIn := rfl
@[simp] theorem State.irq_srcs : (s.irq n).srcs = s.srcs := rfl
@[simp] theorem State.irq_ics : (s.irq n).ics = s.ics := rfl
@[simp] theorem State.irq_latches : (s.irq n).latches = s.latches := rfl
@[simp] theorem State.irq_bus : (s.irq n).bus = s.bus := rfl
@[simp] theorem State.irq_swath : (s.irq n).swath = s.swath := rfl
@[simp] theorem State.irq_sup : (s.irq n).sup = s.sup := rfl
@[simp] theorem State.irq_tether : (s.irq n).tether = s.tether := rfl
@[simp] theorem State.irq_mbx : (s.irq n).mbx = s.mbx := rfl
@[simp] theorem State.irq_image : (s.irq n).image = s.image := rfl
@[simp] theorem State.irq_sec : (s.irq n).sec = s.sec := rfl
@[simp] theorem State.irq_mem : (s.irq n).mem = s.mem := rfl
@[simp] theorem State.irq_pending : (s.irq n).pending = s.pending := rfl
end irq

section logAdvance
variable (s : State)
@[simp] theorem State.logAdvance_lanes : s.logAdvance.lanes = s.lanes := by
  unfold State.logAdvance; dsimp only; split <;> simp
@[simp] theorem State.logAdvance_counters : s.logAdvance.counters = s.counters := by
  unfold State.logAdvance; dsimp only; split <;> simp
@[simp] theorem State.logAdvance_slIn : s.logAdvance.slIn = s.slIn := by
  unfold State.logAdvance; dsimp only; split <;> simp
@[simp] theorem State.logAdvance_ics : s.logAdvance.ics = s.ics := by
  unfold State.logAdvance; dsimp only; split <;> simp
@[simp] theorem State.logAdvance_latches : s.logAdvance.latches = s.latches := by
  unfold State.logAdvance; dsimp only; split <;> simp
@[simp] theorem State.logAdvance_bus : s.logAdvance.bus = s.bus := by
  unfold State.logAdvance; dsimp only; split <;> simp
@[simp] theorem State.logAdvance_swath : s.logAdvance.swath = s.swath := by
  unfold State.logAdvance; dsimp only; split <;> simp
@[simp] theorem State.logAdvance_sup : s.logAdvance.sup = s.sup := by
  unfold State.logAdvance; dsimp only; split <;> simp
@[simp] theorem State.logAdvance_tether : s.logAdvance.tether = s.tether := by
  unfold State.logAdvance; dsimp only; split <;> simp
@[simp] theorem State.logAdvance_mbx : s.logAdvance.mbx = s.mbx := by
  unfold State.logAdvance; dsimp only; split <;> simp
@[simp] theorem State.logAdvance_image : s.logAdvance.image = s.image := by
  unfold State.logAdvance; dsimp only; split <;> simp
@[simp] theorem State.logAdvance_sec : s.logAdvance.sec = s.sec := by
  unfold State.logAdvance; dsimp only; split <;> simp
@[simp] theorem State.logAdvance_mem : s.logAdvance.mem = s.mem := by
  unfold State.logAdvance; dsimp only; split <;> simp
@[simp] theorem State.logAdvance_pending : s.logAdvance.pending = s.pending := by
  unfold State.logAdvance; dsimp only; split <;> simp
end logAdvance

section log
variable (s : State) (flags code : Nat) (k : LogKind) (i : Nat) (d0 d1 d2 : Word)
@[simp] theorem State.logFlags_lanes : (s.logFlags flags code k i d0 d1 d2).lanes = s.lanes := by simp [State.logFlags]
@[simp] theorem State.log_lanes : (s.log code k i d0 d1 d2).lanes = s.lanes := s.logFlags_lanes ..
@[simp] theorem State.logSw_lanes : (s.logSw code k i d0 d1 d2).lanes = s.lanes := s.logFlags_lanes ..
@[simp] theorem State.logFlags_counters : (s.logFlags flags code k i d0 d1 d2).counters = s.counters := by simp [State.logFlags]
@[simp] theorem State.log_counters : (s.log code k i d0 d1 d2).counters = s.counters := s.logFlags_counters ..
@[simp] theorem State.logSw_counters : (s.logSw code k i d0 d1 d2).counters = s.counters := s.logFlags_counters ..
@[simp] theorem State.logFlags_slIn : (s.logFlags flags code k i d0 d1 d2).slIn = s.slIn := by simp [State.logFlags]
@[simp] theorem State.log_slIn : (s.log code k i d0 d1 d2).slIn = s.slIn := s.logFlags_slIn ..
@[simp] theorem State.logSw_slIn : (s.logSw code k i d0 d1 d2).slIn = s.slIn := s.logFlags_slIn ..
@[simp] theorem State.logFlags_ics : (s.logFlags flags code k i d0 d1 d2).ics = s.ics := by simp [State.logFlags]
@[simp] theorem State.log_ics : (s.log code k i d0 d1 d2).ics = s.ics := s.logFlags_ics ..
@[simp] theorem State.logSw_ics : (s.logSw code k i d0 d1 d2).ics = s.ics := s.logFlags_ics ..
@[simp] theorem State.logFlags_latches : (s.logFlags flags code k i d0 d1 d2).latches = s.latches := by simp [State.logFlags]
@[simp] theorem State.log_latches : (s.log code k i d0 d1 d2).latches = s.latches := s.logFlags_latches ..
@[simp] theorem State.logSw_latches : (s.logSw code k i d0 d1 d2).latches = s.latches := s.logFlags_latches ..
@[simp] theorem State.logFlags_bus : (s.logFlags flags code k i d0 d1 d2).bus = s.bus := by simp [State.logFlags]
@[simp] theorem State.log_bus : (s.log code k i d0 d1 d2).bus = s.bus := s.logFlags_bus ..
@[simp] theorem State.logSw_bus : (s.logSw code k i d0 d1 d2).bus = s.bus := s.logFlags_bus ..
@[simp] theorem State.logFlags_swath : (s.logFlags flags code k i d0 d1 d2).swath = s.swath := by simp [State.logFlags]
@[simp] theorem State.log_swath : (s.log code k i d0 d1 d2).swath = s.swath := s.logFlags_swath ..
@[simp] theorem State.logSw_swath : (s.logSw code k i d0 d1 d2).swath = s.swath := s.logFlags_swath ..
@[simp] theorem State.logFlags_sup : (s.logFlags flags code k i d0 d1 d2).sup = s.sup := by simp [State.logFlags]
@[simp] theorem State.log_sup : (s.log code k i d0 d1 d2).sup = s.sup := s.logFlags_sup ..
@[simp] theorem State.logSw_sup : (s.logSw code k i d0 d1 d2).sup = s.sup := s.logFlags_sup ..
@[simp] theorem State.logFlags_tether : (s.logFlags flags code k i d0 d1 d2).tether = s.tether := by simp [State.logFlags]
@[simp] theorem State.log_tether : (s.log code k i d0 d1 d2).tether = s.tether := s.logFlags_tether ..
@[simp] theorem State.logSw_tether : (s.logSw code k i d0 d1 d2).tether = s.tether := s.logFlags_tether ..
@[simp] theorem State.logFlags_mbx : (s.logFlags flags code k i d0 d1 d2).mbx = s.mbx := by simp [State.logFlags]
@[simp] theorem State.log_mbx : (s.log code k i d0 d1 d2).mbx = s.mbx := s.logFlags_mbx ..
@[simp] theorem State.logSw_mbx : (s.logSw code k i d0 d1 d2).mbx = s.mbx := s.logFlags_mbx ..
@[simp] theorem State.logFlags_image : (s.logFlags flags code k i d0 d1 d2).image = s.image := by simp [State.logFlags]
@[simp] theorem State.log_image : (s.log code k i d0 d1 d2).image = s.image := s.logFlags_image ..
@[simp] theorem State.logSw_image : (s.logSw code k i d0 d1 d2).image = s.image := s.logFlags_image ..
@[simp] theorem State.logFlags_sec : (s.logFlags flags code k i d0 d1 d2).sec = s.sec := by simp [State.logFlags]
@[simp] theorem State.log_sec : (s.log code k i d0 d1 d2).sec = s.sec := s.logFlags_sec ..
@[simp] theorem State.logSw_sec : (s.logSw code k i d0 d1 d2).sec = s.sec := s.logFlags_sec ..
@[simp] theorem State.logFlags_pending : (s.logFlags flags code k i d0 d1 d2).pending = s.pending := by simp [State.logFlags]
@[simp] theorem State.log_pending : (s.log code k i d0 d1 d2).pending = s.pending := s.logFlags_pending ..
@[simp] theorem State.logSw_pending : (s.logSw code k i d0 d1 d2).pending = s.pending := s.logFlags_pending ..
end log

@[simp] theorem State.wakeCore_lane (s : State) (t : CoreId) (j : LaneId) : (s.wakeCore t).lane j = s.lane j := State.lane_congr (s.wakeCore_lanes t) j
@[simp] theorem State.wakeCore_ic (s : State) (t : CoreId) (j : CoreId) : (s.wakeCore t).ic j = s.ic j := State.ic_congr (s.wakeCore_ics t) j
@[simp] theorem State.wakeCore_group (s : State) (t : CoreId) (j : GroupId) : (s.wakeCore t).group j = s.group j := State.group_congr (s.wakeCore_groups t) j
@[simp] theorem State.wakeCore_src (s : State) (t : CoreId) (j : SourceId) : (s.wakeCore t).src j = s.src j := State.src_congr (s.wakeCore_srcs t) j
@[simp] theorem State.wakeGroup_lane (s : State) (t : CoreId) (j : LaneId) : (s.wakeGroup t).lane j = s.lane j := State.lane_congr (s.wakeGroup_lanes t) j
@[simp] theorem State.wakeGroup_ic (s : State) (t : CoreId) (j : CoreId) : (s.wakeGroup t).ic j = s.ic j := State.ic_congr (s.wakeGroup_ics t) j
@[simp] theorem State.wakeGroup_core (s : State) (t : CoreId) (j : CoreId) : (s.wakeGroup t).core j = s.core j := State.core_congr (s.wakeGroup_cores t) j
@[simp] theorem State.wakeGroup_src (s : State) (t : CoreId) (j : SourceId) : (s.wakeGroup t).src j = s.src j := State.src_congr (s.wakeGroup_srcs t) j
@[simp] theorem State.post_lane (s : State) (n : Nat) (j : LaneId) : (s.post n).lane j = s.lane j := State.lane_congr (s.post_lanes n) j
@[simp] theorem State.post_ic (s : State) (n : Nat) (j : CoreId) : (s.post n).ic j = s.ic j := State.ic_congr (s.post_ics n) j
@[simp] theorem State.postLane_lane (s : State) (l : LaneId) (k : Nat) (j : LaneId) : (s.postLane l k).lane j = s.lane j := State.lane_congr (s.postLane_lanes l k) j
@[simp] theorem State.postLane_ic (s : State) (l : LaneId) (k : Nat) (j : CoreId) : (s.postLane l k).ic j = s.ic j := State.ic_congr (s.postLane_ics l k) j
@[simp] theorem State.irq_lane (s : State) (n : Fin 11) (j : LaneId) : (s.irq n).lane j = s.lane j := State.lane_congr (s.irq_lanes n) j
@[simp] theorem State.irq_ic (s : State) (n : Fin 11) (j : CoreId) : (s.irq n).ic j = s.ic j := State.ic_congr (s.irq_ics n) j
@[simp] theorem State.irq_core (s : State) (n : Fin 11) (j : CoreId) : (s.irq n).core j = s.core j := State.core_congr (s.irq_cores n) j
@[simp] theorem State.irq_group (s : State) (n : Fin 11) (j : GroupId) : (s.irq n).group j = s.group j := State.group_congr (s.irq_groups n) j
@[simp] theorem State.irq_src (s : State) (n : Fin 11) (j : SourceId) : (s.irq n).src j = s.src j := State.src_congr (s.irq_srcs n) j
@[simp] theorem State.logAdvance_lane (s : State) (j : LaneId) : (s.logAdvance ).lane j = s.lane j := State.lane_congr (s.logAdvance_lanes ) j
@[simp] theorem State.logAdvance_ic (s : State) (j : CoreId) : (s.logAdvance ).ic j = s.ic j := State.ic_congr (s.logAdvance_ics ) j
@[simp] theorem State.log_lane (s : State) (code : Nat) (q : LogKind) (i : Nat) (d0 d1 d2 : Word) (j : LaneId) : (s.log code q i d0 d1 d2).lane j = s.lane j := State.lane_congr (s.log_lanes code q i d0 d1 d2) j
@[simp] theorem State.log_ic (s : State) (code : Nat) (q : LogKind) (i : Nat) (d0 d1 d2 : Word) (j : CoreId) : (s.log code q i d0 d1 d2).ic j = s.ic j := State.ic_congr (s.log_ics code q i d0 d1 d2) j
@[simp] theorem State.logSw_lane (s : State) (code : Nat) (q : LogKind) (i : Nat) (d0 d1 d2 : Word) (j : LaneId) : (s.logSw code q i d0 d1 d2).lane j = s.lane j := State.lane_congr (s.logSw_lanes code q i d0 d1 d2) j
@[simp] theorem State.logSw_ic (s : State) (code : Nat) (q : LogKind) (i : Nat) (d0 d1 d2 : Word) (j : CoreId) : (s.logSw code q i d0 d1 d2).ic j = s.ic j := State.ic_congr (s.logSw_ics code q i d0 d1 d2) j
@[simp] theorem State.logFlags_lane (s : State) (flags code : Nat) (q : LogKind) (i : Nat) (d0 d1 d2 : Word) (j : LaneId) : (s.logFlags flags code q i d0 d1 d2).lane j = s.lane j := State.lane_congr (s.logFlags_lanes flags code q i d0 d1 d2) j
@[simp] theorem State.logFlags_ic (s : State) (flags code : Nat) (q : LogKind) (i : Nat) (d0 d1 d2 : Word) (j : CoreId) : (s.logFlags flags code q i d0 d1 d2).ic j = s.ic j := State.ic_congr (s.logFlags_ics flags code q i d0 d1 d2) j

/-- A posting counts against its source, where the source is routed, and against no other source (R269, R276). -/
theorem State.post_srcs (s : State) (n : Nat) (j : SourceId) :
    (s.post n).src j = if j.val = n ∧ (s.src j).routeEn = true then (s.src j).posted else s.src j := by
  have hw (r : State) (t u : CoreId) (x : SourceId) :
      (if (r.wakeGroup t).wakes u x then (r.wakeGroup t).wakeCore u else r.wakeGroup t).src j = r.src j := by split <;> simp
  unfold State.post
  split
  · next h =>
    dsimp only
    split
    · next hr =>
      have hm : (s.modSrc ⟨n, h⟩ IcSrc.posted).src j = if j.val = n ∧ (s.src j).routeEn = true then (s.src j).posted else s.src j := by
        by_cases hj : j = ⟨n, h⟩
        · subst hj; rw [State.src_modSrc, if_pos ⟨rfl, hr⟩]
        · rw [State.src_modSrc_ne _ _ hj, if_neg fun e => hj (Fin.ext e.1)]
      split
      · rw [hw, hm]
      · exact hm
    · next hr =>
      by_cases hj : j = ⟨n, h⟩
      · subst hj; rw [if_neg fun e => hr e.2]
      · rw [if_neg fun e => hj (Fin.ext e.1)]
  · next h => rw [if_neg (by rintro ⟨rfl, _⟩; exact h j.isLt)]

end Sys2Proof.Machine
end

