-- ==== Sys2Proof/Laws/Kept.lean ====
section
/-! SUPPORT. What every shared operation keeps: the queue of waiting commands, the canonical form of the memories, and the bounds of the message layer. `Kept r s` says that s holds r's queue and is ok; each operation has one lemma, which carries it from a state to the operation's result. -/

namespace Sys2Proof.Machine

/-- s holds the waiting commands of r, and its memories and message layers are as they must be. -/
structure Kept (r s : State) : Prop where
  pending : s.pending = r.pending
  ok : s.ok

section updates
variable {r s : State}

@[simp] theorem Kept.modGroup (g : GroupId) (f : Group → Group) (hk : Kept r s) : Kept r (s.modGroup g f) := ⟨hk.pending, hk.ok⟩
@[simp] theorem Kept.setCore (t : CoreId) (c : CoreState) (hk : Kept r s) : Kept r (s.setCore t c) := ⟨hk.pending, hk.ok⟩
@[simp] theorem Kept.modCore (t : CoreId) (f : CoreState → CoreState) (hk : Kept r s) : Kept r (s.modCore t f) := ⟨hk.pending, hk.ok⟩
@[simp] theorem Kept.modCounter (n : CounterId) (f : Counter → Counter) (hk : Kept r s) : Kept r (s.modCounter n f) := ⟨hk.pending, hk.ok⟩
@[simp] theorem Kept.modIc (t : CoreId) (f : IcCore → IcCore) (hk : Kept r s) : Kept r (s.modIc t f) := ⟨hk.pending, hk.ok⟩
@[simp] theorem Kept.modSrc (x : SourceId) (f : IcSrc → IcSrc) (hk : Kept r s) : Kept r (s.modSrc x f) := ⟨hk.pending, hk.ok⟩
@[simp] theorem Kept.modLatch (a : Agent) (f : Latches → Latches) (hk : Kept r s) : Kept r (s.modLatch a f) := ⟨hk.pending, hk.ok⟩
@[simp] theorem Kept.modDev (f : Dev → Dev) (hk : Kept r s) : Kept r (s.modDev f) := ⟨hk.pending, hk.ok⟩
@[simp] theorem Kept.modBus (f : Bus → Bus) (hk : Kept r s) : Kept r (s.modBus f) := ⟨hk.pending, hk.ok⟩
@[simp] theorem Kept.modSwath (f : Swath → Swath) (hk : Kept r s) : Kept r (s.modSwath f) := ⟨hk.pending, hk.ok⟩
@[simp] theorem Kept.modTether (f : Tether → Tether) (hk : Kept r s) : Kept r (s.modTether f) := ⟨hk.pending, hk.ok⟩
@[simp] theorem Kept.modSec (f : Security → Security) (hk : Kept r s) : Kept r (s.modSec f) := ⟨hk.pending, hk.ok⟩
@[simp] theorem Kept.modSup (f : Sup → Sup) (hk : Kept r s) : Kept r (s.modSup f) := ⟨hk.pending, hk.ok⟩
@[simp] theorem Kept.modMbx (f : Mailbox → Mailbox) (hk : Kept r s) : Kept r (s.modMbx f) := ⟨hk.pending, hk.ok⟩

theorem Kept.modImage (f : Image → Image) (hf : Memory.wf s.image.store = true → Memory.wf (f s.image).store = true) (hk : Kept r s) :
    Kept r (s.modImage f) := ⟨hk.pending, hk.ok.1, hf hk.ok.2.1, hk.ok.2.2⟩

@[simp] theorem Kept.modImage_store (f : Image → Image) (hf : ∀ x, (f x).store = x.store) (hk : Kept r s) : Kept r (s.modImage f) :=
  hk.modImage f fun h => (hf s.image).symm ▸ h

theorem Kept.withMem {m : Mem} (hm : Memory.wf s.mem = true → Memory.wf m = true) (hk : Kept r s) : Kept r { s with mem := m } :=
  ⟨hk.pending, hm hk.ok.1, hk.ok.2⟩

@[simp] theorem Kept.withSec (y : Security) (hk : Kept r s) : Kept r { s with sec := y } := ⟨hk.pending, hk.ok⟩
@[simp] theorem Kept.withSrcs (y : Vector IcSrc 1024) (hk : Kept r s) : Kept r { s with srcs := y } := ⟨hk.pending, hk.ok⟩
@[simp] theorem Kept.withCores (y : Vector CoreState 6) (hk : Kept r s) : Kept r { s with cores := y } := ⟨hk.pending, hk.ok⟩

@[simp] theorem Kept.withLanes (f : Lane → Lane) (hf : ∀ x, (f x).pd = x.pd) (hk : Kept r s) : Kept r { s with lanes := s.lanes.map f } := by
  refine ⟨hk.pending, hk.ok.1, hk.ok.2.1, fun k => ?_⟩
  have : (State.lane { s with lanes := s.lanes.map f } k).pd = (s.lane k).pd := by
    simp [State.lane, Vector.get, hf]
  rw [this]; exact hk.ok.2.2 k

theorem Kept.modLane (l : LaneId) (f : Lane → Lane) (hf : (s.lane l).pd.ok → (f (s.lane l)).pd.ok) (hk : Kept r s) : Kept r (s.modLane l f) := by
  refine ⟨hk.pending, hk.ok.1, hk.ok.2.1, fun k => ?_⟩
  by_cases h : k = l
  · subst h; rw [State.lane_modLane]; exact hf (hk.ok.2.2 k)
  · rw [State.lane_modLane_ne _ _ h]; exact hk.ok.2.2 k

@[simp] theorem Kept.modLane_pd (l : LaneId) (f : Lane → Lane) (hf : ∀ x, (f x).pd = x.pd) (hk : Kept r s) : Kept r (s.modLane l f) :=
  hk.modLane l f fun h => (hf (s.lane l)).symm ▸ h

@[simp] theorem Kept.modCfg (l : LaneId) (f : LaneCfg → LaneCfg) (hk : Kept r s) : Kept r (s.modCfg l f) := hk.modLane l _ id
@[simp] theorem Kept.modCc (l : LaneId) (f : CcLane → CcLane) (hk : Kept r s) : Kept r (s.modCc l f) := hk.modLane l _ id
@[simp] theorem Kept.modCon (l : LaneId) (f : ContractLane → ContractLane) (hk : Kept r s) : Kept r (s.modCon l f) := hk.modLane l _ id
@[simp] theorem Kept.modSwap (l : LaneId) (f : SwapLane → SwapLane) (hk : Kept r s) : Kept r (s.modSwap l f) := hk.modLane l _ id
@[simp] theorem Kept.modTally (l : LaneId) (f : TallyLane → TallyLane) (hk : Kept r s) : Kept r (s.modTally l f) := hk.modLane l _ id
@[simp] theorem Kept.modBelay (l : LaneId) (f : BelayLane → BelayLane) (hk : Kept r s) : Kept r (s.modBelay l f) := hk.modLane l _ id
@[simp] theorem Kept.modConv (l : LaneId) (f : ConvLane → ConvLane) (hk : Kept r s) : Kept r (s.modConv l f) := hk.modLane l _ id
@[simp] theorem Kept.modBudget (l : LaneId) (f : BudgetLane → BudgetLane) (hk : Kept r s) : Kept r (s.modBudget l f) := hk.modLane l _ id
@[simp] theorem Kept.modSect (l : LaneId) (f : SectLane → SectLane) (hk : Kept r s) : Kept r (s.modSect l f) := hk.modLane l _ id
@[simp] theorem Kept.modFw (l : LaneId) (f : FwLane → FwLane) (hk : Kept r s) : Kept r (s.modFw l f) := hk.modLane l _ id

theorem Kept.modPd_at (l : LaneId) (f : PdLane → PdLane) (hf : (s.lane l).pd.ok → (f (s.lane l).pd).ok) (hk : Kept r s) : Kept r (s.modPd l f) :=
  hk.modLane l _ hf

theorem Kept.modPd_of (l : LaneId) (f : PdLane → PdLane) (hf : ∀ p : PdLane, p.ok → (f p).ok) (hk : Kept r s) : Kept r (s.modPd l f) :=
  hk.modLane l _ (hf _)

@[simp] theorem Kept.modPd (l : LaneId) (f : PdLane → PdLane) (h1 : ∀ p, (f p).fifo = p.fifo) (h2 : ∀ p, (f p).queue = p.queue)
    (h3 : ∀ p, (f p).rxBuf = p.rxBuf) (h4 : ∀ p, (f p).txBuf = p.txBuf) (hk : Kept r s) : Kept r (s.modPd l f) :=
  hk.modPd_of l f fun p h => by simpa only [PdLane.ok, h1, h2, h3, h4] using h

@[simp] theorem Kept.forEach {α : Type} {f : State → α → State} (xs : List α) (hf : ∀ s, Kept r s → ∀ x, Kept r (f s x)) (hk : Kept r s) :
    Kept r (s.forEach xs f) :=
  State.forEach_keeps (P := Kept r) (fun s x h => hf s h x) xs s hk

@[simp] theorem Kept.ite {c : Prop} [Decidable c] {a b : State} (ha : Kept r a) (hb : Kept r b) : Kept r (if c then a else b) := by
  split <;> assumption

end updates

theorem bufWrite_wf {m : Mem} {o : Nat} {w : Word} (h : Memory.wf m = true) : Memory.wf (bufWrite m o w) = true := by
  unfold bufWrite
  generalize List.range 4 = xs
  induction xs generalizing m with
  | nil => exact h
  | cons x r ih => rw [List.foldl_cons]; exact ih (by split <;> simp [h])

theorem putChunk_wf {m : Mem} {k n : Nat} {f : Frame} (h : Memory.wf m = true) : Memory.wf (putChunk m k n f) = true := memWriteList_wf _ _ h

/-- The state that an end of an instruction, of an element or of a micro-operation holds. -/
def InstrEnd.state : InstrEnd → State
  | .next s => s | .branch _ _ s => s | .trap _ _ s => s | .hold s => s | .soft _ s => s
def ElementEnd.state : ElementEnd → State
  | .more s => s | .done s => s | .trap _ _ s => s
def MicroEnd.state : MicroEnd → State
  | .go _ _ s => s | .trap _ _ s => s

@[simp] theorem PdLane.clearIds_fifo (p : PdLane) : p.clearIds.fifo = p.fifo := rfl
@[simp] theorem PdLane.clearIds_queue (p : PdLane) : p.clearIds.queue = p.queue := rfl
@[simp] theorem PdLane.clearIds_rxBuf (p : PdLane) : p.clearIds.rxBuf = p.rxBuf := rfl
@[simp] theorem PdLane.clearIds_txBuf (p : PdLane) : p.clearIds.txBuf = p.txBuf := rfl


@[simp] theorem Kept.signal {r s : State} (l : LaneId) (k : HrThen) (hk : Kept r s) : Kept r (s.modPd l fun p => p.signal k) :=
  hk.modPd_of l _ fun _ h => h

/-- A reset lane is within its bounds, and a reset state keeps its memories. -/
theorem reset_lane_pd (l : LaneId) : (State.reset.lane l).pd = {} := by
  simp [State.lane, State.reset, Vector.get]

theorem reset_pd_ok : ({} : PdLane).ok := ⟨by decide, by decide, by decide, by decide⟩

@[simp] theorem Kept.free {s : State} {r0 : State} (hk : Kept r0 s) : Kept r0 (State.free s).2 := by
  simp +contextual (maxDischargeDepth := 50) only [State.free, Kept.modDev, hk]
@[simp] theorem Kept.wakeCore {s : State} (t : CoreId) {r0 : State} (hk : Kept r0 s) : Kept r0 (State.wakeCore s t) := by
  simp +contextual (maxDischargeDepth := 50) only [State.wakeCore, Kept.ite, Kept.modCore, hk]
@[simp] theorem Kept.wakeGroup {s : State} (t : CoreId) {r0 : State} (hk : Kept r0 s) : Kept r0 (State.wakeGroup s t) := by
  unfold State.wakeGroup; (try dsimp only); repeat' split
  all_goals simp +contextual (maxDischargeDepth := 50) only [Kept.modGroup, hk]
@[simp] theorem Kept.post {s : State} (n : Nat) {r0 : State} (hk : Kept r0 s) : Kept r0 (State.post s n) := by
  refine ⟨by simp (maxDischargeDepth := 50) [hk.pending], ?_, ?_, fun l => ?_⟩
  · simpa using hk.ok.1
  · simpa using hk.ok.2.1
  · simpa using hk.ok.2.2 l
@[simp] theorem Kept.postLane {s : State} (l : LaneId) (k : Nat) {r0 : State} (hk : Kept r0 s) : Kept r0 (State.postLane s l k) := by
  simp +contextual (maxDischargeDepth := 50) only [State.postLane, Kept.post, hk]
@[simp] theorem Kept.irq {s : State} (n : Fin 11) {r0 : State} (hk : Kept r0 s) : Kept r0 (State.irq s n) := by
  simp +contextual (maxDischargeDepth := 50) only [State.irq, Kept.modDev, hk]
@[simp] theorem Kept.logAdvance {s : State} {r0 : State} (hk : Kept r0 s) : Kept r0 (State.logAdvance s) := by
  simp +contextual (maxDischargeDepth := 50) only [State.logAdvance, Kept.ite, Kept.modDev, Kept.post, hk]
@[simp] theorem Kept.logFlags {s : State} (flags : Nat) (code : Nat) (k : LogKind) (i : Nat) (d0 d1 d2 : Word) {r0 : State} (hk : Kept r0 s) : Kept r0 (State.logFlags s flags code k i d0 d1 d2) := by
  unfold State.logFlags; exact Kept.logAdvance (hk.withMem fun h => by simp (maxDischargeDepth := 50) [h])
@[simp] theorem Kept.log {s : State} (code : Nat) (k : LogKind) (i : Nat) (d0 d1 d2 : Word) {r0 : State} (hk : Kept r0 s) : Kept r0 (State.log s code k i d0 d1 d2) := by
  simp +contextual (maxDischargeDepth := 50) only [State.log, Kept.logFlags, hk]
@[simp] theorem Kept.logSw {s : State} (code : Nat) (k : LogKind) (i : Nat) (d0 d1 d2 : Word) {r0 : State} (hk : Kept r0 s) : Kept r0 (State.logSw s code k i d0 d1 d2) := by
  simp +contextual (maxDischargeDepth := 50) only [State.logSw, Kept.logFlags, hk]
@[simp] theorem Kept.writeIlim {s : State} (l : LaneId) (v : Nat) {r0 : State} (hk : Kept r0 s) : Kept r0 (State.writeIlim s l v) := by
  simp +contextual (maxDischargeDepth := 50) only [State.writeIlim, Kept.modCfg, hk]
@[simp] theorem Kept.setFwd {s : State} (l : LaneId) (v : Nat) {r0 : State} (hk : Kept r0 s) : Kept r0 (State.setFwd s l v) := by
  simp +contextual (maxDischargeDepth := 50) only [State.setFwd, Kept.modCfg, Kept.modConv, hk]
@[simp] theorem Kept.setRev {s : State} (l : LaneId) (v : Nat) {r0 : State} (hk : Kept r0 s) : Kept r0 (State.setRev s l v) := by
  simp +contextual (maxDischargeDepth := 50) only [State.setRev, Kept.modCfg, Kept.modConv, hk]
@[simp] theorem Kept.setVset {s : State} (l : LaneId) (v : Nat) {r0 : State} (hk : Kept r0 s) : Kept r0 (State.setVset s l v) := by
  simp +contextual (maxDischargeDepth := 50) only [State.setVset, Kept.modCfg, Kept.modConv, hk]
@[simp] theorem Kept.runEngine {s : State} (l : LaneId) {r0 : State} (hk : Kept r0 s) : Kept r0 (State.runEngine s l) := by
  simp +contextual (maxDischargeDepth := 50) only [State.runEngine, Kept.modGroup, hk]
@[simp] theorem Kept.softStart {s : State} (l : LaneId) {r0 : State} (hk : Kept r0 s) : Kept r0 (State.softStart s l) := by
  simp +contextual (maxDischargeDepth := 50) only [State.softStart, Kept.ite, Kept.modConv, Kept.setFwd, Kept.setVset, Kept.runEngine, hk]
@[simp] theorem Kept.reverseStart {s : State} (l : LaneId) {r0 : State} (hk : Kept r0 s) : Kept r0 (State.reverseStart s l) := by
  simp +contextual (maxDischargeDepth := 50) only [State.reverseStart, Kept.ite, Kept.modConv, Kept.runEngine, hk]
@[simp] theorem Kept.stopStage {s : State} (l : LaneId) {r0 : State} (hk : Kept r0 s) : Kept r0 (State.stopStage s l) := by
  simp +contextual (maxDischargeDepth := 50) only [State.stopStage, Kept.modConv, hk]
@[simp] theorem Kept.openPath {s : State} (l : LaneId) {r0 : State} (hk : Kept r0 s) : Kept r0 (State.openPath s l) := by
  simp +contextual (maxDischargeDepth := 50) only [State.openPath, Kept.modBelay, hk]
@[simp] theorem Kept.startClose {s : State} (l : LaneId) {r0 : State} (hk : Kept r0 s) : Kept r0 (State.startClose s l) := by
  simp +contextual (maxDischargeDepth := 50) only [State.startClose, Kept.ite, Kept.modBelay, hk]
@[simp] theorem Kept.askClose {s : State} (l : LaneId) (w : CloseWant) {r0 : State} (hk : Kept r0 s) : Kept r0 (State.askClose s l w) := by
  simp +contextual (maxDischargeDepth := 50) only [State.askClose, Kept.ite, Kept.modBelay, Kept.startClose, hk]
@[simp] theorem Kept.tryRamp {s : State} (l : LaneId) {r0 : State} (hk : Kept r0 s) : Kept r0 (State.tryRamp s l) := by
  simp +contextual (maxDischargeDepth := 50) only [State.tryRamp, Kept.ite, Kept.modBelay, hk]
@[simp] theorem Kept.voidArm {s : State} (l : LaneId) (cause : BitVec 2) {r0 : State} (hk : Kept r0 s) : Kept r0 (State.voidArm s l cause) := by
  simp +contextual (maxDischargeDepth := 50) only [State.voidArm, Kept.ite, Kept.modCon, Kept.postLane, hk]
@[simp] theorem Kept.endUrkai {s : State} (l : LaneId) {r0 : State} (hk : Kept r0 s) : Kept r0 (State.endUrkai s l) := by
  simp +contextual (maxDischargeDepth := 50) only [State.endUrkai, Kept.modCon, Kept.modSwap, Kept.voidArm, hk]
@[simp] theorem Kept.loadChanges {s : State} (l : LaneId) (time : Nat) (on : Bool) {r0 : State} (hk : Kept r0 s) : Kept r0 (State.loadChanges s l time on) := by
  simp +contextual (maxDischargeDepth := 50) only [State.loadChanges, Kept.modSect, hk]
@[simp] theorem Kept.loadOff {s : State} (l : LaneId) {r0 : State} (hk : Kept r0 s) : Kept r0 (State.loadOff s l) := by
  simp +contextual (maxDischargeDepth := 50) only [State.loadOff, Kept.ite, Kept.loadChanges, hk]
@[simp] theorem Kept.armMissed {s : State} (l : LaneId) {r0 : State} (hk : Kept r0 s) : Kept r0 (State.armMissed s l) := by
  simp +contextual (maxDischargeDepth := 50) only [State.armMissed, Kept.ite, Kept.modSect, Kept.postLane, hk]
@[simp] theorem Kept.countFault {s : State} (l : LaneId) (k : FaultClass) {r0 : State} (hk : Kept r0 s) : Kept r0 (State.countFault s l k).2 := by
  unfold State.countFault; (try dsimp only); repeat' split
  all_goals simp +contextual (maxDischargeDepth := 50) only [Kept.modFw, Kept.logFlags, hk]
@[simp] theorem Kept.endMessage {s : State} (l : LaneId) (tag : BitVec 4) (result : BitVec 3) (retries : Nat) {r0 : State} (hk : Kept r0 s) : Kept r0 (State.endMessage s l tag result retries) := by
  simp +contextual (maxDischargeDepth := 50) only [State.endMessage, Kept.modPd, Kept.postLane, hk, implies_true]
@[simp] theorem Kept.abortQueue {s : State} (l : LaneId) {r0 : State} (hk : Kept r0 s) : Kept r0 (State.abortQueue s l) := by
  unfold State.abortQueue; (try dsimp only); refine Kept.modPd_of _ _ (fun p h => ⟨h.1, by simp, h.2.2⟩) ?_
  split
  · exact hk
  · exact Kept.forEach _ (fun s hs x => by simp [hs]) hk
@[simp] theorem Kept.flushRx {s : State} (l : LaneId) {r0 : State} (hk : Kept r0 s) : Kept r0 (State.flushRx s l) := by
  unfold State.flushRx; exact hk.modPd_of l _ fun p h => ⟨by simp, h.2⟩
@[simp] theorem Kept.leaveAttached {s : State} (l : LaneId) {r0 : State} (hk : Kept r0 s) : Kept r0 (State.leaveAttached s l) := by
  simp +contextual (maxDischargeDepth := 50) only [State.leaveAttached, Kept.modCc, Kept.modCon, Kept.modSwap, Kept.modBelay, Kept.modBudget, Kept.modFw, Kept.modPd, PdLane.clearIds_fifo, PdLane.clearIds_queue, PdLane.clearIds_rxBuf, PdLane.clearIds_txBuf, Kept.stopStage, Kept.openPath, Kept.endUrkai, Kept.loadOff, Kept.abortQueue, Kept.flushRx, hk, implies_true]
@[simp] theorem Kept.enterUnattached {s : State} (l : LaneId) {r0 : State} (hk : Kept r0 s) : Kept r0 (State.enterUnattached s l) := by
  simp +contextual (maxDischargeDepth := 50) only [State.enterUnattached, Kept.modCc, hk]
@[simp] theorem Kept.mbxEnd {s : State} (r : Byte) {r0 : State} (hk : Kept r0 s) : Kept r0 (State.mbxEnd s r) := by
  simp +contextual (maxDischargeDepth := 50) only [State.mbxEnd, Kept.modMbx, Kept.irq, hk]
@[simp] theorem Kept.releaseCounters {s : State} {r0 : State} (hk : Kept r0 s) : Kept r0 (State.releaseCounters s) := ⟨hk.pending, hk.ok⟩
@[simp] theorem Kept.enterReady {s : State} {r0 : State} (hk : Kept r0 s) : Kept r0 (State.enterReady s) := by
  simp +contextual (maxDischargeDepth := 50) only [State.enterReady, Kept.modDev, Kept.modTether, Kept.withLanes, Kept.irq, Kept.releaseCounters, hk, implies_true]
@[simp] theorem Kept.enterHalted {s : State} (cause : Nat) {r0 : State} (hk : Kept r0 s) : Kept r0 (State.enterHalted s cause) := by
  simp +contextual (maxDischargeDepth := 50) only [State.enterHalted, Kept.ite, Kept.modDev, Kept.modTether, Kept.modImage_store, Kept.withCores, Kept.irq, Kept.log, Kept.mbxEnd, hk, implies_true]
@[simp] theorem Kept.settle {s : State} {r0 : State} (hk : Kept r0 s) : Kept r0 (State.settle s) := by
  unfold State.settle; repeat' split
  all_goals simp +contextual (maxDischargeDepth := 50) only [Kept.enterReady, Kept.enterHalted, hk]
@[simp] theorem Kept.disableLane {s : State} (l : LaneId) {r0 : State} (hk : Kept r0 s) : Kept r0 (State.disableLane s l) := by
  simp +contextual (maxDischargeDepth := 50) only [State.disableLane, Kept.modCc, Kept.leaveAttached, hk]
@[simp] theorem Kept.endService {s : State} (l : LaneId) {r0 : State} (hk : Kept r0 s) : Kept r0 (State.endService s l) := by
  simp +contextual (maxDischargeDepth := 50) only [State.endService, Kept.ite, Kept.enterUnattached, Kept.settle, Kept.disableLane, hk]
@[simp] theorem Kept.detachLane {s : State} (l : LaneId) {r0 : State} (hk : Kept r0 s) : Kept r0 (State.detachLane s l) := by
  simp +contextual (maxDischargeDepth := 50) only [State.detachLane, Kept.modCc, Kept.postLane, Kept.leaveAttached, hk]
@[simp] theorem Kept.cutLane {s : State} (l : LaneId) {r0 : State} (hk : Kept r0 s) : Kept r0 (State.cutLane s l) := by
  simp +contextual (maxDischargeDepth := 50) only [State.cutLane, Kept.modCc, Kept.postLane, Kept.irq, Kept.log, Kept.leaveAttached, hk]
@[simp] theorem Kept.endSwap {s : State} (l : LaneId) (outcome : BitVec 4) {r0 : State} (hk : Kept r0 s) : Kept r0 (State.endSwap s l outcome) := by
  simp +contextual (maxDischargeDepth := 50) only [State.endSwap, Kept.modSwap, Kept.postLane, hk]
@[simp] theorem Kept.packHold {s : State} (l : LaneId) {r0 : State} (hk : Kept r0 s) : Kept r0 (State.packHold s l) := by
  simp +contextual (maxDischargeDepth := 50) only [State.packHold, Kept.ite, Kept.modSwap, hk]
@[simp] theorem Kept.errorRecovery {s : State} (l : LaneId) {r0 : State} (hk : Kept r0 s) : Kept r0 (State.errorRecovery s l) := by
  simp +contextual (maxDischargeDepth := 50) only [State.errorRecovery, Kept.ite, Kept.modCc, Kept.irq, Kept.log, Kept.countFault, Kept.detachLane, Kept.endSwap, Kept.packHold, hk]
@[simp] theorem Kept.hardReset {s : State} (l : LaneId) {r0 : State} (hk : Kept r0 s) : Kept r0 (State.hardReset s l) := by
  simp +contextual (maxDischargeDepth := 50) only [State.hardReset, Kept.ite, Kept.signal, Kept.errorRecovery, hk]
@[simp] theorem Kept.hardResetOff {s : State} (l : LaneId) {r0 : State} (hk : Kept r0 s) : Kept r0 (State.hardResetOff s l) := by
  simp +contextual (maxDischargeDepth := 50) only [State.hardResetOff, Kept.ite, Kept.modCc, Kept.modPd, Kept.signal, Kept.errorRecovery, hk, implies_true]
@[simp] theorem Kept.leaveService {s : State} (l : LaneId) {r0 : State} (hk : Kept r0 s) : Kept r0 (State.leaveService s l) := by
  simp +contextual (maxDischargeDepth := 50) only [State.leaveService, Kept.ite, Kept.disableLane, Kept.hardResetOff, hk]
@[simp] theorem Kept.tripRecord {s : State} (l : LaneId) {r0 : State} (hk : Kept r0 s) : Kept r0 (State.tripRecord s l) := by
  simp +contextual (maxDischargeDepth := 50) only [State.tripRecord, Kept.ite, Kept.modBelay, Kept.postLane, Kept.irq, Kept.logFlags, Kept.log, Kept.countFault, Kept.disableLane, Kept.hardReset, hk]
@[simp] theorem Kept.tripPath {s : State} (l : LaneId) (cause : BitVec 4) (a b : Bool) {r0 : State} (hk : Kept r0 s) : Kept r0 (State.tripPath s l cause a b) := by
  simp +contextual (maxDischargeDepth := 50) only [State.tripPath, Kept.modBelay, Kept.stopStage, Kept.openPath, Kept.loadOff, hk]
@[simp] theorem Kept.trip {s : State} (l : LaneId) (cause : BitVec 4) (a b : Bool) {r0 : State} (hk : Kept r0 s) : Kept r0 (State.trip s l cause a b) := by
  simp +contextual (maxDischargeDepth := 50) only [State.trip, Kept.voidArm, Kept.tripRecord, Kept.tripPath, hk]
@[simp] theorem Kept.crossing {s : State} (l : LaneId) (cause : BitVec 4) (a b : Bool) {r0 : State} (hk : Kept r0 s) : Kept r0 (State.crossing s l cause a b) := by
  simp +contextual (maxDischargeDepth := 50) only [State.crossing, Kept.ite, Kept.modBelay, Kept.trip, hk]
@[simp] theorem Kept.setFails {s : State} (l : LaneId) (a b : Bool) {r0 : State} (hk : Kept r0 s) : Kept r0 (State.setFails s l a b) := by
  simp +contextual (maxDischargeDepth := 50) only [State.setFails, Kept.ite, Kept.modBelay, Kept.postLane, hk]
@[simp] theorem Kept.applyVconn {s : State} (l : LaneId) {r0 : State} (hk : Kept r0 s) : Kept r0 (State.applyVconn s l) := by
  simp +contextual (maxDischargeDepth := 50) only [State.applyVconn, Kept.ite, Kept.modCc, Kept.modSwap, hk]
@[simp] theorem Kept.baseLimits {s : State} (l : LaneId) {r0 : State} (hk : Kept r0 s) : Kept r0 (State.baseLimits s l) := by
  unfold State.baseLimits; (try dsimp only); repeat' split
  all_goals simp +contextual (maxDischargeDepth := 50) only [Kept.modCon, Kept.writeIlim, Kept.setRev, hk]
@[simp] theorem Kept.attachAs {s : State} (l : LaneId) (src : Bool) (pin : CcPin) (ra : Bool) (rp : BitVec 2) {r0 : State} (hk : Kept r0 s) : Kept r0 (State.attachAs s l src pin ra rp) := by
  simp +contextual (maxDischargeDepth := 50) only [State.attachAs, Kept.ite, Kept.modCc, Kept.modCon, Kept.modSwap, Kept.modTally, Kept.modFw, Kept.modPd, PdLane.clearIds_fifo, PdLane.clearIds_queue, PdLane.clearIds_rxBuf, PdLane.clearIds_txBuf, Kept.postLane, Kept.askClose, Kept.applyVconn, Kept.baseLimits, hk, implies_true]
@[simp] theorem Kept.keepCarriers (s s1 : State) {r0 : State} (hk : Kept r0 s1) : Kept r0 (State.keepCarriers s s1) := by
  simp +contextual (maxDischargeDepth := 50) only [State.keepCarriers, Kept.ite, Kept.modConv, Kept.forEach, hk, implies_true]
@[simp] theorem Kept.changeLegs (s s1 : State) (l : LaneId) {r0 : State} (hk : Kept r0 s1) : Kept r0 (State.changeLegs s s1 l) := by
  simp +contextual (maxDischargeDepth := 50) only [State.changeLegs, Kept.modConv, hk]
@[simp] theorem Kept.valleyOf {s : State} (l : LaneId) (m : StageSample) {r0 : State} (hk : Kept r0 s) : Kept r0 (State.valleyOf s l m) := by
  simp +contextual (maxDischargeDepth := 50) only [State.valleyOf, Kept.modConv, Kept.changeLegs, hk]
@[simp] theorem Kept.feedForward {s : State} (l : LaneId) (toRun : Bool) {r0 : State} (hk : Kept r0 s) : Kept r0 (State.feedForward s l toRun) := by
  simp +contextual (maxDischargeDepth := 50) only [State.feedForward, Kept.ite, Kept.modConv, hk]
@[simp] theorem Kept.rampDone {s : State} (l : LaneId) {r0 : State} (hk : Kept r0 s) : Kept r0 (State.rampDone s l) := by
  simp +contextual (maxDischargeDepth := 50) only [State.rampDone, Kept.modConv, Kept.postLane, hk]
@[simp] theorem Kept.applySetpoints {s : State} (l : LaneId) {r0 : State} (hk : Kept r0 s) : Kept r0 (State.applySetpoints s l) := by
  simp +contextual (maxDischargeDepth := 50) only [State.applySetpoints, Kept.modConv, hk]
@[simp] theorem Kept.storeConvVset {s : State} (l : LaneId) (v : Word) {r0 : State} (hk : Kept r0 s) : Kept r0 (State.storeConvVset s l v) := by
  simp +contextual (maxDischargeDepth := 50) only [State.storeConvVset, Kept.ite, Kept.modCfg, Kept.applySetpoints, hk]
@[simp] theorem Kept.storeConvIset {s : State} (l : LaneId) (v : Word) {r0 : State} (hk : Kept r0 s) : Kept r0 (State.storeConvIset s l v) := by
  simp +contextual (maxDischargeDepth := 50) only [State.storeConvIset, Kept.ite, Kept.modCfg, Kept.applySetpoints, hk]
@[simp] theorem Kept.storePhase {s : State} (l : LaneId) (v : Word) {r0 : State} (hk : Kept r0 s) : Kept r0 (State.storePhase s l v) := by
  simp +contextual (maxDischargeDepth := 50) only [State.storePhase, Kept.ite, Kept.modCfg, Kept.modConv, hk]
@[simp] theorem Kept.closeAt {s : State} (l : LaneId) (voutMv vinMv : Nat) {r0 : State} (hk : Kept r0 s) : Kept r0 (State.closeAt s l voutMv vinMv) := by
  simp +contextual (maxDischargeDepth := 50) only [State.closeAt, Kept.modBelay, Kept.tryRamp, hk]
@[simp] theorem Kept.testFails {s : State} (l : LaneId) (a b : Bool) {r0 : State} (hk : Kept r0 s) : Kept r0 (State.testFails s l a b) := by
  simp +contextual (maxDischargeDepth := 50) only [State.testFails, Kept.ite, Kept.irq, Kept.log, Kept.trip, Kept.setFails, hk]
@[simp] theorem Kept.testB {s : State} (l : LaneId) {r0 : State} (hk : Kept r0 s) : Kept r0 (State.testB s l) := by
  simp +contextual (maxDischargeDepth := 50) only [State.testB, Kept.ite, Kept.modBelay, Kept.testFails, hk]
@[simp] theorem Kept.sampleCause {s : State} (l : LaneId) (cause : BitVec 4) {r0 : State} (hk : Kept r0 s) : Kept r0 (State.sampleCause s l cause) := by
  simp +contextual (maxDischargeDepth := 50) only [State.sampleCause, Kept.ite, Kept.modBelay, hk]
@[simp] theorem Kept.setThermWarn {s : State} (v : Bool) (l : LaneId) {r0 : State} (hk : Kept r0 s) : Kept r0 (State.setThermWarn s v l) := by
  simp +contextual (maxDischargeDepth := 50) only [State.setThermWarn, Kept.ite, Kept.modBelay, Kept.postLane, hk]
@[simp] theorem Kept.thermTrip {s : State} (l : LaneId) {r0 : State} (hk : Kept r0 s) : Kept r0 (State.thermTrip s l) := by
  simp +contextual (maxDischargeDepth := 50) only [State.thermTrip, Kept.ite, Kept.modCc, Kept.trip, Kept.sampleCause, hk]
@[simp] theorem Kept.dieTemp {s : State} (g : GroupId) (temp : Byte) {r0 : State} (hk : Kept r0 s) : Kept r0 (State.dieTemp s g temp) := by
  simp +contextual (maxDischargeDepth := 50) only [State.dieTemp, Kept.ite, Kept.modGroup, Kept.forEach, Kept.post, Kept.startClose, Kept.setThermWarn, Kept.thermTrip, hk, implies_true]
@[simp] theorem Kept.selfTestRun {s : State} (l : LaneId) (r : TestResult) {r0 : State} (hk : Kept r0 s) : Kept r0 (State.selfTestRun s l r) := by
  simp +contextual (maxDischargeDepth := 50) only [State.selfTestRun, Kept.ite, Kept.modBelay, Kept.testFails, hk]
@[simp] theorem Kept.storeIlim {s : State} (l : LaneId) (v : Word) {r0 : State} (hk : Kept r0 s) : Kept r0 (State.storeIlim s l v) := by
  simp +contextual (maxDischargeDepth := 50) only [State.storeIlim, Kept.modCfg, hk]
@[simp] theorem Kept.storeShed {s : State} (l : LaneId) (v : Nat) {r0 : State} (hk : Kept r0 s) : Kept r0 (State.storeShed s l v) := by
  simp +contextual (maxDischargeDepth := 50) only [State.storeShed, Kept.ite, Kept.modCfg, Kept.modBelay, hk]
@[simp] theorem Kept.latchClear {s : State} (l : LaneId) {r0 : State} (hk : Kept r0 s) : Kept r0 (State.latchClear s l) := by
  simp +contextual (maxDischargeDepth := 50) only [State.latchClear, Kept.ite, Kept.modBelay, Kept.modFw, Kept.postLane, Kept.enterUnattached, hk]
@[simp] theorem Kept.storeBelayCtrl {s : State} (l : LaneId) (v : Word) {r0 : State} (hk : Kept r0 s) : Kept r0 (State.storeBelayCtrl s l v) := by
  simp +contextual (maxDischargeDepth := 50) only [State.storeBelayCtrl, Kept.ite, Kept.modCfg, Kept.storeShed, Kept.latchClear, hk]
theorem Kept.fillSlot {r0 s : State} (l : LaneId) (marker : Bool) (f : Frame) (hf : (s.lane l).pd.fifo.length < 4) (hk : Kept r0 s) : Kept r0 (s.fillSlot l marker f) := by
  unfold State.fillSlot
  exact Kept.postLane _ _ (hk.modPd_at l _ fun h => ⟨by simp only [List.length_append, List.length_singleton]; omega, h.2⟩)

@[simp] theorem Kept.refuseFrame {s : State} (l : LaneId) {r0 : State} (hk : Kept r0 s) : Kept r0 (State.refuseFrame s l) := by
  simp +contextual (maxDischargeDepth := 50) only [State.refuseFrame, Kept.modPd, Kept.postLane, hk, implies_true]
@[simp] theorem Kept.popHead {s : State} (l : LaneId) {r0 : State} (hk : Kept r0 s) : Kept r0 (State.popHead s l) := by
  unfold State.popHead; exact hk.modPd_of l _ fun p h => ⟨by have := h.1; simp only [List.length_drop]; omega, h.2⟩
@[simp] theorem Kept.takeNewest {s : State} (l : LaneId) {r0 : State} (hk : Kept r0 s) : Kept r0 (State.takeNewest s l) := by
  unfold State.takeNewest; exact hk.modPd_of l _ fun p h => ⟨by have := h.1; simp only [List.length_dropLast]; omega, h.2⟩
@[simp] theorem Kept.extData {s : State} (l : LaneId) (wr : Option Word) {r0 : State} (hk : Kept r0 s) : Kept r0 (State.extData s l wr).2 := by
  unfold State.extData; dsimp only; refine Kept.modCfg _ _ ?_
  split
  · exact hk
  · refine hk.modPd_of l _ fun p h => ?_
    split
    · exact ⟨h.1, h.2.1, h.2.2.1, bufWrite_wf h.2.2.2⟩
    · exact ⟨h.1, h.2.1, bufWrite_wf h.2.2.1, h.2.2.2⟩
@[simp] theorem Kept.swapSent {s : State} (l : LaneId) (m : TxSlot) {r0 : State} (hk : Kept r0 s) : Kept r0 (State.swapSent s l m) := by
  unfold State.swapSent; repeat' split
  all_goals simp +contextual (maxDischargeDepth := 50) only [Kept.modSwap, Kept.modPd, hk, implies_true]
@[simp] theorem Kept.sendStaged {s : State} (l : LaneId) {r0 : State} (hk : Kept r0 s) : Kept r0 (State.sendStaged s l) := by
  unfold State.sendStaged; dsimp only; split
  · simp (maxDischargeDepth := 50) [hk]
  · next hr =>
    have hq : (s.lane l).pd.queue.length < 2 := by
      simp only [sendRefused, Bool.or_eq_true, decide_eq_true_eq, not_or] at hr
      omega
    have hm := hk.modPd_at l (fun p => { p with queue := p.queue ++ [({ tag := (s.lane l).pd.nextTag, sop := (match fld (s.lane l).cfg.txCtrl 1 0 with | 0 => .sop | 1 => .sopP | _ => .sopPP), ext := bitOf (s.lane l).cfg.txCtrl 4, ams := bitOf (s.lane l).cfg.txCtrl 5, data := (s.lane l).cfg.txData.toList } : TxSlot)], nextTag := p.nextTag + 1 }) fun h => ⟨h.1, by simp only [List.length_append, List.length_singleton]; omega, h.2.2⟩
    split
    · exact (hm.swapSent l _).modSwap _ _
    · exact hm.swapSent l _
@[simp] theorem Kept.imageSend {s : State} (l : LaneId) (ams : Bool) (f : Frame) {r0 : State} (hk : Kept r0 s) : Kept r0 (State.imageSend s l ams f) := by
  simp +contextual (maxDischargeDepth := 50) only [State.imageSend, Kept.modCfg, Kept.sendStaged, hk]
@[simp] theorem Kept.imageSendExt {s : State} (l : LaneId) (ams : Bool) (type : Nat) (payload : List Byte) {r0 : State} (hk : Kept r0 s) : Kept r0 (State.imageSendExt s l ams type payload) := by
  unfold State.imageSendExt; dsimp only
  exact Kept.sendStaged _ (Kept.modCfg _ _ (Kept.ite hk (hk.modPd_of l _ fun p h => ⟨h.1, h.2.1, h.2.2.1, by simp [h.2.2.2]⟩)))
@[simp] theorem Kept.hwSend {s : State} (l : LaneId) (k : HwKind) (ams : Bool) (f : Frame) {r0 : State} (hk : Kept r0 s) : Kept r0 (State.hwSend s l k ams f) := by
  simp +contextual (maxDischargeDepth := 50) only [State.hwSend, Kept.ite, Kept.modSwap, Kept.modPd, hk, implies_true]
@[simp] theorem Kept.stampEop {s : State} (l : LaneId) {r0 : State} (hk : Kept r0 s) : Kept r0 (State.stampEop s l) := by
  unfold State.stampEop; (try dsimp only); repeat' split
  all_goals simp +contextual (maxDischargeDepth := 50) only [Kept.modCon, Kept.modPd, hk, implies_true]
@[simp] theorem Kept.startFrame {s : State} (l : LaneId) {r0 : State} (hk : Kept r0 s) : Kept r0 (State.startFrame s l) := by
  unfold State.startFrame; dsimp only; repeat' split
  all_goals first
    | exact hk | exact Kept.stampEop _ (hk.modPd_of l _ fun p h => h)
    | exact Kept.stampEop _ (hk.modPd_at l _ fun h => ⟨h.1, by have := h.2.1; simp_all, h.2.2⟩)
@[simp] theorem Kept.notSupported {s : State} (l : LaneId) (kind : Sop) {r0 : State} (hk : Kept r0 s) : Kept r0 (State.notSupported s l kind) := by
  simp +contextual (maxDischargeDepth := 50) only [State.notSupported, Kept.ite, Kept.imageSend, hk]
@[simp] theorem Kept.abandonReasm {s : State} (l : LaneId) {r0 : State} (hk : Kept r0 s) : Kept r0 (State.abandonReasm s l) := by
  unfold State.abandonReasm; split
  · exact Kept.notSupported _ _ (Kept.postLane _ _ (hk.modPd_of l _ fun p h => h))
  · exact hk
@[simp] theorem Kept.nextChunk {s : State} (l : LaneId) (r : Reassembly) (f : Frame) (hf : (s.lane l).pd.fifo.length < 4) {r0 : State} (hk : Kept r0 s) : Kept r0 (State.nextChunk s l r f) := by
  unfold State.nextChunk; dsimp only
  have hb : Kept r0 (s.modPd l fun p => { p with rxBuf := putChunk p.rxBuf r.next r.size f }) := hk.modPd_of l _ fun p h => ⟨h.1, h.2.1, putChunk_wf h.2.2.1, h.2.2.2⟩
  split
  · split
    · simp [hb]
    · exact Kept.fillSlot _ _ _ (by simpa using hf) (by simp [hb])
  · simp (maxDischargeDepth := 50) [hk]
@[simp] theorem Kept.firstChunk {s : State} (l : LaneId) (f : Frame) (hf : (s.lane l).pd.fifo.length < 4) {r0 : State} (hk : Kept r0 s) : Kept r0 (State.firstChunk s l f) := by
  unfold State.firstChunk; dsimp only
  have hb : Kept r0 (s.modPd l fun p => { p with rxBuf := putChunk p.rxBuf 0 (exSize (extHeader f)) f }) := hk.modPd_of l _ fun p h => ⟨h.1, h.2.1, putChunk_wf h.2.2.1, h.2.2.2⟩
  repeat' split
  · simp +contextual (maxDischargeDepth := 50) [hk]
  · simp +contextual (maxDischargeDepth := 50) [hk]
  · simp +contextual (maxDischargeDepth := 50) [hk]
  · exact Kept.fillSlot _ _ _ (by simpa using hf) hb
  · simp +contextual (maxDischargeDepth := 50) [hb]
@[simp] theorem Kept.arAnswer {s : State} (l : LaneId) (f : Frame) {r0 : State} (hk : Kept r0 s) : Kept r0 (State.arAnswer s l f) := by
  simp +contextual (maxDischargeDepth := 50) only [State.arAnswer, Kept.ite, Kept.modCon, Kept.modPd, Kept.forEach, Kept.hardReset, Kept.hwSend, hk, implies_true]
@[simp] theorem Kept.answerOpen {s : State} (l : LaneId) {r0 : State} (hk : Kept r0 s) : Kept r0 (State.answerOpen s l) := by
  unfold State.answerOpen; dsimp only; refine Kept.ite hk ?_
  exact (Kept.forEach _ (fun u hu f => Kept.arAnswer _ _ hu) hk).modPd_of _ _ fun p h => ⟨(List.length_filter_le ..).trans h.1, h.2⟩
@[simp] theorem Kept.amsFail {s : State} (l : LaneId) {r0 : State} (hk : Kept r0 s) : Kept r0 (State.amsFail s l) := by
  simp +contextual (maxDischargeDepth := 50) only [State.amsFail, Kept.ite, Kept.modSwap, hk]
@[simp] theorem Kept.notSent {s : State} (l : LaneId) (m : TxSlot) {r0 : State} (hk : Kept r0 s) : Kept r0 (State.notSent s l m) := by
  simp +contextual (maxDischargeDepth := 50) only [State.notSent, Kept.ite, Kept.modCon, Kept.modSwap, Kept.modBudget, Kept.modPd, Kept.amsFail, hk, implies_true]
@[simp] theorem Kept.endHead {s : State} (l : LaneId) (result : BitVec 3) (retries : Nat) {r0 : State} (hk : Kept r0 s) : Kept r0 (State.endHead s l result retries) := by
  unfold State.endHead; split
  · exact hk
  · next m rest hq =>
    refine Kept.endMessage _ _ _ _ ?_
    have hm : Kept r0 (s.modPd l fun p => { p with queue := rest, flight := p.flight.filter (·.hw.isSome), txChunk := none, txChunkWait := false, gateOpen := false }) :=
      hk.modPd_at l _ fun h => ⟨h.1, by have := h.2.1; rw [hq] at this; exact Nat.le_of_succ_le this, h.2.2⟩
    split
    · exact (hm.notSent _ _).answerOpen _
    · exact hm
@[simp] theorem Kept.raiseAr {s : State} (l : LaneId) {r0 : State} (hk : Kept r0 s) : Kept r0 (State.raiseAr s l) := by
  unfold State.raiseAr; dsimp only
  refine Kept.ite hk (Kept.answerOpen _ (Kept.forEach _ (fun u hu m => Kept.endMessage _ _ _ _ (Kept.notSent _ _ ?_)) ?_))
  · exact hu.modPd_of _ _ fun p h => ⟨h.1, (List.length_erase_le ..).trans h.2.1, h.2.2⟩
  · exact Kept.postLane _ _ (hk.modPd_of _ _ fun p h => h)
@[simp] theorem Kept.dropAr {s : State} (l : LaneId) {r0 : State} (hk : Kept r0 s) : Kept r0 (State.dropAr s l) := by
  simp +contextual (maxDischargeDepth := 50) only [State.dropAr, Kept.ite, Kept.modPd, Kept.postLane, hk, implies_true]
@[simp] theorem Kept.chunkAsked {s : State} (l : LaneId) (f : Frame) {r0 : State} (hk : Kept r0 s) : Kept r0 (State.chunkAsked s l f) := by
  simp +contextual (maxDischargeDepth := 50) only [State.chunkAsked, Kept.ite, Kept.modPd, Kept.endHead, hk, implies_true]
@[simp] theorem Kept.discardHead {s : State} (l : LaneId) {r0 : State} (hk : Kept r0 s) : Kept r0 (State.discardHead s l) := by
  simp +contextual (maxDischargeDepth := 50) only [State.discardHead, Kept.endHead, hk]
@[simp] theorem Kept.keepAlive {s : State} (l : LaneId) (f : Frame) {r0 : State} (hk : Kept r0 s) : Kept r0 (State.keepAlive s l f) := by
  simp +contextual (maxDischargeDepth := 50) only [State.keepAlive, Kept.ite, Kept.modCon, hk]
@[simp] theorem Kept.noteCaps {s : State} (l : LaneId) (f : Frame) {r0 : State} (hk : Kept r0 s) : Kept r0 (State.noteCaps s l f) := by
  simp +contextual (maxDischargeDepth := 50) only [State.noteCaps, Kept.ite, Kept.modCon, hk]
@[simp] theorem Kept.softVoid {s : State} (l : LaneId) {r0 : State} (hk : Kept r0 s) : Kept r0 (State.softVoid s l) := by
  simp +contextual (maxDischargeDepth := 50) only [State.softVoid, Kept.modCon, Kept.voidArm, hk]
@[simp] theorem voidArm_pd (s : State) (l k : LaneId) (c : BitVec 2) : ((s.voidArm l c).lane k).pd = (s.lane k).pd := by
  by_cases h : k = l
  · subst h; unfold State.voidArm; split <;> simp
  · unfold State.voidArm; split <;> simp [State.lane_modCon_ne, h]

@[simp] theorem voidArm_swap (s : State) (l : LaneId) (c : BitVec 2) : ((s.voidArm l c).lane l).swap = (s.lane l).swap := by
  unfold State.voidArm; split <;> simp

@[simp] theorem softVoid_pd (s : State) (l : LaneId) : ((s.softVoid l).lane l).pd = (s.lane l).pd := by simp [State.softVoid]

@[simp] theorem softVoid_swap (s : State) (l : LaneId) : ((s.softVoid l).lane l).swap = (s.lane l).swap := by simp [State.softVoid]

@[simp] theorem endMessage_fifo (s : State) (l : LaneId) (t : BitVec 4) (c : BitVec 3) (n : Nat) :
    ((s.endMessage l t c n).lane l).pd.fifo = (s.lane l).pd.fifo := by simp [State.endMessage]

@[simp] theorem sendStaged_fifo (s : State) (l : LaneId) : ((s.sendStaged l).lane l).pd.fifo = (s.lane l).pd.fifo := by
  unfold State.sendStaged State.swapSent; dsimp only; repeat' split
  all_goals simp

@[simp] theorem notSupported_fifo (s : State) (l : LaneId) (k : Sop) : ((s.notSupported l k).lane l).pd.fifo = (s.lane l).pd.fifo := by
  unfold State.notSupported; split <;> simp [State.imageSend]

@[simp] theorem abandonReasm_fifo (s : State) (l : LaneId) : ((s.abandonReasm l).lane l).pd.fifo = (s.lane l).pd.fifo := by
  unfold State.abandonReasm; split <;> simp [PdLane.dropRequest]

/-- A message that the auto-responder names is named by its type and the power role alone. -/
theorem arNamed_congr {x y : Lane} (h : x.swap = y.swap) (f : Frame) : arNamed x f = arNamed y f := by simp only [arNamed, h]

@[simp] theorem Kept.receive {r0 s : State} (l : LaneId) (f : Frame) (hk : Kept r0 s) : Kept r0 (s.receive l f).2 := by
  unfold State.receive
  extract_lets x i id chunkReq s0 s1 y soft s2 m s3 z chunk s4 n s5
  split
  · exact hk
  have k1 : Kept r0 s1 := Kept.modPd_of _ _ (fun p h => h) (Kept.keepAlive _ _ (Kept.ite hk (hk.discardHead _)))
  split
  · exact k1
  split
  · refine Kept.refuseFrame _ (Kept.modPd_of _ _ (fun p h => ?_) k1); exact h
  next hroom =>
  have k2 : Kept r0 s2 := by
    refine Kept.modPd_of _ _ (fun p h => ?_) (Kept.ite (k1.softVoid _) k1); split <;> exact h
  have e2 : (s2.lane l).pd.fifo = y.pd.fifo ∧ (s2.lane l).pd.arActive = y.pd.arActive ∧ (s2.lane l).pd.reasm = y.pd.reasm ∧
      (s2.lane l).swap = y.swap := by
    simp only [s2, y]; split <;> split <;> simp
  split
  · exact k2.chunkAsked _ _
  next hreq =>
  split
  · have k3 : Kept r0 s3 := k2.abandonReasm l
    repeat' split
    all_goals first | exact k3 | (dsimp only; refine Kept.modPd_of _ _ (fun p h => ?_) k3; exact h)
  next hbist =>
  have room : (z.pd.arActive && arNamed z f) = false ∨ (chunk && z.pd.reasm.isSome) = true → z.pd.fifo.length < 4 := by
    intro hn
    have hr : hasRoom y f = true := by
      simp only [Bool.and_eq_true, Bool.not_eq_true', not_and, Bool.not_eq_false] at hroom
      exact hroom ⟨by simpa using hreq, by simpa using hbist⟩
    simp only [hasRoom, Bool.or_eq_true, Bool.and_eq_true, decide_eq_true_eq] at hr
    rw [e2.2.1, e2.2.2.1, arNamed_congr e2.2.2.2] at hn
    rw [e2.1]
    rcases hr with ⟨⟨ha, hb⟩, hc⟩ | ⟨hl, _⟩
    · rcases hn with hn | hn
      · rw [ha, hb] at hn; cases hn
      · simp only [Bool.not_eq_true'] at hc
        rw [show (isExtended f.header && exChunked (extHeader f)) = chunk from rfl, hn] at hc; cases hc
    · exact hl
  split
  · next hc =>
    split
    · exact k2.nextChunk _ _ _ (room (.inr hc))
    · exact k2
  have k3 : Kept r0 s3 := k2.abandonReasm l
  split
  · exact k3.arAnswer _ _
  next har =>
  have hl : (s3.lane l).pd.fifo.length < 4 := by
    simp only [s3, abandonReasm_fifo]; exact room (.inl (by simpa using har))
  have k4 : Kept r0 s4 := Kept.ite (k3.modPd_of _ _ fun p h => h) k3
  have l4 : (s4.lane l).pd.fifo.length < 4 := by simp only [s4]; split <;> simpa using hl
  split
  · exact k4.firstChunk _ _ l4
  · exact (k4.fillSlot _ _ _ l4).noteCaps _ _

theorem Kept.imageReceive {r0 s : State} (l : LaneId) (f : Frame) (k : State → State) (hf : ∀ u, Kept r0 u → Kept r0 (k u)) (hk : Kept r0 s) :
    Kept r0 (s.imageReceive l f k) := by
  have h := hk.receive l f
  unfold State.imageReceive; repeat' split
  all_goals simp_all
@[simp] theorem Kept.startDiscovery {s : State} (l : LaneId) (epr : Bool) {r0 : State} (hk : Kept r0 s) : Kept r0 (State.startDiscovery s l epr) := by
  simp +contextual (maxDischargeDepth := 50) only [State.startDiscovery, Kept.modCc, Kept.imageSend, hk]
@[simp] theorem Kept.cableReset {s : State} (l : LaneId) {r0 : State} (hk : Kept r0 s) : Kept r0 (State.cableReset s l) := by
  unfold State.cableReset; dsimp only; split
  · refine Kept.ite (Kept.startDiscovery _ _ ?_) ?_ <;> refine Kept.modCc _ _ (Kept.forEach _ (fun u hu m => Kept.endMessage _ _ _ _ (Kept.notSent _ _ hu)) ?_)
    all_goals exact hk.modPd_of _ _ fun p h => ⟨h.1, (List.length_filter_le ..).trans h.2.1, h.2.2⟩
  · exact hk
@[simp] theorem Kept.sendCaps {s : State} (l : LaneId) (run : Bool) {r0 : State} (hk : Kept r0 s) : Kept r0 (State.sendCaps s l run) := by
  simp +contextual (maxDischargeDepth := 50) only [State.sendCaps, Kept.ite, Kept.modCon, Kept.imageSend, Kept.imageSendExt, hk]
@[simp] theorem Kept.sendCapsNow {s : State} (l : LaneId) {r0 : State} (hk : Kept r0 s) : Kept r0 (State.sendCapsNow s l) := by
  simp +contextual (maxDischargeDepth := 50) only [State.sendCapsNow, Kept.sendCaps, hk]
@[simp] theorem Kept.amsEnd {s : State} (l : LaneId) {r0 : State} (hk : Kept r0 s) : Kept r0 (State.amsEnd s l) := by
  simp +contextual (maxDischargeDepth := 50) only [State.amsEnd, Kept.ite, Kept.amsFail, hk]
@[simp] theorem Kept.answerRequest {s : State} (l : LaneId) (f : Frame) {r0 : State} (hk : Kept r0 s) : Kept r0 (State.answerRequest s l f) := by
  unfold State.answerRequest; (try dsimp only); repeat' split
  all_goals simp +contextual (maxDischargeDepth := 50) only [Kept.modCon, Kept.modBudget, Kept.modPd, Kept.logSw, Kept.imageSend, Kept.sendCapsNow, hk, implies_true]
@[simp] theorem Kept.queuePsRdy {s : State} (l : LaneId) {r0 : State} (hk : Kept r0 s) : Kept r0 (State.queuePsRdy s l) := by
  simp +contextual (maxDischargeDepth := 50) only [State.queuePsRdy, Kept.modCon, Kept.imageSend, hk]
@[simp] theorem Kept.loadMoves {s : State} (l : LaneId) (t : Nat) (on : Bool) {r0 : State} (hk : Kept r0 s) : Kept r0 (State.loadMoves s l t on) := by
  simp +contextual (maxDischargeDepth := 50) only [State.loadMoves, Kept.modSect, Kept.loadChanges, hk]
@[simp] theorem Kept.psReady {s : State} (l : LaneId) {r0 : State} (hk : Kept r0 s) : Kept r0 (State.psReady s l) := by
  unfold State.psReady; (try dsimp only); repeat' split
  all_goals simp +contextual (maxDischargeDepth := 50) only [Kept.modCon, Kept.queuePsRdy, hk]
@[simp] theorem Kept.releaseReady {s : State} (l : LaneId) {r0 : State} (hk : Kept r0 s) : Kept r0 (State.releaseReady s l) := by
  simp +contextual (maxDischargeDepth := 50) only [State.releaseReady, Kept.ite, Kept.queuePsRdy, hk]
@[simp] theorem Kept.acceptSent {s : State} (l : LaneId) {r0 : State} (hk : Kept r0 s) : Kept r0 (State.acceptSent s l) := by
  unfold State.acceptSent; (try dsimp only); repeat' split
  all_goals simp +contextual (maxDischargeDepth := 50) only [Kept.modPd, Kept.queuePsRdy, hk, implies_true]
@[simp] theorem Kept.contractTakes {s : State} (l : LaneId) (t : Nat) {r0 : State} (hk : Kept r0 s) : Kept r0 (State.contractTakes s l t) := by
  unfold State.contractTakes; (try dsimp only); repeat' split
  all_goals simp +contextual (maxDischargeDepth := 50) only [Kept.modCon, Kept.modTally, Kept.modConv, Kept.modBudget, Kept.modPd, Kept.loadMoves, hk, implies_true]
@[simp] theorem Kept.shedRecord {s : State} (l : LaneId) (k : BitVec 3) {r0 : State} (hk : Kept r0 s) : Kept r0 (State.shedRecord s l k) := by
  simp +contextual (maxDischargeDepth := 50) only [State.shedRecord, Kept.modBudget, Kept.logSw, hk]
@[simp] theorem Kept.fallback {s : State} (l : LaneId) {r0 : State} (hk : Kept r0 s) : Kept r0 (State.fallback s l) := by
  simp +contextual (maxDischargeDepth := 50) only [State.fallback, Kept.ite, Kept.modCon, Kept.modBudget, Kept.logSw, Kept.armMissed, Kept.sendCaps, Kept.shedRecord, hk]
@[simp] theorem Kept.requestAsSink {s : State} (l : LaneId) (os : List Word) {r0 : State} (hk : Kept r0 s) : Kept r0 (State.requestAsSink s l os) := by
  unfold State.requestAsSink; (try dsimp only); repeat' split
  all_goals simp +contextual (maxDischargeDepth := 50) only [Kept.modCon, Kept.imageSend, hk]
@[simp] theorem Kept.onSourceCaps {s : State} (l : LaneId) (f : Frame) {r0 : State} (hk : Kept r0 s) : Kept r0 (State.onSourceCaps s l f) := by
  simp +contextual (maxDischargeDepth := 50) only [State.onSourceCaps, Kept.ite, Kept.modCon, Kept.imageSend, Kept.requestAsSink, hk]
@[simp] theorem Kept.sinkContract {s : State} (l : LaneId) {r0 : State} (hk : Kept r0 s) : Kept r0 (State.sinkContract s l) := by
  unfold State.sinkContract; (try dsimp only); repeat' split
  all_goals simp +contextual (maxDischargeDepth := 50) only [Kept.modCon, Kept.writeIlim, Kept.setRev, Kept.reverseStart, Kept.contractTakes, hk]
@[simp] theorem Kept.eprDecide {s : State} (l : LaneId) {r0 : State} (hk : Kept r0 s) : Kept r0 (State.eprDecide s l) := by
  simp +contextual (maxDischargeDepth := 50) only [State.eprDecide, Kept.ite, Kept.modCon, Kept.imageSend, hk]
@[simp] theorem Kept.onEprMode {s : State} (l : LaneId) (f : Frame) {r0 : State} (hk : Kept r0 s) : Kept r0 (State.onEprMode s l f) := by
  unfold State.onEprMode; (try dsimp only); repeat' split
  all_goals simp +contextual (maxDischargeDepth := 50) only [Kept.modCon, Kept.imageSend, Kept.startDiscovery, Kept.sendCapsNow, Kept.requestAsSink, Kept.eprDecide, hk]
@[simp] theorem Kept.seqSend {s : State} (l : LaneId) (k : UrkaiStep) (f : Frame) {r0 : State} (hk : Kept r0 s) : Kept r0 (State.seqSend s l k f) := by
  simp +contextual (maxDischargeDepth := 50) only [State.seqSend, Kept.modCon, Kept.imageSend, hk]
@[simp] theorem Kept.seqStep {s : State} (l : LaneId) (k : UrkaiStep) {r0 : State} (hk : Kept r0 s) : Kept r0 (State.seqStep s l k) := by
  simp +contextual (maxDischargeDepth := 50) only [State.seqStep, Kept.seqSend, hk]
@[simp] theorem Kept.authSend {s : State} (l : LaneId) (k : UrkaiStep) (bytes : List Byte) {r0 : State} (hk : Kept r0 s) : Kept r0 (State.authSend s l k bytes) := by
  simp +contextual (maxDischargeDepth := 50) only [State.authSend, Kept.modCon, Kept.imageSendExt, hk]
@[simp] theorem Kept.recNext {s : State} (l : LaneId) {r0 : State} (hk : Kept r0 s) : Kept r0 (State.recNext s l) := by
  simp +contextual (maxDischargeDepth := 50) only [State.recNext, Kept.ite, Kept.modCon, Kept.seqStep, hk]
@[simp] theorem Kept.authEnd {s : State} (l : LaneId) (st : BitVec 4) (root : Bool) {r0 : State} (hk : Kept r0 s) : Kept r0 (State.authEnd s l st root) := by
  simp +contextual (maxDischargeDepth := 50) only [State.authEnd, Kept.ite, Kept.modCon, Kept.logSw, Kept.sendCapsNow, Kept.amsEnd, Kept.recNext, hk]
@[simp] theorem Kept.authBegin {s : State} (l : LaneId) {r0 : State} (hk : Kept r0 s) : Kept r0 (State.authBegin s l) := by
  simp +contextual (maxDischargeDepth := 50) only [State.authBegin, Kept.ite, Kept.modCon, Kept.authSend, Kept.authEnd, hk]
@[simp] theorem Kept.seqEnd {s : State} (l : LaneId) {r0 : State} (hk : Kept r0 s) : Kept r0 (State.seqEnd s l) := by
  simp +contextual (maxDischargeDepth := 50) only [State.seqEnd, Kept.ite, Kept.modCon, Kept.amsEnd, Kept.recNext, Kept.authBegin, hk]
@[simp] theorem Kept.seqPack {s : State} (l : LaneId) {r0 : State} (hk : Kept r0 s) : Kept r0 (State.seqPack s l) := by
  simp +contextual (maxDischargeDepth := 50) only [State.seqPack, Kept.ite, Kept.seqStep, Kept.seqEnd, hk]
@[simp] theorem Kept.seqNext {s : State} (l : LaneId) {r0 : State} (hk : Kept r0 s) : Kept r0 (State.seqNext s l) := by
  unfold State.seqNext; (try dsimp only); repeat' split
  all_goals simp +contextual (maxDischargeDepth := 50) only [Kept.seqStep, Kept.seqEnd, Kept.seqPack, hk]
@[simp] theorem Kept.learnModes {s : State} (l : LaneId) (m : Word) {r0 : State} (hk : Kept r0 s) : Kept r0 (State.learnModes s l m) := by
  simp +contextual (maxDischargeDepth := 50) only [State.learnModes, Kept.modCon, Kept.modSwap, hk]
@[simp] theorem Kept.urkaiEntered {s : State} (l : LaneId) {r0 : State} (hk : Kept r0 s) : Kept r0 (State.urkaiEntered s l) := by
  simp +contextual (maxDischargeDepth := 50) only [State.urkaiEntered, Kept.modCon, Kept.modSwap, hk]
@[simp] theorem Kept.enterUrkai {s : State} (l : LaneId) {r0 : State} (hk : Kept r0 s) : Kept r0 (State.enterUrkai s l) := by
  simp +contextual (maxDischargeDepth := 50) only [State.enterUrkai, Kept.ite, Kept.modCon, Kept.seqStep, Kept.seqPack, hk]
@[simp] theorem Kept.twinSetUp {s : State} (l : LaneId) {r0 : State} (hk : Kept r0 s) : Kept r0 (State.twinSetUp s l) := by
  simp +contextual (maxDischargeDepth := 50) only [State.twinSetUp, Kept.modCfg, Kept.modCon, Kept.sendCapsNow, Kept.seqPack, hk]
@[simp] theorem Kept.exitUrkai {s : State} (l : LaneId) {r0 : State} (hk : Kept r0 s) : Kept r0 (State.exitUrkai s l) := by
  simp +contextual (maxDischargeDepth := 50) only [State.exitUrkai, Kept.modCon, Kept.endUrkai, Kept.amsEnd, hk]
@[simp] theorem Kept.seqRefused {s : State} (l : LaneId) (f : Frame) {r0 : State} (hk : Kept r0 s) : Kept r0 (State.seqRefused s l f) := by
  simp +contextual (maxDischargeDepth := 50) only [State.seqRefused, Kept.ite, Kept.seqStep, Kept.seqNext, hk]
@[simp] theorem Kept.armFrs {s : State} (l : LaneId) {r0 : State} (hk : Kept r0 s) : Kept r0 (State.armFrs s l) := by
  simp +contextual (maxDischargeDepth := 50) only [State.armFrs, Kept.ite, Kept.modSwap, hk]
@[simp] theorem Kept.seqAnswer {s : State} (l : LaneId) (f : Frame) {r0 : State} (hk : Kept r0 s) : Kept r0 (State.seqAnswer s l f) := by
  unfold State.seqAnswer; (try dsimp only); repeat' split
  all_goals simp +contextual (maxDischargeDepth := 50) only [Kept.modTally, Kept.logSw, Kept.seqStep, Kept.seqEnd, Kept.seqNext, Kept.enterUrkai, Kept.twinSetUp, Kept.exitUrkai, Kept.seqRefused, Kept.armFrs, hk]
@[simp] theorem Kept.tmFailed {s : State} (l : LaneId) {r0 : State} (hk : Kept r0 s) : Kept r0 (State.tmFailed s l) := by
  simp +contextual (maxDischargeDepth := 50) only [State.tmFailed, Kept.modCon, hk]
@[simp] theorem Kept.twinTimeout {s : State} (l : LaneId) {r0 : State} (hk : Kept r0 s) : Kept r0 (State.twinTimeout s l) := by
  simp +contextual (maxDischargeDepth := 50) only [State.twinTimeout, Kept.ite, Kept.amsEnd, Kept.tmFailed, hk]
@[simp] theorem Kept.askChain {s : State} (l : LaneId) {r0 : State} (hk : Kept r0 s) : Kept r0 (State.askChain s l) := by
  simp +contextual (maxDischargeDepth := 50) only [State.askChain, Kept.authSend, hk]
@[simp] theorem Kept.authChallenge {s : State} (l : LaneId) {r0 : State} (hk : Kept r0 s) : Kept r0 (State.authChallenge s l) := by
  simp +contextual (maxDischargeDepth := 50) only [State.authChallenge, Kept.modCon, Kept.free, Kept.authSend, hk]
@[simp] theorem Kept.authAnswer {s : State} (l : LaneId) (f : Frame) (supported : Bool) {r0 : State} (hk : Kept r0 s) : Kept r0 (State.authAnswer s l f supported) := by
  unfold State.authAnswer; (try dsimp only); repeat' split
  all_goals simp +contextual (maxDischargeDepth := 50) only [Kept.modCon, Kept.authEnd, Kept.askChain, Kept.authChallenge, hk]
@[simp] theorem Kept.answerVdm {s : State} (l : LaneId) (f : Frame) {r0 : State} (hk : Kept r0 s) : Kept r0 (State.answerVdm s l f) := by
  simp +contextual (maxDischargeDepth := 50) only [State.answerVdm, Kept.ite, Kept.imageSend, hk]
theorem Kept.urkaiReceive {r0 s : State} (l : LaneId) (f : Frame) (cmd : Nat) (hw image : State → State) (hh : ∀ u, Kept r0 u → Kept r0 (hw u))
    (hi : ∀ u, Kept r0 u → Kept r0 (image u)) (hk : Kept r0 s) : Kept r0 (s.urkaiReceive l f cmd hw image) := by
  have h := hk.receive l f
  unfold State.urkaiReceive; split
  · next s1 he =>
    rw [he] at h
    have h2 : Kept r0 (if urkaiAnswer s1 f cmd && vdmType f = 1 then hw s1 else s1) := Kept.ite (hh _ h) h
    exact Kept.ite (Kept.ite (hi _ (h2.takeNewest _)) (h2.takeNewest _)) h2
  · next s1 _ he => rw [he] at h; exact h
@[simp] theorem Kept.tmMarkAnswer {s : State} (l : LaneId) (f : Frame) {r0 : State} (hk : Kept r0 s) : Kept r0 (State.tmMarkAnswer s l f) := by
  simp +contextual (maxDischargeDepth := 50) only [State.tmMarkAnswer, Kept.ite, Kept.hwSend, Kept.tmFailed, hk]
@[simp] theorem Kept.tmFollowAnswer {s : State} (l : LaneId) (f : Frame) {r0 : State} (hk : Kept r0 s) : Kept r0 (State.tmFollowAnswer s l f) := by
  simp +contextual (maxDischargeDepth := 50) only [State.tmFollowAnswer, Kept.ite, Kept.modCon, Kept.tmFailed, hk]
@[simp] theorem Kept.sendTwin {s : State} (l : LaneId) (cmd : BitVec 5) {r0 : State} (hk : Kept r0 s) : Kept r0 (State.sendTwin s l cmd) := by
  simp +contextual (maxDischargeDepth := 50) only [State.sendTwin, Kept.ite, Kept.modCon, Kept.imageSend, hk]
@[simp] theorem Kept.voidBack {s : State} (l : LaneId) (cause : BitVec 2) {r0 : State} (hk : Kept r0 s) : Kept r0 (State.voidBack s l cause) := by
  simp +contextual (maxDischargeDepth := 50) only [State.voidBack, Kept.ite, Kept.voidArm, Kept.fallback, hk]
@[simp] theorem Kept.disarm {s : State} (l : LaneId) {r0 : State} (hk : Kept r0 s) : Kept r0 (State.disarm s l) := by
  simp +contextual (maxDischargeDepth := 50) only [State.disarm, Kept.ite, Kept.postLane, Kept.sendTwin, hk]
@[simp] theorem Kept.arm {s : State} (l : LaneId) (id : BitVec 4) (target : Bool) {r0 : State} (hk : Kept r0 s) : Kept r0 (State.arm s l id target) := by
  simp +contextual (maxDischargeDepth := 50) only [State.arm, Kept.ite, Kept.modCon, Kept.postLane, Kept.fallback, Kept.sendTwin, hk]
@[simp] theorem Kept.storeArmed {s : State} (l : LaneId) (v : Word) {r0 : State} (hk : Kept r0 s) : Kept r0 (State.storeArmed s l v) := by
  simp +contextual (maxDischargeDepth := 50) only [State.storeArmed, Kept.ite, Kept.modCon, Kept.disarm, Kept.arm, hk]
@[simp] theorem Kept.twinArmAnswer {s : State} (l : LaneId) (f : Frame) {r0 : State} (hk : Kept r0 s) : Kept r0 (State.twinArmAnswer s l f) := by
  simp +contextual (maxDischargeDepth := 50) only [State.twinArmAnswer, Kept.ite, Kept.modCon, Kept.postLane, Kept.voidArm, Kept.fallback, hk]
@[simp] theorem Kept.twinDisarmAnswer {s : State} (l : LaneId) (f : Frame) {r0 : State} (hk : Kept r0 s) : Kept r0 (State.twinDisarmAnswer s l f) := by
  simp +contextual (maxDischargeDepth := 50) only [State.twinDisarmAnswer, Kept.ite, Kept.modCon, Kept.postLane, hk]
@[simp] theorem Kept.armResume {s : State} (l : LaneId) {r0 : State} (hk : Kept r0 s) : Kept r0 (State.armResume s l) := by
  simp +contextual (maxDischargeDepth := 50) only [State.armResume, Kept.ite, Kept.modCon, Kept.forEach, Kept.fallback, Kept.sendTwin, hk, implies_true]
@[simp] theorem Kept.armLate {s : State} (l : LaneId) {r0 : State} (hk : Kept r0 s) : Kept r0 (State.armLate s l) := by
  simp +contextual (maxDischargeDepth := 50) only [State.armLate, Kept.ite, Kept.fallback, Kept.disarm, hk]
@[simp] theorem Kept.runLimits {s0 : State} (l : LaneId) {r0 : State} (hk : Kept r0 s0) : Kept r0 (State.runLimits s0 l) := by
  simp +contextual (maxDischargeDepth := 50) only [State.runLimits, Kept.ite, Kept.modCon, Kept.modBelay, Kept.writeIlim, Kept.setFwd, hk]
@[simp] theorem Kept.capsResume {s : State} (l : LaneId) {r0 : State} (hk : Kept r0 s) : Kept r0 (State.capsResume s l) := by
  simp +contextual (maxDischargeDepth := 50) only [State.capsResume, Kept.ite, Kept.modCon, Kept.sendCaps, hk]
@[simp] theorem Kept.switchNow {s : State} (l : LaneId) (run : Bool) {r0 : State} (hk : Kept r0 s) : Kept r0 (State.switchNow s l run) := by
  simp +contextual (maxDischargeDepth := 50) only [State.switchNow, Kept.ite, Kept.modCon, Kept.modTally, Kept.modBudget, Kept.postLane, Kept.feedForward, Kept.sendCaps, Kept.loadMoves, hk]
@[simp] theorem Kept.discoveryEnd {s : State} (l : LaneId) {r0 : State} (hk : Kept r0 s) : Kept r0 (State.discoveryEnd s l) := by
  simp +contextual (maxDischargeDepth := 50) only [State.discoveryEnd, Kept.ite, Kept.modCc, Kept.sendCapsNow, Kept.amsEnd, Kept.eprDecide, hk]
@[simp] theorem Kept.discoveryFails {s : State} (l : LaneId) {r0 : State} (hk : Kept r0 s) : Kept r0 (State.discoveryFails s l) := by
  simp +contextual (maxDischargeDepth := 50) only [State.discoveryFails, Kept.modCc, Kept.discoveryEnd, hk]
@[simp] theorem Kept.discAnswer {s : State} (l : LaneId) (f : Frame) {r0 : State} (hk : Kept r0 s) : Kept r0 (State.discAnswer s l f) := by
  unfold State.discAnswer; repeat' split
  all_goals simp +contextual (maxDischargeDepth := 50) only [Kept.modCc, Kept.discoveryEnd, Kept.discoveryFails, hk]
@[simp] theorem Kept.firstCaps {s : State} (l : LaneId) {r0 : State} (hk : Kept r0 s) : Kept r0 (State.firstCaps s l) := by
  simp +contextual (maxDischargeDepth := 50) only [State.firstCaps, Kept.ite, Kept.modSwap, Kept.imageSend, Kept.startDiscovery, Kept.sendCapsNow, hk]
@[simp] theorem Kept.sentAny {s : State} (l : LaneId) (f : Frame) {r0 : State} (hk : Kept r0 s) : Kept r0 (State.sentAny s l f) := by
  unfold State.sentAny; (try dsimp only); repeat' split
  all_goals simp +contextual (maxDischargeDepth := 50) only [Kept.modCon, Kept.modBudget, Kept.modPd, Kept.voidBack, hk, implies_true]
@[simp] theorem Kept.startVcs {s : State} (l : LaneId) {r0 : State} (hk : Kept r0 s) : Kept r0 (State.startVcs s l) := by
  simp +contextual (maxDischargeDepth := 50) only [State.startVcs, Kept.ite, Kept.modCc, Kept.modSwap, hk]
@[simp] theorem Kept.frsAfresh {s : State} (l : LaneId) {r0 : State} (hk : Kept r0 s) : Kept r0 (State.frsAfresh s l) := by
  simp +contextual (maxDischargeDepth := 50) only [State.frsAfresh, Kept.ite, Kept.modCon, Kept.seqStep, hk]
@[simp] theorem Kept.acceptDone {s0 : State} (l : LaneId) {r0 : State} (hk : Kept r0 s0) : Kept r0 (State.acceptDone s0 l) := by
  simp +contextual (maxDischargeDepth := 50) only [State.acceptDone, Kept.ite, Kept.modSwap, Kept.modPd, Kept.logSw, Kept.endSwap, Kept.acceptSent, Kept.startVcs, hk, implies_true]
@[simp] theorem Kept.sentQueue {s : State} (l : LaneId) (f : Frame) {r0 : State} (hk : Kept r0 s) : Kept r0 (State.sentQueue s l f) := by
  have k2 (g : PdLane → PdLane) (hg : ∀ p : PdLane, p.ok → (g p).ok) : Kept r0 ((s.sentAny l f).modPd l g) := (hk.sentAny l f).modPd_of l g hg
  have k1 : Kept r0 (s.sentAny l f) := hk.sentAny l f
  unfold State.sentQueue; dsimp only; revert k1 k2
  generalize s.sentAny l f = s1
  intro k2 k1; repeat' with_reducible refine Kept.ite ?_ ?_
  all_goals first
    | with_reducible exact k1
    | with_reducible exact k1.acceptDone l
    | with_reducible exact k1.amsEnd l
    | with_reducible exact k1.modSwap l _
    | with_reducible exact Kept.voidBack l 2 k1
    | with_reducible exact Kept.sendCapsNow l (k1.modCon l _)
    | with_reducible exact k1.modCon l _
    | exact Kept.frsAfresh l (Kept.amsEnd l (Kept.contractTakes l _ (k2 _ fun p h => h)))
    | exact k2 _ fun p h => h
@[simp] theorem Kept.hwDone {s : State} (l : LaneId) (m : HwMsg) (sent : Bool) {r0 : State} (hk : Kept r0 s) : Kept r0 (State.hwDone s l m sent) := by
  have k0 : Kept r0 (if sent then s.sentAny l m.frame else s) := Kept.ite (hk.sentAny _ _) hk
  unfold State.hwDone; dsimp only; revert k0
  generalize (if sent then s.sentAny l m.frame else s) = s0
  intro k0; repeat' split
  all_goals simp +contextual (maxDischargeDepth := 50) only [Kept.modCon, Kept.modSwap, Kept.modTally, Kept.modPd, Kept.postLane, Kept.irq, Kept.countFault, Kept.endSwap, Kept.hwSend, Kept.abandonReasm, Kept.amsFail, Kept.sendCapsNow, Kept.amsEnd, Kept.tmFailed, Kept.hardReset, Kept.modBudget, Kept.baseLimits, k0, implies_true]
@[simp] theorem Kept.takeAnswer {s0 : State} (l : LaneId) (f : Frame) {r0 : State} (hk : Kept r0 s0) : Kept r0 (State.takeAnswer s0 l f) := by
  unfold State.takeAnswer
  have k1 : Kept r0 (if (urkaiAnswer s0 f 3 && decide (vdmType f = 1)) = true then s0.learnModes l (obj f 1) else s0) := Kept.ite (hk.learnModes _ _) hk
  revert k1; dsimp only
  generalize (if (urkaiAnswer s0 f 3 && decide (vdmType f = 1)) = true then s0.learnModes l (obj f 1) else s0) = s
  intro k1
  have h1 := k1.takeNewest l
  exact Kept.ite (h1.tmMarkAnswer _ _) <| Kept.ite (Kept.startVcs _ (Kept.ite h1 k1)) <| Kept.ite k1 <| Kept.ite (h1.discAnswer _ _) <|
    Kept.ite (h1.seqAnswer _ _) <| Kept.ite (h1.authAnswer _ _ _) <| Kept.ite (h1.authAnswer _ _ _) <| Kept.ite (h1.seqNext _) <|
    Kept.ite (h1.modCon _ _) <| Kept.ite (h1.modCon _ _) k1
@[simp] theorem Kept.resetMessages {s : State} (l : LaneId) {r0 : State} (hk : Kept r0 s) : Kept r0 (State.resetMessages s l) := by
  simp +contextual (maxDischargeDepth := 50) only [State.resetMessages, Kept.modCc, Kept.modCon, Kept.modSwap, Kept.modTally, Kept.modBudget, Kept.modPd, PdLane.clearIds_fifo, PdLane.clearIds_queue, PdLane.clearIds_rxBuf, PdLane.clearIds_txBuf, Kept.postLane, Kept.endUrkai, Kept.loadOff, Kept.abortQueue, Kept.flushRx, Kept.packHold, hk, implies_true]
@[simp] theorem Kept.attachRoles {s : State} (l : LaneId) {r0 : State} (hk : Kept r0 s) : Kept r0 (State.attachRoles s l) := by
  simp +contextual (maxDischargeDepth := 50) only [State.attachRoles, Kept.ite, Kept.modSwap, Kept.modBelay, Kept.stopStage, Kept.openPath, Kept.endSwap, hk]
@[simp] theorem Kept.hardResetDone {s : State} (l : LaneId) {r0 : State} (hk : Kept r0 s) : Kept r0 (State.hardResetDone s l) := by
  simp +contextual (maxDischargeDepth := 50) only [State.hardResetDone, Kept.ite, Kept.modCc, Kept.modPd, Kept.stopStage, Kept.openPath, Kept.settle, Kept.disableLane, Kept.endService, Kept.endSwap, Kept.baseLimits, Kept.resetMessages, Kept.attachRoles, hk, implies_true]
@[simp] theorem Kept.vbusGone {s : State} (l : LaneId) {r0 : State} (hk : Kept r0 s) : Kept r0 (State.vbusGone s l) := by
  simp +contextual (maxDischargeDepth := 50) only [State.vbusGone, Kept.ite, Kept.modPd, Kept.endService, hk, implies_true]
@[simp] theorem Kept.hardResetEnd {s : State} (l : LaneId) {r0 : State} (hk : Kept r0 s) : Kept r0 (State.hardResetEnd s l) := by
  simp +contextual (maxDischargeDepth := 50) only [State.hardResetEnd, Kept.modPd, Kept.postLane, hk, implies_true]
@[simp] theorem Kept.vconnBack {s : State} (l : LaneId) {r0 : State} (hk : Kept r0 s) : Kept r0 (State.vconnBack s l) := by
  simp +contextual (maxDischargeDepth := 50) only [State.vconnBack, Kept.ite, Kept.modCc, hk]
@[simp] theorem Kept.sinkReturn {s : State} (l : LaneId) {r0 : State} (hk : Kept r0 s) : Kept r0 (State.sinkReturn s l) := by
  simp +contextual (maxDischargeDepth := 50) only [State.sinkReturn, Kept.askClose, Kept.hardResetEnd, hk]
@[simp] theorem Kept.tryAttach {s : State} (l : LaneId) {r0 : State} (hk : Kept r0 s) : Kept r0 (State.tryAttach s l) := by
  unfold State.tryAttach; (try dsimp only); repeat' split
  all_goals simp +contextual (maxDischargeDepth := 50) only [Kept.attachAs, hk]
@[simp] theorem Kept.cutClear {s : State} (l : LaneId) {r0 : State} (hk : Kept r0 s) : Kept r0 (State.cutClear s l) := by
  simp +contextual (maxDischargeDepth := 50) only [State.cutClear, Kept.ite, Kept.modCc, Kept.enterUnattached, hk]
@[simp] theorem Kept.watchAttach {s : State} (l : LaneId) {r0 : State} (hk : Kept r0 s) : Kept r0 (State.watchAttach s l) := by
  simp +contextual (maxDischargeDepth := 50) only [State.watchAttach, Kept.modCc, Kept.postLane, Kept.irq, Kept.log, hk]
@[simp] theorem Kept.watchCut {s : State} (l : LaneId) {r0 : State} (hk : Kept r0 s) : Kept r0 (State.watchCut s l) := by
  simp +contextual (maxDischargeDepth := 50) only [State.watchCut, Kept.modCc, Kept.postLane, Kept.irq, Kept.log, hk]
@[simp] theorem Kept.takeServed {s : State} (l : LaneId) {r0 : State} (hk : Kept r0 s) : Kept r0 (State.takeServed s l) := by
  simp +contextual (maxDischargeDepth := 50) only [State.takeServed, Kept.ite, Kept.takeNewest, hk]
@[simp] theorem Kept.answerSwap {r0 s : State} (l : LaneId) (x : SwapAnswer) (hk : Kept r0 s) : Kept r0 (s.answerSwap l x) := by
  cases x <;> simp [State.answerSwap, hk]
@[simp] theorem Kept.sendPrSwap {s : State} (l : LaneId) {r0 : State} (hk : Kept r0 s) : Kept r0 (State.sendPrSwap s l) := by
  simp +contextual (maxDischargeDepth := 50) only [State.sendPrSwap, Kept.ite, Kept.modSwap, Kept.imageSend, hk]
@[simp] theorem Kept.partnerReady {s : State} (l : LaneId) {r0 : State} (hk : Kept r0 s) : Kept r0 (State.partnerReady s l) := by
  simp +contextual (maxDischargeDepth := 50) only [State.partnerReady, Kept.ite, Kept.modCon, Kept.modSwap, Kept.modBudget, Kept.postLane, Kept.openPath, Kept.askClose, Kept.endSwap, Kept.baseLimits, Kept.amsEnd, Kept.sinkContract, hk]
@[simp] theorem Kept.onSinkCaps {s : State} (l : LaneId) (f : Frame) {r0 : State} (hk : Kept r0 s) : Kept r0 (State.onSinkCaps s l f) := by
  simp +contextual (maxDischargeDepth := 50) only [State.onSinkCaps, Kept.ite, Kept.modSwap, Kept.seqStep, Kept.seqNext, hk]
@[simp] theorem Kept.onHoldSet {s : State} (l : LaneId) (f : Frame) {r0 : State} (hk : Kept r0 s) : Kept r0 (State.onHoldSet s l f) := by
  simp +contextual (maxDischargeDepth := 50) only [State.onHoldSet, Kept.ite, Kept.seqAnswer, hk]
@[simp] theorem Kept.signalFrs {s : State} (l : LaneId) {r0 : State} (hk : Kept r0 s) : Kept r0 (State.signalFrs s l) := by
  simp +contextual (maxDischargeDepth := 50) only [State.signalFrs, Kept.ite, Kept.modSwap, Kept.modTally, Kept.postLane, Kept.stopStage, hk]
@[simp] theorem Kept.prsReq {s : State} (l : LaneId) {r0 : State} (hk : Kept r0 s) : Kept r0 (State.prsReq s l) := by
  simp +contextual (maxDischargeDepth := 50) only [State.prsReq, Kept.ite, Kept.sendPrSwap, hk]
@[simp] theorem Kept.packWrite {s : State} (l : LaneId) (v : Nat) {r0 : State} (hk : Kept r0 s) : Kept r0 (State.packWrite s l v) := by
  simp +contextual (maxDischargeDepth := 50) only [State.packWrite, Kept.ite, Kept.modCon, Kept.seqStep, hk]
@[simp] theorem Kept.anchor {s : State} (l : LaneId) (kind : BitVec 2) {r0 : State} (hk : Kept r0 s) : Kept r0 (State.anchor s l kind) := by
  unfold State.anchor; (try dsimp only); repeat' split
  all_goals simp +contextual (maxDischargeDepth := 50) only [Kept.modSwap, Kept.modTally, Kept.free, Kept.postLane, Kept.log, Kept.stopStage, Kept.packWrite, hk]
@[simp] theorem Kept.tallyClear {s : State} (l : LaneId) {r0 : State} (hk : Kept r0 s) : Kept r0 (State.tallyClear s l) := by
  simp +contextual (maxDischargeDepth := 50) only [State.tallyClear, Kept.modTally, hk]
@[simp] theorem Kept.onBattery {s : State} (l : LaneId) (f : Frame) {r0 : State} (hk : Kept r0 s) : Kept r0 (State.onBattery s l f) := by
  simp +contextual (maxDischargeDepth := 50) only [State.onBattery, Kept.ite, Kept.anchor, hk]
@[simp] theorem Kept.onRecCommit {s : State} (l : LaneId) (f : Frame) {r0 : State} (hk : Kept r0 s) : Kept r0 (State.onRecCommit s l f) := by
  simp +contextual (maxDischargeDepth := 50) only [State.onRecCommit, Kept.ite, Kept.logSw, Kept.seqEnd, hk]
@[simp] theorem Kept.cancelQueued {s : State} (l : LaneId) (p : TxSlot → Bool) {r0 : State} (hk : Kept r0 s) : Kept r0 (State.cancelQueued s l p) := by
  unfold State.cancelQueued; refine Kept.forEach _ (fun u hu m => Kept.endMessage _ _ _ _ (Kept.notSent _ _ ?_)) hk
  exact hu.modPd_of _ _ fun p h => ⟨h.1, (List.length_erase_le ..).trans h.2.1, h.2.2⟩
@[simp] theorem Kept.freezePackWrite {s : State} (l : LaneId) {r0 : State} (hk : Kept r0 s) : Kept r0 (State.freezePackWrite s l) := by
  simp +contextual (maxDischargeDepth := 50) only [State.freezePackWrite, Kept.ite, Kept.modCon, Kept.logSw, Kept.amsEnd, Kept.cancelQueued, hk]
@[simp] theorem Kept.postCnt {s : State} (n : CounterId) (k : Nat) {r0 : State} (hk : Kept r0 s) : Kept r0 (State.postCnt s n k) := by
  simp +contextual (maxDischargeDepth := 50) only [State.postCnt, Kept.post, hk]
@[simp] theorem Kept.loadSlot {s : State} (n : CounterId) {r0 : State} (hk : Kept r0 s) : Kept r0 (State.loadSlot s n) := by
  unfold State.loadSlot; repeat' split
  all_goals simp +contextual (maxDischargeDepth := 50) only [Kept.modCounter, hk]
@[simp] theorem Kept.lineEdge {s : State} (l : LaneId) (v : Bool) {r0 : State} (hk : Kept r0 s) : Kept r0 (State.lineEdge s l v) := by
  simp +contextual (maxDischargeDepth := 50) only [State.lineEdge, Kept.ite, Kept.modSect, Kept.loadChanges, hk]
@[simp] theorem Kept.fireSlot {s : State} (n : CounterId) {r0 : State} (hk : Kept r0 s) : Kept r0 (State.fireSlot s n) := by
  unfold State.fireSlot; (try dsimp only); repeat' split
  all_goals simp +contextual (maxDischargeDepth := 50) only [Kept.modCounter, Kept.forEach, Kept.loadSlot, Kept.lineEdge, hk, implies_true]
@[simp] theorem Kept.attachSlot {s : State} (k t : Nat) (l : LaneId) (v : Bool) {r0 : State} (hk : Kept r0 s) : Kept r0 (State.attachSlot s k t l v) := by
  unfold State.attachSlot; repeat' split
  all_goals simp +contextual (maxDischargeDepth := 50) only [Kept.modCounter, Kept.loadSlot, hk]
@[simp] theorem Kept.dropSlots {s : State} (l : LaneId) {r0 : State} (hk : Kept r0 s) : Kept r0 (State.dropSlots s l) := by
  simp +contextual (maxDischargeDepth := 50) only [State.dropSlots, Kept.modCounter, Kept.forEach, Kept.loadSlot, hk, implies_true]
@[simp] theorem Kept.matchAct {s : State} (n : CounterId) (b : Bool) {r0 : State} (hk : Kept r0 s) : Kept r0 (State.matchAct s n b) := by
  unfold State.matchAct; have h1 : ∀ f, Kept r0 ((s.modCounter n f).postCnt n (b2n b)) := fun f => Kept.postCnt _ _ (hk.modCounter _ _)
  dsimp only; repeat' split
  all_goals first | exact h1 _ | exact Kept.modCounter _ _ (h1 _) | exact Kept.fireSlot _ (h1 _) | exact Kept.fireSlot _ (Kept.modCounter _ _ (h1 _))
@[simp] theorem Kept.turnPeak {s : State} (n : CounterId) (turn peak : Bool) {r0 : State} (hk : Kept r0 s) : Kept r0 (State.turnPeak s n turn peak) := by
  simp +contextual (maxDischargeDepth := 50) only [State.turnPeak, Kept.ite, Kept.modCounter, Kept.postCnt, hk]
@[simp] theorem Kept.stepCounter {s : State} (n : CounterId) (en rst go : Bool) {r0 : State} (hk : Kept r0 s) : Kept r0 (State.stepCounter s n en rst go).2 := by
  unfold State.stepCounter; (try dsimp only); repeat' split
  all_goals simp +contextual (maxDischargeDepth := 50) only [Kept.modCounter, Kept.matchAct, Kept.turnPeak, hk]
@[simp] theorem Kept.tickFrom {r0 s : State} (old : State) (a b : Bool) (ns : List CounterId) (hk : Kept r0 s) : Kept r0 (s.tickFrom old a b ns) := by
  induction ns generalizing s b with
  | nil => exact hk
  | cons n ns ih =>
    unfold State.tickFrom; dsimp only; split
    · exact ih _ (hk.stepCounter ..)
    · exact ih _ hk
@[simp] theorem Kept.tclkTick {s : State} {r0 : State} (hk : Kept r0 s) : Kept r0 (State.tclkTick s) := by
  simp +contextual (maxDischargeDepth := 50) only [State.tclkTick, Kept.modCounter, Kept.forEach, Kept.tickFrom, hk, implies_true]
@[simp] theorem Kept.storeCntVal {s : State} (a : Agent) (n : CounterId) (v : Word) {r0 : State} (hk : Kept r0 s) : Kept r0 (State.storeCntVal s a n v) := by
  simp +contextual (maxDischargeDepth := 50) only [State.storeCntVal, Kept.ite, Kept.modCounter, hk]
@[simp] theorem Kept.storeCntTop {s : State} (a : Agent) (n : CounterId) (v : Word) {r0 : State} (hk : Kept r0 s) : Kept r0 (State.storeCntTop s a n v) := by
  simp +contextual (maxDischargeDepth := 50) only [State.storeCntTop, Kept.ite, Kept.modCounter, Kept.forEach, hk, implies_true]
@[simp] theorem Kept.storeCntCmp {s : State} (a : Agent) (n : CounterId) (b : Bool) (v : Word) {r0 : State} (hk : Kept r0 s) : Kept r0 (State.storeCntCmp s a n b v) := by
  simp +contextual (maxDischargeDepth := 50) only [State.storeCntCmp, Kept.ite, Kept.modCounter, hk]
@[simp] theorem Kept.startSet {s : State} (n : CounterId) {r0 : State} (hk : Kept r0 s) : Kept r0 (State.startSet s n) := by
  simp +contextual (maxDischargeDepth := 50) only [State.startSet, Kept.modCounter, Kept.forEach, hk, implies_true]
@[simp] theorem Kept.storeCntCtrl {s : State} (a : Agent) (n : CounterId) (v : Word) {r0 : State} (hk : Kept r0 s) : Kept r0 (State.storeCntCtrl s a n v) := by
  simp +contextual (maxDischargeDepth := 50) only [State.storeCntCtrl, Kept.ite, Kept.modCounter, Kept.forEach, Kept.startSet, hk, implies_true]
@[simp] theorem Kept.storeCntAct {s : State} (a : Agent) (n : CounterId) (v : Word) {r0 : State} (hk : Kept r0 s) : Kept r0 (State.storeCntAct s a n v) := by
  simp +contextual (maxDischargeDepth := 50) only [State.storeCntAct, Kept.ite, Kept.modCounter, hk]
@[simp] theorem Kept.storeCntCap {s : State} (a : Agent) (n : CounterId) (v : Word) {r0 : State} (hk : Kept r0 s) : Kept r0 (State.storeCntCap s a n v) := by
  simp +contextual (maxDischargeDepth := 50) only [State.storeCntCap, Kept.ite, Kept.modCounter, hk]
@[simp] theorem Kept.readCntVal {s : State} (a : Agent) (n : CounterId) {r0 : State} (hk : Kept r0 s) : Kept r0 (State.readCntVal s a n).2 := by
  simp +contextual (maxDischargeDepth := 50) only [State.readCntVal, Kept.modLatch, hk]
@[simp] theorem Kept.claimCounters {s : State} {r0 : State} (hk : Kept r0 s) : Kept r0 (State.claimCounters s) := by
  unfold State.claimCounters; (try dsimp only)
  all_goals simp +contextual (maxDischargeDepth := 50) only [Kept.modCounter, Kept.forEach, hk, implies_true]
@[simp] theorem Kept.placeSwitch {s : State} (pos lane t : Nat) {r0 : State} (hk : Kept r0 s) : Kept r0 (State.placeSwitch s pos lane t).2 := by
  unfold State.placeSwitch; (try dsimp only); repeat' split
  all_goals simp +contextual (maxDischargeDepth := 50) only [Kept.modBus, hk]
@[simp] theorem Kept.armFor {s : State} (l : LaneId) (run : Bool) (t : Nat) {r0 : State} (hk : Kept r0 s) : Kept r0 (State.armFor s l run t) := by
  simp +contextual (maxDischargeDepth := 50) only [State.armFor, Kept.ite, Kept.modCfg, Kept.storeArmed, hk]
@[simp] theorem Kept.switchOn {s : State} (l : LaneId) (t slot : Nat) {r0 : State} (hk : Kept r0 s) : Kept r0 (State.switchOn s l t slot) := by
  simp +contextual (maxDischargeDepth := 50) only [State.switchOn, Kept.ite, Kept.modBudget, Kept.modSect, Kept.attachSlot, Kept.armFor, hk]
@[simp] theorem Kept.giveSlot {s : State} (l : LaneId) (slot : Nat) {r0 : State} (hk : Kept r0 s) : Kept r0 (State.giveSlot s l slot) := by
  unfold State.giveSlot; (try dsimp only); repeat' split
  all_goals simp +contextual (maxDischargeDepth := 50) only [Kept.modBudget, Kept.switchOn, hk]
@[simp] theorem Kept.requestOn {s : State} (l : LaneId) (t : Nat) {r0 : State} (hk : Kept r0 s) : Kept r0 (State.requestOn s l t) := by
  simp +contextual (maxDischargeDepth := 50) only [State.requestOn, Kept.ite, Kept.modBudget, Kept.switchOn, hk]
@[simp] theorem Kept.capsRefresh {s : State} (l : LaneId) {r0 : State} (hk : Kept r0 s) : Kept r0 (State.capsRefresh s l) := by
  simp +contextual (maxDischargeDepth := 50) only [State.capsRefresh, Kept.ite, Kept.sendCapsNow, hk]
@[simp] theorem Kept.unshed {s : State} (l : LaneId) {r0 : State} (hk : Kept r0 s) : Kept r0 (State.unshed s l) := by
  simp +contextual (maxDischargeDepth := 50) only [State.unshed, Kept.ite, Kept.modBudget, Kept.storeShed, Kept.requestOn, hk]
@[simp] theorem Kept.lateArm {s : State} (l : LaneId) {r0 : State} (hk : Kept r0 s) : Kept r0 (State.lateArm s l) := by
  simp +contextual (maxDischargeDepth := 50) only [State.lateArm, Kept.ite, Kept.modCon, Kept.modSect, Kept.fallback, Kept.armFor, hk]
@[simp] theorem Kept.takeCeil {s : State} (l : LaneId) (v : BitVec 12) {r0 : State} (hk : Kept r0 s) : Kept r0 (State.takeCeil s l v) := by
  simp +contextual (maxDischargeDepth := 50) only [State.takeCeil, Kept.ite, Kept.modBudget, Kept.postLane, Kept.capsRefresh, Kept.unshed, Kept.lateArm, hk]
@[simp] theorem Kept.unstagger {s : State} (l : LaneId) {r0 : State} (hk : Kept r0 s) : Kept r0 (State.unstagger s l) := by
  unfold State.unstagger; repeat' split
  all_goals simp +contextual (maxDischargeDepth := 50) only [Kept.modBudget, Kept.switchOn, hk]
@[simp] theorem Kept.setFrozen {s : State} (v : Bool) {r0 : State} (hk : Kept r0 s) : Kept r0 (State.setFrozen s v) := by
  simp +contextual (maxDischargeDepth := 50) only [State.setFrozen, Kept.ite, Kept.modBus, Kept.forEach, Kept.post, Kept.unstagger, hk, implies_true]
@[simp] theorem Kept.followCeil {s : State} (l : LaneId) (v : BitVec 12) {r0 : State} (hk : Kept r0 s) : Kept r0 (State.followCeil s l v) := by
  simp +contextual (maxDischargeDepth := 50) only [State.followCeil, Kept.modBudget, Kept.takeCeil, hk]
@[simp] theorem Kept.laneClock {s : State} (l : LaneId) {r0 : State} (hk : Kept r0 s) : Kept r0 (State.laneClock s l) := by
  simp +contextual (maxDischargeDepth := 50) only [State.laneClock, Kept.releaseReady, Kept.recNext, Kept.armLate, Kept.capsResume, Kept.capsRefresh, hk]
theorem measureLane_pd (now : Nat) (x : Lane) (m : LaneSample) : (measureLane now x m).pd = x.pd := by
  unfold measureLane; rfl
@[simp] theorem Kept.measure {s : State} (b : BusSample) {r0 : State} (hk : Kept r0 s) : Kept r0 (State.measure s b) := by
  unfold State.measure; refine Kept.forEach _ (fun u hu x => Kept.modBudget _ _ hu) (Kept.forEach _ (fun u hu x => Kept.modLane_pd _ _ (fun y => measureLane_pd ..) hu) ?_)
  exact Kept.modDev _ (hk.modBus _)
@[simp] theorem Kept.placeAll {s : State} (cs : List LaneClaim) {r0 : State} (hk : Kept r0 s) : Kept r0 (State.placeAll s cs) := by
  unfold State.placeAll; refine Kept.modBus _ (Kept.forEach _ (fun u hu c => ?_) hk)
  split
  · dsimp only; split
    · exact Kept.giveSlot _ _ (hu.placeSwitch _ _ _)
    · exact hu
  · exact Kept.forEach _ (fun v hv e => hv.placeSwitch _ _ _) hu
@[simp] theorem Kept.askSwitch {s : State} (pos lane t : Nat) {r0 : State} (hk : Kept r0 s) : Kept r0 (State.askSwitch s pos lane t) := by
  simp +contextual (maxDischargeDepth := 50) only [State.askSwitch, Kept.ite, Kept.modBus, hk]
@[simp] theorem Kept.applyResults {s : State} (cs : List LaneClaim) {r0 : State} (hk : Kept r0 s) : Kept r0 (State.applyResults s cs) := by
  unfold State.applyResults; refine Kept.forEach _ (fun u hu x => ?_) (hk.modBus _)
  split
  · exact hu
  · split
    · exact Kept.takeCeil _ _ (Kept.modBudget _ _ hu)
    · exact hu
@[simp] theorem Kept.setSag {s : State} (v : Bool) {r0 : State} (hk : Kept r0 s) : Kept r0 (State.setSag s v) := by
  simp +contextual (maxDischargeDepth := 50) only [State.setSag, Kept.ite, Kept.modBus, Kept.post, hk]
@[simp] theorem Kept.setShedMiss {s : State} (l : LaneId) {r0 : State} (hk : Kept r0 s) : Kept r0 (State.setShedMiss s l) := by
  simp +contextual (maxDischargeDepth := 50) only [State.setShedMiss, Kept.ite, Kept.modSect, Kept.postLane, hk]
@[simp] theorem Kept.shedStep {s : State} (l : LaneId) {r0 : State} (hk : Kept r0 s) : Kept r0 (State.shedStep s l) := by
  simp +contextual (maxDischargeDepth := 50) only [State.shedStep, Kept.ite, Kept.modCfg, Kept.sendCaps, Kept.sendCapsNow, Kept.shedRecord, Kept.disarm, Kept.armFor, Kept.setShedMiss, hk]
@[simp] theorem Kept.storeBudget {s : State} (a : Agent) (v : Word) {r0 : State} (hk : Kept r0 s) : Kept r0 (State.storeBudget s a v) := by
  simp +contextual (maxDischargeDepth := 50) only [State.storeBudget, Kept.ite, Kept.modBus, Kept.modTether, hk]
@[simp] theorem Kept.testVersion {s : State} {r0 : State} (hk : Kept r0 s) : Kept r0 (State.testVersion s) := by
  simp +contextual (maxDischargeDepth := 50) only [State.testVersion, Kept.ite, Kept.modTether, Kept.log, Kept.setFrozen, hk]
@[simp] theorem Kept.versionMoved {s : State} {r0 : State} (hk : Kept r0 s) : Kept r0 (State.versionMoved s) := by
  simp +contextual (maxDischargeDepth := 50) only [State.versionMoved, Kept.modTether, Kept.testVersion, hk]
@[simp] theorem Kept.markLost {s : State} {r0 : State} (hk : Kept r0 s) : Kept r0 (State.markLost s) := by
  simp +contextual (maxDischargeDepth := 50) only [State.markLost, Kept.modSwath, hk]
@[simp] theorem Kept.markCell {s : State} (c : Int × Int) {r0 : State} (hk : Kept r0 s) : Kept r0 (State.markCell s c).2 := by
  unfold State.markCell; dsimp only; repeat' split
  · exact hk.markLost
  · exact hk.withMem (fun h => by simp (maxDischargeDepth := 50) [h])
  · exact hk
@[simp] theorem Kept.tileEvt {s : State} {r0 : State} (hk : Kept r0 s) : Kept r0 (State.tileEvt s) := by
  simp +contextual (maxDischargeDepth := 50) only [State.tileEvt, Kept.modSwath, Kept.post, Kept.irq, hk]
@[simp] theorem Kept.moveWindow {s : State} (w : Int × Int) {r0 : State} (hk : Kept r0 s) : Kept r0 (State.moveWindow s w) := by
  simp +contextual (maxDischargeDepth := 50) only [State.moveWindow, Kept.ite, Kept.modSwath, Kept.tileEvt, hk]
@[simp] theorem Kept.followWindow {s : State} {r0 : State} (hk : Kept r0 s) : Kept r0 (State.followWindow s) := by
  simp +contextual (maxDischargeDepth := 50) only [State.followWindow, Kept.ite, Kept.moveWindow, hk]
@[simp] theorem Kept.queueRecords {s : State} (rs : List TetherRecord) {r0 : State} (hk : Kept r0 s) : Kept r0 (State.queueRecords s rs) := by
  simp +contextual (maxDischargeDepth := 50) only [State.queueRecords, Kept.modTether, hk]
@[simp] theorem Kept.queueMark {s : State} (r : TetherRecord) {r0 : State} (hk : Kept r0 s) : Kept r0 (State.queueMark s r) := by
  simp +contextual (maxDischargeDepth := 50) only [State.queueMark, Kept.ite, Kept.markLost, Kept.queueRecords, hk]
@[simp] theorem Kept.fixCommit {s : State} {r0 : State} (hk : Kept r0 s) : Kept r0 (State.fixCommit s) := by
  simp +contextual (maxDischargeDepth := 50) only [State.fixCommit, Kept.modSwath, Kept.post, hk]
@[simp] theorem Kept.takePose {s : State} (p : PoseReport) {r0 : State} (hk : Kept r0 s) : Kept r0 (State.takePose s p) := by
  simp +contextual (maxDischargeDepth := 50) only [State.takePose, Kept.ite, Kept.modSwath, Kept.post, hk]
@[simp] theorem Kept.startGs {s : State} {r0 : State} (hk : Kept r0 s) : Kept r0 (State.startGs s) := by
  simp +contextual (maxDischargeDepth := 50) only [State.startGs, Kept.modSwath, hk]
@[simp] theorem Kept.deadReckon {s : State} {r0 : State} (hk : Kept r0 s) : Kept r0 (State.deadReckon s) := by
  simp +contextual (maxDischargeDepth := 50) only [State.deadReckon, Kept.ite, Kept.modSwath, hk]
@[simp] theorem Kept.postSwitch {s : State} (l : LaneId) (on : Bool) (t : Nat) {r0 : State} (hk : Kept r0 s) : Kept r0 (State.postSwitch s l on t) := by
  simp +contextual (maxDischargeDepth := 50) only [State.postSwitch, Kept.ite, Kept.modSect, Kept.postLane, Kept.armMissed, Kept.attachSlot, Kept.armFor, Kept.requestOn, hk]
@[simp] theorem Kept.cancelPost {s : State} (l : LaneId) {r0 : State} (hk : Kept r0 s) : Kept r0 (State.cancelPost s l) := by
  simp +contextual (maxDischargeDepth := 50) only [State.cancelPost, Kept.ite, Kept.modBudget, Kept.modSect, Kept.disarm, Kept.dropSlots, hk]
@[simp] theorem Kept.evalSection {s : State} (l : LaneId) {r0 : State} (hk : Kept r0 s) : Kept r0 (State.evalSection s l) := by
  simp +contextual (maxDischargeDepth := 50) only [State.evalSection, Kept.ite, Kept.modSect, Kept.postSwitch, Kept.cancelPost, hk]
@[simp] theorem Kept.repostSection {s : State} (l : LaneId) {r0 : State} (hk : Kept r0 s) : Kept r0 (State.repostSection s l) := by
  simp +contextual (maxDischargeDepth := 50) only [State.repostSection, Kept.ite, Kept.postSwitch, hk]
@[simp] theorem Kept.markCells {s : State} (cs : List (Int × Int)) {r0 : State} (hk : Kept r0 s) : Kept r0 (State.markCells s cs) := by
  have h : ∀ (cs : List (Int × Int)) (p : State × List (Int × Int × Nat × Nat × Nat)), Kept r0 p.1 →
      Kept r0 (cs.foldl (fun (a : State × List (Int × Int × Nat × Nat × Nat)) c => let p := a.1.markCell c; (p.2, if p.1 then addRun a.2 c else a.2)) p).1 := by
    intro cs
    induction cs with
    | nil => exact fun _ h => h
    | cons c r ih => exact fun p h => ih _ (Kept.markCell _ h)
  unfold State.markCells
  exact Kept.forEach _ (fun u hu x => Kept.queueMark _ hu) (h cs _ hk)
@[simp] theorem Kept.markSection {s : State} (l : LaneId) {r0 : State} (hk : Kept r0 s) : Kept r0 (State.markSection s l) := by
  unfold State.markSection; (try dsimp only); repeat' split
  all_goals simp +contextual (maxDischargeDepth := 50) only [Kept.modSect, Kept.markCells, hk]
@[simp] theorem Kept.dueLines {s : State} {r0 : State} (hk : Kept r0 s) : Kept r0 (State.dueLines s) := by
  unfold State.dueLines; (try dsimp only); repeat' split
  all_goals simp +contextual (maxDischargeDepth := 50) only [Kept.modCounter, Kept.forEach, Kept.lineEdge, hk, implies_true]
@[simp] theorem Kept.storeSectCtrl {s : State} (l : LaneId) (v : Word) {r0 : State} (hk : Kept r0 s) : Kept r0 (State.storeSectCtrl s l v) := by
  simp +contextual (maxDischargeDepth := 50) only [State.storeSectCtrl, Kept.modCfg, hk]
@[simp] theorem Kept.dropTiles {s : State} {r0 : State} (hk : Kept r0 s) : Kept r0 (State.dropTiles s) := by
  simp +contextual (maxDischargeDepth := 50) only [State.dropTiles, Kept.ite, Kept.modSwath, Kept.tileEvt, hk]
@[simp] theorem Kept.startSwath {s : State} {r0 : State} (hk : Kept r0 s) : Kept r0 (State.startSwath s) := by
  simp +contextual (maxDischargeDepth := 50) only [State.startSwath, Kept.modSwath, Kept.modSect, Kept.forEach, Kept.startGs, Kept.dropTiles, hk, implies_true]
@[simp] theorem Kept.storeSwathCtrl {s : State} (v : Word) {r0 : State} (hk : Kept r0 s) : Kept r0 (State.storeSwathCtrl s v) := by
  simp +contextual (maxDischargeDepth := 50) only [State.storeSwathCtrl, Kept.ite, Kept.modSwath, Kept.post, Kept.startSwath, hk]
@[simp] theorem Kept.storeSwathStatus {s : State} (v : Word) {r0 : State} (hk : Kept r0 s) : Kept r0 (State.storeSwathStatus s v) := by
  simp +contextual (maxDischargeDepth := 50) only [State.storeSwathStatus, Kept.ite, Kept.modSwath, hk]
theorem Kept.mbxRun {r0 s : State} (a : Agent) (code tag : Byte) (may : State → Bool) (k : State → Byte × State) (hf : ∀ t, Kept r0 t → Kept r0 (k t).2) (hk : Kept r0 s) :
    Kept r0 (s.mbxRun a code tag may k) := by
  have h1 : Kept r0 (if s.mbx.busy then s else (s.modMbx fun m => { m with busy := true, tag := tag, code := code }).post 0x230) := by simp (maxDischargeDepth := 50) [hk]
  unfold State.mbxRun; dsimp only; repeat' split
  all_goals first | exact hk | exact Kept.mbxEnd _ h1 | exact Kept.mbxEnd _ (hf _ h1) | exact hf _ h1 | simp_all (maxDischargeDepth := 50)
@[simp] theorem Kept.storeTile {s : State} (t : Int × Int) (replace : Bool) (data : List Byte) {r0 : State} (hk : Kept r0 s) : Kept r0 (State.storeTile s t replace data) := by
  unfold State.storeTile; exact Kept.modSwath _ (hk.withMem (fun h => by simp (maxDischargeDepth := 50) [h]))
@[simp] theorem Kept.tileLoad {s : State} {r0 : State} (hk : Kept r0 s) : Kept r0 (State.tileLoad s).2 := by
  unfold State.tileLoad; dsimp only; split
  · exact hk
  · exact Kept.ite (Kept.queueRecords _ (hk.storeTile _ _ _)) (hk.storeTile _ _ _)
@[simp] theorem Kept.tileTake {s : State} {r0 : State} (hk : Kept r0 s) : Kept r0 (State.tileTake s).2 := by
  unfold State.tileTake; dsimp only; split
  · exact hk
  · exact Kept.tileEvt (Kept.modSwath _ (hk.withMem (fun h => by simp (maxDischargeDepth := 50) [h])))
@[simp] theorem Kept.applyMark {s : State} (tx ty : Int) (row col : Byte) (len : Nat) {r0 : State} (hk : Kept r0 s) : Kept r0 (State.applyMark s tx ty row col len) := by
  simp +contextual (maxDischargeDepth := 50) only [State.applyMark, Kept.ite, Kept.forEach, Kept.markCell, Kept.queueRecords, hk, implies_true]
@[simp] theorem Kept.takeChunk {s : State} (tx ty : Int) (i : Fin 128) (data : List Byte) {r0 : State} (hk : Kept r0 s) : Kept r0 (State.takeChunk s tx ty i data) := by
  unfold State.takeChunk; (try dsimp only); repeat' split
  all_goals simp +contextual (maxDischargeDepth := 50) only [Kept.modTether, Kept.storeTile, hk]
@[simp] theorem Kept.commit {r0 s : State} (t : CoreId) (x : InFlight) (hk : Kept r0 s) : Kept r0 (s.commit t x) := by
  cases x <;> simp [State.commit, hk]
@[simp] theorem Kept.ageFlight {s : State} (t : CoreId) {r0 : State} (hk : Kept r0 s) : Kept r0 (State.ageFlight s t) := by
  simp +contextual (maxDischargeDepth := 50) only [State.ageFlight, Kept.modCore, Kept.forEach, Kept.commit, hk, implies_true]
@[simp] theorem Kept.flush {s : State} (t : CoreId) {r0 : State} (hk : Kept r0 s) : Kept r0 (State.flush s t) := by
  simp +contextual (maxDischargeDepth := 50) only [State.flush, Kept.modCore, Kept.forEach, Kept.commit, hk, implies_true]
@[simp] theorem Kept.takeTrap {s : State} (t : CoreId) (cause : Nat) (tpc : Word) (addr : Option Word) {r0 : State} (hk : Kept r0 s) : Kept r0 (State.takeTrap s t cause tpc addr) := by
  unfold State.takeTrap; (try dsimp only); repeat' split
  all_goals simp +contextual (maxDischargeDepth := 50) only [Kept.modCore, Kept.flush, hk]
@[simp] theorem Kept.goOn {s : State} (t : CoreId) (f : CoreState → CoreState) {r0 : State} (hk : Kept r0 s) : Kept r0 (State.goOn s t f) := by
  simp +contextual (maxDischargeDepth := 50) only [State.goOn, Kept.ite, Kept.modCore, hk]
@[simp] theorem Kept.begun {s : State} (t : CoreId) {r0 : State} (hk : Kept r0 s) : Kept r0 (State.begun s t) := by
  simp +contextual (maxDischargeDepth := 50) only [State.begun, Kept.modCore, Kept.ageFlight, hk]
theorem Kept.instr {r0 s : State} (t : CoreId) (bars : Bool) (f : State → InstrEnd) (hf : ∀ u, Kept r0 u → Kept r0 (f u).state) (hk : Kept r0 s) :
    Kept r0 (s.instr t bars f) := by
  unfold State.instr; dsimp only; split
  · exact hk
  · have hb := hk.begun t
    have hu := hf _ hb
    split
    · exact hb.takeTrap ..
    · refine Kept.ite (hb.takeTrap ..) (Kept.ite (hb.takeTrap ..) ?_)
      · split
        all_goals next he => rw [he] at hu; simp_all (maxDischargeDepth := 50) [InstrEnd.state]
@[simp] theorem Kept.coreInstr {s : State} (t : CoreId) (f : CoreState → CoreState) {r0 : State} (hk : Kept r0 s) : Kept r0 (State.coreInstr s t f) := by
  unfold State.coreInstr; exact hk.instr t false _ fun u hu => Kept.modCore t f hu
@[simp] theorem Kept.withdraw {s : State} (t : CoreId) (x : SourceId) {r0 : State} (hk : Kept r0 s) : Kept r0 (State.withdraw s t x) := by
  simp +contextual (maxDischargeDepth := 50) only [State.withdraw, Kept.ite, Kept.modIc, hk]
theorem Kept.claimEntry {r0 s : State} (t : CoreId) (fast : Bool) (x count : Nat) (k : State → State) (hf : Kept r0 (k s)) (hk : Kept r0 s) :
    Kept r0 (s.claimEntry t fast x count k) := by
  unfold State.claimEntry; dsimp only; repeat' split
  all_goals simp (maxDischargeDepth := 50) [hk, hf]
@[simp] theorem Kept.consume {s : State} (t : CoreId) (x : SourceId) {r0 : State} (hk : Kept r0 s) : Kept r0 (State.consume s t x) := by
  simp +contextual (maxDischargeDepth := 50) only [State.consume, Kept.modIc, Kept.modSrc, hk]
@[simp] theorem Kept.wakeIfReady {s : State} (t : CoreId) {r0 : State} (hk : Kept r0 s) : Kept r0 (State.wakeIfReady s t) := by
  simp +contextual (maxDischargeDepth := 50) only [State.wakeIfReady, Kept.ite, Kept.wakeCore, Kept.wakeGroup, hk]
@[simp] theorem Kept.wakePending {s : State} {r0 : State} (hk : Kept r0 s) : Kept r0 (State.wakePending s) := by
  simp +contextual (maxDischargeDepth := 50) only [State.wakePending, Kept.ite, Kept.forEach, Kept.wakeGroup, Kept.wakeIfReady, hk, implies_true]
@[simp] theorem Kept.ringDoorbell {s : State} (t : CoreId) (x : SourceId) {r0 : State} (hk : Kept r0 s) : Kept r0 (State.ringDoorbell s t x) := by
  simp +contextual (maxDischargeDepth := 50) only [State.ringDoorbell, Kept.ite, Kept.modIc, Kept.post, hk]
@[simp] theorem Kept.icClear {s : State} (a : Agent) (x : SourceId) {r0 : State} (hk : Kept r0 s) : Kept r0 (State.icClear s a x) := by
  unfold State.icClear; (try dsimp only); repeat' split
  all_goals simp +contextual (maxDischargeDepth := 50) only [Kept.modSrc, Kept.withdraw, hk]
@[simp] theorem Kept.overMask {s : State} (t : CoreId) (k : Fin 32) (m : Word) {r0 : State} (hk : Kept r0 s) : Kept r0 (State.overMask s t k m) := by
  simp +contextual (maxDischargeDepth := 50) only [State.overMask, Kept.modCore, hk]
@[simp] theorem Kept.moveSource {s : State} (from_ dst : CoreId) (x : SourceId) {r0 : State} (hk : Kept r0 s) : Kept r0 (State.moveSource s from_ dst x) := by
  simp +contextual (maxDischargeDepth := 50) only [State.moveSource, Kept.modIc, Kept.modSrc, Kept.withdraw, Kept.overMask, hk]
@[simp] theorem Kept.rewriteNow {s : State} (from_ dst : CoreId) (g : GroupId) (back : Bool) {r0 : State} (hk : Kept r0 s) : Kept r0 (State.rewriteNow s from_ dst g back) := by
  simp +contextual (maxDischargeDepth := 50) only [State.rewriteNow, Kept.modGroup, Kept.modIc, Kept.modSrc, Kept.modSup, Kept.forEach, Kept.post, Kept.wakeIfReady, Kept.moveSource, hk, implies_true]
@[simp] theorem Kept.rewrite {s : State} (from_ dst : CoreId) (g : GroupId) (back : Bool) {r0 : State} (hk : Kept r0 s) : Kept r0 (State.rewrite s from_ dst g back) := by
  simp +contextual (maxDischargeDepth := 50) only [State.rewrite, Kept.ite, Kept.modSup, Kept.rewriteNow, hk]
@[simp] theorem Kept.runRewrites {s : State} {r0 : State} (hk : Kept r0 s) : Kept r0 (State.runRewrites s) := by
  simp +contextual (maxDischargeDepth := 50) only [State.runRewrites, Kept.modSup, Kept.forEach, Kept.rewrite, hk, implies_true]
@[simp] theorem Kept.lockTake {s : State} (t : CoreId) {r0 : State} (hk : Kept r0 s) : Kept r0 (State.lockTake s t) := by
  simp +contextual (maxDischargeDepth := 50) only [State.lockTake, Kept.modIc, hk]
@[simp] theorem Kept.lockRelease {s : State} (t : CoreId) {r0 : State} (hk : Kept r0 s) : Kept r0 (State.lockRelease s t) := by
  simp +contextual (maxDischargeDepth := 50) only [State.lockRelease, Kept.modIc, Kept.runRewrites, hk]
@[simp] theorem Kept.restartIc {s : State} (t : CoreId) (shown : Option Bool) {r0 : State} (hk : Kept r0 s) : Kept r0 (State.restartIc s t shown) := by
  simp +contextual (maxDischargeDepth := 50) only [State.restartIc, Kept.modIc, Kept.withSrcs, Kept.runRewrites, hk]
@[simp] theorem Kept.readFuses {s : State} {r0 : State} (hk : Kept r0 s) : Kept r0 (State.readFuses s) := by
  unfold State.readFuses; (try dsimp only); repeat' split
  all_goals simp +contextual (maxDischargeDepth := 50) only [Kept.modDev, Kept.withSec, hk]
@[simp] theorem Kept.resetDevice {s : State} {r0 : State} (hk : Kept r0 s) : Kept r0 (State.resetDevice s) := ⟨hk.pending, rfl, hk.ok.2.1, fun l => by rw [show ((s.resetDevice).lane l).pd = {} from reset_lane_pd l]; exact reset_pd_ok⟩
@[simp] theorem Kept.powerReset {s : State} {r0 : State} (hk : Kept r0 s) : Kept r0 (State.powerReset s) := by
  simp +contextual (maxDischargeDepth := 50) only [State.powerReset, Kept.modSec, Kept.resetDevice, hk]
@[simp] theorem Kept.haltDevice {s : State} (cause : Nat) {r0 : State} (hk : Kept r0 s) : Kept r0 (State.haltDevice s cause) := by
  simp +contextual (maxDischargeDepth := 50) only [State.haltDevice, Kept.ite, Kept.modDev, Kept.modSup, Kept.modImage_store, Kept.forEach, Kept.mbxEnd, Kept.settle, Kept.leaveService, hk, implies_true]
@[simp] theorem Kept.burnWord {s : State} (i : Fin 512) (raw : BitVec 39) {r0 : State} (hk : Kept r0 s) : Kept r0 (State.burnWord s i raw) := by
  simp +contextual (maxDischargeDepth := 50) only [State.burnWord, Kept.modSec, hk]
@[simp] theorem Kept.burnAt {s : State} (i : Nat) (raw : BitVec 39) {r0 : State} (hk : Kept r0 s) : Kept r0 (State.burnAt s i raw) := by
  unfold State.burnAt; repeat' split
  all_goals simp +contextual (maxDischargeDepth := 50) only [Kept.burnWord, hk]
theorem Kept.burnWords {r0 s : State} (done : Nat) (ws : List (Nat × Word)) (mvs : List Nat) (reads : List VerifyRead) (hk : Kept r0 s) : Kept r0 (s.burnWords done ws mvs reads).2 := by
  induction ws generalizing s done mvs reads with
  | nil => exact hk
  | cons w ws ih =>
    unfold State.burnWords; dsimp only; repeat' split
    all_goals first | exact hk | exact ih _ _ _ (hk.burnAt _ _) | (dsimp only; exact Kept.modSec _ (hk.burnAt _ _))
@[simp] theorem Kept.fuseProgram {s : State} (mvs : List Nat) (reads : List VerifyRead) {r0 : State} (hk : Kept r0 s) : Kept r0 (State.fuseProgram s mvs reads).2 := by
  unfold State.fuseProgram; dsimp only; split
  · exact hk
  · have hp := Kept.burnWords 0 (burnList s) mvs.tail reads hk
    have h1 : Kept r0 (if bitOf s.mbx.arg[2] 0 then { (s.burnWords 0 (burnList s) mvs.tail reads).2 with mem := memClear (s.burnWords 0 (burnList s) mvs.tail reads).2.mem mbxBuf (mbxBuf + 32) } else (s.burnWords 0 (burnList s) mvs.tail reads).2) :=
      Kept.ite (hp.withMem (fun h => by simp (maxDischargeDepth := 50) [h])) hp
    have h2 : Kept r0 (match (s.burnWords 0 (burnList s) mvs.tail reads).1.res0 with | some v => State.modMbx (if bitOf s.mbx.arg[2] 0 then { (s.burnWords 0 (burnList s) mvs.tail reads).2 with mem := memClear (s.burnWords 0 (burnList s) mvs.tail reads).2.mem mbxBuf (mbxBuf + 32) } else (s.burnWords 0 (burnList s) mvs.tail reads).2) (fun m => { m with res0 := BitVec.ofNat 32 v }) | none => (if bitOf s.mbx.arg[2] 0 then { (s.burnWords 0 (burnList s) mvs.tail reads).2 with mem := memClear (s.burnWords 0 (burnList s) mvs.tail reads).2.mem mbxBuf (mbxBuf + 32) } else (s.burnWords 0 (burnList s) mvs.tail reads).2)) := by
      split
      · exact h1.modMbx _
      · exact h1
    split
    · exact h2
    · exact (h2.log 0x0802 .device 0 0 0 0).post 0x241
@[simp] theorem Kept.cutBurn {s : State} {r0 : State} (hk : Kept r0 s) : Kept r0 (State.cutBurn s) := by
  unfold State.cutBurn; (try dsimp only); repeat' split
  all_goals simp +contextual (maxDischargeDepth := 50) only [Kept.forEach, Kept.free, Kept.burnAt, hk, implies_true]
@[simp] theorem Kept.alarmNoted {s : State} (a : AlarmSource) {r0 : State} (hk : Kept r0 s) : Kept r0 (State.alarmNoted s a) := by
  simp +contextual (maxDischargeDepth := 50) only [State.alarmNoted, Kept.modSec, Kept.post, Kept.irq, Kept.log, hk]
@[simp] theorem Kept.recallCut {s : State} (a : AlarmSource) {r0 : State} (hk : Kept r0 s) : Kept r0 (State.recallCut s a) := by
  unfold State.recallCut; repeat' split
  all_goals simp +contextual (maxDischargeDepth := 50) only [Kept.modSec, Kept.log, hk]
@[simp] theorem Kept.zeroise {s : State} {r0 : State} (hk : Kept r0 s) : Kept r0 (State.zeroise s) := by
  simp +contextual (maxDischargeDepth := 50) only [State.zeroise, Kept.modSec, Kept.log, hk]
@[simp] theorem Kept.blowKill {s : State} {r0 : State} (hk : Kept r0 s) : Kept r0 (State.blowKill s) := by
  simp +contextual (maxDischargeDepth := 50) only [State.blowKill, Kept.ite, Kept.modSec, Kept.log, hk]
@[simp] theorem Kept.alarm {s : State} (a : AlarmSource) {r0 : State} (hk : Kept r0 s) : Kept r0 (State.alarm s a) := by
  have h := (hk.recallCut a).alarmNoted a
  unfold State.alarm; dsimp only; repeat' split
  · exact hk
  · exact h
  · exact h.cutBurn.resetDevice.readFuses.modSec _
  · exact Kept.haltDevice _ h.zeroise
  · exact Kept.haltDevice _ h.zeroise.blowKill
@[simp] theorem Kept.redetect {s0 : State} {r0 : State} (hk : Kept r0 s0) : Kept r0 (State.redetect s0) := by
  simp +contextual (maxDischargeDepth := 50) only [State.redetect, Kept.ite, Kept.modSec, Kept.forEach, Kept.free, Kept.alarm, hk, implies_true]
@[simp] theorem Kept.auditWord (reads : List MarginRead) {s : State} (i : Fin 512) {r0 : State} (hk : Kept r0 s) : Kept r0 (State.auditWord reads s i) := by
  unfold State.auditWord; (try dsimp only); repeat' split
  all_goals simp +contextual (maxDischargeDepth := 50) only [Kept.modSec, Kept.log, hk]
@[simp] theorem Kept.auditAll {s : State} (reads : List MarginRead) {r0 : State} (hk : Kept r0 s) : Kept r0 (State.auditAll s reads).2 := by
  simp +contextual (maxDischargeDepth := 50) only [State.auditAll, Kept.modSec, Kept.modMbx, Kept.forEach, Kept.post, Kept.auditWord, hk, implies_true]
@[simp] theorem Kept.measVprog {s : State} (mv : BitVec 12) {r0 : State} (hk : Kept r0 s) : Kept r0 (State.measVprog s mv) := by
  simp +contextual (maxDischargeDepth := 50) only [State.measVprog, Kept.modSec, hk]
@[simp] theorem Kept.dbgAttempt {s : State} (v : Word) {r0 : State} (hk : Kept r0 s) : Kept r0 (State.dbgAttempt s v) := by
  simp +contextual (maxDischargeDepth := 50) only [State.dbgAttempt, Kept.ite, Kept.modSec, Kept.log, Kept.alarm, hk]
@[simp] theorem Kept.relockDebug {s : State} {r0 : State} (hk : Kept r0 s) : Kept r0 (State.relockDebug s) := by
  simp +contextual (maxDischargeDepth := 50) only [State.relockDebug, Kept.modSec, hk]
@[simp] theorem Kept.storePolicy {s : State} (v : Word) {r0 : State} (hk : Kept r0 s) : Kept r0 (State.storePolicy s v) := by
  simp +contextual (maxDischargeDepth := 50) only [State.storePolicy, Kept.modSec, hk]
@[simp] theorem Kept.storeSecCtrl {s : State} (v : Word) {r0 : State} (hk : Kept r0 s) : Kept r0 (State.storeSecCtrl s v) := by
  simp +contextual (maxDischargeDepth := 50) only [State.storeSecCtrl, Kept.ite, Kept.modSec, hk]
@[simp] theorem Kept.validateEntry {s : State} (t : CoreId) (k : Fin 16) {r0 : State} (hk : Kept r0 s) : Kept r0 (State.validateEntry s t k) := by
  simp +contextual (maxDischargeDepth := 50) only [State.validateEntry, Kept.modCore, hk]
@[simp] theorem Kept.storeDec {s : State} (a : Agent) (t : CoreId) (v : Word) {r0 : State} (hk : Kept r0 s) : Kept r0 (State.storeDec s a t v) := by
  unfold State.storeDec; (try dsimp only); repeat' split
  all_goals simp +contextual (maxDischargeDepth := 50) only [Kept.ite, Kept.modCore, Kept.forEach, Kept.validateEntry, hk, implies_true]
@[simp] theorem Kept.storeImage {s : State} (o : Nat) (data : List Byte) {r0 : State} (hk : Kept r0 s) : Kept r0 (State.storeImage s o data) := by
  unfold State.storeImage; exact hk.modImage _ fun h => memWriteList_wf _ _ h
@[simp] theorem Kept.authFailure {s : State} {r0 : State} (hk : Kept r0 s) : Kept r0 (State.authFailure s) := by
  simp +contextual (maxDischargeDepth := 50) only [State.authFailure, Kept.ite, Kept.modImage_store, Kept.alarm, hk, implies_true]
@[simp] theorem Kept.writeFailure {s : State} {r0 : State} (hk : Kept r0 s) : Kept r0 (State.writeFailure s) := by
  simp +contextual (maxDischargeDepth := 50) only [State.writeFailure, Kept.log, Kept.authFailure, hk]
@[simp] theorem Kept.finishWrite {s : State} (readsBack : Bool) {r0 : State} (hk : Kept r0 s) : Kept r0 (State.finishWrite s readsBack).2 := by
  unfold State.finishWrite; (try dsimp only); repeat' split
  all_goals simp +contextual (maxDischargeDepth := 50) only [Kept.modDev, Kept.modImage_store, Kept.log, Kept.storeImage, Kept.writeFailure, hk, implies_true]
@[simp] theorem Kept.reportAccepted {s : State} {r0 : State} (hk : Kept r0 s) : Kept r0 (State.reportAccepted s) := by
  simp +contextual (maxDischargeDepth := 50) only [State.reportAccepted, Kept.modMbx, hk]
@[simp] theorem Kept.takeImage {s : State} (readsBack : Bool) {r0 : State} (hk : Kept r0 s) : Kept r0 (State.takeImage s readsBack).2 := by
  unfold State.takeImage; (try dsimp only); repeat' split
  all_goals simp +contextual (maxDischargeDepth := 50) only [Kept.modImage_store, Kept.storeImage, Kept.finishWrite, Kept.reportAccepted, hk, implies_true]
@[simp] theorem Kept.imageWrite (readsBack : Bool) {s : State} {r0 : State} (hk : Kept r0 s) : Kept r0 (State.imageWrite readsBack s).2 := by
  unfold State.imageWrite; (try dsimp only); repeat' split
  all_goals simp +contextual (maxDischargeDepth := 50) only [Kept.modImage_store, Kept.writeFailure, Kept.reportAccepted, Kept.takeImage, hk, implies_true]
@[simp] theorem Kept.clockGroup {s : State} (t : CoreId) {r0 : State} (hk : Kept r0 s) : Kept r0 (State.clockGroup s t) := by
  unfold State.clockGroup; repeat' split
  all_goals simp +contextual (maxDischargeDepth := 50) only [Kept.modGroup, hk]
@[simp] theorem Kept.startCore {s : State} (t : CoreId) (rcause : Nat) {r0 : State} (hk : Kept r0 s) : Kept r0 (State.startCore s t rcause) := by
  simp +contextual (maxDischargeDepth := 50) only [State.startCore, Kept.modCore, Kept.restartIc, Kept.clockGroup, hk]
@[simp] theorem Kept.loadSection (body : List Byte) (t : CoreId) {s : State} (x : Section) {r0 : State} (hk : Kept r0 s) : Kept r0 (State.loadSection body t s x) := by
  unfold State.loadSection; dsimp only; repeat' split
  all_goals first | exact hk | exact Kept.validateEntry _ _ (Kept.modCore _ _ (hk.withMem (fun h => by simp (maxDischargeDepth := 50) [h]))) | exact Kept.modCore _ _ (hk.withMem (fun h => by simp (maxDischargeDepth := 50) [h])) | exact hk.withMem (fun h => by simp (maxDischargeDepth := 50) [h])
@[simp] theorem Kept.loadCore {s : State} (body : List Byte) (t : CoreId) {r0 : State} (hk : Kept r0 s) : Kept r0 (State.loadCore s body t) := by
  unfold State.loadCore; exact Kept.forEach _ (fun u hu x => Kept.loadSection _ _ _ hu) (Kept.modCore _ _ (hk.withMem (fun h => by simp (maxDischargeDepth := 50) [h])))
@[simp] theorem Kept.reloadCore {s : State} (body : List Byte) (t : CoreId) (rcause : Nat) {r0 : State} (hk : Kept r0 s) : Kept r0 (State.reloadCore s body t rcause) := by
  simp +contextual (maxDischargeDepth := 50) only [State.reloadCore, Kept.startCore, Kept.loadCore, hk]
@[simp] theorem Kept.loadShared {s : State} (body : List Byte) {r0 : State} (hk : Kept r0 s) : Kept r0 (State.loadShared s body) := by
  unfold State.loadShared; refine Kept.forEach _ (fun u hu x => ?_) hk
  split
  · exact hu.withMem (fun h => by simp (maxDischargeDepth := 50) [h])
  · exact hu
@[simp] theorem Kept.baseRoutes {s : State} {r0 : State} (hk : Kept r0 s) : Kept r0 (State.baseRoutes s) := by
  unfold State.baseRoutes; split
  · exact hk
  · exact Kept.forEach _ (fun u hu x => Kept.forEach _ (fun v hv y => hv.withMem (fun h => by simp (maxDischargeDepth := 50) [h])) hu) (hk.modSrc _ _)
@[simp] theorem Kept.imageRuns {s : State} {r0 : State} (hk : Kept r0 s) : Kept r0 (State.imageRuns s) := by
  simp +contextual (maxDischargeDepth := 50) only [State.imageRuns, Kept.modImage_store, hk, implies_true]
@[simp] theorem Kept.setTimeLock {s : State} (v : Bool) {r0 : State} (hk : Kept r0 s) : Kept r0 (State.setTimeLock s v) := by
  simp +contextual (maxDischargeDepth := 50) only [State.setTimeLock, Kept.ite, Kept.modTether, Kept.log, hk]
@[simp] theorem Kept.tunnelLost {s : State} {r0 : State} (hk : Kept r0 s) : Kept r0 (State.tunnelLost s) := by
  unfold State.tunnelLost; (try dsimp only); repeat' split
  all_goals simp +contextual (maxDischargeDepth := 50) only [Kept.modTether, Kept.mbxEnd, hk]
@[simp] theorem Kept.hitchChanged {s0 : State} {r0 : State} (hk : Kept r0 s0) : Kept r0 (State.hitchChanged s0) := by
  simp +contextual (maxDischargeDepth := 50) only [State.hitchChanged, Kept.post, Kept.irq, Kept.log, Kept.testVersion, Kept.tunnelLost, hk]
@[simp] theorem Kept.becomeHitch {s : State} (frames : Nat) {r0 : State} (hk : Kept r0 s) : Kept r0 (State.becomeHitch s frames) := by
  simp +contextual (maxDischargeDepth := 50) only [State.becomeHitch, Kept.modTether, Kept.setTimeLock, Kept.hitchChanged, hk]
@[simp] theorem Kept.takeRole {s : State} {r0 : State} (hk : Kept r0 s) : Kept r0 (State.takeRole s) := by
  simp +contextual (maxDischargeDepth := 50) only [State.takeRole, Kept.ite, Kept.modTether, Kept.keepCarriers, Kept.becomeHitch, hk]
@[simp] theorem Kept.linkChanged {s : State} {r0 : State} (hk : Kept r0 s) : Kept r0 (State.linkChanged s) := by
  simp +contextual (maxDischargeDepth := 50) only [State.linkChanged, Kept.post, Kept.irq, Kept.log, hk]
@[simp] theorem Kept.acquire {s : State} (p : Port) (nb : Neighbour) {r0 : State} (hk : Kept r0 s) : Kept r0 (State.acquire s p nb) := by
  simp +contextual (maxDischargeDepth := 50) only [State.acquire, Kept.ite, Kept.modDev, Kept.modTether, Kept.log, hk]
@[simp] theorem Kept.storeTetherCtrl {s : State} (v : Word) {r0 : State} (hk : Kept r0 s) : Kept r0 (State.storeTetherCtrl s v) := by
  simp +contextual (maxDischargeDepth := 50) only [State.storeTetherCtrl, Kept.ite, Kept.modTether, Kept.testVersion, hk]
@[simp] theorem Kept.adjustRate {s : State} (frames : Int) {r0 : State} (hk : Kept r0 s) : Kept r0 (State.adjustRate s frames) := by
  simp +contextual (maxDischargeDepth := 50) only [State.adjustRate, Kept.modTether, Kept.free, hk]
@[simp] theorem Kept.takeTime {s : State} (f : DownFrame) {r0 : State} (hk : Kept r0 s) : Kept r0 (State.takeTime s f) := by
  unfold State.takeTime; repeat' split
  all_goals simp +contextual (maxDischargeDepth := 50) only [Kept.modTether, Kept.adjustRate, hk]
@[simp] theorem Kept.noteSilence {s : State} {r0 : State} (hk : Kept r0 s) : Kept r0 (State.noteSilence s) := by
  simp +contextual (maxDischargeDepth := 50) only [State.noteSilence, Kept.modTether, hk]
@[simp] theorem Kept.sendUp {s0 : State} (f : UpFrame) {r0 : State} (hk : Kept r0 s0) : Kept r0 (State.sendUp s0 f) := by
  unfold State.sendUp; (try dsimp only); repeat' split
  all_goals simp +contextual (maxDischargeDepth := 50) only [Kept.modTether, hk]
@[simp] theorem Kept.raiseGroup {s : State} (g : GroupId) {r0 : State} (hk : Kept r0 s) : Kept r0 (State.raiseGroup s g) := by
  simp +contextual (maxDischargeDepth := 50) only [State.raiseGroup, Kept.forEach, Kept.raiseAr, hk, implies_true]
@[simp] theorem Kept.askAgain {s : State} (l : LaneId) {r0 : State} (hk : Kept r0 s) : Kept r0 (State.askAgain s l) := by
  unfold State.askAgain; (try dsimp only); repeat' split
  all_goals simp +contextual (maxDischargeDepth := 50) only [Kept.modPd, Kept.onSourceCaps, hk, implies_true]
@[simp] theorem Kept.readHead {s : State} (l : LaneId) (f : Frame) {r0 : State} (hk : Kept r0 s) : Kept r0 (State.readHead s l f) := by
  have k1 : Kept r0 (s.takeNewest l) := hk.takeNewest l
  unfold State.readHead; dsimp only; revert k1
  generalize s.takeNewest l = t
  intro k1; repeat' with_reducible refine Kept.ite ?_ ?_
  all_goals first
    | with_reducible exact k1
    | with_reducible exact Kept.takeAnswer l f hk
    | with_reducible exact Kept.onSinkCaps l f k1
    | with_reducible exact Kept.onBattery l f k1
    | with_reducible exact Kept.onEprMode l f k1
    | with_reducible exact Kept.onSourceCaps l f k1
    | with_reducible exact Kept.imageSend l false (ctl 16) k1
    | with_reducible exact Kept.sinkContract l k1
    | with_reducible exact Kept.seqAnswer l f k1
    | with_reducible exact Kept.exitUrkai l k1
    | with_reducible exact Kept.onHoldSet l f k1
    | with_reducible exact Kept.onRecCommit l f k1
@[simp] theorem Kept.readFifo {s : State} (l : LaneId) {r0 : State} (hk : Kept r0 s) : Kept r0 (State.readFifo s l) := by
  unfold State.readFifo; split
  · refine Kept.forEach _ (fun u hu r => ?_) hk
    split
    · next hr =>
      refine Kept.readHead _ _ (hu.modPd_at l _ fun h => ⟨?_, h.2⟩)
      have hl := h.1
      cases hf : (u.lane l).pd.fifo with
      | nil => rw [hf] at hr; cases hr
      | cons a as => rw [hf] at hl; simpa using hl
    · exact hu
  · exact hk
@[simp] theorem Kept.owedWrites {s : State} (l : LaneId) {r0 : State} (hk : Kept r0 s) : Kept r0 (State.owedWrites s l) := by
  simp +contextual (maxDischargeDepth := 50) only [State.owedWrites, Kept.ite, Kept.modCon, Kept.modSwap, Kept.stopStage, Kept.baseLimits, hk]
@[simp] theorem Kept.resume {s : State} (l : LaneId) {r0 : State} (hk : Kept r0 s) : Kept r0 (State.resume s l) := by
  simp +contextual (maxDischargeDepth := 50) only [State.resume, Kept.ite, Kept.dropAr, Kept.startDiscovery, Kept.psReady, Kept.recNext, Kept.armResume, Kept.capsResume, Kept.firstCaps, Kept.freezePackWrite, Kept.repostSection, Kept.askAgain, Kept.readFifo, Kept.owedWrites, hk]
@[simp] theorem Kept.takeGroup {s : State} (g : GroupId) {r0 : State} (hk : Kept r0 s) : Kept r0 (State.takeGroup s g) := by
  simp +contextual (maxDischargeDepth := 50) only [State.takeGroup, Kept.ite, Kept.modGroup, Kept.forEach, Kept.logSw, Kept.enterUnattached, Kept.resume, hk, implies_true]
@[simp] theorem Kept.startReturn {s : State} (g : GroupId) {r0 : State} (hk : Kept r0 s) : Kept r0 (State.startReturn s g) := by
  simp +contextual (maxDischargeDepth := 50) only [State.startReturn, Kept.modGroup, Kept.post, Kept.raiseGroup, hk]
@[simp] theorem Kept.finishReturn {s : State} (g : GroupId) {r0 : State} (hk : Kept r0 s) : Kept r0 (State.finishReturn s g) := by
  simp +contextual (maxDischargeDepth := 50) only [State.finishReturn, Kept.ite, Kept.rewrite, hk]
@[simp] theorem Kept.beatCore {s : State} (t : CoreId) {r0 : State} (hk : Kept r0 s) : Kept r0 (State.beatCore s t) := by
  simp +contextual (maxDischargeDepth := 50) only [State.beatCore, Kept.modCore, hk]
@[simp] theorem Kept.orphanGroup {s : State} (g : GroupId) {r0 : State} (hk : Kept r0 s) : Kept r0 (State.orphanGroup s g) := by
  simp +contextual (maxDischargeDepth := 50) only [State.orphanGroup, Kept.modGroup, Kept.raiseGroup, hk]
@[simp] theorem Kept.splice {s : State} (g : GroupId) {r0 : State} (hk : Kept r0 s) : Kept r0 (State.splice s g) := by
  simp +contextual (maxDischargeDepth := 50) only [State.splice, Kept.modGroup, Kept.rewrite, Kept.raiseGroup, hk]
@[simp] theorem Kept.loseGroups {s : State} (g : GroupId) {r0 : State} (hk : Kept r0 s) : Kept r0 (State.loseGroups s g) := by
  simp +contextual (maxDischargeDepth := 50) only [State.loseGroups, Kept.ite, Kept.forEach, Kept.orphanGroup, Kept.splice, hk, implies_true]
@[simp] theorem Kept.judgeOut {s : State} (t : CoreId) {r0 : State} (hk : Kept r0 s) : Kept r0 (State.judgeOut s t) := by
  simp +contextual (maxDischargeDepth := 50) only [State.judgeOut, Kept.ite, Kept.modCore, Kept.irq, Kept.logFlags, hk]
@[simp] theorem Kept.attemptFailed {s : State} (cause : BitVec 4) {r0 : State} (hk : Kept r0 s) : Kept r0 (State.attemptFailed s cause).2 := by
  unfold State.attemptFailed; (try dsimp only); repeat' split
  all_goals simp +contextual (maxDischargeDepth := 50) only [Kept.modSup, Kept.withCores, Kept.log, Kept.haltDevice, hk]
@[simp] theorem Kept.wardenTry {r0 s : State} (n : Nat) (hk : Kept r0 s) : Kept r0 (s.wardenTry n) := by
  induction n generalizing s with
  | zero => exact hk
  | succ n ih =>
    unfold State.wardenTry; dsimp only; repeat' split
    all_goals first | (refine ih ?_) | skip
    all_goals simp +contextual (maxDischargeDepth := 50) [hk]
@[simp] theorem Kept.wardenFail {s : State} (cause : BitVec 4) {r0 : State} (hk : Kept r0 s) : Kept r0 (State.wardenFail s cause) := by
  simp +contextual (maxDischargeDepth := 50) only [State.wardenFail, Kept.ite, Kept.attemptFailed, Kept.wardenTry, hk]
@[simp] theorem Kept.sleepAgain {s : State} {r0 : State} (hk : Kept r0 s) : Kept r0 (State.sleepAgain s) := by
  simp +contextual (maxDischargeDepth := 50) only [State.sleepAgain, Kept.ite, Kept.modGroup, Kept.modDev, Kept.forEach, hk, implies_true]
@[simp] theorem Kept.wardenEnd {s : State} (st : DevState) {r0 : State} (hk : Kept r0 s) : Kept r0 (State.wardenEnd s st) := by
  simp +contextual (maxDischargeDepth := 50) only [State.wardenEnd, Kept.ite, Kept.modDev, Kept.modSup, Kept.modImage_store, Kept.forEach, Kept.log, Kept.mbxEnd, Kept.applySetpoints, Kept.tryAttach, Kept.versionMoved, Kept.resume, Kept.sleepAgain, hk, implies_true]
@[simp] theorem Kept.restartCore {s : State} (t : CoreId) {r0 : State} (hk : Kept r0 s) : Kept r0 (State.restartCore s t) := by
  unfold State.restartCore; (try dsimp only); repeat' split
  all_goals simp +contextual (maxDischargeDepth := 50) only [Kept.modCore, Kept.modImage_store, Kept.forEach, Kept.logSw, Kept.mbxEnd, Kept.reloadCore, Kept.raiseGroup, hk, implies_true]
@[simp] theorem Kept.storeCoreRst {s : State} (a : Agent) (v : Word) {r0 : State} (hk : Kept r0 s) : Kept r0 (State.storeCoreRst s a v) := by
  unfold State.storeCoreRst; (try dsimp only); repeat' split
  all_goals simp +contextual (maxDischargeDepth := 50) only [Kept.ite, Kept.forEach, Kept.restartCore, hk, implies_true]
@[simp] theorem Kept.miss {s : State} (t : CoreId) {r0 : State} (hk : Kept r0 s) : Kept r0 (State.miss s t) := by
  unfold State.miss; (try dsimp only); repeat' split
  all_goals simp +contextual (maxDischargeDepth := 50) only [Kept.modCore, Kept.post, Kept.log, Kept.loseGroups, Kept.judgeOut, Kept.wardenFail, hk]
@[simp] theorem Kept.protoEnd {s : State} (l : LaneId) {r0 : State} (hk : Kept r0 s) : Kept r0 (State.protoEnd s l) := by
  simp +contextual (maxDischargeDepth := 50) only [State.protoEnd, Kept.ite, Kept.modFw, Kept.enterUnattached, hk]
@[simp] theorem Kept.coreCorrected {s : State} (t : CoreId) {r0 : State} (hk : Kept r0 s) : Kept r0 (State.coreCorrected s t) := by
  simp +contextual (maxDischargeDepth := 50) only [State.coreCorrected, Kept.ite, Kept.modCore, Kept.logFlags, hk]
@[simp] theorem Kept.markBad {s : State} (t : CoreId) (host : Nat) {r0 : State} (hk : Kept r0 s) : Kept r0 (State.markBad s t host) := by
  simp +contextual (maxDischargeDepth := 50) only [State.markBad, Kept.modCore, hk]
@[simp] theorem Kept.freeSample {s : State} {r0 : State} (hk : Kept r0 s) : Kept r0 (State.freeSample s).2 := by
  simp +contextual (maxDischargeDepth := 50) only [State.freeSample, Kept.free, hk]
@[simp] theorem Kept.eccError {s : State} (site : EccSite) (double : Bool) {r0 : State} (hk : Kept r0 s) : Kept r0 (State.eccError s site double) := by
  unfold State.eccError; (try dsimp only); repeat' split
  all_goals simp +contextual (maxDischargeDepth := 50) only [Kept.modSwath, Kept.modSup, Kept.modConv, Kept.free, Kept.log, Kept.endHead, Kept.coreCorrected, Kept.markBad, Kept.freeSample, hk]
@[simp] theorem Kept.activateCore {s : State} (t : CoreId) {r0 : State} (hk : Kept r0 s) : Kept r0 (State.activateCore s t) := by
  simp +contextual (maxDischargeDepth := 50) only [State.activateCore, Kept.modImage_store, Kept.forEach, Kept.reloadCore, Kept.raiseGroup, hk, implies_true]
@[simp] theorem Kept.activateEnd {s : State} {r0 : State} (hk : Kept r0 s) : Kept r0 (State.activateEnd s) := by
  simp +contextual (maxDischargeDepth := 50) only [State.activateEnd, Kept.ite, Kept.modMbx, Kept.modImage_store, Kept.log, Kept.mbxEnd, Kept.versionMoved, hk, implies_true]
@[simp] theorem Kept.noteCheck {s : State} (src dry : Bool) (lane : Nat) (fs : List CheckFail) {r0 : State} (hk : Kept r0 s) : Kept r0 (State.noteCheck s src dry lane fs) := by
  simp +contextual (maxDischargeDepth := 50) only [State.noteCheck, Kept.ite, Kept.modDev, Kept.irq, hk]
@[simp] theorem Kept.isolateLane {s : State} (l : LaneId) {r0 : State} (hk : Kept r0 s) : Kept r0 (State.isolateLane s l) := by
  simp +contextual (maxDischargeDepth := 50) only [State.isolateLane, Kept.ite, Kept.modCc, Kept.modBelay, Kept.tripPath, Kept.sampleCause, hk]
@[simp] theorem Kept.loseLink {s : State} (g : GroupId) {r0 : State} (hk : Kept r0 s) : Kept r0 (State.loseLink s g) := by
  simp +contextual (maxDischargeDepth := 50) only [State.loseLink, Kept.modGroup, Kept.forEach, Kept.isolateLane, hk, implies_true]
@[simp] theorem Kept.deferredSteps {s : State} (l : LaneId) {r0 : State} (hk : Kept r0 s) : Kept r0 (State.deferredSteps s l) := by
  simp +contextual (maxDischargeDepth := 50) only [State.deferredSteps, Kept.ite, Kept.modBelay, Kept.voidArm, Kept.tripRecord, hk]
@[simp] theorem Kept.enterRunOn {s : State} (ports : LaneId → Bool) {r0 : State} (hk : Kept r0 s) : Kept r0 (State.enterRunOn s ports) := by
  simp +contextual (maxDischargeDepth := 50) only [State.enterRunOn, Kept.modDev, Kept.modLane_pd, Kept.forEach, Kept.enterUnattached, Kept.claimCounters, Kept.startGs, Kept.takeRole, hk, implies_true]
@[simp] theorem Kept.runCheck {s : State} (watch : Bool) {r0 : State} (hk : Kept r0 s) : Kept r0 (State.runCheck s watch) := by
  simp +contextual (maxDischargeDepth := 50) only [State.runCheck, Kept.ite, Kept.modDev, Kept.noteCheck, Kept.enterRunOn, hk]
@[simp] theorem Kept.startCheck {s : State} (watch : Bool) {r0 : State} (hk : Kept r0 s) : Kept r0 (State.startCheck s watch) := by
  simp +contextual (maxDischargeDepth := 50) only [State.startCheck, Kept.modDev, hk]
@[simp] theorem Kept.dropLane {s : State} (l : LaneId) {r0 : State} (hk : Kept r0 s) : Kept r0 (State.dropLane s l) := by
  simp +contextual (maxDischargeDepth := 50) only [State.dropLane, Kept.ite, Kept.modLane_pd, Kept.leaveService, hk, implies_true]
@[simp] theorem Kept.laneCheck {s : State} (l : LaneId) {r0 : State} (hk : Kept r0 s) : Kept r0 (State.laneCheck s l) := by
  simp +contextual (maxDischargeDepth := 50) only [State.laneCheck, Kept.ite, Kept.modLane_pd, Kept.modCfg, Kept.enterUnattached, Kept.noteCheck, Kept.dropLane, hk, implies_true]
@[simp] theorem Kept.followPort {s : State} (l : LaneId) {r0 : State} (hk : Kept r0 s) : Kept r0 (State.followPort s l) := by
  simp +contextual (maxDischargeDepth := 50) only [State.followPort, Kept.ite, Kept.dropLane, Kept.laneCheck, hk]
@[simp] theorem Kept.storeLaneCtrl {s : State} (l : LaneId) (v : Word) {r0 : State} (hk : Kept r0 s) : Kept r0 (State.storeLaneCtrl s l v) := by
  simp +contextual (maxDischargeDepth := 50) only [State.storeLaneCtrl, Kept.ite, Kept.modCfg, Kept.noteCheck, Kept.laneCheck, Kept.followPort, hk]
@[simp] theorem Kept.endCheck {s : State} (j : CheckJob) {r0 : State} (hk : Kept r0 s) : Kept r0 (State.endCheck s j) := by
  simp +contextual (maxDischargeDepth := 50) only [State.endCheck, Kept.ite, Kept.modDev, Kept.forEach, Kept.noteCheck, Kept.enterRunOn, Kept.followPort, hk, implies_true]
@[simp] theorem Kept.stopRun {s : State} {r0 : State} (hk : Kept r0 s) : Kept r0 (State.stopRun s) := by
  simp +contextual (maxDischargeDepth := 50) only [State.stopRun, Kept.modDev, Kept.forEach, Kept.releaseCounters, Kept.settle, Kept.leaveService, hk, implies_true]
@[simp] theorem Kept.startWatch {s : State} {r0 : State} (hk : Kept r0 s) : Kept r0 (State.startWatch s) := by
  simp +contextual (maxDischargeDepth := 50) only [State.startWatch, Kept.modDev, Kept.modCc, Kept.forEach, Kept.leaveService, hk, implies_true]
@[simp] theorem Kept.openPins {s : State} {r0 : State} (hk : Kept r0 s) : Kept r0 (State.openPins s) := by
  simp +contextual (maxDischargeDepth := 50) only [State.openPins, Kept.modCc, Kept.forEach, hk, implies_true]
@[simp] theorem Kept.watchToReady {s : State} {r0 : State} (hk : Kept r0 s) : Kept r0 (State.watchToReady s) := by
  simp +contextual (maxDischargeDepth := 50) only [State.watchToReady, Kept.modDev, Kept.modSwath, Kept.enterReady, Kept.wakePending, Kept.openPins, hk]
@[simp] theorem Kept.watchToRun {s : State} {r0 : State} (hk : Kept r0 s) : Kept r0 (State.watchToRun s) := by
  simp +contextual (maxDischargeDepth := 50) only [State.watchToRun, Kept.ite, Kept.modDev, Kept.modSwath, Kept.forEach, Kept.enterUnattached, Kept.wakePending, Kept.takeRole, Kept.followPort, hk, implies_true]
@[simp] theorem Kept.actCtrl {s : State} (watch : Bool) {r0 : State} (hk : Kept r0 s) : Kept r0 (State.actCtrl s watch) := by
  unfold State.actCtrl; repeat' split
  all_goals simp +contextual (maxDischargeDepth := 50) only [Kept.modDev, Kept.runCheck, Kept.endCheck, Kept.stopRun, Kept.startWatch, Kept.watchToReady, Kept.watchToRun, hk]
@[simp] theorem Kept.storeDevCtrl {s : State} (v : Word) {r0 : State} (hk : Kept r0 s) : Kept r0 (State.storeDevCtrl s v) := by
  simp +contextual (maxDischargeDepth := 50) only [State.storeDevCtrl, Kept.ite, Kept.modDev, Kept.actCtrl, hk]
@[simp] theorem Kept.writeDevCtrl {s : State} (v : Word) {r0 : State} (hk : Kept r0 s) : Kept r0 (State.writeDevCtrl s v) := by
  simp +contextual (maxDischargeDepth := 50) only [State.writeDevCtrl, Kept.ite, Kept.modDev, Kept.startCheck, Kept.storeDevCtrl, hk]
@[simp] theorem Kept.loseMap {s : State} {r0 : State} (hk : Kept r0 s) : Kept r0 (State.loseMap s) := by
  unfold State.loseMap; exact Kept.modSwath _ (Kept.dropTiles (hk.withMem (fun h => by simp (maxDischargeDepth := 50) [h])))
@[simp] theorem Kept.enterWatch {s : State} {r0 : State} (hk : Kept r0 s) : Kept r0 (State.enterWatch s) := by
  simp +contextual (maxDischargeDepth := 50) only [State.enterWatch, Kept.ite, Kept.modGroup, Kept.modDev, Kept.modTether, Kept.modCc, Kept.forEach, Kept.enterUnattached, Kept.loseMap, hk, implies_true]
@[simp] theorem Kept.afterTakeover {s : State} {r0 : State} (hk : Kept r0 s) : Kept r0 (State.afterTakeover s) := by
  simp +contextual (maxDischargeDepth := 50) only [State.afterTakeover, Kept.ite, Kept.forEach, Kept.settle, Kept.followPort, Kept.actCtrl, hk, implies_true]
@[simp] theorem Kept.linkNoise {s : State} {r0 : State} (hk : Kept r0 s) : Kept r0 (State.linkNoise s) := by
  simp +contextual (maxDischargeDepth := 50) only [State.linkNoise, Kept.modGroup, Kept.forEach, Kept.free, hk, implies_true]
@[simp] theorem Kept.idleTick {s : State} {r0 : State} (hk : Kept r0 s) : Kept r0 (State.idleTick s) := by
  simp +contextual (maxDischargeDepth := 50) only [State.idleTick, Kept.ite, Kept.modDev, Kept.withLanes, Kept.tclkTick, Kept.linkNoise, hk, implies_true]
@[simp] theorem Kept.clearBad {s : State} (addr : Nat) {r0 : State} (hk : Kept r0 s) : Kept r0 (State.clearBad s addr) := by
  unfold State.clearBad; (try dsimp only); repeat' split
  all_goals simp +contextual (maxDischargeDepth := 50) only [Kept.modCore, Kept.modSup, hk]
@[simp] theorem Kept.storeWord {s : State} (addr : Nat) (v : Word) {r0 : State} (hk : Kept r0 s) : Kept r0 (State.storeWord s addr v) := by
  unfold State.storeWord; exact Kept.clearBad _ (hk.withMem (fun h => by simp (maxDischargeDepth := 50) [h]))
@[simp] theorem Kept.latchDtime {s : State} (a : Agent) {r0 : State} (hk : Kept r0 s) : Kept r0 (State.latchDtime s a) := by
  simp +contextual (maxDischargeDepth := 50) only [State.latchDtime, Kept.modLatch, hk]
@[simp] theorem Kept.latchTally {s : State} (a : Agent) (l : LaneId) {r0 : State} (hk : Kept r0 s) : Kept r0 (State.latchTally s a l) := by
  simp +contextual (maxDischargeDepth := 50) only [State.latchTally, Kept.modLatch, hk]
@[simp] theorem Kept.latchPose {s : State} (a : Agent) {r0 : State} (hk : Kept r0 s) : Kept r0 (State.latchPose s a) := by
  simp +contextual (maxDischargeDepth := 50) only [State.latchPose, Kept.modLatch, hk]
@[simp] theorem Kept.latchPps {s : State} (a : Agent) {r0 : State} (hk : Kept r0 s) : Kept r0 (State.latchPps s a) := by
  simp +contextual (maxDischargeDepth := 50) only [State.latchPps, Kept.modLatch, hk]
@[simp] theorem Kept.reserveLog {s : State} (a : Agent) {r0 : State} (hk : Kept r0 s) : Kept r0 (State.reserveLog s a).2 := by
  unfold State.reserveLog; repeat' split
  all_goals simp +contextual (maxDischargeDepth := 50) only [Kept.logAdvance, hk]
@[simp] theorem Kept.readReg {s : State} (a : Agent) (addr : Nat) {r0 : State} (hk : Kept r0 s) : Kept r0 (State.readReg s a addr).2 := by
  unfold State.readReg; (try dsimp only); repeat' split
  all_goals simp +contextual (maxDischargeDepth := 50) only [Kept.extData, Kept.readCntVal, Kept.latchDtime, Kept.latchTally, Kept.latchPose, Kept.latchPps, Kept.reserveLog, hk]
@[simp] theorem Kept.cfgRwl {s : State} (l : LaneId) (f : LaneCfg → LaneCfg) {r0 : State} (hk : Kept r0 s) : Kept r0 (State.cfgRwl s l f) := by
  simp +contextual (maxDischargeDepth := 50) only [State.cfgRwl, Kept.ite, Kept.modCfg, hk]
@[simp] theorem Kept.storeCcStatus {s : State} (a : Agent) (l : LaneId) (v : Word) {r0 : State} (hk : Kept r0 s) : Kept r0 (State.storeCcStatus s a l v) := by
  simp +contextual (maxDischargeDepth := 50) only [State.storeCcStatus, Kept.ite, Kept.modCc, Kept.cutClear, hk]
@[simp] theorem Kept.storeRxStatus {s : State} (l : LaneId) (v : Word) {r0 : State} (hk : Kept r0 s) : Kept r0 (State.storeRxStatus s l v) := by
  simp +contextual (maxDischargeDepth := 50) only [State.storeRxStatus, Kept.ite, Kept.modPd, Kept.popHead, hk, implies_true]
@[simp] theorem Kept.storeTxCtrl {s : State} (l : LaneId) (v : Word) {r0 : State} (hk : Kept r0 s) : Kept r0 (State.storeTxCtrl s l v) := by
  simp +contextual (maxDischargeDepth := 50) only [State.storeTxCtrl, Kept.ite, Kept.modCfg, Kept.hardReset, Kept.sendStaged, Kept.cableReset, hk]
@[simp] theorem Kept.storeContract {s : State} (a : Agent) (l : LaneId) (v : Word) {r0 : State} (hk : Kept r0 s) : Kept r0 (State.storeContract s a l v) := by
  simp +contextual (maxDischargeDepth := 50) only [State.storeContract, Kept.ite, Kept.modCon, Kept.modTally, Kept.modConv, Kept.modPd, hk, implies_true]
@[simp] theorem Kept.storeBelayWord {s : State} (l : LaneId) (v : Word) {r0 : State} (hk : Kept r0 s) : Kept r0 (State.storeBelayWord s l v) := by
  simp +contextual (maxDischargeDepth := 50) only [State.storeBelayWord, Kept.ite, Kept.free, Kept.selfTestRun, Kept.storeBelayCtrl, hk]
@[simp] theorem Kept.storeBelayStatus {s : State} (l : LaneId) (v : Word) {r0 : State} (hk : Kept r0 s) : Kept r0 (State.storeBelayStatus s l v) := by
  simp +contextual (maxDischargeDepth := 50) only [State.storeBelayStatus, Kept.modBelay, hk]
@[simp] theorem Kept.storeSwapCtrl {s : State} (l : LaneId) (v : Word) {r0 : State} (hk : Kept r0 s) : Kept r0 (State.storeSwapCtrl s l v) := by
  simp +contextual (maxDischargeDepth := 50) only [State.storeSwapCtrl, Kept.ite, Kept.prsReq, Kept.cfgRwl, hk]
@[simp] theorem Kept.storeSwapStatus {s : State} (a : Agent) (l : LaneId) (v : Word) {r0 : State} (hk : Kept r0 s) : Kept r0 (State.storeSwapStatus s a l v) := by
  simp +contextual (maxDischargeDepth := 50) only [State.storeSwapStatus, Kept.ite, Kept.modSwap, hk]
@[simp] theorem Kept.storeTallyStatus {s : State} (l : LaneId) (v : Word) {r0 : State} (hk : Kept r0 s) : Kept r0 (State.storeTallyStatus s l v) := by
  simp +contextual (maxDischargeDepth := 50) only [State.storeTallyStatus, Kept.ite, Kept.modTally, Kept.anchor, Kept.tallyClear, hk]
@[simp] theorem Kept.writeLane {s : State} (a : Agent) (l : LaneId) (o : Nat) (v : Word) {r0 : State} (hk : Kept r0 s) : Kept r0 (State.writeLane s a l o v) := by
  unfold State.writeLane; (try dsimp only); repeat' split
  all_goals simp +contextual (maxDischargeDepth := 50) only [Kept.modCfg, Kept.modTally, Kept.modConv, Kept.modSect, Kept.modPd, Kept.postLane, Kept.storeConvVset, Kept.storeConvIset, Kept.storePhase, Kept.storeIlim, Kept.extData, Kept.storeArmed, Kept.storeSectCtrl, Kept.protoEnd, Kept.storeLaneCtrl, Kept.cfgRwl, Kept.storeCcStatus, Kept.storeRxStatus, Kept.storeTxCtrl, Kept.storeContract, Kept.storeBelayWord, Kept.storeBelayStatus, Kept.storeSwapCtrl, Kept.storeSwapStatus, Kept.storeTallyStatus, hk, implies_true]
@[simp] theorem Kept.storeVsysMon {s : State} (v : Word) {r0 : State} (hk : Kept r0 s) : Kept r0 (State.storeVsysMon s v) := by
  simp +contextual (maxDischargeDepth := 50) only [State.storeVsysMon, Kept.modDev, hk]
@[simp] theorem Kept.storeMbxCmd {s : State} (v : Word) {r0 : State} (hk : Kept r0 s) : Kept r0 (State.storeMbxCmd s v) := by
  simp +contextual (maxDischargeDepth := 50) only [State.storeMbxCmd, Kept.ite, Kept.modMbx, Kept.post, Kept.mbxEnd, hk]
@[simp] theorem Kept.storeSupStatus {s : State} (v : Word) {r0 : State} (hk : Kept r0 s) : Kept r0 (State.storeSupStatus s v) := by
  simp +contextual (maxDischargeDepth := 50) only [State.storeSupStatus, Kept.ite, Kept.modCore, Kept.forEach, hk, implies_true]
@[simp] theorem Kept.storeFixCtrl {s : State} (v : Word) {r0 : State} (hk : Kept r0 s) : Kept r0 (State.storeFixCtrl s v) := by
  simp +contextual (maxDischargeDepth := 50) only [State.storeFixCtrl, Kept.ite, Kept.fixCommit, hk]
@[simp] theorem Kept.storeFix {s : State} (k : Nat) (v : Word) {r0 : State} (hk : Kept r0 s) : Kept r0 (State.storeFix s k v) := by
  simp +contextual (maxDischargeDepth := 50) only [State.storeFix, Kept.modSwath, hk]
@[simp] theorem Kept.storeMask {s : State} (a : Agent) (t : CoreId) (k : Fin 32) (v : Word) {r0 : State} (hk : Kept r0 s) : Kept r0 (State.storeMask s a t k v) := by
  unfold State.storeMask; (try dsimp only); repeat' split
  all_goals simp +contextual (maxDischargeDepth := 50) only [Kept.modCore, Kept.modIc, Kept.withdraw, Kept.wakeIfReady, Kept.overMask, hk]
@[simp] theorem Kept.storeFdis {s : State} (a : Agent) (t : CoreId) (v : Bool) {r0 : State} (hk : Kept r0 s) : Kept r0 (State.storeFdis s a t v) := by
  simp +contextual (maxDischargeDepth := 50) only [State.storeFdis, Kept.ite, Kept.modCore, Kept.modIc, hk]
@[simp] theorem Kept.storeMlock {s : State} (t : CoreId) (v : Word) {r0 : State} (hk : Kept r0 s) : Kept r0 (State.storeMlock s t v) := by
  simp +contextual (maxDischargeDepth := 50) only [State.storeMlock, Kept.ite, Kept.modIc, Kept.lockTake, Kept.lockRelease, hk]
@[simp] theorem Kept.writeIc {s : State} (a : Agent) (t : CoreId) (o : Nat) (v : Word) {r0 : State} (hk : Kept r0 s) : Kept r0 (State.writeIc s a t o v) := by
  unfold State.writeIc; repeat' split
  all_goals simp +contextual (maxDischargeDepth := 50) only [Kept.modIc, Kept.storeMask, Kept.storeFdis, Kept.storeMlock, hk]
@[simp] theorem Kept.storeSrc {s : State} (a : Agent) (x : SourceId) (v : Word) {r0 : State} (hk : Kept r0 s) : Kept r0 (State.storeSrc s a x v) := by
  unfold State.storeSrc; (try dsimp only); repeat' split
  all_goals simp +contextual (maxDischargeDepth := 50) only [Kept.modSrc, Kept.wakeIfReady, Kept.icClear, hk]
@[simp] theorem Kept.writeCounter {s : State} (a : Agent) (n : CounterId) (o : Nat) (v : Word) {r0 : State} (hk : Kept r0 s) : Kept r0 (State.writeCounter s a n o v) := by
  unfold State.writeCounter; repeat' split
  all_goals simp +contextual (maxDischargeDepth := 50) only [Kept.storeCntVal, Kept.storeCntTop, Kept.storeCntCmp, Kept.storeCntCtrl, Kept.storeCntAct, Kept.storeCntCap, hk]
@[simp] theorem Kept.storeFuseCtrl {s : State} (v : Word) {r0 : State} (hk : Kept r0 s) : Kept r0 (State.storeFuseCtrl s v) := by
  simp +contextual (maxDischargeDepth := 50) only [State.storeFuseCtrl, Kept.ite, Kept.free, Kept.measVprog, hk]
@[simp] theorem Kept.writeGlobal {s : State} (a : Agent) (o : Nat) (v : Word) {r0 : State} (hk : Kept r0 s) : Kept r0 (State.writeGlobal s a o v) := by
  unfold State.writeGlobal; repeat' split
  all_goals simp +contextual (maxDischargeDepth := 50) only [Kept.modDev, Kept.modBus, Kept.modSwath, Kept.modSec, Kept.modSup, Kept.modMbx, Kept.storeBudget, Kept.storeSwathCtrl, Kept.storeSwathStatus, Kept.ringDoorbell, Kept.dbgAttempt, Kept.relockDebug, Kept.storePolicy, Kept.storeSecCtrl, Kept.storeDec, Kept.storeTetherCtrl, Kept.storeCoreRst, Kept.writeDevCtrl, Kept.storeVsysMon, Kept.storeMbxCmd, Kept.storeSupStatus, Kept.storeFixCtrl, Kept.storeFix, Kept.writeIc, Kept.storeSrc, Kept.writeCounter, Kept.storeFuseCtrl, hk]
@[simp] theorem Kept.writeReg {s : State} (a : Agent) (addr : Nat) (v : Word) {r0 : State} (hk : Kept r0 s) : Kept r0 (State.writeReg s a addr v) := by
  simp +contextual (maxDischargeDepth := 50) only [State.writeReg, Kept.ite, Kept.modGroup, Kept.storeWord, Kept.writeLane, Kept.writeGlobal, hk]
@[simp] theorem Kept.refuseHspi {s : State} (code : Nat) {r0 : State} (hk : Kept r0 s) : Kept r0 (State.refuseHspi s code) := by
  simp +contextual (maxDischargeDepth := 50) only [State.refuseHspi, Kept.modDev, Kept.post, hk]
@[simp] theorem Kept.abortHspi {s : State} {r0 : State} (hk : Kept r0 s) : Kept r0 (State.abortHspi s) := by
  simp +contextual (maxDischargeDepth := 50) only [State.abortHspi, Kept.modDev, hk]
@[simp] theorem Kept.applyWrite {s : State} (h : HspiHeader) (bs : List Byte) {r0 : State} (hk : Kept r0 s) : Kept r0 (State.applyWrite s h bs) := by
  simp +contextual (maxDischargeDepth := 50) only [State.applyWrite, Kept.ite, Kept.forEach, Kept.writeReg, hk, implies_true]
@[simp] theorem Kept.fetchWord {s : State} (addr : Nat) {r0 : State} (hk : Kept r0 s) : Kept r0 (State.fetchWord s addr).2.2 := by
  unfold State.fetchWord; split
  · exact hk
  · exact Kept.readReg _ _ hk
@[simp] theorem Kept.fetchWords {r0 s : State} (a n : Nat) (hk : Kept r0 s) : Kept r0 (s.fetchWords a n).2.2 := by
  induction n generalizing s a with
  | zero => exact hk
  | succ n ih => exact ih _ (hk.fetchWord _)
@[simp] theorem Kept.transact {s : State} (bs : List Byte) (ended : Option ReadCut) {r0 : State} (hk : Kept r0 s) : Kept r0 (State.transact s bs ended).2 := by
  unfold State.transact; (try dsimp only); repeat' split
  all_goals simp +contextual (maxDischargeDepth := 50) only [Kept.refuseHspi, Kept.abortHspi, Kept.applyWrite, Kept.fetchWords, hk]
@[simp] theorem Kept.hspi {s : State} (bs : List Byte) (ended : Option ReadCut) {r0 : State} (hk : Kept r0 s) : Kept r0 (State.hspi s bs ended) := by
  simp +contextual (maxDischargeDepth := 50) only [State.hspi, Kept.ite, Kept.modDev, Kept.transact, hk]
@[simp] theorem Kept.tunnelAnswer {s : State} (bs : List Byte) {r0 : State} (hk : Kept r0 s) : Kept r0 (State.tunnelAnswer s bs) := by
  unfold State.tunnelAnswer; exact Kept.mbxEnd _ (Kept.modMbx _ (hk.withMem (fun h => by simp (maxDischargeDepth := 50) [h])))
@[simp] theorem Kept.takeTunnel {s : State} (tag part : Byte) (data : List Byte) {r0 : State} (hk : Kept r0 s) : Kept r0 (State.takeTunnel s tag part data) := by
  unfold State.takeTunnel; dsimp only
  refine Kept.ite hk (Kept.ite (Kept.modTether _ hk) (Kept.ite (Kept.modTether _ hk) (Kept.ite ?_ (Kept.ite (Kept.modTether _ hk) ?_))))
  · exact Kept.ite (Kept.tunnelAnswer _ (Kept.modTether _ (Kept.modTether _ hk))) (Kept.modTether _ (Kept.modTether _ hk))
  · exact Kept.queueRecords _ (Kept.transact _ _ (Kept.modTether _ hk))
@[simp] theorem Kept.tunnelAbsent {s : State} (p : Fin 8) {r0 : State} (hk : Kept r0 s) : Kept r0 (State.tunnelAbsent s p).2 := by
  unfold State.tunnelAbsent; (try dsimp only); repeat' split
  all_goals simp +contextual (maxDischargeDepth := 50) only [Kept.free, hk]
@[simp] theorem Kept.tunnelStart {s : State} (tag : Byte) {r0 : State} (hk : Kept r0 s) : Kept r0 (State.tunnelStart s tag) := by
  simp +contextual (maxDischargeDepth := 50) only [State.tunnelStart, Kept.ite, Kept.modTether, Kept.mbxEnd, Kept.queueRecords, Kept.transact, Kept.tunnelAnswer, Kept.tunnelAbsent, hk]
@[simp] theorem Kept.takeDownRecord {s : State} (r : TetherRecord) {r0 : State} (hk : Kept r0 s) : Kept r0 (State.takeDownRecord s r) := by
  unfold State.takeDownRecord; repeat' split
  all_goals simp +contextual (maxDischargeDepth := 50) only [Kept.applyMark, Kept.takeChunk, Kept.takeTunnel, hk]
@[simp] theorem Kept.takeUpRecord {s : State} (r : TetherRecord) {r0 : State} (hk : Kept r0 s) : Kept r0 (State.takeUpRecord s r) := by
  unfold State.takeUpRecord; repeat' split
  all_goals simp +contextual (maxDischargeDepth := 50) only [Kept.askSwitch, Kept.queueRecords, Kept.applyMark, Kept.takeTunnel, hk]
@[simp] theorem Kept.frameReceived {s : State} (crcOk : Bool) {r0 : State} (hk : Kept r0 s) : Kept r0 (State.frameReceived s crcOk) := by
  simp +contextual (maxDischargeDepth := 50) only [State.frameReceived, Kept.ite, Kept.post, hk]
@[simp] theorem Kept.followHitch {s : State} (p : Port) (f : DownFrame) {r0 : State} (hk : Kept r0 s) : Kept r0 (State.followHitch s p f) := by
  simp +contextual (maxDischargeDepth := 50) only [State.followHitch, Kept.ite, Kept.modBus, Kept.modTether, Kept.keepCarriers, Kept.testVersion, Kept.setTimeLock, Kept.hitchChanged, hk]
@[simp] theorem Kept.followOthers {s : State} (f : DownFrame) {r0 : State} (hk : Kept r0 s) : Kept r0 (State.followOthers s f) := by
  unfold State.followOthers; (try dsimp only); repeat' split
  all_goals simp +contextual (maxDischargeDepth := 50) only [Kept.modBus, hk]
@[simp] theorem Kept.takeResults {s0 : State} (f : DownFrame) {r0 : State} (hk : Kept r0 s0) : Kept r0 (State.takeResults s0 f) := by
  unfold State.takeResults
  have k1 : Kept r0 (if f.crcOk && f.resValid then s0.modTether fun t => { t with results := f.results } else s0) := Kept.ite (hk.modTether _) hk
  revert k1; dsimp only
  generalize (if f.crcOk && f.resValid then s0.modTether fun t => { t with results := f.results } else s0) = s
  intro k1; split
  · exact k1
  · split
    · refine Kept.forEach _ (fun u hu l => ?_) (Kept.post _ (Kept.followOthers _ (Kept.setFrozen _ (k1.modTether _))))
      split
      · split
        · exact Kept.giveSlot _ _ (Kept.followCeil _ _ hu)
        · exact Kept.followCeil _ _ hu
      · exact hu
    · split
      · exact Kept.setFrozen _ (k1.modTether _)
      · exact k1.modTether _
@[simp] theorem Kept.forwardDown {s : State} (f : DownFrame) {r0 : State} (hk : Kept r0 s) : Kept r0 (State.forwardDown s f) := by
  unfold State.forwardDown; (try dsimp only); repeat' split
  all_goals simp +contextual (maxDischargeDepth := 50) only [Kept.modTether, Kept.sendUp, hk]
@[simp] theorem Kept.takeDown {s : State} (p : Port) (f : DownFrame) {r0 : State} (hk : Kept r0 s) : Kept r0 (State.takeDown s p f) := by
  unfold State.takeDown; (try dsimp only); repeat' split
  all_goals simp +contextual (maxDischargeDepth := 50) only [Kept.forEach, Kept.takePose, Kept.takeTime, Kept.takeDownRecord, Kept.followHitch, Kept.takeResults, Kept.forwardDown, hk, implies_true]
@[simp] theorem Kept.takeSlots {s : State} (side : Port) (f : UpFrame) {r0 : State} (hk : Kept r0 s) : Kept r0 (State.takeSlots s side f) := by
  unfold State.takeSlots; (try dsimp only)
  all_goals simp +contextual (maxDischargeDepth := 50) only [Kept.modTether, Kept.keepCarriers, hk]
@[simp] theorem Kept.aluRow {s : State} (t : CoreId) (op : AluOp) (rd ra rb : RegCode) (sets : Bool) {r0 : State} (hk : Kept r0 s) : Kept r0 (State.aluRow s t op rd ra rb sets) := by
  simp +contextual (maxDischargeDepth := 50) only [State.aluRow, Kept.coreInstr, hk]
@[simp] theorem Kept.immRow {s : State} (t : CoreId) (f : Word → Word → Word) (rd ra : RegCode) (imm : Word) {r0 : State} (hk : Kept r0 s) : Kept r0 (State.immRow s t f rd ra imm) := by
  simp +contextual (maxDischargeDepth := 50) only [State.immRow, Kept.coreInstr, hk]
@[simp] theorem Kept.stall {s : State} (t : CoreId) {r0 : State} (hk : Kept r0 s) : Kept r0 (State.stall s t) := by
  simp +contextual (maxDischargeDepth := 50) only [State.stall, Kept.free, Kept.goOn, hk]
@[simp] theorem Kept.stallAt {s : State} (t : CoreId) (p : Option Place) {r0 : State} (hk : Kept r0 s) : Kept r0 (State.stallAt s t p) := by
  simp +contextual (maxDischargeDepth := 50) only [State.stallAt, Kept.ite, Kept.stall, hk]
@[simp] theorem Kept.loadAt {s : State} (t : CoreId) (p : Place) (n : Nat) {r0 : State} (hk : Kept r0 s) : Kept r0 (State.loadAt s t p n).2 := by
  unfold State.loadAt; split <;> first | exact hk | exact Kept.readReg _ _ hk
@[simp] theorem Kept.storeAt {s : State} (t : CoreId) (p : Place) (n : Nat) (v : Word) {r0 : State} (hk : Kept r0 s) : Kept r0 (State.storeAt s t p n v) := by
  unfold State.storeAt; dsimp only; repeat' split
  all_goals first | exact hk | exact Kept.storeWord _ _ hk | exact Kept.writeReg _ _ _ hk | exact hk.withMem (fun h => by simp (maxDischargeDepth := 50) [h])
@[simp] theorem Kept.loadN {s : State} (t : CoreId) (a : Word) (n : Nat) {r0 : State} (hk : Kept r0 s) : Kept r0 (State.loadN s t a n).2 := by
  unfold State.loadN; split
  · exact Kept.stallAt _ _ (Kept.loadAt _ _ _ hk)
  · exact hk
@[simp] theorem Kept.storeN {s : State} (t : CoreId) (a : Word) (n : Nat) (v : Word) {r0 : State} (hk : Kept r0 s) : Kept r0 (State.storeN s t a n v) := by
  unfold State.storeN; repeat' split
  all_goals simp +contextual (maxDischargeDepth := 50) only [Kept.storeAt, hk]
@[simp] theorem Kept.loadRow {s : State} (t : CoreId) (n : Nat) (conv : Word → Word) (rd ra : RegCode) (imm : BitVec 16) {r0 : State} (hk : Kept r0 s) : Kept r0 (State.loadRow s t n conv rd ra imm) := by
  unfold State.loadRow; refine hk.instr t false _ fun u hu => ?_
  dsimp only; split
  · exact hu
  · dsimp only [InstrEnd.state]; exact (hu.loadN t ((u.core t).ea ra imm) n).modCore t _
@[simp] theorem Kept.storeRow {s : State} (t : CoreId) (n : Nat) (rd ra : RegCode) (imm : BitVec 16) {r0 : State} (hk : Kept r0 s) : Kept r0 (State.storeRow s t n rd ra imm) := by
  unfold State.storeRow; refine hk.instr t false _ fun u hu => ?_
  dsimp only; split
  · exact hu
  · exact Kept.storeN _ _ _ _ hu
@[simp] theorem Kept.putBit {s : State} (t : CoreId) (p : BitPlace) (v : Bool) {r0 : State} (hk : Kept r0 s) : Kept r0 (State.putBit s t p v) := by
  unfold State.putBit; (try dsimp only); repeat' split
  all_goals simp +contextual (maxDischargeDepth := 50) only [Kept.modCore, Kept.modSwap, Kept.armFrs, Kept.takeGroup, Kept.startReturn, Kept.finishReturn, Kept.beatCore, hk]
@[simp] theorem Kept.writeBit {s : State} (t : CoreId) (b : BitVec 16) (v : Bool) {r0 : State} (hk : Kept r0 s) : Kept r0 (State.writeBit s t b v) := by
  simp +contextual (maxDischargeDepth := 50) only [State.writeBit, Kept.modCore, Kept.putBit, hk]
@[simp] theorem Kept.bitRow {s : State} (t : CoreId) (rx : Option RegCode) (ba : BitVec 16) (f : Bool → Bool → Bool) {r0 : State} (hk : Kept r0 s) : Kept r0 (State.bitRow s t rx ba f) := by
  unfold State.bitRow; exact hk.instr t false _ fun u hu => Kept.writeBit _ _ _ hu
@[simp] theorem Kept.flagRow {s : State} (t : CoreId) (rx : Option RegCode) (ba : BitVec 16) (f : Bool → Flags → Flags) {r0 : State} (hk : Kept r0 s) : Kept r0 (State.flagRow s t rx ba f) := by
  unfold State.flagRow; exact hk.instr t false _ fun u hu => by dsimp only [InstrEnd.state]; exact hu.modCore t _
@[simp] theorem Kept.bitBranch {s : State} (t : CoreId) (on : Bool) (disp : BitVec 10) (ba : BitVec 16) {r0 : State} (hk : Kept r0 s) : Kept r0 (State.bitBranch s t on disp ba) := by
  unfold State.bitBranch; exact hk.instr t true _ fun u hu => hu
@[simp] theorem Kept.callTo {s : State} (t : CoreId) (target : CoreState → Word) {r0 : State} (hk : Kept r0 s) : Kept r0 (State.callTo s t target) := by
  unfold State.callTo; refine hk.instr t true _ fun u hu => ?_
  dsimp only; split
  · exact hu
  · dsimp only [InstrEnd.state]; exact hu.modCore t _
@[simp] theorem Kept.endActive {s : State} (t : CoreId) (fast : Bool) {r0 : State} (hk : Kept r0 s) : Kept r0 (State.endActive s t fast) := by
  simp +contextual (maxDischargeDepth := 50) only [State.endActive, Kept.ite, Kept.modSrc, hk]
@[simp] theorem Kept.cycles {s : State} (t : CoreId) (k : Nat) {r0 : State} (hk : Kept r0 s) : Kept r0 (State.cycles s t k) := by
  simp +contextual (maxDischargeDepth := 50) only [State.cycles, Kept.goOn, hk]
theorem Kept.elements {r0 s : State} (t : CoreId) (f : State → ElementEnd) (first : Bool) (n : Nat) (hf : ∀ u, Kept r0 u → Kept r0 (f u).state) (hk : Kept r0 s) :
    Kept r0 (s.elements t f first n).state := by
  induction n generalizing s first with
  | zero => exact hk
  | succ n ih =>
    have hu := hf _ hk
    unfold State.elements; split
    · exact hk
    · split
      · next he => rw [he] at hu; exact hu
      · next s1 he =>
        rw [he] at hu
        have h1 : Kept r0 s1 := hu
        cases first
        · exact Kept.cycles t 1 h1
        · exact h1
      · next s1 he =>
        rw [he] at hu
        have h1 : Kept r0 s1 := hu
        cases first <;> simp only [Bool.false_eq_true, if_false, if_true] <;> split
        · exact Kept.goOn _ _ (Kept.cycles t 1 h1)
        · exact ih _ (Kept.goOn _ _ (Kept.cycles t 1 h1))
        · exact h1.goOn _ _
        · exact ih _ (h1.goOn _ _)
theorem Kept.str {r0 s : State} (t : CoreId) (f : State → ElementEnd) (after : CoreState → CoreState) (hf : ∀ u, Kept r0 u → Kept r0 (f u).state) (hk : Kept r0 s) :
    Kept r0 (s.str t f after) := by
  refine hk.instr t true _ fun u hu => ?_
  have he := hu.elements t f true ((u.core t).xc.toNat) hf
  split
  · next h =>
    rw [h] at he
    have h1 : Kept r0 _ := he
    dsimp only [InstrEnd.state]
    exact Kept.ite (h1.modCore t after) h1
  · exact he
@[simp] theorem Kept.stallFor {s : State} (t : CoreId) (a : Word) {r0 : State} (hk : Kept r0 s) : Kept r0 (State.stallFor s t a) := by
  simp +contextual (maxDischargeDepth := 50) only [State.stallFor, Kept.stallAt, hk]
theorem Kept.movsElement {r0 s : State} (t : CoreId) (n : Nat) (step : Word) (hk : Kept r0 s) : Kept r0 (movsElement t n step s).state := by
  unfold Sys2Proof.Machine.movsElement; dsimp only; repeat' split
  all_goals simp (maxDischargeDepth := 50) [hk, ElementEnd.state]
theorem Kept.fillsElement {r0 s : State} (t : CoreId) (n : Nat) (step v : Word) (hk : Kept r0 s) : Kept r0 (fillsElement t n step v s).state := by
  unfold Sys2Proof.Machine.fillsElement; dsimp only; repeat' split
  all_goals simp (maxDischargeDepth := 50) [hk, ElementEnd.state]
theorem Kept.cmpsElement {r0 s : State} (t : CoreId) (n : Nat) (step : Word) (hk : Kept r0 s) : Kept r0 (cmpsElement t n step s).state := by
  unfold Sys2Proof.Machine.cmpsElement; dsimp only; repeat' split
  all_goals simp (maxDischargeDepth := 50) [hk, ElementEnd.state]
theorem Kept.crcsElement {r0 s : State} (t : CoreId) (rd : RegCode) (step : Word) (p : Fin 3) (hk : Kept r0 s) : Kept r0 (crcsElement t rd step p s).state := by
  unfold Sys2Proof.Machine.crcsElement; dsimp only; repeat' split
  all_goals simp (maxDischargeDepth := 50) [hk, ElementEnd.state]
theorem Kept.microLoad {r0 s : State} (t : CoreId) (a : Word) (n : Nat) (f : Word → Micro) (hk : Kept r0 s) : Kept r0 (microLoad s t a n f).state := by
  unfold Sys2Proof.Machine.microLoad; split <;> simp (maxDischargeDepth := 50) [hk, MicroEnd.state]
theorem Kept.microStore {r0 s : State} (t : CoreId) (a : Word) (n : Nat) (v : Word) (m : Micro) (hk : Kept r0 s) : Kept r0 (microStore s t a n v m).state := by
  unfold Sys2Proof.Machine.microStore; split <;> simp (maxDischargeDepth := 50) [hk, MicroEnd.state]
@[simp] theorem Kept.microBit {s : State} (t : CoreId) (b : BitVec 16) (v : Bool) {r0 : State} (hk : Kept r0 s) : Kept r0 (State.microBit s t b v) := by
  unfold State.microBit
  all_goals simp +contextual (maxDischargeDepth := 50) only [Kept.modCore, Kept.putBit, hk]
theorem Kept.microStep {r0 s : State} (t : CoreId) (x : MicroArgs) (w : Word) (m : Micro) (hk : Kept r0 s) : Kept r0 (microStep s t x w m).state := by
  unfold Sys2Proof.Machine.microStep; dsimp only; repeat' split
  all_goals first | exact hk.microLoad .. | exact hk.microStore .. | simp (maxDischargeDepth := 50) [hk, MicroEnd.state]
theorem Kept.micros {r0 s : State} (t : CoreId) (x : MicroArgs) (m : Micro) (ws : List (Word × Option Word)) (k : Nat) (hk : Kept r0 s) :
    Kept r0 (s.micros t x m ws k).state := by
  induction ws generalizing s m k with
  | nil => simp [State.micros, InstrEnd.state, hk]
  | cons w ws ih =>
    cases k with
    | succ k => exact ih _ _ hk
    | zero =>
      have hm := hk.microStep t x w.1 m
      unfold State.micros; split
      · exact hk
      · split
        · next he => rw [he] at hm; exact hm
        · next s1 he =>
          rw [he] at hm
          have h1 : Kept r0 s1 := hm
          split
          · exact h1.goOn t _
          · exact ih _ _ (Kept.cycles t 1 h1)




end Sys2Proof.Machine
end

