-- ==== Sys2Proof/Machine/Assembler.lean ====
section
/-! DEFINITION. The instructions that the assembler chooses for its pseudo-instructions and immediate operands, and the errors of a displacement or a field (R333, R334). -/

namespace Sys2Proof.Machine

/-- The instructions of two operands that take an immediate (R333). -/
inductive ImmOp where
  | add | sub | and | or | xor | cmp
deriving DecidableEq, Repr

/-- An operation with an immediate operand; `sub` adds the negated value (R333). CMP has no destination. -/
def immediate (t : CoreId) (op : ImmOp) (rd ra : RegCode) (v : BitVec 16) : Instr :=
  match op with
  | .add => .addi t rd ra v
  | .sub => .addi t rd ra (-v)
  | .and => .andi t rd ra v
  | .or => .ori t rd ra v
  | .xor => .xori t rd ra v
  | .cmp => .cmpi t ra v

/-- shl, shr, sar and ror, by 0–3, with an immediate amount assemble as SHI; `s` is the suffix .s (R333). -/
def shiftImm (t : CoreId) (fn : Fin 4) (rd ra : RegCode) (amount : BitVec 5) (s : Bool) : Instr := .shi t fn rd ra amount s

/-- `li rd, v`: MOVI where v fits 16 signed bits, otherwise MOVI and MOVHI (R333). -/
def li (t : CoreId) (rd : RegCode) (v : Word) : List Instr :=
  let low : BitVec 16 := v.truncate 16
  if low.signExtend 32 = v then [.movi t rd low] else [.movi t rd low, .movhi t rd ((v >>> 16).truncate 16)]

/-- `mov rd, ra` is ADDI with 0 (R333). -/
def mov (t : CoreId) (rd ra : RegCode) : Instr := .addi t rd ra 0

/-- A displacement in words that fits a signed field of n bits; one out of range is an error (R334). -/
def displacement (n : Nat) (d : Int) : Option (BitVec n) :=
  if -(2 ^ (n - 1)) ≤ d ∧ d < 2 ^ (n - 1) then some (BitVec.ofInt n d) else none

/-- `b label`: Bcc with cond AL (R311, R333). -/
def branchAlways (t : CoreId) (d : Int) : Option Instr := (displacement 22 d).map (.bcc t 0 ·)

/-- An instruction that a delay slot must not hold, which the assembler refuses there (R316, R334). -/
def slotForbidden : Instr → Bool
  | .bcc _ _ _ | .call _ _ | .jmpr _ _ | .callr _ _ | .ret _ | .reti _ | .retx _ | .wait _ | .halt _ | .trap _ _ => true
  | .brbs _ _ _ | .brbc _ _ _ | .movs _ _ _ | .fills _ _ _ _ | .cmps _ _ _ | .crcs _ _ _ _ => true
  | _ => false

end Sys2Proof.Machine
end

