-- ==== Sys2Proof/Machine/Balls.lean ====
section
/-! DEFINITION. The ball map (file 20): the function of each ball of the 46 × 46 grid (R440–R442). -/

namespace Sys2Proof.Machine

/-- The function of a ball (R440). -/
inductive Ball where
  | gnd
  | vbin (l : LaneId)
  | vbout (l : LaneId)
  | cc (l : LaneId) (pin : CcPin)
  | isp (l : LaneId)
  | isn (l : LaneId)
  /-- PWMnA–PWMnD by 0–3 -/
  | pwm (l : LaneId) (k : Fin 4)
  | alten (l : LaneId)
  | sl (l : LaneId)
  | vcore | vsys | vio | vconnSup | vprog
  | hsclk | hcs | hio (k : Fin 4) | hirq | reset
  /-- TXP, TXN, RXP and RXN of a tether port by 0–3 -/
  | tether (p : Port) (k : Fin 4)
  | xin | xout | x32i | x32o
  | busVsns | busVsnsRtn
  | gs (k : Fin 4) | pospps | tamper | tmode
deriving DecidableEq, Repr

/-- Letters of the rows, row 1 first (R440). -/
def rowNames : List String :=
  let one := ["A", "B", "C", "D", "E", "F", "G", "H", "J", "K", "L", "M", "N", "P", "T", "U", "V", "W", "Y"]
  one ++ one.map ("A" ++ ·) ++ (one.take 8).map ("B" ++ ·)

/-- The ball of lane 8g + k for depth d and offset j, as row and column numbers (R441). -/
def lanePlace (g k d j : Nat) : Nat × Nat :=
  match g with
  | 0 => (d, 1 + 5 * k + j)
  | 1 => (1 + 5 * k + j, 47 - d)
  | 2 => (47 - d, 46 - 5 * k - j)
  | _ => (46 - 5 * k - j, d)

/-- Group, depth and offset along the edge of a ball of the six outer rows and columns (R441). -/
def stripAt (row col : Nat) : Option (Nat × Nat × Nat) :=
  if row ≤ 6 ∧ col ≤ 40 then some (0, row, col - 1)
  else if 41 ≤ col ∧ row ≤ 40 then some (1, 47 - col, row - 1)
  else if 41 ≤ row ∧ 7 ≤ col then some (2, 47 - row, 46 - col)
  else if col ≤ 6 ∧ 7 ≤ row then some (3, col, 46 - row)
  else none

/-- The strip of 30 balls of a lane (R441). -/
def laneBall (l : LaneId) (d j : Nat) : Ball :=
  match d, j with
  | 1, _ => .vbout l
  | 2, 0 => .vbout l
  | 2, 2 => .cc l .cc1
  | 2, 3 => .cc l .cc2
  | 3, _ => .vbin l
  | 4, 0 => .vbin l
  | 4, 2 => .isp l
  | 4, 3 => .isn l
  | 5, 0 => .pwm l 0
  | 5, 1 => .pwm l 1
  | 5, 2 => .pwm l 2
  | 5, 3 => .pwm l 3
  | 6, 0 => .alten l
  | 6, 1 => .sl l
  | _, _ => .gnd

/-- The balls of row AA in columns 8–37 (R442). -/
def rowAa (col : Nat) : Ball :=
  match col with
  | 8 => .hsclk
  | 9 => .hcs
  | 10 => .hio 0
  | 11 => .hio 1
  | 12 => .hio 2
  | 13 => .hio 3
  | 14 => .hirq
  | 15 => .reset
  | 16 => .tamper
  | 17 => .tmode
  | 18 => .vprog
  | 30 => .tether .tu 0
  | 31 => .tether .tu 1
  | 32 => .tether .tu 2
  | 33 => .tether .tu 3
  | 34 => .tether .td 0
  | 35 => .tether .td 1
  | 36 => .tether .td 2
  | 37 => .tether .td 3
  | _ => .gnd

/-- The balls of row AE but for VCORE (R442). -/
def rowAe (col : Nat) : Ball :=
  match col with
  | 8 => .xin
  | 9 => .xout
  | 10 => .x32i
  | 11 => .x32o
  | 13 => .busVsns
  | 14 => .busVsnsRtn
  | 16 => .gs 0
  | 17 => .gs 1
  | 18 => .gs 2
  | 19 => .gs 3
  | 30 => .pospps
  | _ => .gnd

/-- The interior, with rows G, AA, AB, AE, AG and BB as 7, 20, 21, 24, 26 and 40 (R442). -/
def interiorBall (row col : Nat) : Ball :=
  if 21 ≤ row ∧ row ≤ 26 ∧ 20 ≤ col ∧ col ≤ 27 then .vcore
  else if (row = 7 ∧ 17 ≤ col ∧ col ≤ 24) ∨ (row = 40 ∧ 23 ≤ col ∧ col ≤ 30) then .vconnSup
  else if (row = 7 ∧ 25 ≤ col ∧ col ≤ 28) ∨ (row = 40 ∧ 19 ≤ col ∧ col ≤ 22) then .vsys
  else if row = 21 ∧ 8 ≤ col ∧ col ≤ 15 then .vio
  else if row = 20 then rowAa col
  else if row = 24 then rowAe col
  else .gnd

/-- The function of the ball in a row and a column, each 1–46 (R440–R442). -/
def ballAt (row col : Nat) : Ball :=
  match stripAt row col with
  | some (g, d, o) => laneBall ⟨(8 * g + o / 5) % 32, Nat.mod_lt _ (by decide)⟩ d (o % 5)
  | none => interiorBall row col

/-- The number of balls of the grid with a function that satisfies a test. -/
def ballCount (f : Ball → Bool) : Nat :=
  ((List.range 46).map fun r => ((List.range 46).filter fun c => f (ballAt (r + 1) (c + 1))).length).sum

/-- What a CC ball carries (R27, R441). -/
def ccBall (s : State) (b : Ball) : Option PinDrive :=
  match b with
  | .cc l pin => some (pinDrive (s.lane l) pin)
  | _ => none

/-- The level of a PWM ball (R168, R441). -/
def pwmBall (s : State) (b : Ball) : Option Bool :=
  match b with
  | .pwm l k =>
    let x := pwmLevels s l
    some (match k with | 0 => x.1 | 1 => x.2.1 | 2 => x.2.2.1 | 3 => x.2.2.2)
  | _ => none

end Sys2Proof.Machine
end

