-- ==== Sys2Proof/WellFormed.lean ====
section
/-! DEFINITION. Which operands a command may carry: the bounds that the spec gives and the types of Syntax.lean do not hold. The meanings are total and do not ask for them. -/

namespace Sys2Proof

/-- The number of data objects that a PD header names, [14:12] (R55, log 20). -/
def Frame.count (f : Frame) : Nat := f.header.toNat / 4096 % 8

/-- A PD message: as many objects as its header counts, and at most 260 bytes behind an extended header (R62, log 20). -/
def Frame.wf (f : Frame) : Bool := if f.header.getLsbD 15 then decide (1 ≤ f.objs.length) && decide (f.objs.length ≤ 66) else f.objs.length = f.count

/-- Samples of at most 32 lanes (file 00, "Hierarchy"). -/
def BusSample.wf (b : BusSample) : Bool := decide (b.lanes.length ≤ 32)

/-- A record as R367 bounds its payload. -/
def TetherRecord.wf : TetherRecord → Bool
  | .stagger _ _ _ => true
  | .mark _ _ _ _ len => decide (1 ≤ len) && decide (len ≤ 256)
  | .chunk _ _ _ data => data.length = 128
  | .tunnel _ _ _ data => decide (data.length ≤ 240)

/-- A downstream frame: results for the 32 lanes of at most eight positions (R365). -/
def DownFrame.wf (f : DownFrame) : Bool := decide (f.results.length ≤ 256) && f.records.all TetherRecord.wf

/-- An upstream frame: at most eight slots of at most 32 lanes (R366). -/
def UpFrame.wf (f : UpFrame) : Bool :=
  decide (f.slots.length ≤ 8) && (f.slots.all fun s => decide (s.lanes.length ≤ 32)) && f.records.all TetherRecord.wf

/-- A host address of a word: aligned, below the end of the core memories (R378, R427). -/
def wordAddr (a : Nat) : Bool := a % 4 = 0 && decide (a < 0x980000)

/-- A command's operands keep the spec's bounds. -/
def Instr.wf : Instr → Bool
  | .messageReceived _ f => f.wf
  | .chunkRequest _ f => f.wf
  | .request _ f => f.wf
  | .softReset _ f => f.wf
  | .getSourceCap _ f => f.wf
  | .sourceCapabilities _ f => f.wf
  | .eprKeepalive _ f => f.wf
  | .eprMode _ f => f.wf
  | .discoverIdentity _ f => f.wf
  | .enterModeAck _ f => f.wf
  | .exitModeAck _ f => f.wf
  | .twinSetAck _ f => f.wf
  | .tmFollowAck _ f => f.wf
  | .twinArmAck _ f => f.wf
  | .twinDisarmAck _ f => f.wf
  | .prSwap _ f => f.wf
  | .swapRefused _ f => f.wf
  | .psRdy _ f => f.wf
  | .sinkCapabilities _ f => f.wf
  | .holdSetAck _ f => f.wf
  | .frSwap _ f => f.wf
  | .drSwap _ f => f.wf
  | .vconnSwap _ f => f.wf
  | .batteryStatus _ f => f.wf
  | .recCommitAck _ f => f.wf
  | .securityRequest _ f => f.wf
  | .budgetFrame b => b.wf
  | .arbitrationResult r => decide (r.length ≤ 256)
  | .downstreamFrame _ f => f.wf
  | .upstreamFrame _ f => f.wf
  | .swathMark _ _ _ _ len => decide (1 ≤ len) && decide (len ≤ 256)
  | .tileChunk _ _ _ data => data.length = 128
  | .registerWrite _ addr _ => wordAddr addr
  | _ => true

end Sys2Proof
end

