-- ==== Sys2Proof/Tests/Slice0.lean ====
section
/-! SUPPORT. The tests: a term that each well-formedness check refuses, values worked out from the examples of the spec, and for every obligation with hypotheses a state that meets them. A clause of an obligation that has hypotheses of its own has its own state. -/

namespace Sys2Proof.Tests
open Machine
set_option Elab.async false -- one theorem at a time, for want of memory for a thread each

-- helpers

/-- The state after reset with changes made to it, in order. -/
def of (fs : List (State → State)) : State := fs.foldl (fun s f => f s) State.reset

/-- The device in RUN. -/
def run (s : State) : State := s.modDev fun d => { d with state := .run }

/-- The device in RUN with its host port alive and no transition in progress. -/
def running (s : State) : State := s.modDev fun d => { d with state := .run, trans := .none, vioOk := true, vsysOk := true, resetLow := false }

/-- S0 runs the base image. -/
def imaged (s : State) : State := s.modCore 4 fun c => { c with baseImg := true, run := .running }

/-- Every lane of the part fitted. -/
def allPorts (s : State) : State := s.modSec fun x => { x with laneDis := 0 }

/-- Core 0 runs, changed by f, on a device whose clock runs. -/
def cpu (f : CoreState → CoreState) : State :=
  of [fun s => s.modDev fun d => { d with state := .run, vsysOk := true, xin := true, pll := true },
    fun s => s.modGroup 0 fun g => { g with coreRun := true },
    fun s => s.modCore 0 fun c => f { c with run := .running }]

/-- Something of the next state. -/
def after {α : Type} (i : Instr) (s : State) (f : State → α) : Option α := match exec i s with | .next t => some (f t) | _ => none

/-- Core 0 after an instruction. -/
def core {α : Type} (i : Instr) (s : State) (f : CoreState → α) : Option α := after i s fun t => f (t.core 0)

-- operands that keep their bounds, and operands that do not

theorem test_wf_frame : (Instr.messageReceived 0 { header := 0x1041, objs := [0] }).wf = true := by decide
theorem test_illFormed_frame : (Instr.messageReceived 0 { header := 0x1041, objs := [] }).wf = false := by decide +kernel
theorem test_illFormed_extended : (Instr.messageReceived 0 { header := 0x8000, objs := [] }).wf = false := by decide +kernel
theorem test_illFormed_request : (Instr.request 0 { header := 0x1042, objs := [1, 2] }).wf = false := by decide +kernel
theorem test_illFormed_samples : (Instr.budgetFrame { lanes := List.replicate 33 { } }).wf = false := by decide +kernel
theorem test_illFormed_results : (Instr.arbitrationResult (List.replicate 257 (0, 0))).wf = false := by decide +kernel
theorem test_illFormed_mark : (Instr.swathMark 0 0 0 0 0).wf = false := by decide +kernel
theorem test_illFormed_chunk : (Instr.tileChunk 0 0 0 [1]).wf = false := by decide +kernel
theorem test_illFormed_write : (Instr.registerWrite .host 0x22 0).wf = false := by decide +kernel
theorem test_illFormed_slots : (Instr.upstreamFrame .tu { slots := List.replicate 9 { } }).wf = false := by decide +kernel
theorem test_illFormed_record : (Instr.downstreamFrame .tu { records := [.tunnel 0 0 0 (List.replicate 241 0)] }).wf = false := by decide +kernel

-- words of the Camku encodings, and the words that the examples of file 13 write out

theorem test_decode_macd : decodeCamku 2 0xA08447C0 = some (.macd 2 false false 16 17 1 0xF) := by decide
theorem test_decode_satadd : decodeCamku 2 0xC3084800 = some (.cx 2 0 24 8 9 0) := by decide
theorem test_decode_sets : decodeCamku 0 0x04221C00 = some (.add 0 1 2 3 true) := by decide
theorem test_decode_reserved : decodeCamku 0 0x83C00000 = none := by decide
theorem test_encode_call : encodeCamku (.call 0 0x3FFFFFE) = some (0, 0x67FFFFFE) := by decide

-- Camku instructions

theorem test_add_wraps : core (.add 0 1 2 3 true) (cpu fun c => (c.setReg 2 0xFFFFFFFF).setReg 3 1) (fun c => (c.reg 1, c.flags))
    = some (0, { z := true, n := false, c := true, v := false }) := by decide +kernel
theorem test_sub_overflows : core (.sub 0 1 2 3 true) (cpu fun c => (c.setReg 2 0x80000000).setReg 3 1) (fun c => (c.reg 1, c.flags))
    = some (0x7FFFFFFF, { z := false, n := false, c := true, v := true }) := by decide +kernel
theorem test_sar_sign : core (.sar 0 1 1 2 false) (cpu fun c => (c.setReg 1 0x80000000).setReg 2 0x24) (fun c => c.reg 1) = some 0xF8000000 := by
  decide +kernel
theorem test_mulh_signed : core (.mulh 0 1 2 3 false) (cpu fun c => (c.setReg 2 0xFFFFFFFF).setReg 3 2) (fun c => c.reg 1) = some 0xFFFFFFFF := by
  decide +kernel
theorem test_clz_zero : core (.clz 0 1 2 false) (cpu id) (fun c => c.reg 1) = some 32 := by decide +kernel
theorem test_movhi_keeps : core (.movhi 0 1 0xABCD) (cpu fun c => c.setReg 1 0x1234) (fun c => c.reg 1) = some 0xABCD1234 := by decide +kernel

/-- A load one instruction before its use is not seen (R298). -/
theorem test_load_distance : core (.ldb 0 1 2 0) { cpu (fun c => (c.setReg 1 7).setReg 2 0x100000) with mem := memWrite [] 0x820000 0x80 } (fun c => (c.reg 1, c.flight))
    = some (7, [.load 2 (.g 1) 0xFFFFFF80]) := by decide +kernel

/-- The spill of the example of file 12, step 1. -/
theorem test_spill : core (.call 0 4) (cpu fun c => { c with st := 0x85001, pc := 0x3A40 }) (fun c => (c.tpc, c.tst, c.tcause, c.st, c.pc))
    = some (0x3A40, 0x85001, 6, 0x85009, 0x130) := by decide +kernel

/-- The same CALL behind the handler, step 5. -/
theorem test_call_slides : core (.call 0 4) (cpu fun c => { c with st := 0x75001, pc := 0x3A40 }) (fun c => (c.lk, c.st, c.slot.map fun x => x.target))
    = some (0x3A48, 0x86001, some (some 0x3A50)) := by decide +kernel

/-- Half of the product sum of R321: a0 after one MACD, and the pointers. -/
theorem test_macd : core (.macd 0 false false 16 17 1 0xF)
    { cpu (fun c => (c.setReg 16 0x100000).setReg 17 0x18000C) with mem := memWrite32 (memWrite32 [] 0x820000 3) 0x83000C 0xFFFFFFFE }
    (fun c => (c.a0.toInt, c.reg 16, c.reg 17)) = some (-6, 0x100004, 0x180008) := by decide +kernel

theorem test_arnd_clamps : core (.arnd 0 false 1 0) (cpu fun c => { c with a0 := 0x80000000 }) (fun c => (c.reg 1, c.flags.v)) = some (0x7FFFFFFF, true) := by
  decide +kernel
theorem test_btas : after (.btas 0 none 0x8001) (cpu id) (fun s => ((s.core 0).flags.c, bitNow s 0 (.priv 1), bitSeen (s.begun 0) 0 0x8001, bitSeen ((s.begun 0).begun 0) 0 0x8001))
    = some (false, true, false, true) := by decide +kernel
theorem test_trap_in_slot : core (.trap 0 3) (cpu fun c => { c with slot := some { from_ := 0x40 }, pc := 0x44 }) (fun c => (c.tcause, c.tpc)) = some (0x101, 0x40) := by
  decide +kernel

/-- The micro-ops of the example of file 13, from C2's entry 0. -/
def satadd : List Word := [0x04095000, 0x14290000, 0x144A0000, 0x0C211000, 0x37E1F800, 0x009FFFFF, 0x1C84F801, 0x2069F81F, 0x14632000, 0xB9030005]

/-- A state that holds them. -/
def withSatadd : State :=
  { running State.reset with mem := memWriteList [] 0xE000 (wordBytes satadd) }.modCore 2 fun c =>
    ({ c with run := .running }.setReg 8 0x70000000).setReg 9 0x20000000

theorem test_satadd_valid : after (.decCtrl .host 2 1) withSatadd (fun s => decCtrlWord (s.core 2)) = some 1 := by decide +kernel
theorem test_satadd : after (.cx 2 0 24 8 9 0)
    (((withSatadd.modCore 2 fun c => { c with valid := 1 }).modGroup 2 fun g => { g with coreRun := true }).modDev fun d => { d with xin := true, vsysOk := true, pll := true })
    (fun s => (s.core 2).reg 24) = some 0x7FFFFFFF := by decide +kernel

/-- CRC-32 of the catalogue's check string, complemented at both ends, from the step of R323. -/
theorem test_crc32 : crc32 [0x31, 0x32, 0x33, 0x34, 0x35, 0x36, 0x37, 0x38, 0x39] = 0xCBF43926 := by decide +kernel

-- registers of the examples

/-- CC_STATUS of P20 (file 02). -/
theorem test_cc_status : ccStatus { st := .attachedSrc, polarity := true, raSeen := true, vconnOn := true, attachEvt := true, cableValid := true, cableImax := 2, cableVmax := 3, cableEpr := true }
    = 0x0007A873 := by decide +kernel

/-- PD_RX_STATUS behind a completed reassembly (file 03). -/
theorem test_rx_status : rxStatus { fifo := [{ marker := true, frame := { header := 0xF69E, objs := [0x0000803C] } }] } = 0x00000421 := by decide +kernel

/-- PDO_TABLE0 and PDO_TABLE7 (file 04). -/
theorem test_pdo : (readPdo 0x0001912C, readPdo 0x000F01F4) = (.fixed 1000 300, .fixed 9600 500) := by decide +kernel

/-- CONTRACT_ACTIVE in RUN, and CONTRACT_ARMED after the switch (file 04). -/
theorem test_contract_active : contractActive { valid := true, epr := true, kind := 0, objPos := 8, volt := 9600, curr := 500 } = 0xC89601F4 := by decide +kernel
theorem test_contract_armed : contractArmed { twinRun := 0x006E01F4, twinStandby := 0x000A001E } { valid := true, kind := 0, curr := 500, armState := 3, armId := 5, target := true, tmLock := true, twinOn := true, switchCnt := 0x12 }
    = 0x35AC0012 := by decide +kernel

/-- SWAP_STATUS of P20 before and after the fast role swap (file 05). -/
theorem test_swap_before : swapStatus { powerRole := true, dataRole := true, vconnRole := true, frsCap := true, frsArm := true } = 0x00000C07 := by decide +kernel
theorem test_swap_after : swapStatus { dataRole := true, vconnRole := true, frsCap := true, holdOn := true, evt := true, last := 2 } = 0x00020706 := by decide +kernel

/-- BELAY_STATUS of P12 after the trip (file 06). -/
theorem test_belay_status : belayStatus 0x87 { belay := { cause := 2, tripEvt := true, tripA := true, tripB := true, dischIn := true } } = 0x87202C44 := by decide +kernel

/-- CONV_MEAS and CONV_STATUS in RUN (file 07). -/
theorem test_conv_meas : convMeas { ilAvg := 667, vsShown := 0x2580 } = 0x029B2580 := by decide +kernel
theorem test_conv_status : convStatus { on := true, ratio := 1 } = 0x02400000 := by decide +kernel

/-- The ceilings of the example of file 08 with every section wanted on: 3,936.0 W in all. -/
def planter : List LaneClaim :=
  ((List.range 16).map fun n => { lane := n, prio := if n < 8 then 5 else 3, floor := 144, want := 2400, twin := true })
    ++ [{ lane := 16, prio := 6, floor := 50, want := 480 }, { lane := 17, prio := 6, floor := 50, want := 480 }]

theorem test_grants : ((arbitrate 40000 planter).map fun c => c.ceil).sum = 39360 := by decide +kernel
theorem test_sag_cuts_whole : ((arbitrate 32000 planter).map fun c => c.ceil).sum ≤ 32000 := by decide +kernel

/-- IC_SRC(0x031) at step 3 of the example of file 11. -/
theorem test_ic_src : icSrcWord { count := 1, cntEn := true, group := 2, routeEn := true, target := 0 } = 0x01410208 := by decide +kernel

/-- TETHER_STATUS of T1 before the fault and as successor (file 15). -/
theorem test_tether_status : tetherStatus (of [fun s => s.modTether fun t => { t with acq := true, timeLock := true, n := 2, pos := some 1 },
    fun s => s.modImage fun x => { x with runAbi := 0x030407 }, fun s => s.modTether fun t => { t with hitchVer := 3 }]) = 0x03033021 := by decide +kernel

/-- The headers of the example of file 16. -/
theorem test_header_write : (let h := hspiHeader [0x02, 0x00, 0x00, 0x00, 0x08, 0x00, 0x01, 0xEF]; (h.crcOk, h.cmd, h.addr, h.len)) = (true, 2, 8, 1) := by decide +kernel
theorem test_header_read : (let h := hspiHeader [0x03, 0x00, 0x00, 0x00, 0x0C, 0x00, 0x01, 0x9B]; (h.crcOk, h.cmd, h.addr, h.len)) = (true, 3, 12, 1) := by decide +kernel

/-- FUSE_STATUS behind AUDIT and MEAS (file 18). -/
theorem test_fuse_status : fuseStatus (of [fun s => s.modSec fun x => { x with vprog := 2480, audited := true, wstat := (Vector.replicate 512 0).set 257 2 }]) = 0x9B000018 := by
  decide +kernel

/-- GRP_STATUS and LANE_STATUS are read by lane state; P7's bit p07.sw_on stands at 0x0E20 (file 19). -/
theorem test_bit_address : bitPlace 0x0E20 = .lane 7 32 := by decide

-- file 20, "Ball map", the example and the counts of R440
theorem test_ball_rows : rowNames.length = 46 ∧ rowNames[19]? = some "AA" ∧ rowNames[45]? = some "BH" := by decide +kernel
theorem test_ball_p19 : (ballAt 46 31, ballAt 45 31, ballAt 45 29, ballAt 44 27, ballAt 43 31, ballAt 42 28, ballAt 41 30)
    = (.vbout 19, .vbout 19, .cc 19 .cc1, .vbin 19, .vbin 19, .pwm 19 3, .sl 19) := by decide +kernel
theorem test_ball_gnd : ballCount (· = .gnd) = 1302 := by decide +kernel

-- R333
theorem test_li : (Machine.li 0 1 0xFFFF8000, Machine.li 0 1 0x12345678) = ([.movi 0 1 0x8000], [.movi 0 1 0x5678, .movhi 0 1 0x1234]) := by decide

-- states that meet the hypotheses of the obligations: general and Camku

/-- Core 0 runs with a delay slot in front. -/
def slotted (x : Slot) : State := cpu fun c => { c with slot := some x, pc := x.from_ + 4 }

theorem meets_StepRunsFront : ∃ (c : Instr) (rest : List Instr) (s : State), s.pending = c :: rest :=
  ⟨.powerUp, [.tamper], { State.reset with pending := [.powerUp, .tamper] }, by decide +kernel⟩

theorem meets_EmptyQueueTicks :
    (∃ s : State, s.pending = [] ∧ (s.dev.xin = false ∨ s.dev.vsysOk = false ∨ s.dev.resetLow = true)) ∧
    ∃ s : State, s.pending = [] ∧ s.dev.xin = true ∧ s.dev.vsysOk = true ∧ s.dev.resetLow = false :=
  ⟨⟨of [fun s => s.modDev fun d => { d with resetLow := true }], by decide +kernel⟩, cpu id, by decide +kernel⟩

theorem meets_StepKeepsOk : ∃ s : State, s.ok ∧ s.pending ≠ [] :=
  ⟨{ cpu id with pending := [.powerUp], mem := memWrite [] 0x110000 7 },
    by unfold State.ok PdLane.ok; decide +kernel⟩

theorem meets_DecodeOfEncode : ∃ (i : Instr) (t : CoreId) (w : Word), encodeCamku i = some (t, w) := ⟨.call 3 0x3FFFFFF, 3, 0x67FFFFFF, by decide⟩

/-- AddSubtract, LogicAndProducts, Shifts, Compares, ImmediatesAndMoves, MovesToSpecials, BitTests, Accumulates and AccumulatorParts ask for this alone. -/
theorem meets_fetches : ∃ (t : CoreId) (s : State), s.fetches t := ⟨0, cpu id, by unfold State.fetches; decide +kernel⟩

theorem meets_Distances :
    (∃ (s : State) (t : CoreId), (s.core t).flight = [.load 2 (.g 1) 5]) ∧ (∃ (s : State) (t : CoreId), (s.core t).flight = [.load 1 (.g 1) 5]) ∧
    (∃ (s : State) (t : CoreId), (s.core t).flight = [.ctrl 4 9 5]) ∧ (∃ (s : State) (t : CoreId), (s.core t).flight = [.ctrl 1 0 5]) ∧
    (∃ (s : State) (t : CoreId), (s.core t).flight = [.ctrl 1 9 5]) ∧ (∃ (s : State) (t : CoreId), (s.core t).flight = [.ctrl 1 11 5]) ∧
    (∃ (s : State) (t : CoreId), (s.core t).flight = [.ctrl 1 7 5]) ∧ (∃ (s : State) (t : CoreId), (s.core t).flight = [.ctrl 1 12 5]) ∧
    ∃ (s : State) (t : CoreId), (s.core t).flight = [.ie 1 true] :=
  ⟨⟨cpu fun c => { c with flight := [.load 2 (.g 1) 5] }, 0, by decide +kernel⟩, ⟨cpu fun c => { c with flight := [.load 1 (.g 1) 5] }, 0, by decide +kernel⟩,
    ⟨cpu fun c => { c with flight := [.ctrl 4 9 5] }, 0, by decide +kernel⟩, ⟨cpu fun c => { c with flight := [.ctrl 1 0 5] }, 0, by decide +kernel⟩,
    ⟨cpu fun c => { c with flight := [.ctrl 1 9 5] }, 0, by decide +kernel⟩, ⟨cpu fun c => { c with flight := [.ctrl 1 11 5] }, 0, by decide +kernel⟩,
    ⟨cpu fun c => { c with flight := [.ctrl 1 7 5] }, 0, by decide +kernel⟩, ⟨cpu fun c => { c with flight := [.ctrl 1 12 5] }, 0, by decide +kernel⟩,
    cpu fun c => { c with flight := [.ie 1 true] }, 0, by decide +kernel⟩

theorem meets_FetchFirst :
    (∃ (i : Instr) (t : CoreId) (w : Word) (s : State), encodeCamku i = some (t, w) ∧ ((s.core t).run ≠ .running ∨ s.clocked t = false)) ∧
    (∃ (i : Instr) (t : CoreId) (w : Word) (s : State) (k : Nat),
      encodeCamku i = some (t, w) ∧ (s.core t).run = .running ∧ s.clocked t = true ∧ fetchCause (s.begun t) t = some k) ∧
    ∃ s : State, encodeCamku (.nop 0) = some (0, 0x68000000) ∧ (s.core 0).run = .running ∧ s.clocked 0 = true ∧ fetchCause (s.begun 0) 0 = none ∧
      breaksAt (s.begun 0) 0 = true :=
  ⟨⟨.nop 0, 0, 0x68000000, State.reset, by decide +kernel⟩, ⟨.nop 0, 0, 0x68000000, cpu fun c => { c with pc := 0x20000 }, 4, by decide +kernel⟩,
    (cpu fun c => { c with bkpts := [c.pc] }).modSec fun x => { x with unlocked := true }, by decide +kernel⟩

/-- A base address in g2 of core 0. -/
def atBase (a : Word) : State := cpu fun c => c.setReg 2 a

/-- Core 0's register file and place as a load or store with base g2 and offset 0 sees them. -/
def placed (s : State) : Option Place := placeOf (s.begun 0) 0 (((s.begun 0).core 0).reg 2).toNat

theorem meets_Loads :
    (∃ (s : State) (h : Nat), s.fetches 0 ∧ placed s = some (.data h) ∧ loadCause (s.begun 0) 0 (((s.begun 0).core 0).reg 2) 4 = none) ∧
    (∃ (s : State) (h : Nat), s.fetches 0 ∧ placed s = some (.iram h) ∧ loadCause (s.begun 0) 0 (((s.begun 0).core 0).reg 2) 4 = none) ∧
    (∃ (s : State) (h : Nat), s.fetches 0 ∧ placed s = some (.shared h) ∧ loadCause (s.begun 0) 0 (((s.begun 0).core 0).reg 2) 1 = none) ∧
    (∃ s : State, s.fetches 0 ∧ (((s.begun 0).core 0).reg 2).toNat % 4 ≠ 0) ∧
    (∃ s : State, s.fetches 0 ∧ (((s.begun 0).core 0).reg 2).toNat % 4 = 0 ∧ placed s = none) ∧
    (∃ (s : State) (h : Nat), s.fetches 0 ∧ placed s = some (.reg h) ∧ loadCause (s.begun 0) 0 (((s.begun 0).core 0).reg 2) 4 = none) ∧
    (∃ (s : State) (h : Nat), s.fetches 4 ∧ placeOf (s.begun 4) 4 (((s.begun 4).core 4).reg 2).toNat = some (.rom h) ∧
      loadCause (s.begun 4) 4 (((s.begun 4).core 4).reg 2) 4 = none) ∧
    (∃ (s : State) (h : Nat), s.fetches 0 ∧ placed s = some (.map h) ∧ loadCause (s.begun 0) 0 (((s.begun 0).core 0).reg 2) 2 = none) ∧
    (∃ (s : State) (h : Nat), s.fetches 0 ∧ (((s.begun 0).core 0).reg 2).toNat % 2 = 0 ∧ placed s = some (.iram h)) ∧
    (∃ (s : State) (h : Nat), s.fetches 0 ∧ placed s = some (.data h) ∧ wordBad (s.begun 0) h = true) ∧
    ∃ (s : State) (h : Nat), s.fetches 0 ∧ placed s = some (.shared h) ∧ wordBad (s.begun 0) h = true := by
  unfold State.fetches
  exact ⟨⟨atBase 0x10FFFC, 0x82FFFC, by decide +kernel⟩, ⟨atBase 0x1FFFC, 0x81FFFC, by decide +kernel⟩, ⟨atBase 0x400001, 0x100001, by decide +kernel⟩,
    ⟨atBase 0x100002, by decide +kernel⟩, ⟨atBase 0x110000, by decide +kernel⟩, ⟨atBase 0x40000000, 0, by decide +kernel⟩,
    ⟨((cpu id).modCore 4 fun c => { c.setReg 2 0x317FFC with run := .running }).modDev fun d => { d with state := .loader }, 0x17FFC, by decide +kernel⟩,
    ⟨atBase 0x603FFFFE, 0x7FFFFE, by decide +kernel⟩, ⟨atBase 0x1FFFE, 0x81FFFE, by decide +kernel⟩,
    ⟨(atBase 0x100000).modCore 0 fun c => { c with eccBad := [0x820000] }, 0x820000, by decide +kernel⟩,
    (atBase 0x400000).modSup fun p => { p with eccShared := [0x100000] }, 0x100000, by decide +kernel⟩

theorem meets_Stores :
    (∃ (s : State) (h : Nat), s.fetches 0 ∧ placed s = some (.data h) ∧ storeCause (s.begun 0) 0 (((s.begun 0).core 0).reg 2) 4 = none) ∧
    (∃ (s : State) (h : Nat), s.fetches 0 ∧ placed s = some (.shared h) ∧ storeCause (s.begun 0) 0 (((s.begun 0).core 0).reg 2) 1 = none) ∧
    (∃ s : State, s.fetches 0 ∧ (((s.begun 0).core 0).reg 2).toNat % 2 ≠ 0) ∧
    (∃ s : State, s.fetches 0 ∧ (((s.begun 0).core 0).reg 2).toNat % 4 = 0 ∧ placed s = none) ∧
    (∃ (s : State) (h : Nat), s.fetches 4 ∧ placeOf (s.begun 4) 4 (((s.begun 4).core 4).reg 2).toNat = some (.rom h)) ∧
    (∃ (s : State) (h : Nat), s.fetches 0 ∧ placed s = some (.map h) ∧ (s.begun 0).swath.en = true) ∧
    ∃ (s : State) (h : Nat), s.fetches 0 ∧ placed s = some (.reg h) ∧ (((s.begun 0).core 0).reg 2).toNat % 4 = 0 := by
  unfold State.fetches
  exact ⟨⟨atBase 0x100000, 0x820000, by decide +kernel⟩, ⟨atBase 0x5FFFFF, 0x2FFFFF, by decide +kernel⟩, ⟨atBase 0x100001, by decide +kernel⟩,
    ⟨atBase 0x20000, by decide +kernel⟩,
    ⟨((cpu id).modCore 4 fun c => { c.setReg 2 0x317FFC with run := .running }).modDev fun d => { d with state := .loader }, 0x17FFC, by decide +kernel⟩,
    ⟨(atBase 0x60000000).modSwath fun x => { x with ctrl := 1, powered := true }, 0x400000, by decide +kernel⟩,
    atBase 0x40000000, 0, by decide +kernel⟩

theorem meets_TrapEntry :
    (∃ (s : State) (t : CoreId) (k : Nat), k < 0x20 ∧ (s.core t).tm = true) ∧
    (∃ (s : State) (t : CoreId) (k : Nat), k < 0x20 ∧ (s.core t).tm = false ∧ (s.core t).slot = none) ∧
    ∃ (s : State) (t : CoreId) (k : Nat) (x : Slot), k < 0x20 ∧ (s.core t).tm = false ∧ (s.core t).slot = some x :=
  ⟨⟨cpu fun c => { c with st := 0x10008 }, 0, 0x1F, by decide +kernel⟩, ⟨cpu id, 0, 0x1F, by decide +kernel⟩,
    slotted { target := some 0x40 }, 0, 1, { target := some 0x40 }, by decide +kernel⟩

theorem meets_TrapsAndStops :
    (∃ s : State, s.fetches 0 ∧ (s.core 0).slot = none) ∧ (∃ (w : Word) (s : State), s.fetches 0 ∧ decodeCamku 0 w = none) ∧
    ∃ (w : Word) (s : State), s.fetches 0 ∧ decodeCamku 0 w ≠ none := by
  unfold State.fetches
  exact ⟨⟨cpu id, by decide +kernel⟩, ⟨0, cpu id, by decide +kernel⟩, 0x68000000, cpu id, by decide +kernel⟩

theorem meets_BarredFromSlots :
    ∃ s : State, s.fetches 0 ∧ (s.core 0).slot.isSome = true ∧ ((s.begun 0).core 0).tm = false ∧ ∃ cond disp, Instr.bcc 0 0 4 = .bcc 0 cond disp := by
  unfold State.fetches
  exact ⟨slotted { target := some 0x40 }, by decide +kernel, by decide +kernel, by decide +kernel, 0, 4, rfl⟩

/-- The condition of Bcc is 1, which z meets. -/
theorem meets_Branches :
    (∃ s : State, s.fetches 0 ∧ (s.core 0).slot = none ∧ ((s.begun 0).core 0).flags.z) ∧
    (∃ s : State, s.fetches 0 ∧ (s.core 0).slot = none ∧ ¬ ((s.begun 0).core 0).flags.z) ∧
    ∃ s : State, s.fetches 0 ∧ (s.core 0).slot.isSome = true := by
  unfold State.fetches
  exact ⟨⟨cpu fun c => c.setFlags { z := true, n := false, c := false, v := false }, by decide +kernel⟩,
    ⟨cpu fun c => c.setFlags { z := false, n := false, c := false, v := false }, by decide +kernel⟩, slotted { }, by decide +kernel⟩

theorem meets_CallsAndReturns :
    (∃ s : State, s.fetches 0 ∧ (s.core 0).slot = none ∧ ((s.begun 0).core 0).wdepth = 8) ∧
    (∃ s : State, s.fetches 0 ∧ (s.core 0).slot = none ∧ ((s.begun 0).core 0).wdepth < 8 ∧ ((s.begun 0).core 0).tm = false ∧ ((s.begun 0).core 0).fa = false) ∧
    (∃ s : State, s.fetches 0 ∧ (s.core 0).slot = none ∧ ((s.begun 0).core 0).wdepth = 1) ∧
    ∃ s : State, s.fetches 0 ∧ (s.core 0).slot = none ∧ 1 < ((s.begun 0).core 0).wdepth := by
  unfold State.fetches
  exact ⟨⟨cpu fun c => { c with st := 0x80000 }, by decide +kernel⟩, ⟨cpu fun c => { c with st := 0x70000 }, by decide +kernel⟩,
    ⟨cpu id, by decide +kernel⟩, cpu fun c => { c with st := 0x20000 }, by decide +kernel⟩

theorem meets_HandlerReturns :
    (∃ s : State, s.fetches 0 ∧ (s.core 0).slot = none ∧ ((s.begun 0).core 0).fa = false ∧ ((s.begun 0).core 0).na = false ∧ ((s.begun 0).core 0).tm = false) ∧
    (∃ (s : State) (x : SourceId), s.fetches 0 ∧ (s.core 0).slot = none ∧ ((s.begun 0).core 0).fa = true ∧
      x.val = ((s.begun 0).ic 0).curF.toNat % 1024 ∧ x.val ≠ 0x3FF ∧ ((s.begun 0).src x).claimer.toNat = 0) ∧
    (∃ s : State, s.fetches 0 ∧ (s.core 0).slot = none ∧ ((s.begun 0).core 0).fa = false ∧ ((s.begun 0).core 0).na = true ∧ ((s.begun 0).core 0).wdepth = 1) ∧
    (∃ (s : State) (x : SourceId), s.fetches 0 ∧ (s.core 0).slot = none ∧ ((s.begun 0).core 0).fa = false ∧ ((s.begun 0).core 0).na = true ∧
      1 < ((s.begun 0).core 0).wdepth ∧ x.val = ((s.begun 0).ic 0).curN.toNat % 1024 ∧ x.val ≠ 0x3FF ∧ ((s.begun 0).src x).claimer.toNat = 0) ∧
    (∃ s : State, s.fetches 0 ∧ (s.core 0).slot = none ∧ ((s.begun 0).core 0).tm = true) ∧
    (∀ k : Fin 3, ∃ (s : State) (x : Slot) (target : Word), s.fetches 0 ∧ (s.core 0).slot = some x ∧ x.retx = true ∧ x.target = some target ∧
      fld ((s.begun 0).core 0).tcause 7 0 = 6 + k.val ∧ 1 ≤ ((s.begun 0).core 0).wdepth ∧ ((s.begun 0).core 0).wdepth ≤ 8) := by
  unfold State.fetches
  refine ⟨⟨cpu id, by decide +kernel⟩,
    ⟨(cpu fun c => { c with st := 0x10004 }).modIc 0 fun i => { i with curF := 0x01000005 }, 5, by decide +kernel⟩,
    ⟨cpu fun c => { c with st := 0x10002 }, by decide +kernel⟩,
    ⟨(cpu fun c => { c with st := 0x20002 }).modIc 0 fun i => { i with curN := 0x01000005 }, 5, by decide +kernel⟩,
    ⟨cpu fun c => { c with st := 0x10008 }, by decide +kernel⟩, fun k =>
      ⟨cpu fun c => { c with slot := some { target := some 0x40, retx := true }, st := 0x10008, pc := 4, tcause := BitVec.ofNat 32 (6 + k.val) },
        { target := some 0x40, retx := true }, 0x40, ?_⟩⟩
  revert k
  decide +kernel

theorem meets_BitWrites :
    (∃ (ba : BitVec 16) (k : _) (s : State), s.fetches 0 ∧ bitPlace ba.toNat = .priv k ∧ (s.core 0).slot = none) ∧
    (∃ (ba : BitVec 16) (l : LaneId) (s : State), s.fetches 0 ∧ bitPlace ba.toNat = .lane l 24 ∧ laneBitOwner (s.begun 0) 0 l = true ∧ (s.begun 0).fusedOff l = false) ∧
    ∃ (ba : BitVec 16) (s : State), s.fetches 0 ∧ bitPlace ba.toNat = .reserved := by
  unfold State.fetches
  exact ⟨⟨0x8007, 7, cpu id, by decide +kernel⟩, ⟨0x0218, 1, allPorts (cpu id), by decide +kernel⟩, 0x4403, cpu id, by decide +kernel⟩

theorem meets_MultiplyAccumulateDual :
    (∃ rx ry : RegCode, rx = ry) ∧
    (∃ s : State, s.fetches 0 ∧ (((s.begun 0).core 0).reg 2).toNat % 4 = 0 ∧ (((s.begun 0).core 0).reg 3).toNat % 4 = 0 ∧ 0x110000 ≤ (((s.begun 0).core 0).reg 2).toNat) ∧
    (∃ s : State, s.fetches 0 ∧ (((s.begun 0).core 0).reg 2).toNat % 4 = 0 ∧ (((s.begun 0).core 0).reg 3).toNat % 4 = 0 ∧ (((s.begun 0).core 0).reg 2).toNat = 0x10FFFC ∧ (((s.begun 0).core 0).reg 3).toNat = 0x190000) ∧
    (∃ s : State, s.fetches 0 ∧ (((s.begun 0).core 0).reg 2).toNat = 0x100002) ∧
    (∃ s : State, s.fetches 0 ∧ (((s.begun 0).core 0).reg 2).toNat = 0x100000 ∧ (((s.begun 0).core 0).reg 3).toNat = 0x180001) ∧
    (∃ s : State, s.fetches 0 ∧ (((s.begun 0).core 0).reg 2).toNat = 0x10FFFC ∧ (((s.begun 0).core 0).reg 3).toNat = 0x180000 ∧ wordBad (s.begun 0) 0x82FFFC = true) ∧
    (∃ s : State, s.fetches 0 ∧ (((s.begun 0).core 0).reg 2).toNat = 0x10FFFC ∧ (((s.begun 0).core 0).reg 3).toNat = 0x180000 ∧ wordBad (s.begun 0) 0x82FFFC = false ∧ wordBad (s.begun 0) 0x830000 = true) ∧
    ∃ s : State, s.fetches 0 ∧ (s.core 0).slot = none ∧ (((s.begun 0).core 0).reg 2).toNat = 0x10FFFC ∧ (((s.begun 0).core 0).reg 3).toNat = 0x180000 ∧
      wordBad (s.begun 0) 0x82FFFC = false ∧ wordBad (s.begun 0) 0x830000 = false := by
  unfold State.fetches
  exact ⟨⟨0, 0, rfl⟩, ⟨atBase 0x110000, by decide +kernel⟩, ⟨cpu fun c => (c.setReg 2 0x10FFFC).setReg 3 0x190000, by decide +kernel⟩,
    ⟨atBase 0x100002, by decide +kernel⟩, ⟨cpu fun c => (c.setReg 2 0x100000).setReg 3 0x180001, by decide +kernel⟩,
    ⟨cpu fun c => { (c.setReg 2 0x10FFFC).setReg 3 0x180000 with eccBad := [0x82FFFC] }, by decide +kernel⟩,
    ⟨cpu fun c => { (c.setReg 2 0x10FFFC).setReg 3 0x180000 with eccBad := [0x830000] }, by decide +kernel⟩,
    cpu fun c => (c.setReg 2 0x10FFFC).setReg 3 0x180000, by decide +kernel⟩

theorem meets_RepeatElements :
    (∃ s : State, s.fetches 0 ∧ (s.core 0).slot = none ∧ ((s.begun 0).core 0).xc = 0) ∧
    ∀ n : Fin 3, ∃ (x y : Nat) (s : State), s.fetches 0 ∧ (s.core 0).slot = none ∧ ((s.begun 0).core 0).xc = 1 ∧
      placeOf (s.begun 0) 0 ((s.begun 0).core 0).xs.toNat = some (.data x) ∧ placeOf (s.begun 0) 0 ((s.begun 0).core 0).xd.toNat = some (.data y) ∧
      wordBad (s.begun 0) x = false ∧ wordBad (s.begun 0) y = false ∧
      ((s.begun 0).core 0).xs.toNat % 2 ^ n.val = 0 ∧ ((s.begun 0).core 0).xd.toNat % 2 ^ n.val = 0 := by
  unfold State.fetches
  exact ⟨⟨cpu id, by decide +kernel⟩, fun n =>
    ⟨0x820000, 0x83FFFC, cpu fun c => { c with xc := 1, xs := 0x100000, xd := 0x18FFFC }, by revert n; decide +kernel⟩⟩

theorem meets_FillRuns :
    ∀ (z : Fin 3) (due : Bool), ∃ s : State, s.fetches 0 ∧ (s.core 0).slot = none ∧ ((s.begun 0).core 0).xd.toNat % 2 ^ z.val = 0 ∧
      ((s.begun 0).core 0).xc.toNat = 3 ∧ claimDue (s.begun 0) 0 = due ∧
      ∀ k, k < 3 → 0x100000 ≤ (((s.begun 0).core 0).xd - BitVec.ofNat 32 (k * 2 ^ z.val)).toNat ∧
        (((s.begun 0).core 0).xd - BitVec.ofNat 32 (k * 2 ^ z.val)).toNat < 0x110000 := by
  unfold State.fetches
  exact fun z due => ⟨(cpu fun c => { c with xc := 3, xd := 0x10FFFC, st := if due then 0x10001 else 0x10000 }).modIc 0 fun i => { i with withdrawn := some true },
    by revert z due; decide +kernel⟩

/-- Entry 3 of core 0 with the one micro-op w. -/
def entry3 (w : Word) : State := { cpu fun c => { c with valid := 8 } with mem := memWrite32 [] 0xD180 w }

theorem meets_CustomerOpcodes :
    (∃ s : State, s.fetches 0 ∧ ((s.begun 0).core 0).valid.getLsbD 3 = false) ∧
    ∀ op : Fin 3, ∃ s : State, s.fetches 0 ∧ ((s.begun 0).core 0).valid.getLsbD 3 = true ∧ eccAt (s.begun 0) 0 0xD180 = false ∧
      let w := memRead32 (s.begun 0).mem 0xD180
      w.getLsbD 31 = true ∧ w.extractLsb' 21 5 = 8 ∧ w.extractLsb' 16 5 = 9 ∧ w.extractLsb' 11 5 = 10 ∧ w.extractLsb' 26 5 = BitVec.ofNat 5 (1 + op.val) := by
  unfold State.fetches
  exact ⟨⟨cpu id, by decide +kernel⟩, fun op => ⟨entry3 (BitVec.ofNat 32 (0x81095001 + op.val * 0x4000000 + 0x4000000)), by revert op; decide +kernel⟩⟩

theorem meets_CeilingsWithinBudget : ∃ (b : Int) (cs : List LaneClaim),
    0 ≤ b ∧ (cs.map fun c => (c.floor : Int)).sum ≤ b ∧ (arbitrate b cs).any (fun c => c.twin) = true :=
  ⟨40000, planter, by decide +kernel⟩

-- states that meet the hypotheses of the obligations: the commands of the block

/-- A lane's settings as an application would write them. -/
def goodCfg (c : LaneCfg) : LaneCfg := { c with ccCtrl := 0x00022001, pdo := c.pdo.set 0 0x0001912C, ilimSet := 0x003C003C, vconvMax := 1100, ovpSet := 0x0A1E0808, convStage := 0x3C010A64, ci := c.ci.set 0 1, cv := c.cv.set 0 1 }

/-- The lane's policy core runs the base image and serves it. -/
def serving (s : State) (l : LaneId) : State := (s.modPd l fun p => { p with arActive := false }).modCore (serverOf s (groupOf l)) fun c => { c with baseImg := true, run := .running }

/-- The supplies and the link of the lane's group stand. -/
def clocking (s : State) (l : LaneId) : State := (s.modDev fun d => { d with vcoreOk := true, vioOk := true, vconnSupOk := true }).modGroup (groupOf l) fun g => { g with linkOk := true, thermShut := false }

/-- A device on which nothing stands against RUN. -/
def runnable (_ : State) : State := { State.reset with dev := { State.reset.dev with state := .ready }, bus := { State.reset.bus with budgetW := 1000 }, tether := { State.reset.tether with acq := true }, sec := { State.reset.sec with hwType := some 1 } }

/-- A device with an image whose marks are in order. -/
def goodImage (s : State) : State :=
  let h : List Byte := [0x55, 0x42, 0x58, 0x4D, 1, 0, 0, 0, 1] ++ List.replicate 19 0 ++ [16] ++ List.replicate 499 0
  { s with image := { s.image with store := memWriteList [] 0 (h.map (~~~·)) }, sec := { s.sec with hwType := some 1, wstat := Vector.replicate 512 1, shadow := Vector.ofFn fun i => (digestWords (Config.sha256 (List.replicate 64 0))).getD ((i.val - 160) % 8) 0 } }

/-- No source routed and none pending. -/
def quiet (s : State) : State := { s with srcs := Vector.replicate 1024 { } }
theorem quiet_src (s : State) (x : SourceId) : (quiet s).src x = { } := by
  simp [quiet, State.src, Vector.get]
def readyRun : State := quiet { State.reset with dev := { State.reset.dev with state := .ready }, bus := { State.reset.bus with budgetW := 1000 }, tether := { State.reset.tether with acq := true }, sec := { State.reset.sec with hwType := some 1 } }
/-- With no source routed, no route is wrong. -/
theorem routes_quiet {s : State} (h : ∀ x, s.src x = { }) : allSources.any (routeWrong s) = false := by
  rw [List.any_eq_false]
  intro x _
  unfold routeWrong
  rw [h]
  simp
theorem none_pending {s : State} (h : ∀ x, s.src x = { }) (p : SourceId → Bool) : (allSources.any fun x => p x && (s.src x).pending) = false := by
  rw [List.any_eq_false]
  intro x _
  rw [h]
  simp [IcSrc.pending]
def readyRunSet : State := readyRun.modDev fun d => { d with mapKeep := bitOf (1 : Word) 2, run := true, watch := false }
theorem readyRun_passes : runFails readyRunSet (bitOf (1 : Word) 1) false = [] := by
  unfold runFails deviceCodes
  rw [routes_quiet (s := readyRunSet) fun x => quiet_src readyRun x]
  decide +kernel
def withOne (fast : Bool) : State :=
  (((quiet State.reset).setCore 0 { State.reset.core 0 with run := .running, st := 0x10001 }).modIc 0 fun i => { i with mask := Vector.replicate 32 0, maskEff := Vector.replicate 32 0, fdisEff := false }).modSrc 0 fun c => { c with routeEn := true, count := 1, fast := fast, target := 0 }
theorem only_first {s : State} {t : CoreId} (h0 : deliverable s t 0 = true) (h : ∀ x, x ≠ 0 → (s.src x).pending = false) : chosen s t = some 0 := by
  have hf : allSources.filter (deliverable s t) = [0] := by
    unfold allSources
    rw [List.finRange_succ, List.filter_cons_of_pos h0, List.filter_eq_nil_iff.mpr]
    intro x hx
    obtain ⟨y, _, rfl⟩ := List.mem_map.mp hx
    unfold deliverable
    dsimp only
    rw [h _ (Fin.succ_ne_zero y)]
    simp
  unfold chosen
  rw [hf]
  rfl
theorem withOne_src (fast : Bool) (x : SourceId) (h : x ≠ 0) : ((withOne fast).src x).pending = false := by
  have : (withOne fast).src x = { } := by
    have hx : (x.val : Nat) ≠ 0 := fun e => h (Fin.ext e)
    show (Vector.set (Vector.replicate 1024 ({ } : IcSrc)) 0 _ (by decide))[x.val] = _
    rw [Vector.getElem_set_ne _ x.isLt (Ne.symm hx), Vector.getElem_replicate]
  rw [this]
  rfl
theorem chosen_withOne_slow : chosen (withOne false) 0 = some 0 := only_first (by decide +kernel) (withOne_src _)
theorem chosen_withOne_fast : chosen (withOne true) 0 = some 0 := only_first (by decide +kernel) (withOne_src _)
theorem groupMayIdle_witness : ∃ (g : GroupId) (s : State), groupMayIdle s g = true :=
  ⟨0, quiet (of [run, fun s => s.modCore 0 fun c => { c with run := .waiting }]), by
    unfold groupMayIdle; rw [none_pending fun x => quiet_src _ x]; decide +kernel⟩
theorem no_fuse_bad : ∀ j, fuseState ((Vector.replicate 512 0 : Vector (BitVec 39) 512).get j) ≠ 3 ∧ fuseState ((Vector.replicate 512 0 : Vector (BitVec 39) 512).get j) ≠ 2 := by
  intro j; simp [Vector.get, fuseState]
/-- A fuse image given word by word, as a field reads it. -/
theorem fieldWords_of {x : Security} {f : Nat → Word} (h : x.shadow = Vector.ofFn fun j : Fin 512 => f j.val) {first n : Nat} (hn : first + n ≤ 512) :
    fieldWords x first n = (List.range n).map fun k => f (first + k) := by
  unfold fieldWords
  refine List.map_congr_left fun k hk => ?_
  have hi : first + k < 512 := by have := List.mem_range.mp hk; omega
  unfold Security.word
  rw [h, Vector.toList_ofFn, List.getD_eq_getElem?_getD, List.getElem?_ofFn]
  simp [hi]
/-- Eight words read back one by one. -/
theorem eight_back {d : List Word} (h : d.length = 8) : ((List.range 8).map fun k => d.getD k 0) = d := by
  match d, h with
  | [_, _, _, _, _, _, _, _], _ => rfl
theorem digestWords_length (h : BitVec 256) : (digestWords h).length = 8 := by simp [digestWords]
/-- A fuse map that holds a digest's words from `first` on, and `mode` before it. -/
def hashWord (first : Nat) (d : List Word) (mode : Word) (i : Nat) : Word := if i < first then mode else d.getD (i - first) 0
/-- A device whose fuses hold `d` from `first` on. -/
def hashSet (first : Nat) (d : List Word) (s : State) : State :=
  s.modSec fun x => { x with wstat := Vector.replicate 512 1, shadow := Vector.ofFn fun j : Fin 512 => hashWord first d 1 j.val }
theorem hashSet_field (s : State) {first : Nat} {d : List Word} (hd : d.length = 8) (hf : first + 8 ≤ 512) : fieldWords (hashSet first d s).sec first 8 = d := by
  have h : (hashSet first d s).sec.shadow = Vector.ofFn fun j : Fin 512 => hashWord first d 1 j.val := rfl
  rw [fieldWords_of h hf, List.map_congr_left (g := fun k => d.getD k 0) fun k _ => by simp [hashWord], eight_back hd]
/-- The digest of the pass 0, 0, 0, 0, 0, 0, 0, 5. -/
def passDigest : List Word := digestWords (Config.sha256 (wordBytes [0, 0, 0, 0, 0, 0, 0, 5]))
/-- A device with DBG_MODE 1 and that pass in DBG_HASH. -/
def passSet (s : State) : State := (hashSet 208 passDigest s).modSec fun x => { x with dbgPass := Vector.replicate 8 0, dbgLast := none }
theorem passSet_shadow (s : State) : (passSet s).sec.shadow = Vector.ofFn fun j : Fin 512 => hashWord 208 passDigest 1 j.val := by
  unfold passSet hashSet; rw [State.modSec_sec, State.modSec_sec]
theorem passSet_wstat (s : State) : (passSet s).sec.wstat = Vector.replicate 512 1 := by
  unfold passSet hashSet; rw [State.modSec_sec, State.modSec_sec]
/-- A field of a map with every word Good is present. -/
theorem field_present {x : Security} (h : x.wstat = Vector.replicate 512 1) {first n : Nat} (hp : fieldState { wstat := Vector.replicate 512 1 } first n = .present) :
    fieldState x first n = .present := by
  rw [← hp]; unfold fieldState Security.wordState; rw [h]
theorem passSet_hash (s : State) : fieldWords (passSet s).sec 208 8 = passDigest := by
  rw [fieldWords_of (passSet_shadow s) (by decide), List.map_congr_left (g := fun k => passDigest.getD k 0) fun k _ => by simp [hashWord], eight_back (d := passDigest) (digestWords_length _)]
theorem passSet_mode (s : State) : dbgMode (passSet s).sec = 1 := by
  have hw : fieldWords (passSet s).sec 201 1 = [1] := by rw [fieldWords_of (passSet_shadow s) (by decide)]; rfl
  have h1 : (passSet s).sec.word 201 = 1 := by simpa [fieldWords] using hw
  have hp : fieldState (passSet s).sec 201 1 = .present := by
    exact field_present (passSet_wstat s) (by decide +kernel)
  unfold dbgMode
  rw [hp, h1]
  rfl
theorem passSet_match (s : State) : digestWords (Config.sha256 (wordBytes ((passSet s).modSec fun x => { x with dbgPass := x.dbgPass.set 7 5 }).sec.dbgPass.toList)) = fieldWords (passSet s).sec 208 8 := by
  rw [passSet_hash, State.modSec_sec]
  have : (passSet s).sec.dbgPass = Vector.replicate 8 0 := by unfold passSet; rw [State.modSec_sec]
  rw [this]; rfl
/-- The digest of a PUBKEY of zeros. -/
def keyDigest : List Word := digestWords (Config.sha256 (List.replicate 64 0))
/-- A device whose host asks for a first chunk of 512 bytes. -/
def chunkBase : State :=
  of [fun s => s.modDev fun d => { d with state := .ready }, imaged, fun s => s.modMbx fun m => { m with arg := (Vector.replicate 4 0).set 1 512 }, fun s => s.modSec fun x => { x with hwType := some 1 }]
/-- The same with the header of an image of one block in MBX_BUF and its key in IKH0. -/
def chunkSet : State :=
  { hashSet 160 keyDigest chunkBase with
    mem := memWriteList chunkBase.mem mbxBuf ([0x55, 0x42, 0x58, 0x4D, 1, 0, 0, 0, 1] ++ List.replicate 19 0 ++ [16] ++ List.replicate 479 0 ++ List.replicate 4 255) }
theorem chunkSet_sec : chunkSet.sec = (hashSet 160 keyDigest chunkBase).sec := rfl
theorem chunkSet_key : keyRefused chunkSet.sec (chunkBytes chunkSet) = false := by
  have h1 : chunkSet.sec.wstat = Vector.replicate 512 1 := rfl
  have h2 : fieldWords chunkSet.sec 160 8 = keyDigest := by rw [chunkSet_sec]; exact hashSet_field _ (digestWords_length _) (by decide)
  have h3 : (chunkBytes chunkSet 6).toNat = 0 := by decide +kernel
  have h4 : bytesAt (chunkBytes chunkSet) 64 64 = List.replicate 64 0 := by decide +kernel
  have h5 : fieldState chunkSet.sec 160 8 = .present := field_present h1 (by decide +kernel)
  unfold keyRefused
  rw [h3, h4]
  dsimp only
  rw [show slotWord 0 = 160 from rfl, h5, h2, show digestWords (Config.sha256 (List.replicate 64 0)) = keyDigest from rfl]
  simp
theorem chunkSet_passes : headerRefusal chunkSet (chunkBytes chunkSet) true = none := by
  have h1 : magicOk (chunkBytes chunkSet) = true := by decide +kernel
  have h2 : chunkSet.sec.hwType = some (BitVec.ofNat 32 (leAt (chunkBytes chunkSet) 8 4)) := by decide +kernel
  have h3 : imgBound (chunkBytes chunkSet) = false := by decide +kernel
  have h4 : formRefused (chunkBytes chunkSet) = false := by decide +kernel
  have h5 : imgCommit (chunkBytes chunkSet) = 0xFFFFFFFF := by decide +kernel
  have h6 : imgEnc (chunkBytes chunkSet) = false := by decide +kernel
  simp [headerRefusal, h1, h2, h3, h4, h5, h6, chunkSet_key]

theorem meets_SuppliesAndReset :
    (∃ (s : State), s.sec.standing = []) ∧
    (∃ (s : State), s.sec.standing ≠ []) ∧
    (∃ (s : State), s.dev.resetLow = true ∧ s.dev.vsysOk = true ∧ s.sec.standing = []) ∧
    (∃ (s : State), s.dev.state = .boot ∧ s.dev.vsysOk = true ∧ s.dev.resetLow = false ∧ s.dev.xin = false ∧ s.sec.standing = []) ∧
    (∃ (s : State), (s.dev.state ≠ .boot ∨ (s.dev.xin = true ∧ s.sec.standing = []))) ∧
    (∃ (s : State), s.dev.state = .boot ∧ s.dev.xin = true ∧ s.dev.pll = false ∧ s.sec.standing = []) ∧
    (∃ (s : State), s.dev.vsysWarn = false) ∧
    (∃ (s : State), s.dev.vsysWarn = true) ∧
    (∃ (s : State), s.dev.vsysOk = true ∧ s.dev.resetLow = false) ∧
    (∃ (s : State), s.dev.vsysOk = true ∧ s.dev.resetLow = false) ∧
    (∃ (s : State), s.dev.vsysOk = true ∧ s.dev.resetLow = false) ∧
    (∃ (s : State), s.dev.vsysOk = true ∧ s.dev.resetLow = false) := by
  exact ⟨⟨(of [fun s => s.modSec fun x => { x with tamperLow := false, meshBroken := false, vGlitch := false, cGlitch := false }]), by decide +kernel⟩,
    ⟨(of [fun s => s.modSec fun x => { x with tamperLow := true }]), by decide +kernel⟩,
    ⟨(of [fun s => (s.modDev fun d => { d with resetLow := true, vsysOk := true }).modSec fun x => { x with tamperLow := false, meshBroken := false, vGlitch := false, cGlitch := false }]), by decide +kernel⟩,
    ⟨(of [fun s => (s.modDev fun d => { d with state := .boot, resetLow := false, vsysOk := true, xin := false }).modSec fun x => { x with tamperLow := false, meshBroken := false, vGlitch := false, cGlitch := false }]), by decide +kernel⟩,
    ⟨(of [run]), by decide +kernel⟩,
    ⟨(of [fun s => (s.modDev fun d => { d with state := .boot, xin := true, pll := false }).modSec fun x => { x with tamperLow := false, meshBroken := false, vGlitch := false, cGlitch := false }]), by decide +kernel⟩,
    ⟨(of [fun s => s.modDev fun d => { d with vsysWarn := false }]), by decide +kernel⟩,
    ⟨(of [fun s => s.modDev fun d => { d with vsysWarn := true }]), by decide +kernel⟩,
    ⟨(of [fun s => s.modDev fun d => { d with vsysOk := true, resetLow := false }, fun s => s.modSec fun x => { x with alarmCut := none }]), by decide +kernel⟩,
    ⟨(of [fun s => s.modDev fun d => { d with vsysOk := true, resetLow := false }, fun s => s.modSec fun x => { x with alarmCut := none }]), by decide +kernel⟩,
    ⟨(of [fun s => s.modDev fun d => { d with vsysOk := true, resetLow := false }, fun s => s.modSec fun x => { x with alarmCut := none }]), by decide +kernel⟩,
    ⟨(of [fun s => s.modDev fun d => { d with vsysOk := true, resetLow := false }, fun s => s.modSec fun x => { x with alarmCut := none }]), by decide +kernel⟩⟩

theorem meets_OperatingStates :
    (∃ (code : Byte) (r : Byte) (s : State), s.dev.state = .boot ∧ s.dev.pll = true ∧ s.sec.standing = [] ∧ storeVerdict s = .inl (code, r) ∧ code ≠ 4 ∧ code ≠ 5) ∧
    (∃ (s : State), s.dev.state = .boot ∧ s.dev.pll = true ∧ s.sec.standing = [] ∧ authFailCount (s.modImage fun x => { x with authFails := s.dev.dtime :: x.authFails }) < 3) ∧
    (∃ (s : State), s.dev.state = .boot ∧ s.dev.pll = true ∧ s.sec.standing = []) ∧
    (∃ (a : Agent) (v : Word) (s : State), hostServed s a = true ∧ s.dev.state = .ready ∧ s.dev.trans = .none ∧ s.dev.takeover = none ∧ s.dev.check = none ∧ bitOf v 0 = true ∧ runFails (s.modDev fun d => { d with mapKeep := bitOf v 2, run := true, watch := false }) (bitOf v 1) false = []) ∧
    (∃ (a : Agent) (v : Word) (s : State), hostServed s a = true ∧ s.dev.state = .ready ∧ s.dev.trans = .none ∧ s.dev.takeover = none ∧ s.dev.check = none ∧ bitOf v 0 = true ∧ runFails (s.modDev fun d => { d with mapKeep := bitOf v 2, run := true, watch := false }) (bitOf v 1) false ≠ []) ∧
    (∃ (a : Agent) (v : Word) (s : State), hostServed s a = true ∧ s.dev.state = .ready ∧ s.dev.trans = .none ∧ s.dev.takeover = none ∧ s.dev.check = none ∧ bitOf v 0 = true) ∧
    (∃ (a : Agent) (v : Word) (s : State), hostServed s a = true ∧ s.dev.state = .ready ∧ s.dev.trans = .none ∧ s.dev.takeover = none ∧ s.dev.check.isSome = true ∧ bitOf v 0 = false) ∧
    (∃ (a : Agent) (v : Word) (ports : Word) (s : State), hostServed s a = true ∧ s.dev.state = .ready ∧ s.dev.trans = .none ∧ s.dev.takeover = none ∧ s.dev.check = some { fails := [], ports := ports } ∧ s.mbx.busy = false ∧ bitOf v 0 = true) ∧
    (∃ (a : Agent) (v : Word) (ports : Word) (s : State), hostServed s a = true ∧ s.dev.state = .ready ∧ s.dev.trans = .none ∧ s.dev.takeover = none ∧ s.dev.check = some { fails := [], ports := ports } ∧ s.mbx.busy = true ∧ bitOf v 0 = true) ∧
    (∃ (a : Agent) (l : LaneId) (v : Word) (s : State), hostServed s a = true ∧ s.fusedOff l = false ∧ s.dev.state = .ready ∧ s.dev.check.isSome = true ∧ bitOf v 0 = true) ∧
    (∃ (a : Agent) (v : Word) (s : State), hostServed s a = true ∧ s.dev.state = .run ∧ s.dev.trans = .none ∧ s.dev.takeover = none ∧ bitOf v 0 = false) ∧
    (∃ (a : Agent) (v : Word) (s : State), hostServed s a = true ∧ s.dev.state = .run ∧ s.dev.trans = .none ∧ s.dev.takeover = none ∧ bitOf v 0 = true ∧ bitOf v 1 = true) ∧
    (∃ (s : State), s.dev.trans = .enteringWatch ∧ lanesDown s = true ∧ s.dev.takeover = none ∧ s.dev.run = true ∧ s.dev.watch = true) ∧
    (∃ (a : Agent) (v : Word) (s : State), hostServed s a = true ∧ s.dev.state = .watch ∧ s.dev.trans = .none ∧ s.dev.takeover = none ∧ s.dev.run = true ∧ bitOf v 0 = true ∧ bitOf v 1 = false) ∧
    (∃ (a : Agent) (l : LaneId) (v : Word) (s : State), hostServed s a = true ∧ s.fusedOff l = false ∧ s.dev.state = .run ∧ s.dev.takeover = none ∧ (s.lane l).enabled = false ∧ bitOf v 0 = true ∧ laneCodes (s.modCfg l fun c => { c with laneCtrl := mergeMask (if s.locked then 1 else 0x31) c.laneCtrl v }) l = []) ∧
    (∃ (a : Agent) (l : LaneId) (v : Word) (s : State), hostServed s a = true ∧ s.fusedOff l = false ∧ s.dev.state = .run ∧ s.dev.takeover = none ∧ (s.lane l).enabled = false ∧ bitOf v 0 = true ∧ laneCodes (s.modCfg l fun c => { c with laneCtrl := mergeMask (if s.locked then 1 else 0x31) c.laneCtrl v }) l ≠ []) ∧
    (∃ (a : Agent) (l : LaneId) (v : Word) (s : State), hostServed s a = true ∧ s.fusedOff l = false ∧ s.dev.takeover = none ∧ (s.lane l).enabled = true ∧ bitOf v 0 = false) ∧
    (∃ (g : GroupId) (s : State), groupMayIdle s g = true) ∧
    (∃ (g : GroupId) (s : State), groupMayIdle s g = false) ∧
    (∃ (s : State), s.dev.takeover.isSome = true ∧ s.dev.halting = false) ∧
    (∃ (s : State), (s.dev.takeover = none ∨ s.dev.halting = true)) := by
  exact ⟨⟨1, 0, (of [fun s => (s.modDev fun d => { d with state := .boot, pll := true }).modSec fun x => { x with tamperLow := false, meshBroken := false, vGlitch := false, cGlitch := false }, fun s => { s with image := { s.image with store := [] } }]), by decide +kernel⟩,
    ⟨(of [fun s => (s.modDev fun d => { d with state := .boot, pll := true }).modSec fun x => { x with tamperLow := false, meshBroken := false, vGlitch := false, cGlitch := false }, fun s => (goodImage s).modSec fun x => { x with shadow := Vector.replicate 512 0 }, fun s => s.modImage fun x => { x with authFails := [] }]), by decide +kernel⟩,
    ⟨(of [fun s => (s.modDev fun d => { d with state := .boot, pll := true }).modSec fun x => { x with tamperLow := false, meshBroken := false, vGlitch := false, cGlitch := false }, fun s => goodImage s]), by decide +kernel⟩,
    ⟨.core 4, 1, readyRun, by decide +kernel, by decide +kernel, by decide +kernel, by decide +kernel, by decide +kernel, by decide +kernel, readyRun_passes⟩,
    ⟨.core 4, 1, (of [fun s => s.modDev fun d => { d with takeover := none, trans := .none, state := .ready, check := none }]), by decide +kernel⟩,
    ⟨.core 4, 1, (of [fun s => s.modDev fun d => { d with takeover := none, trans := .none, state := .ready, check := none }]), by decide +kernel⟩,
    ⟨.core 4, 0, (of [fun s => s.modDev fun d => { d with takeover := none, trans := .none, state := .ready, run := true, check := some {} }]), by decide +kernel⟩,
    ⟨.core 4, 1, 0, (of [fun s => s.modDev fun d => { d with takeover := none, trans := .none, state := .ready, run := true, check := some { fails := [], ports := (0 : Word) } }, fun s => s.modMbx fun m => { m with busy := false }]), by decide +kernel⟩,
    ⟨.core 4, 1, 0, (of [fun s => s.modDev fun d => { d with takeover := none, trans := .none, state := .ready, run := true, check := some { fails := [], ports := (0 : Word) } }, fun s => s.modMbx fun m => { m with busy := true }]), by decide +kernel⟩,
    ⟨.core 4, 0, 1, (of [fun s => s.modDev fun d => { d with takeover := none, trans := .none, state := .ready, run := true, check := some {} }, allPorts]), by decide +kernel⟩,
    ⟨.core 4, 0, (of [fun s => s.modDev fun d => { d with takeover := none, trans := .none, state := .run }]), by decide +kernel⟩,
    ⟨.core 4, 3, (of [fun s => s.modDev fun d => { d with takeover := none, trans := .none, state := .run, run := true }]), by decide +kernel⟩,
    ⟨(of [fun s => s.modDev fun d => { d with takeover := none, trans := .enteringWatch, run := true, watch := true }, fun s => { s with lanes := State.reset.lanes }]), by decide +kernel⟩,
    ⟨.core 4, 1, (of [fun s => s.modDev fun d => { d with takeover := none, trans := .none, state := .watch, run := true, watch := true }]), by decide +kernel⟩,
    ⟨.core 4, 0, 1, (of [fun s => s.modDev fun d => { d with takeover := none, trans := .none, state := .run }, fun s => (s.modLane (0 : LaneId) fun _ => laneReset (0 : LaneId)).modSec fun x => { x with laneDis := 0 }, fun s => s.modCfg (0 : LaneId) goodCfg]), by decide +kernel⟩,
    ⟨.core 4, 0, 1, (of [fun s => s.modDev fun d => { d with takeover := none, trans := .none, state := .run }, fun s => (s.modLane (0 : LaneId) fun x => { x with enabled := false }).modSec fun x => { x with laneDis := 0 }]), by decide +kernel⟩,
    ⟨.core 4, 0, 0, (of [fun s => s.modDev fun d => { d with takeover := none, trans := .none, state := .run }, fun s => (s.modLane (0 : LaneId) fun x => { x with enabled := true }).modSec fun x => { x with laneDis := 0 }]), by decide +kernel⟩,
    groupMayIdle_witness,
    ⟨0, State.reset, by decide +kernel⟩,
    ⟨(of [fun s => s.modDev fun d => { d with takeover := some .run, state := .holdover, trans := .none }]), by decide +kernel⟩,
    ⟨(of [fun s => s.modDev fun d => { d with trans := .halting 1 }]), by decide +kernel⟩⟩

theorem meets_CheckRefusals :
    (∃ (a : Agent) (l : LaneId) (v : Word) (code : Nat) (s : State), hostServed s a = true ∧ s.dev.trans = .none ∧ s.dev.takeover = none ∧ s.dev.check = none ∧ bitOf v 0 = true ∧ hostServed s a = true ∧ s.fusedOff l = false ∧ s.dev.state = .run ∧ (((code = 0x35 ∧ (240 < fld ((s.lane l).cfg).laneBudget 8 0 ∨ (fld ((s.lane l).cfg).laneBudget 20 12 ≠ 0 ∧ fld ((s.lane l).cfg).laneBudget 20 12 < fld ((s.lane l).cfg).laneBudget 8 0))) ∨ (code = 0x38 ∧ (fld ((s.lane l).cfg).fwWindow0 31 16 = 0 ∨ fld ((s.lane l).cfg).fwWindow0 15 0 = 0 ∨ fld ((s.lane l).cfg).fwWindow1 15 0 = 0 ∨ fld ((s.lane l).cfg).fwThresh 11 8 = 0 ∨ fld ((s.lane l).cfg).fwThresh 7 4 = 0 ∨ fld ((s.lane l).cfg).fwThresh 3 0 = 0)) : Prop))) ∧
    (∃ (a : Agent) (l : LaneId) (v : Word) (code : Nat) (s : State), hostServed s a = true ∧ s.dev.trans = .none ∧ s.dev.takeover = none ∧ s.dev.check = none ∧ bitOf v 0 = true ∧ hostServed s a = true ∧ s.fusedOff l = false ∧ s.dev.state = .ready ∧ bitOf ((s.lane l).cfg).laneCtrl 0 = true ∧ (((code = 0x35 ∧ (240 < fld ((s.lane l).cfg).laneBudget 8 0 ∨ (fld ((s.lane l).cfg).laneBudget 20 12 ≠ 0 ∧ fld ((s.lane l).cfg).laneBudget 20 12 < fld ((s.lane l).cfg).laneBudget 8 0))) ∨ (code = 0x38 ∧ (fld ((s.lane l).cfg).fwWindow0 31 16 = 0 ∨ fld ((s.lane l).cfg).fwWindow0 15 0 = 0 ∨ fld ((s.lane l).cfg).fwWindow1 15 0 = 0 ∨ fld ((s.lane l).cfg).fwThresh 11 8 = 0 ∨ fld ((s.lane l).cfg).fwThresh 7 4 = 0 ∨ fld ((s.lane l).cfg).fwThresh 3 0 = 0)) : Prop))) ∧
    (∃ (a : Agent) (v : Word) (s : State), hostServed s a = true ∧ s.dev.trans = .none ∧ s.dev.takeover = none ∧ s.dev.check = none ∧ bitOf v 0 = true ∧ hostServed s a = true ∧ s.dev.state = .ready ∧ (((s.tether).posErr = true ∨ (s.tether).acq = false ∨ (fld (s.tether).ctrl 11 8 ≠ 0 ∧ fld (s.tether).ctrl 11 8 ≠ (s.tether).n.val) ∨ (s.solo = false ∧ 1 < (s.tether).n.val ∧ (s.tether).timeLock = false) : Prop))) ∧
    (∃ (a : Agent) (v : Word) (s : State), hostServed s a = true ∧ s.dev.trans = .none ∧ s.dev.takeover = none ∧ s.dev.check = none ∧ bitOf v 0 = true ∧ hostServed s a = true ∧ s.dev.state = .ready ∧ (s.tether).excluded = true) := by
  exact ⟨⟨.core 4, 0, 1, 0x38, (of [fun s => s.modDev fun d => { d with takeover := none, trans := .none, state := .run, check := none }, allPorts, fun s => s.modCfg (0 : LaneId) goodCfg, fun s => s.modCfg (0 : LaneId) fun c => { c with fwWindow0 := 0 }]), by decide +kernel⟩,
    ⟨.core 4, 0, 1, 0x35, (of [fun s => s.modDev fun d => { d with takeover := none, trans := .none, state := .ready, check := none }, allPorts, fun s => runnable s, fun s => s.modCfg (0 : LaneId) goodCfg, fun s => s.modCfg (0 : LaneId) fun c => { c with laneBudget := 0x000AA0F0, laneCtrl := 1 }]), by decide +kernel⟩,
    ⟨.core 4, 1, (of [fun s => s.modDev fun d => { d with takeover := none, trans := .none, state := .ready, check := none }, fun s => runnable s, fun s => s.modTether fun t => { t with acq := false }]), by decide +kernel⟩,
    ⟨.core 4, 1, (of [fun s => s.modDev fun d => { d with takeover := none, trans := .none, state := .ready, check := none }, fun s => runnable s, fun s => s.modTether fun t => { t with excluded := true }]), by decide +kernel⟩⟩

theorem meets_AttachDetection :
    (∃ (l : LaneId) (s : State), ((s.lane l).cfg.mode = 3 ∨ (s.lane l).cfg.mode = 4) ∧ (s.lane l).cc.st = .unattachedSrc) ∧
    (∃ (l : LaneId) (s : State), ((s.lane l).cfg.mode = 3 ∨ (s.lane l).cfg.mode = 4) ∧ (s.lane l).cc.st = .unattachedSnk) ∧
    (∃ (l : LaneId) (cc1 : CcTerm) (cc2 : CcTerm) (s : State), (s.lane l).cc.st = .unattachedSrc ∧ (s.lane l).cfg.harness = false ∧ cc2 = .rd ∧ cc1 ≠ .rd) ∧
    (∃ (l : LaneId) (cc1 : CcTerm) (cc2 : CcTerm) (s : State), (s.lane l).cc.st = .unattachedSrc ∧ (s.lane l).cfg.harness = false ∧ cc1 = .rd ∧ cc2 ≠ .rd) ∧
    (∃ (l : LaneId) (cc1 : CcTerm) (cc2 : CcTerm) (s : State), (s.lane l).cc.st = .unattachedSrc ∧ (s.lane l).cfg.harness = false ∧ cc1 = cc2 ∧ (cc1 = .rd ∨ cc1 = .ra)) ∧
    (∃ (l : LaneId) (cc1 : CcTerm) (cc2 : CcTerm) (s : State), (s.lane l).cc.st = .unattachedSnk ∧ (s.lane l).cfg.harness = false ∧ isRp cc1 = true ∧ isRp cc2 = false) ∧
    (∃ (l : LaneId) (cc1 : CcTerm) (cc2 : CcTerm) (s : State), (s.lane l).cc.st = .unattachedSnk ∧ (s.lane l).cfg.harness = false ∧ isRp cc2 = true ∧ isRp cc1 = false) ∧
    (∃ (l : LaneId) (cc1 : CcTerm) (cc2 : CcTerm) (p : CcPin) (s : State), s.dev.state = .run ∧ (s.lane l).cc.st = .attachWaitSrc ∧ onePin (s.lane l).cfg isRd cc1 cc2 = some p ∧ (s.lane l).cc.debPin = some p) ∧
    (∃ (l : LaneId) (cc1 : CcTerm) (cc2 : CcTerm) (p : CcPin) (s : State), s.dev.state ≠ .run ∧ (s.lane l).cc.st = .attachWaitSrc ∧ onePin (s.lane l).cfg isRd cc1 cc2 = some p ∧ (s.lane l).cc.debPin = some p) ∧
    (∃ (l : LaneId) (cc1 : CcTerm) (cc2 : CcTerm) (p : CcPin) (mv : Nat) (s : State), s.dev.state = .run ∧ (s.lane l).cc.st = .attachWaitSnk ∧ (s.lane l).cfg.mode ≠ 4 ∧ onePin (s.lane l).cfg isRp cc1 cc2 = some p ∧ (s.lane l).cc.debPin = some p ∧ 4000 ≤ mv) ∧
    (∃ (l : LaneId) (cc1 : CcTerm) (cc2 : CcTerm) (p : CcPin) (mv : Nat) (s : State), s.dev.state = .run ∧ (s.lane l).cc.st = .attachWaitSnk ∧ (s.lane l).cfg.mode ≠ 4 ∧ onePin (s.lane l).cfg isRp cc1 cc2 = some p ∧ (s.lane l).cc.debPin = some p ∧ mv < 4000) ∧
    (∃ (l : LaneId) (cc1 : CcTerm) (cc2 : CcTerm) (p : CcPin) (s : State), s.dev.state = .run ∧ (s.lane l).cc.st = .attachWaitSnk ∧ (s.lane l).cfg.mode = 4 ∧ onePin (s.lane l).cfg isRp cc1 cc2 = some p ∧ (s.lane l).cc.debPin = some p) ∧
    (∃ (l : LaneId) (s : State), (s.lane l).cc.st = .attachWaitSrc) ∧
    (∃ (l : LaneId) (s : State), (s.lane l).cc.st = .attachWaitSnk) ∧
    (∃ (l : LaneId) (cc1 : CcTerm) (cc2 : CcTerm) (s : State), s.dev.state = .run ∧ (s.lane l).cc.st = .trySrc ∧ (onePin (s.lane l).cfg isRd cc1 cc2).isSome = true) ∧
    (∃ (l : LaneId) (s : State), (s.lane l).cc.st = .trySrc ∧ (s.lane l).cc.held = false) ∧
    (∃ (l : LaneId) (cc1 : CcTerm) (cc2 : CcTerm) (mv : Nat) (s : State), s.dev.state = .run ∧ (s.lane l).cc.st = .tryWaitSnk ∧ (onePin (s.lane l).cfg isRp cc1 cc2).isSome = true ∧ 4000 ≤ mv) ∧
    (∃ (l : LaneId) (s : State), (s.lane l).cc.st = .tryWaitSnk) ∧
    (∃ (l : LaneId) (p : CcPin) (mv : Nat) (s : State), s.dev.state = .run ∧ (s.lane l).cc.st = .attachWaitSnk ∧ (s.lane l).cc.held = true ∧ (s.lane l).cc.debPin = some p ∧ 4000 ≤ mv) ∧
    (∃ (mv : Nat) (s : State), mv < 4000) ∧
    (∃ (l : LaneId) (s : State), ((s.lane l).cc.st = .unattachedSrc ∨ (s.lane l).cc.st = .attachWaitSrc ∨ (s.lane l).cc.st = .trySrc) ∧ (s.lane l).cfg.harness = false) ∧
    (∃ (l : LaneId) (s : State), ((s.lane l).cc.st = .unattachedSnk ∨ (s.lane l).cc.st = .attachWaitSnk ∨ (s.lane l).cc.st = .tryWaitSnk) ∧ (s.lane l).cfg.harness = false) ∧
    (∃ (l : LaneId) (p : CcPin) (s : State), (s.lane l).cfg.harness = true ∧ p ≠ harnPin (s.lane l).cfg ∧ (s.lane l).cc.attached = false) ∧
    (∃ (l : LaneId) (s : State), ((s.lane l).cc.st = .disabled ∨ (s.lane l).cc.st = .watch ∨ (s.lane l).cc.st = .unattachedWait ∨ (s.lane l).cc.st = .cutState)) := by
  exact ⟨⟨0, (of [fun s => s.modCc (0 : LaneId) fun c => { c with st := .unattachedSrc }, fun s => s.modCfg (0 : LaneId) fun c => { c with ccCtrl := setFld c.ccCtrl 2 0 4 }]), by decide +kernel⟩,
    ⟨0, (of [fun s => s.modCc (0 : LaneId) fun c => { c with st := .unattachedSnk }, fun s => s.modCfg (0 : LaneId) fun c => { c with ccCtrl := setFld c.ccCtrl 2 0 3 }]), by decide +kernel⟩,
    ⟨0, .ra, .rd, (of [fun s => s.modCc (0 : LaneId) fun c => { c with st := .unattachedSrc }, fun s => s.modCfg (0 : LaneId) fun c => { c with ccCtrl := setFld c.ccCtrl 2 0 1 }]), by decide +kernel⟩,
    ⟨0, .rd, .ra, (of [fun s => s.modCc (0 : LaneId) fun c => { c with st := .unattachedSrc }, fun s => s.modCfg (0 : LaneId) fun c => { c with ccCtrl := setFld c.ccCtrl 2 0 1 }]), by decide +kernel⟩,
    ⟨0, .ra, .ra, (of [fun s => s.modCc (0 : LaneId) fun c => { c with st := .unattachedSrc }, fun s => s.modCfg (0 : LaneId) fun c => { c with ccCtrl := setFld c.ccCtrl 2 0 1 }]), by decide +kernel⟩,
    ⟨0, .rp 1, .ra, (of [fun s => s.modCc (0 : LaneId) fun c => { c with st := .unattachedSnk }, fun s => s.modCfg (0 : LaneId) fun c => { c with ccCtrl := setFld c.ccCtrl 2 0 2 }]), by decide +kernel⟩,
    ⟨0, .ra, .rp 1, (of [fun s => s.modCc (0 : LaneId) fun c => { c with st := .unattachedSnk }, fun s => s.modCfg (0 : LaneId) fun c => { c with ccCtrl := setFld c.ccCtrl 2 0 2 }]), by decide +kernel⟩,
    ⟨0, .rd, .ra, .cc1, (of [fun s => s.modDev fun d => { d with state := .run, trans := .none }, fun s => s.modCc (0 : LaneId) fun c => { c with st := .attachWaitSrc, debPin := some (.cc1 : CcPin) }, fun s => s.modCfg (0 : LaneId) fun c => { c with ccCtrl := setFld c.ccCtrl 2 0 1 }]), by decide +kernel⟩,
    ⟨0, .rd, .ra, .cc1, (of [fun s => s.modDev fun d => { d with state := .holdover }, fun s => s.modCc (0 : LaneId) fun c => { c with st := .attachWaitSrc, debPin := some (.cc1 : CcPin) }, fun s => s.modCfg (0 : LaneId) fun c => { c with ccCtrl := setFld c.ccCtrl 2 0 1 }]), by decide +kernel⟩,
    ⟨0, .rp 2, .opened, .cc1, 4000, (of [fun s => s.modDev fun d => { d with state := .run, trans := .none }, fun s => s.modCc (0 : LaneId) fun c => { c with st := .attachWaitSnk, debPin := some (.cc1 : CcPin) }, fun s => s.modCfg (0 : LaneId) fun c => { c with ccCtrl := setFld c.ccCtrl 2 0 2 }]), by decide +kernel⟩,
    ⟨0, .rp 2, .opened, .cc1, 3999, (of [fun s => s.modDev fun d => { d with state := .run, trans := .none }, fun s => s.modCc (0 : LaneId) fun c => { c with st := .attachWaitSnk, debPin := some (.cc1 : CcPin) }, fun s => s.modCfg (0 : LaneId) fun c => { c with ccCtrl := setFld c.ccCtrl 2 0 2 }]), by decide +kernel⟩,
    ⟨0, .rp 2, .opened, .cc1, (of [fun s => s.modDev fun d => { d with state := .run, trans := .none }, fun s => s.modCc (0 : LaneId) fun c => { c with st := .attachWaitSnk, debPin := some (.cc1 : CcPin) }, fun s => s.modCfg (0 : LaneId) fun c => { c with ccCtrl := setFld c.ccCtrl 2 0 4 }]), by decide +kernel⟩,
    ⟨0, (of [fun s => s.modCc (0 : LaneId) fun c => { c with st := .attachWaitSrc }]), by decide +kernel⟩,
    ⟨0, (of [fun s => s.modCc (0 : LaneId) fun c => { c with st := .attachWaitSnk }]), by decide +kernel⟩,
    ⟨0, .rd, .ra, (of [fun s => s.modDev fun d => { d with state := .run, trans := .none }, fun s => s.modCc (0 : LaneId) fun c => { c with st := .trySrc }, fun s => s.modCfg (0 : LaneId) fun c => { c with ccCtrl := setFld c.ccCtrl 2 0 4 }]), by decide +kernel⟩,
    ⟨0, (of [fun s => s.modCc (0 : LaneId) fun c => { c with st := .trySrc, held := false }]), by decide +kernel⟩,
    ⟨0, .rp 0, .opened, 5000, (of [fun s => s.modDev fun d => { d with state := .run, trans := .none }, fun s => s.modCc (0 : LaneId) fun c => { c with st := .tryWaitSnk }, fun s => s.modCfg (0 : LaneId) fun c => { c with ccCtrl := setFld c.ccCtrl 2 0 4 }]), by decide +kernel⟩,
    ⟨0, (of [fun s => s.modCc (0 : LaneId) fun c => { c with st := .tryWaitSnk }]), by decide +kernel⟩,
    ⟨0, .cc1, 4000, (of [fun s => s.modDev fun d => { d with state := .run, trans := .none }, fun s => s.modCc (0 : LaneId) fun c => { c with st := .attachWaitSnk, held := true, debPin := some (.cc1 : CcPin) }]), by decide +kernel⟩,
    ⟨3999, State.reset, by decide +kernel⟩,
    ⟨0, (of [fun s => s.modCc (0 : LaneId) fun c => { c with st := .unattachedSrc }, fun s => s.modCfg (0 : LaneId) fun c => { c with ccCtrl := setFld c.ccCtrl 2 0 1 }]), by decide +kernel⟩,
    ⟨0, (of [fun s => s.modCc (0 : LaneId) fun c => { c with st := .unattachedSnk }, fun s => s.modCfg (0 : LaneId) fun c => { c with ccCtrl := setFld c.ccCtrl 2 0 2 }]), by decide +kernel⟩,
    ⟨0, .cc2, (of [fun s => s.modCc (0 : LaneId) fun c => { c with st := .unattachedSrc }, fun s => s.modCfg (0 : LaneId) fun c => { c with ccCtrl := setFld c.ccCtrl 2 0 5 }]), by decide +kernel⟩,
    ⟨0, (of [fun s => s.modCc (0 : LaneId) fun c => { c with st := .cutState }]), by decide +kernel⟩⟩

theorem meets_DetachAndCable :
    (∃ (l : LaneId) (s : State), detachCounts (s.lane l) = true) ∧
    (∃ (l : LaneId) (s : State), detachCounts (s.lane l) = false) ∧
    (∃ (l : LaneId) (s : State), (s.lane l).cc.st = .unattachedWait ∧ s.dev.trans = .none) ∧
    (∃ (l : LaneId) (s : State), (s.lane l).cc.attached = true ∧ (s.lane l).cfg.harness = true) ∧
    (∃ (a : Agent) (l : LaneId) (s : State), hostServed s a = true ∧ s.fusedOff l = false ∧ a = .host ∧ (s.lane l).cc.st = .cutState) ∧
    (∃ (a : Agent) (l : LaneId) (s : State), hostServed s a = true ∧ s.fusedOff l = false ∧ a = .host ∧ (s.lane l).cc.st ≠ .cutState) ∧
    (∃ (l : LaneId) (s : State), (s.lane l).cc.vconnOn = true) ∧
    (∃ (l : LaneId) (s : State), (s.lane l).cc.vconnRetry = true ∧ (s.lane l).pd.hrBusy = false ∧ (s.lane l).swap.vconnRole = true ∧ s.dev.vconnSupOk = true ∧ (s.lane l).fw.vconnLast = false ∧ (s.lane l).cc.attached = true ∧ dieUp s l = true) ∧
    (∃ (l : LaneId) (cc1 : CcTerm) (s : State), (s.lane l).cc.st = .watch ∧ (s.lane l).cfg.mode = 1 ∧ (s.lane l).cc.probeCycles = 2 ∧ (s.lane l).cc.probeLast = true ∧ (s.lane l).cc.probeRun = 1 ∧ cc1 = .rd) ∧
    (∃ (l : LaneId) (s : State), (s.lane l).cc.st = .watch ∧ (s.lane l).cc.probeCycles = 0) ∧
    (∃ (l : LaneId) (s : State), (s.lane l).cc.discRun = true ∧ serves s l = true ∧ (s.lane l).cc.discTries < 3 ∧ (s.lane l).cc.vconnOn = true) ∧
    (∃ (l : LaneId) (s : State), (s.lane l).cc.discRun = true ∧ serves s l = true ∧ 3 ≤ (s.lane l).cc.discTries ∧ (s.lane l).cc.discEpr = false) ∧
    (∃ (l : LaneId) (s : State), (s.lane l).cc.attached = true ∧ (s.lane l).swap.presentsRp = false) := by
  exact ⟨⟨0, (of [running, allPorts, fun s => s.modCc (0 : LaneId) fun c => { c with st := .attachedSrc, attachSrc := true }, fun s => s.modCfg (0 : LaneId) fun c => { c with ccCtrl := setFld c.ccCtrl 2 0 1 }]), by decide +kernel⟩,
    ⟨0, (of [running, allPorts, fun s => s.modCc (0 : LaneId) fun c => { c with st := .unattachedSrc, attachSrc := true }]), by decide +kernel⟩,
    ⟨0, (of [running, allPorts, fun s => s.modCc (0 : LaneId) fun c => { c with st := .unattachedWait }]), by decide +kernel⟩,
    ⟨0, (of [running, allPorts, fun s => s.modCc (0 : LaneId) fun c => { c with st := .attachedSrc }, fun s => s.modCfg (0 : LaneId) fun c => { c with ccCtrl := setFld c.ccCtrl 2 0 5 }]), by decide +kernel⟩,
    ⟨.host, 0, (of [running, allPorts, fun s => s.modCc (0 : LaneId) fun c => { c with st := .cutState, cut := true }, fun s => s.modCfg (0 : LaneId) fun c => { c with ccCtrl := setFld c.ccCtrl 2 0 5 }]), by decide +kernel⟩,
    ⟨.host, 0, (of [running, allPorts, fun s => s.modCc (0 : LaneId) fun c => { c with st := .watch, cut := true }]), by decide +kernel⟩,
    ⟨0, (of [running, allPorts, fun s => s.modCc (0 : LaneId) fun c => { c with vconnOn := true }]), by decide +kernel⟩,
    ⟨0, (of [fun s => clocking s (0 : LaneId), running, allPorts, fun s => s.modCc (0 : LaneId) fun c => { c with vconnRetry := true, st := .attachedSrc }, fun s => s.modDev fun d => { d with vconnSupOk := true }, fun s => s.modLane (0 : LaneId) fun x => { x with swap := { x.swap with vconnRole := true }, fw := { x.fw with vconnLast := false }, pd := { x.pd with hrPhase := .idle } }]), by decide +kernel⟩,
    ⟨0, .rd, (of [running, allPorts, fun s => s.modCc (0 : LaneId) fun c => { c with st := .watch, probeCycles := 2, probeLast := true, probeRun := 1 }, fun s => s.modCfg (0 : LaneId) fun c => { c with ccCtrl := setFld c.ccCtrl 2 0 1 }]), by decide +kernel⟩,
    ⟨0, (of [running, allPorts, fun s => s.modCc (0 : LaneId) fun c => { c with st := .watch, probeCycles := 0 }]), by decide +kernel⟩,
    ⟨0, (of [running, allPorts, fun s => s.modCc (0 : LaneId) fun c => { c with discRun := true, discTries := 2, vconnOn := true }, fun s => serving s (0 : LaneId)]), by decide +kernel⟩,
    ⟨0, (of [running, allPorts, fun s => s.modCc (0 : LaneId) fun c => { c with discRun := true, discTries := 3, vconnOn := true, discEpr := false }, fun s => serving s (0 : LaneId)]), by decide +kernel⟩,
    ⟨0, (of [running, allPorts, fun s => s.modCc (0 : LaneId) fun c => { c with st := .attachedSnk }, fun s => s.modSwap (0 : LaneId) fun w => { w with presentsRp := false }]), by decide +kernel⟩⟩

theorem meets_TransmitQueue :
    (∃ (a : Agent) (l : LaneId) (v : Word) (s : State), hostServed s a = true ∧ s.fusedOff l = false ∧ v = 0x100 ∧ ((s.lane l).pd).queue.length < 2 ∧ ((s.lane l).pd).hrBusy = false ∧ isPackWrite s l = false) ∧
    (∃ (a : Agent) (l : LaneId) (v : Word) (k : Sop) (m : TxSlot) (s : State), hostServed s a = true ∧ s.fusedOff l = false ∧ bitOf v 8 = true ∧ bitOf v 9 = false ∧ bitOf v 10 = false ∧ fld v 1 0 = sopCode k ∧ (k ≠ .sop → (s.lane l).swap.vconnRole = true) ∧ (bitOf v 4 = true → fld (s.lane l).cfg.txData[0] 24 16 ≤ 260 ∧ ((s.lane l).pd).queue.any (fun m => m.ext) = false) ∧ ((s.lane l).pd).queue.length < 2 ∧ ((s.lane l).pd).hrBusy = false ∧ isPackWrite s l = false) ∧
    (∃ (l : LaneId) (m : TxSlot) (r : List TxSlot) (s : State), (s.lane l).cc.attached = true ∧ ((s.lane l).pd).hrBusy = false ∧ ((s.lane l).pd).flight = none ∧ ((s.lane l).pd).bist = .off ∧ ((s.lane l).pd).hwq = [] ∧ ((s.lane l).pd).queue = m :: r ∧ m.ext = false ∧ m.ams = false ∧ isCtl (slotFrame m) 13 = false) ∧
    (∃ (l : LaneId) (s : State), (((s.lane l).pd).flight.isSome = true ∨ ((s.lane l).pd).hrBusy = true ∨ (s.lane l).cc.attached = false)) ∧
    (∃ (l : LaneId) (id : BitVec 3) (k : Sop) (fl : Flight) (m : TxSlot) (r : List TxSlot) (s : State), ((s.lane l).pd).flight = some fl ∧ fl.ended = false ∧ fl.hw = none ∧ fl.frame.sop = k ∧ msgId fl.frame.header = id ∧ ((s.lane l).pd).txId.get (sopIdx k) = id ∧ ((s.lane l).pd).queue = m :: r ∧ m.ext = false ∧ k ≠ .sop) ∧
    (∃ (l : LaneId) (id : BitVec 3) (k : Sop) (fl : Flight) (m : TxSlot) (r : List TxSlot) (s : State), ((s.lane l).pd).flight = some fl ∧ fl.ended = false ∧ fl.hw = none ∧ fl.frame.sop = k ∧ msgId fl.frame.header = id ∧ ((s.lane l).pd).txId.get (sopIdx k) = id ∧ ((s.lane l).pd).queue = m :: r ∧ m.ext = false ∧ k = .sop) ∧
    (∃ (l : LaneId) (id : BitVec 3) (k : Sop) (fl : Flight) (m : TxSlot) (r : List TxSlot) (s : State), ((s.lane l).pd).flight = some fl ∧ fl.ended = false ∧ fl.hw = none ∧ fl.frame.sop = k ∧ msgId fl.frame.header = id ∧ ((s.lane l).pd).txId.get (sopIdx k) = id ∧ ((s.lane l).pd).queue = m :: r ∧ m.ext = false ∧ k = .sop ∧ (∀ n, n ∈ [3, 4, 6, 10, 11, 12, 13] → isCtl fl.frame n = false) ∧ (∀ n, n ∈ [1, 10] → isData fl.frame n = false)) ∧
    (∃ (l : LaneId) (id : BitVec 3) (k : Sop) (fl : Flight) (s : State), ((s.lane l).pd).flight = some fl ∧ (fl.frame.sop ≠ k ∨ msgId fl.frame.header ≠ id)) ∧
    (∃ (l : LaneId) (fl : Flight) (s : State), ((s.lane l).pd).flight = some fl ∧ fl.ended = false ∧ fl.tries < 3) ∧
    (∃ (l : LaneId) (fl : Flight) (m : TxSlot) (r : List TxSlot) (s : State), ((s.lane l).pd).flight = some fl ∧ fl.ended = false ∧ fl.hw = none ∧ fl.tries = 3 ∧ ((s.lane l).pd).queue = m :: r) ∧
    (∃ (l : LaneId) (s : State), (s.lane l).swap.amsHold = true) ∧
    (∃ (l : LaneId) (m : TxSlot) (r : List TxSlot) (s : State), ((s.lane l).pd).txChunkWait = true ∧ ((s.lane l).pd).queue = m :: r) := by
  exact ⟨⟨.core 4, 0, 0x100, (of [running, allPorts, fun s => s.modPd (0 : LaneId) fun p => { p with queue := [], hrPhase := .idle }]), by decide +kernel⟩,
    ⟨.core 4, 0, (0x130 + BitVec.ofNat 32 (sopCode (.sop : Sop))), .sop, { }, (of [running, allPorts, fun s => s.modPd (0 : LaneId) fun p => { p with queue := [], hrPhase := .idle }, fun s => s.modSwap (0 : LaneId) fun w => { w with vconnRole := true }, fun s => s.modCfg (0 : LaneId) fun c => { c with txData := c.txData.set 0 0x00100001 }]), by decide +kernel⟩,
    ⟨0, { tag := 3, data := [0x000010A1, 7] }, [], (of [running, allPorts, fun s => s.modCc (0 : LaneId) fun c => { c with st := .attachedSrc }, fun s => s.modPd (0 : LaneId) fun p => { p with hrPhase := .idle, flight := none, bist := .off, hwq := [], queue := ({ tag := 3, data := [0x000010A1, 7] } : TxSlot) :: ([] : List TxSlot) }]), by decide +kernel⟩,
    ⟨0, (of [running, allPorts]), by decide +kernel⟩,
    ⟨0, msgId ({ frame := { sop := .sopP, header := 0x0441 } } : Flight).frame.header, ({ frame := { sop := .sopP, header := 0x0441 } } : Flight).frame.sop, { frame := { sop := .sopP, header := 0x0441 } }, { tag := 3, sop := .sopP, data := [0x000010A1, 7] }, [], (of [running, allPorts, fun s => s.modPd (0 : LaneId) fun p => { p with queue := ({ tag := 3, sop := .sopP, data := [0x000010A1, 7] } : TxSlot) :: ([] : List TxSlot), txId := p.txId.set (sopIdx (({ frame := { sop := .sopP, header := 0x0441 } } : Flight).frame.sop : Sop)).val (msgId ({ frame := { sop := .sopP, header := 0x0441 } } : Flight).frame.header : BitVec 3) (sopIdx (({ frame := { sop := .sopP, header := 0x0441 } } : Flight).frame.sop : Sop)).isLt }, fun s => s.modPd (0 : LaneId) fun p => { p with flight := some ({ frame := { sop := .sopP, header := 0x0441 } } : Flight) }]), by decide +kernel⟩,
    ⟨0, msgId ({ frame := { header := 0x0441 } } : Flight).frame.header, ({ frame := { header := 0x0441 } } : Flight).frame.sop, { frame := { header := 0x0441 } }, { tag := 3, sop := .sopP, data := [0x000010A1, 7] }, [], (of [running, allPorts, fun s => s.modPd (0 : LaneId) fun p => { p with queue := ({ tag := 3, sop := .sopP, data := [0x000010A1, 7] } : TxSlot) :: ([] : List TxSlot), txId := p.txId.set (sopIdx (({ frame := { header := 0x0441 } } : Flight).frame.sop : Sop)).val (msgId ({ frame := { header := 0x0441 } } : Flight).frame.header : BitVec 3) (sopIdx (({ frame := { header := 0x0441 } } : Flight).frame.sop : Sop)).isLt }, fun s => s.modPd (0 : LaneId) fun p => { p with flight := some ({ frame := { header := 0x0441 } } : Flight) }]), by decide +kernel⟩,
    ⟨0, msgId ({ frame := { header := 0x1449 } } : Flight).frame.header, ({ frame := { header := 0x1449 } } : Flight).frame.sop, { frame := { header := 0x1449 } }, { tag := 3, sop := .sopP, data := [0x000010A1, 7] }, [], (of [running, allPorts, fun s => s.modPd (0 : LaneId) fun p => { p with queue := ({ tag := 3, sop := .sopP, data := [0x000010A1, 7] } : TxSlot) :: ([] : List TxSlot), txId := p.txId.set (sopIdx (({ frame := { header := 0x1449 } } : Flight).frame.sop : Sop)).val (msgId ({ frame := { header := 0x1449 } } : Flight).frame.header : BitVec 3) (sopIdx (({ frame := { header := 0x1449 } } : Flight).frame.sop : Sop)).isLt }, fun s => s.modPd (0 : LaneId) fun p => { p with flight := some ({ frame := { header := 0x1449 } } : Flight) }]), by decide +kernel⟩,
    ⟨0, 0, .sopP, { }, (of [running, allPorts, fun s => s.modPd (0 : LaneId) fun p => { p with flight := some ({ } : Flight) }]), by decide +kernel⟩,
    ⟨0, { tries := 2 }, (of [running, allPorts, fun s => s.modPd (0 : LaneId) fun p => { p with flight := some ({ tries := 2 } : Flight) }]), by decide +kernel⟩,
    ⟨0, { tries := 3 }, { }, [], (of [running, allPorts, fun s => s.modPd (0 : LaneId) fun p => { p with flight := some ({ tries := 3 } : Flight), queue := ({ } : TxSlot) :: ([] : List TxSlot) }]), by decide +kernel⟩,
    ⟨0, (of [running, allPorts, fun s => s.modSwap (0 : LaneId) fun w => { w with amsHold := true }]), by decide +kernel⟩,
    ⟨0, { }, [], (of [running, allPorts, fun s => s.modPd (0 : LaneId) fun p => { p with txChunkWait := true, queue := ({ } : TxSlot) :: ([] : List TxSlot) }]), by decide +kernel⟩⟩

theorem meets_SendRefused :
    (∃ (a : Agent) (l : LaneId) (v : Word) (s : State), hostServed s a = true ∧ s.fusedOff l = false ∧ bitOf v 8 = true ∧ bitOf v 9 = false ∧ bitOf v 10 = false ∧ ((2 ≤ ((s.lane l).pd).queue.length ∨ fld v 1 0 = 3 ∨ ((fld v 1 0 = 1 ∨ fld v 1 0 = 2) ∧ (s.lane l).swap.vconnRole = false) ∨ ((s.lane l).pd).hrBusy = true ∨
      (bitOf v 4 = true ∧ 260 < fld (s.lane l).cfg.txData[0] 24 16)))) := by
  exact ⟨.core 4, 0, 0x100, (of [running, allPorts, fun s => s.modPd (0 : LaneId) fun p => { p with hrPhase := .vbusOff }]), by decide +kernel⟩

theorem meets_Reception :
    (∃ (l : LaneId) (f : Frame) (s : State), ((s.lane l).cc.attached = true ∧ ((s.lane l).pd).bist = .off ∧ ((s.lane l).pd).hrPhase = .idle ∧ ((s.lane l).pd).flight = none ∧ ((s.lane l).pd).queue = [] ∧ ((s.lane l).pd).reasm = none ∧ ((s.lane l).pd).arActive = false : Prop) ∧ f.sop = .sop ∧ isCtl f 17 = true ∧ ((s.lane l).pd).fifo.length < 4 ∧ ((s.lane l).pd).rxId.get 0 ≠ some (msgId f.header)) ∧
    (∃ (l : LaneId) (f : Frame) (s : State), ((s.lane l).cc.attached = true ∧ ((s.lane l).pd).bist = .off ∧ ((s.lane l).pd).hrPhase = .idle ∧ ((s.lane l).pd).flight = none ∧ ((s.lane l).pd).queue = [] ∧ ((s.lane l).pd).reasm = none ∧ ((s.lane l).pd).arActive = false : Prop) ∧ f.sop = .sop ∧ isExtended f.header = false ∧ isCtl f 1 = false ∧ isCtl f 13 = false ∧ isData f 3 = false ∧ isData f 15 = false ∧ (s.lane l).swap.ownVcs = false ∧ serves s l = false ∧ ((s.lane l).pd).fifo.length < 4 ∧ ((s.lane l).pd).rxId.get 0 ≠ some (msgId f.header)) ∧
    (∃ (l : LaneId) (f : Frame) (s : State), ((s.lane l).cc.attached = true ∧ ((s.lane l).pd).bist = .off ∧ ((s.lane l).pd).hrPhase = .idle ∧ ((s.lane l).pd).flight = none ∧ ((s.lane l).pd).queue = [] ∧ ((s.lane l).pd).reasm = none ∧ ((s.lane l).pd).arActive = false : Prop) ∧ f.sop = .sop ∧ isCtl f 17 = true ∧ ((s.lane l).pd).rxId.get 0 = some (msgId f.header)) ∧
    (∃ (l : LaneId) (f : Frame) (s : State), ((s.lane l).cc.attached = true ∧ ((s.lane l).pd).bist = .off ∧ ((s.lane l).pd).hrPhase = .idle ∧ ((s.lane l).pd).flight = none ∧ ((s.lane l).pd).queue = [] ∧ ((s.lane l).pd).reasm = none ∧ ((s.lane l).pd).arActive = false : Prop) ∧ f.sop = .sop ∧ isCtl f 17 = true ∧ 4 ≤ ((s.lane l).pd).fifo.length ∧ ((s.lane l).pd).rxId.get 0 ≠ some (msgId f.header)) ∧
    (∃ (a : Agent) (l : LaneId) (s : State), hostServed s a = true ∧ s.fusedOff l = false) ∧
    (∃ (l : LaneId) (s : State), ((s.lane l).pd).bist = .carrier) ∧
    (∃ (l : LaneId) (s : State), ((s.lane l).pd).bist = .off) ∧
    (∃ (l : LaneId) (r : Reassembly) (s : State), ((s.lane l).pd).reasm = some r ∧ r.awaiting = true ∧ ((s.lane l).pd).arActive = true) ∧
    (∃ (l : LaneId) (r : Reassembly) (s : State), ((s.lane l).pd).reasm = some r ∧ r.awaiting = true ∧ ((s.lane l).pd).arActive = false ∧ serves s l = false) ∧
    (∃ (l : LaneId) (r : Reassembly) (s : State), ((s.lane l).pd).reasm = some r ∧ r.awaiting = true ∧ r.sop = .sop ∧ serves s l = true ∧ ((s.lane l).pd).queue = [] ∧ ((s.lane l).pd).hrPhase = .idle) ∧
    (∃ (l : LaneId) (s : State), ((s.lane l).pd).reasm.any (·.awaiting) = false) ∧
    (∃ (l : LaneId) (f : Frame) (s : State), (s.lane l).cc.attached = true ∧ ((s.lane l).pd).bist = .off ∧ ((s.lane l).pd).hrPhase = .idle ∧ f.sop = .sop ∧ isExtended f.header = true ∧ exChunked (extHeader f) = true ∧ exRequest (extHeader f) = true ∧ ((s.lane l).pd).rxId.get 0 ≠ some (msgId f.header) ∧ ((s.lane l).pd).txChunkWait = true ∧ exChunk (extHeader f) = ((s.lane l).pd).txChunk.getD 0 + 1) ∧
    (∃ (l : LaneId) (s : State), ((s.lane l).pd).arActive = false ∧ ((s.lane l).pd).unanswered = [] ∧ ((s.lane l).pd).queue.length ≤ 1 ∧ (s.lane l).swap.state = 0 ∧ ((s.lane l).pd).acceptPending = false) ∧
    (∃ (a : Agent) (l : LaneId) (w : Option Word) (s : State), (w = none ∨ bitOf (s.lane l).cfg.extPtr 16 = true) ∧ hostServed s a = true ∧ s.fusedOff l = false) := by
  exact ⟨⟨0, { header := 0x0251 }, (of [running, allPorts, fun s => s.modCc (0 : LaneId) fun c => { c with st := .attachedSrc }, fun s => s.modPd (0 : LaneId) fun p => { p with bist := .off, hrPhase := .idle, flight := none, queue := [], reasm := none, arActive := false, fifo := [] }]), by decide +kernel⟩,
    ⟨0, { header := 0x1246, objs := [5] }, (of [running, allPorts, fun s => s.modCc (0 : LaneId) fun c => { c with st := .attachedSrc }, fun s => s.modPd (0 : LaneId) fun p => { p with bist := .off, hrPhase := .idle, flight := none, queue := [], reasm := none, arActive := false, fifo := [] }, fun s => s.modSwap (0 : LaneId) fun w => { w with ownVcs := false }, fun s => s.modCore (serverOf s (groupOf (0 : LaneId))) fun c => { c with baseImg := false }]), by decide +kernel⟩,
    ⟨0, { header := 0x0251 }, (of [running, allPorts, fun s => s.modCc (0 : LaneId) fun c => { c with st := .attachedSrc }, fun s => s.modPd (0 : LaneId) fun p => { p with bist := .off, hrPhase := .idle, flight := none, queue := [], reasm := none, arActive := false, fifo := [], rxId := p.rxId.set 0 (some 1) }]), by decide +kernel⟩,
    ⟨0, { header := 0x0251 }, (of [running, allPorts, fun s => s.modCc (0 : LaneId) fun c => { c with st := .attachedSrc }, fun s => s.modPd (0 : LaneId) fun p => { p with bist := .off, hrPhase := .idle, flight := none, queue := [], reasm := none, arActive := false, fifo := [{}, {}, {}, {}] }]), by decide +kernel⟩,
    ⟨.core 4, 0, (of [running, allPorts]), by decide +kernel⟩,
    ⟨0, (of [running, allPorts, fun s => s.modPd (0 : LaneId) fun p => { p with bist := .carrier }]), by decide +kernel⟩,
    ⟨0, (of [running, allPorts, fun s => s.modPd (0 : LaneId) fun p => { p with bist := .off }]), by decide +kernel⟩,
    ⟨0, { awaiting := true }, (of [running, allPorts, fun s => s.modPd (0 : LaneId) fun p => { p with reasm := some ({ awaiting := true } : Reassembly), arActive := true }]), by decide +kernel⟩,
    ⟨0, { awaiting := true }, (of [running, allPorts, fun s => s.modPd (0 : LaneId) fun p => { p with reasm := some ({ awaiting := true } : Reassembly), arActive := false }, fun s => s.modCore (serverOf s (groupOf (0 : LaneId))) fun c => { c with baseImg := false }]), by decide +kernel⟩,
    ⟨0, { awaiting := true }, (of [running, allPorts, fun s => s.modPd (0 : LaneId) fun p => { p with reasm := some ({ awaiting := true } : Reassembly), queue := [], hrPhase := .idle }, fun s => serving s (0 : LaneId)]), by decide +kernel⟩,
    ⟨0, (of [running, allPorts, fun s => s.modPd (0 : LaneId) fun p => { p with reasm := none }]), by decide +kernel⟩,
    ⟨0, { header := 0x9241, objs := [0x00008C00] }, (of [running, allPorts, fun s => s.modCc (0 : LaneId) fun c => { c with st := .attachedSrc }, fun s => s.modPd (0 : LaneId) fun p => { p with bist := .off, hrPhase := .idle, txChunkWait := true, txChunk := some 0 }]), by decide +kernel⟩,
    ⟨0, (of [running, allPorts, fun s => s.modPd (0 : LaneId) fun p => { p with arActive := false, unanswered := [], queue := [{ tag := 2 }], acceptPending := false }, fun s => s.modSwap (0 : LaneId) fun w => { w with state := 0 }]), by decide +kernel⟩,
    ⟨.core 4, 0, none, (of [running, allPorts]), by decide +kernel⟩⟩

theorem meets_HardResets :
    (∃ (l : LaneId) (s : State), (s.lane l).cc.attached = true ∧ ((s.lane l).pd).hrPhase = .idle ∧ ((s.lane l).pd).hrCount.toNat < 2) ∧
    (∃ (l : LaneId) (s : State), ((s.lane l).cc.attached = false ∨ ((s.lane l).pd).hrPhase ≠ .idle)) ∧
    (∃ (l : LaneId) (s : State), (s.lane l).cc.attached = true ∧ ((s.lane l).pd).hrPhase = .idle ∧ 2 ≤ ((s.lane l).pd).hrCount.toNat) ∧
    (∃ (l : LaneId) (s : State), (s.lane l).cc.attached = true ∧ ((s.lane l).pd).hrPhase = .idle ∧ (s.lane l).cc.attachSrc = true ∧ (s.lane l).swap.powerRole = true ∧ (s.lane l).swap.dataRole = true ∧ (s.lane l).swap.vconnRole = vconnAtAttach (s.lane l) ∧ (s.lane l).swap.state = 0 ∧ (s.lane l).swap.holdOn = false ∧ (s.lane l).belay.latched = false ∧ (s.lane l).fw.protoLast = false) ∧
    (∃ (l : LaneId) (s : State), (s.lane l).cc.attached = true ∧ ((s.lane l).pd).hrPhase = .idle ∧ (s.lane l).cc.attachSrc = true ∧ (s.lane l).swap.dataRole = false ∧ (s.lane l).belay.latched = false ∧ (s.lane l).fw.protoLast = false) ∧
    (∃ (l : LaneId) (s : State), ((s.lane l).pd).hrPhase = .signalling ∧ ((s.lane l).pd).hrThen = .normal ∧ (s.lane l).cc.attachSrc = false ∧ (s.lane l).swap.powerRole = false ∧ (s.lane l).swap.state = 0 ∧ (s.lane l).swap.holdOn = false ∧ (s.lane l).belay.latched = false ∧ (s.lane l).fw.protoLast = false ∧ bitOf (s.lane l).cfg.laneCtrl 0 = true) ∧
    (∃ (l : LaneId) (s : State), ((s.lane l).pd).hrPhase = .signalling ∧ (s.lane l).cc.attachSrc = true ∧ (s.lane l).swap.powerRole = true ∧ (s.lane l).swap.dataRole = true ∧ (s.lane l).swap.vconnRole = vconnAtAttach (s.lane l) ∧ (s.lane l).swap.state = 0 ∧ (s.lane l).swap.holdOn = false ∧ (s.lane l).belay.latched = false ∧ (s.lane l).fw.protoLast = false) ∧
    (∃ (l : LaneId) (s : State), ((s.lane l).pd).hrPhase = .signalling ∧ (s.lane l).cc.attached = true ∧ (s.lane l).swap.state = 0 ∧ ((s.lane l).belay.latched = true ∨ (s.lane l).fw.protoLast = true) ∧ s.dev.trans = .none) ∧
    (∃ (l : LaneId) (s : State), ((s.lane l).pd).hrPhase ≠ .signalling) ∧
    (∃ (l : LaneId) (s : State), ((s.lane l).pd).hrPhase = .psWait ∧ (s.lane l).belay.dischOut = true) ∧
    (∃ (l : LaneId) (s : State), ((s.lane l).pd).hrPhase = .psWait ∧ (s.lane l).belay.sw ≠ 0 ∧ (s.lane l).swap.powerRole = true) ∧
    (∃ (l : LaneId) (s : State), ((s.lane l).pd).hrPhase = .psWait ∧ resetEnds (s.lane l) = false ∧ (s.lane l).belay.sw = 0 ∧ (s.lane l).belay.dischOut = false) ∧
    (∃ (l : LaneId) (side : PathSide) (s : State), side = .vbout ∧ (s.lane l).belay.dischOut = true ∧ ((s.lane l).pd).hrPhase = .vbusOff ∧ resetEnds (s.lane l) = false) ∧
    (∃ (l : LaneId) (side : PathSide) (s : State), side = .vbin ∧ (s.lane l).belay.dischIn = true ∧ s.dev.trans = .none) ∧
    (∃ (l : LaneId) (s : State), ((s.lane l).pd).hrPhase = .srcRecover ∧ liveBit s l = true ∧ dieUp s l = true ∧ (s.lane l).belay.latched = false ∧ (s.lane l).belay.sw = 0) ∧
    (∃ (l : LaneId) (mv : Nat) (s : State), ((s.lane l).pd).hrPhase = .rising ∧ (s.lane l).conv.on = true ∧ (s.lane l).conv.soft = true ∧ (s.lane l).conv.vs = (s.lane l).conv.vsetEff ∧ vbinSettled (s.lane l).conv mv = true) ∧
    (∃ (l : LaneId) (mv : Nat) (s : State), ((s.lane l).conv.on = false ∨ (s.lane l).conv.vs ≠ (s.lane l).conv.vsetEff ∨ vbinSettled (s.lane l).conv mv = false)) ∧
    (∃ (l : LaneId) (mv : Nat) (s : State), ((s.lane l).pd).hrPhase = .sinkWait ∧ 4000 ≤ mv ∧ liveBit s l = true ∧ dieUp s l = true ∧ (s.lane l).belay.latched = false ∧ (s.lane l).belay.sw = 0) ∧
    (∃ (l : LaneId) (mv : Nat) (s : State), ((s.lane l).pd).hrPhase = .sinkWait ∧ mv < 4000) ∧
    (∃ (a : Agent) (l : LaneId) (s : State), hostServed s a = true ∧ s.fusedOff l = false ∧ (s.lane l).swap.vconnRole = true ∧ ((s.lane l).pd).hrPhase = .idle ∧ (s.lane l).cc.attached = true ∧ ((s.lane l).cc.vconnOn = false ∨ serves s l = false)) ∧
    (∃ (a : Agent) (l : LaneId) (s : State), hostServed s a = true ∧ s.fusedOff l = false ∧ (s.lane l).swap.vconnRole = true ∧ ((s.lane l).pd).hrPhase = .idle ∧ (s.lane l).cc.attached = true ∧ (s.lane l).cc.vconnOn = true ∧ serves s l = true ∧ ((s.lane l).pd).queue = []) := by
  exact ⟨⟨0, (of [running, allPorts, fun s => s.modCc (0 : LaneId) fun c => { c with st := .attachedSrc }, fun s => s.modPd (0 : LaneId) fun p => { p with hrPhase := .idle, hrCount := 1 }]), by decide +kernel⟩,
    ⟨0, (of [running, allPorts]), by decide +kernel⟩,
    ⟨0, (of [running, allPorts, fun s => s.modCc (0 : LaneId) fun c => { c with st := .attachedSrc }, fun s => s.modPd (0 : LaneId) fun p => { p with hrPhase := .idle, hrCount := 2 }]), by decide +kernel⟩,
    ⟨0, (of [running, allPorts, fun s => s.modLane (0 : LaneId) fun _ => laneReset (0 : LaneId), fun s => s.modCc (0 : LaneId) fun c => { c with st := .attachedSrc, attachSrc := true, vconnOn := true }, fun s => s.modSwap (0 : LaneId) fun w => { w with powerRole := true, dataRole := true, vconnRole := vconnAtAttach (s.lane (0 : LaneId)) }, fun s => s.modPd (0 : LaneId) fun p => { p with fifo := [{}] }]), by decide +kernel⟩,
    ⟨0, (of [running, allPorts, fun s => s.modLane (0 : LaneId) fun _ => laneReset (0 : LaneId), fun s => s.modCc (0 : LaneId) fun c => { c with st := .attachedSrc, attachSrc := true, vconnOn := true }, fun s => s.modSwap (0 : LaneId) fun w => { w with powerRole := true, dataRole := false }, fun s => s.modPd (0 : LaneId) fun p => { p with fifo := [{}] }]), by decide +kernel⟩,
    ⟨0, (of [running, allPorts, fun s => s.modLane (0 : LaneId) fun _ => laneReset (0 : LaneId), fun s => s.modCc (0 : LaneId) fun c => { c with st := .attachedSnk }, fun s => s.modCfg (0 : LaneId) fun c => { c with laneCtrl := 1 }, fun s => s.modPd (0 : LaneId) fun p => { p with hrPhase := .signalling, fifo := [{}] }, fun s => s.modBelay (0 : LaneId) fun b => { b with sw := 2 }]), by decide +kernel⟩,
    ⟨0, (of [running, allPorts, fun s => s.modLane (0 : LaneId) fun _ => laneReset (0 : LaneId), fun s => s.modCc (0 : LaneId) fun c => { c with st := .attachedSrc, attachSrc := true, vconnOn := true }, fun s => s.modSwap (0 : LaneId) fun w => { w with powerRole := true, dataRole := true, vconnRole := vconnAtAttach (s.lane (0 : LaneId)) }, fun s => s.modPd (0 : LaneId) fun p => { p with fifo := [{}], hrPhase := .signalling }, fun s => s.modBelay (0 : LaneId) fun b => { b with sw := 2 }]), by decide +kernel⟩,
    ⟨0, (of [running, allPorts, fun s => s.modLane (0 : LaneId) fun _ => laneReset (0 : LaneId), fun s => s.modCc (0 : LaneId) fun c => { c with st := .attachedSrc, attachSrc := true, vconnOn := true }, fun s => s.modPd (0 : LaneId) fun p => { p with fifo := [{}], hrPhase := .signalling }, fun s => s.modBelay (0 : LaneId) fun b => { b with latched := true }]), by decide +kernel⟩,
    ⟨0, (of [running, allPorts]), by decide +kernel⟩,
    ⟨0, (of [running, allPorts, fun s => s.modPd (0 : LaneId) fun p => { p with hrPhase := .psWait }, fun s => s.modBelay (0 : LaneId) fun b => { b with dischOut := true }]), by decide +kernel⟩,
    ⟨0, (of [running, allPorts, fun s => s.modPd (0 : LaneId) fun p => { p with hrPhase := .psWait }, fun s => s.modBelay (0 : LaneId) fun b => { b with sw := 2 }, fun s => s.modSwap (0 : LaneId) fun w => { w with powerRole := true }]), by decide +kernel⟩,
    ⟨0, (of [running, allPorts, fun s => s.modCfg (0 : LaneId) fun c => { c with laneCtrl := 1 }, fun s => s.modPd (0 : LaneId) fun p => { p with hrPhase := .psWait, hrThen := .normal }, fun s => s.modBelay (0 : LaneId) fun b => { b with sw := 0, dischOut := false }]), by decide +kernel⟩,
    ⟨0, .vbout, (of [running, allPorts, fun s => s.modCfg (0 : LaneId) fun c => { c with laneCtrl := 1 }, fun s => s.modPd (0 : LaneId) fun p => { p with hrPhase := .vbusOff, hrThen := .normal }, fun s => s.modBelay (0 : LaneId) fun b => { b with dischOut := true }]), by decide +kernel⟩,
    ⟨0, .vbin, (of [running, allPorts, fun s => s.modBelay (0 : LaneId) fun b => { b with dischIn := true }]), by decide +kernel⟩,
    ⟨0, (of [fun s => clocking s (0 : LaneId), running, allPorts, fun s => s.modLane (0 : LaneId) fun x => { x with enabled := true, cfg := { x.cfg with laneCtrl := 1 } }, fun s => s.modPd (0 : LaneId) fun p => { p with hrPhase := .srcRecover }, fun s => s.modBelay (0 : LaneId) fun b => { b with latched := false, sw := 0 }]), by decide +kernel⟩,
    ⟨0, (5 * (State.reset.lane (0 : LaneId)).conv.vsetEff.toNat), (of [running, allPorts, fun s => s.modPd (0 : LaneId) fun p => { p with hrPhase := .rising }, fun s => s.modConv (0 : LaneId) fun c => { c with on := true, soft := true, vs := c.vsetEff }]), by decide +kernel⟩,
    ⟨0, 0, (of [running, allPorts, fun s => s.modConv (0 : LaneId) fun c => { c with on := false }]), by decide +kernel⟩,
    ⟨0, 4000, (of [fun s => clocking s (0 : LaneId), running, allPorts, fun s => s.modLane (0 : LaneId) fun x => { x with enabled := true, cfg := { x.cfg with laneCtrl := 1 } }, fun s => s.modPd (0 : LaneId) fun p => { p with hrPhase := .sinkWait }, fun s => s.modBelay (0 : LaneId) fun b => { b with latched := false, sw := 0 }]), by decide +kernel⟩,
    ⟨0, 3999, (of [running, allPorts, fun s => s.modPd (0 : LaneId) fun p => { p with hrPhase := .sinkWait }]), by decide +kernel⟩,
    ⟨.core 4, 0, (of [running, allPorts, fun s => s.modCc (0 : LaneId) fun c => { c with st := .attachedSrc, vconnOn := false }, fun s => s.modSwap (0 : LaneId) fun w => { w with vconnRole := true }, fun s => s.modPd (0 : LaneId) fun p => { p with hrPhase := .idle }]), by decide +kernel⟩,
    ⟨.core 4, 0, (of [running, allPorts, fun s => s.modCc (0 : LaneId) fun c => { c with st := .attachedSrc, vconnOn := true }, fun s => s.modSwap (0 : LaneId) fun w => { w with vconnRole := true }, fun s => s.modPd (0 : LaneId) fun p => { p with hrPhase := .idle, queue := [] }, fun s => serving s (0 : LaneId)]), by decide +kernel⟩⟩

theorem meets_Contracts :
    (∃ (l : LaneId) (f : Frame) (s : State), s.hears l f ∧ (isData f 2 = true ∨ isData f 9 = true) ∧ (s.lane l).swap.powerRole = true ∧ isData f 9 ≠ (s.lane l).con.eprMode) ∧
    (∃ (l : LaneId) (f : Frame) (s : State), s.hears l f ∧ isData f 2 = true ∧ (s.lane l).swap.powerRole = true ∧ (s.lane l).con.eprMode = false ∧ (fld (obj f 0) 31 28 = 0 ∨ ((s.lane l).con.offer.getD (fld (obj f 0) 31 28 - 1) 0) = 0)) ∧
    (∃ (l : LaneId) (f : Frame) (v : Nat) (i : Nat) (s : State), s.hears l f ∧ isData f 2 = true ∧ (s.lane l).swap.powerRole = true ∧ (s.lane l).con.eprMode = false ∧ fld (obj f 0) 31 28 ≠ 0 ∧ ((s.lane l).con.offer.getD (fld (obj f 0) 31 28 - 1) 0) ≠ 0 ∧ readPdo ((s.lane l).con.offer.getD (fld (obj f 0) 31 28 - 1) 0) = .fixed v i ∧ fld (obj f 0) 19 10 ≤ i ∧ ((s.lane l).con.armState = 1 ∨ (s.lane l).con.armState = 2)) ∧
    (∃ (l : LaneId) (f : Frame) (v : Nat) (i : Nat) (s : State), s.hears l f ∧ isData f 2 = true ∧ (s.lane l).swap.powerRole = true ∧ (s.lane l).con.eprMode = false ∧ fld (obj f 0) 31 28 ≠ 0 ∧ ((s.lane l).con.offer.getD (fld (obj f 0) 31 28 - 1) 0) ≠ 0 ∧ readPdo ((s.lane l).con.offer.getD (fld (obj f 0) 31 28 - 1) 0) = .fixed v i ∧ fld (obj f 0) 19 10 ≤ i ∧ (s.lane l).con.armState = 0 ∧ (s.lane l).cc.discRepeat = false ∧ v * fld (obj f 0) 19 10 ≤ (s.lane l).budget.ceil.toNat * 2000 ∧ bitOf (obj f 0) 26 = false) ∧
    (∃ (l : LaneId) (d : Change) (s : State), (s.lane l).con.change = some d ∧ d.started = true ∧ d.moving = false ∧ d.ready = false ∧ d.asSink = false ∧ serves s l = true ∧ (s.lane l).con.twinOn = false ∧ (s.lane l).con.valid = true ∧ (s.lane l).con.curr.toNat < d.curr.toNat) ∧
    (∃ (l : LaneId) (s : State), ((s.lane l).con.change = none ∨ (s.lane l).pd.arActive = true)) ∧
    (∃ (l : LaneId) (d : Change) (s : State), (s.lane l).con.fall = some (20, d.curr) ∧ (s.lane l).con.step5 = true ∧ serves s l = true) ∧
    (∃ (l : LaneId) (f : Frame) (s : State), s.hears l f ∧ isCtl f 13 = true ∧ changeRuns (s.lane l) = false ∧ (s.lane l).swap.powerRole = true ∧ (s.lane l).con.eprMode = false ∧ (s.lane l).con.armState = 0 ∧ (s.lane l).cc.discRepeat = false) ∧
    (∃ (l : LaneId) (f : Frame) (s : State), s.hears l f ∧ isCtl f 13 = true ∧ changeRuns (s.lane l) = true ∧ (s.lane l).pd.hrCount.toNat < 2) ∧
    (∃ (l : LaneId) (f : Frame) (s : State), s.hears l f ∧ isCtl f 7 = true ∧ (s.lane l).swap.powerRole = true ∧ (s.lane l).con.eprMode = false ∧ (s.lane l).cc.discRepeat = false) ∧
    (∃ (l : LaneId) (f : Frame) (v : Nat) (i : Nat) (s : State), s.hears l f ∧ isData f 1 = true ∧ (s.lane l).swap.powerRole = false ∧ (s.lane l).swap.holdOn = false ∧ (s.lane l).con.eprMode = false ∧ bitOf (obj f 0) 23 = false ∧ f.objs = [obj f 0] ∧ readPdo (obj f 0) = .fixed v i ∧ v ≤ fld (s.lane l).cfg.vconvMax 13 0) ∧
    (∃ (l : LaneId) (f : Frame) (s : State), s.hears l f ∧ isExtCtl f 3 = true ∧ (exChunked (extHeader f) = true) ∧ exChunk (extHeader f) = 0 ∧ exSize (extHeader f) = 2) ∧
    (∃ (l : LaneId) (s : State), (s.lane l).con.kaKind ≠ 0 ∧ (s.lane l).swap.powerRole = true ∧ (s.lane l).swap.holdOn = false ∧ (s.lane l).cc.attached = true ∧ (s.lane l).pd.hrPhase = .idle ∧ (s.lane l).pd.hrCount.toNat < 2) ∧
    (∃ (l : LaneId) (s : State), ((s.lane l).con.kaKind = 0 ∨ (s.lane l).swap.powerRole = false)) ∧
    (∃ (l : LaneId) (s : State), (s.lane l).swap.powerRole = false ∧ (s.lane l).con.valid = true ∧ (s.lane l).swap.holdOn = false ∧ (s.lane l).con.kaKind = 2) ∧
    (∃ (l : LaneId) (f : Frame) (s : State), s.hears l f ∧ isData f 10 = true ∧ fld (obj f 0) 31 24 = 1 ∧ (s.lane l).swap.powerRole = true ∧ (s.lane l).con.valid = false) ∧
    (∃ (l : LaneId) (f : Frame) (s : State), s.hears l f ∧ isData f 10 = true ∧ fld (obj f 0) 31 24 = 5 ∧ (s.lane l).swap.powerRole = true ∧ (s.lane l).cc.discRepeat = false) := by
  exact ⟨⟨0, { header := 0x1042, objs := [0x10000000] }, (of [running, allPorts, fun s => s.modCc (0 : LaneId) fun c => { c with st := .attachedSrc, discRun := false, discRepeat := false }, fun s => s.modPd (0 : LaneId) fun p => { p with bist := .off, hrPhase := .idle, flight := none, queue := [], fifo := [], reasm := none, arActive := false, rxId := p.rxId.set 0 none, acceptPending := false }, fun s => serving s (0 : LaneId), fun s => s.modSwap (0 : LaneId) fun w => { w with powerRole := true }, fun s => s.modCon (0 : LaneId) fun c => { c with eprMode := true }]), by decide +kernel⟩,
    ⟨0, { header := 0x1042, objs := [0x20000000] }, (of [running, allPorts, fun s => s.modCc (0 : LaneId) fun c => { c with st := .attachedSrc, discRun := false, discRepeat := false }, fun s => s.modPd (0 : LaneId) fun p => { p with bist := .off, hrPhase := .idle, flight := none, queue := [], fifo := [], reasm := none, arActive := false, rxId := p.rxId.set 0 none, acceptPending := false }, fun s => serving s (0 : LaneId), fun s => s.modSwap (0 : LaneId) fun w => { w with powerRole := true }, fun s => s.modCon (0 : LaneId) fun c => { c with eprMode := false, offer := [0x0001912C] }]), by decide +kernel⟩,
    ⟨0, { header := 0x1042, objs := [0x1001902C] }, 1000, 300, (of [running, allPorts, fun s => s.modCc (0 : LaneId) fun c => { c with st := .attachedSrc, discRun := false, discRepeat := false }, fun s => s.modPd (0 : LaneId) fun p => { p with bist := .off, hrPhase := .idle, flight := none, queue := [], fifo := [], reasm := none, arActive := false, rxId := p.rxId.set 0 none, acceptPending := false }, fun s => serving s (0 : LaneId), fun s => s.modSwap (0 : LaneId) fun w => { w with powerRole := true }, fun s => s.modCon (0 : LaneId) fun c => { c with eprMode := false, armState := 2, offer := [0x0001912C] }]), by decide +kernel⟩,
    ⟨0, { header := 0x1042, objs := [0x1001902C] }, 1000, 300, (of [running, allPorts, fun s => s.modCc (0 : LaneId) fun c => { c with st := .attachedSrc, discRun := false, discRepeat := false }, fun s => s.modPd (0 : LaneId) fun p => { p with bist := .off, hrPhase := .idle, flight := none, queue := [], fifo := [], reasm := none, arActive := false, rxId := p.rxId.set 0 none, acceptPending := false }, fun s => serving s (0 : LaneId), fun s => s.modSwap (0 : LaneId) fun w => { w with powerRole := true }, fun s => s.modCon (0 : LaneId) fun c => { c with eprMode := false, armState := 0, offer := [0x0001912C] }, fun s => s.modBudget (0 : LaneId) fun b => { b with ceil := 1000 }]), by decide +kernel⟩,
    ⟨0, { started := true, volt := 1800, curr := 300 }, (of [running, allPorts, fun s => s.modCc (0 : LaneId) fun c => { c with st := .attachedSrc, discRun := false, discRepeat := false }, fun s => s.modPd (0 : LaneId) fun p => { p with bist := .off, hrPhase := .idle, flight := none, queue := [], fifo := [], reasm := none, arActive := false, rxId := p.rxId.set 0 none, acceptPending := false }, fun s => serving s (0 : LaneId), fun s => s.modCon (0 : LaneId) fun c => { c with twinOn := false, valid := true, curr := 10, change := some ({ started := true, volt := 1800, curr := 300 } : Change) }]), by decide +kernel⟩,
    ⟨0, (of [fun s => s.modCon (0 : LaneId) fun c => { c with change := none }]), by decide +kernel⟩,
    ⟨0, { }, (of [running, allPorts, fun s => s.modCc (0 : LaneId) fun c => { c with st := .attachedSrc, discRun := false, discRepeat := false }, fun s => s.modPd (0 : LaneId) fun p => { p with bist := .off, hrPhase := .idle, flight := none, queue := [], fifo := [], reasm := none, arActive := false, rxId := p.rxId.set 0 none, acceptPending := false }, fun s => serving s (0 : LaneId), fun s => s.modCon (0 : LaneId) fun c => { c with fall := some (20, ({ } : Change).curr), step5 := true }]), by decide +kernel⟩,
    ⟨0, { header := 0x004D }, (of [running, allPorts, fun s => s.modCc (0 : LaneId) fun c => { c with st := .attachedSrc, discRun := false, discRepeat := false }, fun s => s.modPd (0 : LaneId) fun p => { p with bist := .off, hrPhase := .idle, flight := none, queue := [], fifo := [], reasm := none, arActive := false, rxId := p.rxId.set 0 none, acceptPending := false }, fun s => serving s (0 : LaneId), fun s => s.modSwap (0 : LaneId) fun w => { w with powerRole := true }, fun s => s.modCon (0 : LaneId) fun c => { c with change := none, eprMode := false, armState := 0 }, fun s => s.modPd (0 : LaneId) fun p => { p with inChange := false }]), by decide +kernel⟩,
    ⟨0, { header := 0x004D }, (of [running, allPorts, fun s => s.modCc (0 : LaneId) fun c => { c with st := .attachedSrc, discRun := false, discRepeat := false }, fun s => s.modPd (0 : LaneId) fun p => { p with bist := .off, hrPhase := .idle, flight := none, queue := [], fifo := [], reasm := none, arActive := false, rxId := p.rxId.set 0 none, acceptPending := false }, fun s => serving s (0 : LaneId), fun s => s.modCon (0 : LaneId) fun c => { c with change := some ({ started := true } : Change) }, fun s => s.modPd (0 : LaneId) fun p => { p with hrCount := 0 }]), by decide +kernel⟩,
    ⟨0, { header := 0x0047 }, (of [running, allPorts, fun s => s.modCc (0 : LaneId) fun c => { c with st := .attachedSrc, discRun := false, discRepeat := false }, fun s => s.modPd (0 : LaneId) fun p => { p with bist := .off, hrPhase := .idle, flight := none, queue := [], fifo := [], reasm := none, arActive := false, rxId := p.rxId.set 0 none, acceptPending := false }, fun s => serving s (0 : LaneId), fun s => s.modSwap (0 : LaneId) fun w => { w with powerRole := true }, fun s => s.modCon (0 : LaneId) fun c => { c with eprMode := false }]), by decide +kernel⟩,
    ⟨0, { header := 0x1041, objs := [0x0001912C] }, 1000, 300, (of [running, allPorts, fun s => s.modCc (0 : LaneId) fun c => { c with st := .attachedSrc, discRun := false, discRepeat := false }, fun s => s.modPd (0 : LaneId) fun p => { p with bist := .off, hrPhase := .idle, flight := none, queue := [], fifo := [], reasm := none, arActive := false, rxId := p.rxId.set 0 none, acceptPending := false }, fun s => serving s (0 : LaneId), fun s => s.modSwap (0 : LaneId) fun w => { w with powerRole := false, holdOn := false }, fun s => s.modCon (0 : LaneId) fun c => { c with eprMode := false }, fun s => s.modCfg (0 : LaneId) fun c => { c with vconvMax := 2000 }]), by decide +kernel⟩,
    ⟨0, { header := 0x9050, objs := [0x00038002] }, (of [running, allPorts, fun s => s.modCc (0 : LaneId) fun c => { c with st := .attachedSrc, discRun := false, discRepeat := false }, fun s => s.modPd (0 : LaneId) fun p => { p with bist := .off, hrPhase := .idle, flight := none, queue := [], fifo := [], reasm := none, arActive := false, rxId := p.rxId.set 0 none, acceptPending := false }, fun s => serving s (0 : LaneId)]), by decide +kernel⟩,
    ⟨0, (of [running, allPorts, fun s => s.modCc (0 : LaneId) fun c => { c with st := .attachedSrc, discRun := false, discRepeat := false }, fun s => s.modPd (0 : LaneId) fun p => { p with bist := .off, hrPhase := .idle, flight := none, queue := [], fifo := [], reasm := none, arActive := false, rxId := p.rxId.set 0 none, acceptPending := false }, fun s => serving s (0 : LaneId), fun s => s.modSwap (0 : LaneId) fun w => { w with powerRole := true, holdOn := false }, fun s => s.modCon (0 : LaneId) fun c => { c with kaKind := 1 }, fun s => s.modPd (0 : LaneId) fun p => { p with hrCount := 0 }]), by decide +kernel⟩,
    ⟨0, (of [running, allPorts, fun s => s.modCc (0 : LaneId) fun c => { c with st := .attachedSrc, discRun := false, discRepeat := false }, fun s => s.modPd (0 : LaneId) fun p => { p with bist := .off, hrPhase := .idle, flight := none, queue := [], fifo := [], reasm := none, arActive := false, rxId := p.rxId.set 0 none, acceptPending := false }, fun s => serving s (0 : LaneId)]), by decide +kernel⟩,
    ⟨0, (of [running, allPorts, fun s => s.modCc (0 : LaneId) fun c => { c with st := .attachedSrc, discRun := false, discRepeat := false }, fun s => s.modPd (0 : LaneId) fun p => { p with bist := .off, hrPhase := .idle, flight := none, queue := [], fifo := [], reasm := none, arActive := false, rxId := p.rxId.set 0 none, acceptPending := false }, fun s => serving s (0 : LaneId), fun s => s.modSwap (0 : LaneId) fun w => { w with powerRole := false, holdOn := false }, fun s => s.modCon (0 : LaneId) fun c => { c with kaKind := 2, valid := true }]), by decide +kernel⟩,
    ⟨0, { header := 0x104A, objs := [0x01000000] }, (of [running, allPorts, fun s => s.modCc (0 : LaneId) fun c => { c with st := .attachedSrc, discRun := false, discRepeat := false }, fun s => s.modPd (0 : LaneId) fun p => { p with bist := .off, hrPhase := .idle, flight := none, queue := [], fifo := [], reasm := none, arActive := false, rxId := p.rxId.set 0 none, acceptPending := false }, fun s => serving s (0 : LaneId), fun s => s.modSwap (0 : LaneId) fun w => { w with powerRole := true }, fun s => s.modCon (0 : LaneId) fun c => { c with valid := false }]), by decide +kernel⟩,
    ⟨0, { header := 0x104A, objs := [0x05000000] }, (of [running, allPorts, fun s => s.modCc (0 : LaneId) fun c => { c with st := .attachedSrc, discRun := false, discRepeat := false }, fun s => s.modPd (0 : LaneId) fun p => { p with bist := .off, hrPhase := .idle, flight := none, queue := [], fifo := [], reasm := none, arActive := false, rxId := p.rxId.set 0 none, acceptPending := false }, fun s => serving s (0 : LaneId), fun s => s.modSwap (0 : LaneId) fun w => { w with powerRole := true }]), by decide +kernel⟩⟩

theorem meets_UrkaiMode :
    (∃ (l : LaneId) (f : Frame) (s : State), s.hears l f ∧ isSvdm f = true ∧ vdmType f = 0 ∧ vdmCmd f = 1 ∧ vdmSvid f = 0xFF00) ∧
    (∃ (l : LaneId) (f : Frame) (s : State), s.hears l f ∧ isSvdm f = true ∧ vdmType f = 0 ∧ vdmCmd f = 2 ∧ vdmSvid f = 0xFF00) ∧
    (∃ (l : LaneId) (f : Frame) (s : State), s.hears l f ∧ isSvdm f = true ∧ vdmType f = 0 ∧ vdmCmd f ≠ 1 ∧ vdmCmd f ≠ 2) ∧
    (∃ (l : LaneId) (s : State), (s.lane l).con.valid = true ∧ (s.lane l).swap.powerRole = true ∧ (s.lane l).swap.dataRole = true ∧ (s.lane l).con.seqRun = false ∧ serves s l = true ∧ (s.lane l).cc.attached = true ∧ (s.lane l).pd.queue = [] ∧ (s.lane l).pd.hrPhase = .idle) ∧
    (∃ (l : LaneId) (s : State), ((s.lane l).con.valid = false ∨ ((s.lane l).swap.powerRole = true ∧ (s.lane l).swap.dataRole = true ∧ (s.lane l).con.seqRun = true) ∨ (((s.lane l).swap.powerRole = false ∨ (s.lane l).swap.dataRole = false) ∧ s.sec.authMode = 0))) ∧
    (∃ (l : LaneId) (s : State), (s.lane l).con.valid = true ∧ ((s.lane l).swap.powerRole = false ∨ (s.lane l).swap.dataRole = false) ∧ (s.sec.authMode = 1 ∨ s.sec.authMode = 2) ∧ (s.lane l).con.authState = 0 ∧ (s.lane l).con.seqWait = false ∧ rootPresent s 138 = true ∧ serves s l = true ∧ (s.lane l).cc.attached = true ∧ (s.lane l).pd.queue = [] ∧ (s.lane l).pd.hrPhase = .idle) ∧
    (∃ (l : LaneId) (s : State), (s.lane l).con.seqWait = true ∧ serves s l = true ∧ ((s.lane l).con.seq = .identity ∨ (s.lane l).con.seq = .enterMode ∨ ((s.lane l).con.seq = .twinSet ∧ isPack (s.lane l) = false)) ∧ (s.lane l).pd.queue.any (·.ams) = false ∧ (s.lane l).pd.hwq.any (·.ams) = false ∧ s.sec.authMode = 0 ∧ (s.lane l).con.recRetry = false) ∧
    (∃ (l : LaneId) (s : State), (s.lane l).con.seqWait = true ∧ serves s l = true ∧ (s.lane l).con.seq = .twinSet ∧ isPack (s.lane l) = true ∧ (s.lane l).pd.queue = [] ∧ (s.lane l).pd.hrPhase = .idle) ∧
    (∃ (l : LaneId) (s : State), (s.lane l).con.seqWait = false ∧ (s.lane l).con.armCmd.isSome = true ∧ serves s l = true ∧ (s.lane l).pd.queue.any (·.ams) = false ∧ (s.lane l).pd.hwq.any (·.ams) = false) ∧
    (∃ (l : LaneId) (s : State), (s.lane l).con.seqWait = false ∧ (s.lane l).con.tmPhase ≠ .idle) ∧
    (∃ (l : LaneId) (f : Frame) (s : State), s.hears l f ∧ isSvdm f = true ∧ pdSvid s ≠ 0 ∧ vdmSvid f = pdSvid s ∧ vdmType f = 1 ∧ vdmCmd f = 4 ∧ (s.lane l).con.seq = .enterMode ∧ (s.lane l).con.seqWait = true) ∧
    (∃ (l : LaneId) (f : Frame) (s : State), s.hears l f ∧ pdSvid s = 0) ∧
    (∃ (l : LaneId) (f : Frame) (s : State), s.hears l f ∧ isSvdm f = true ∧ pdSvid s ≠ 0 ∧ vdmSvid f = pdSvid s ∧ vdmType f = 1 ∧ vdmCmd f = 5) ∧
    (∃ (l : LaneId) (f : Frame) (s : State), s.hears l f ∧ isSvdm f = true ∧ pdSvid s ≠ 0 ∧ vdmSvid f = pdSvid s ∧ vdmType f = 1 ∧ vdmCmd f = 18 ∧ (s.lane l).con.urkai = true ∧ (s.lane l).con.seq = .twinSet ∧ (s.lane l).con.seqWait = true) ∧
    (∃ (l : LaneId) (s : State), (s.lane l).con.urkai = true ∧ bitOf ((s.lane l).con.modeVdo.getD 0) 2 = true ∧ (s.lane l).swap.powerRole = true ∧ fld (s.lane l).cfg.umodeCtrl 11 8 ≠ 0 ∧ (s.lane l).pd.queue = [] ∧ (s.lane l).pd.fifo = [] ∧ (s.lane l).pd.reasm = none ∧ (s.lane l).pd.hrPhase = .idle ∧ (s.lane l).con.tmPhase = .idle ∧ (s.lane l).pd.hwq = [] ∧ s.dev.state = .run) ∧
    (∃ (l : LaneId) (s : State), ((s.lane l).con.urkai = false ∨ fld (s.lane l).cfg.umodeCtrl 11 8 = 0 ∨ (s.lane l).con.tmPhase ≠ .idle)) ∧
    (∃ (l : LaneId) (f : Frame) (s : State), s.hears l f ∧ isSvdm f = true ∧ pdSvid s ≠ 0 ∧ vdmSvid f = pdSvid s ∧ vdmType f = 1 ∧ vdmCmd f = 17 ∧ (s.lane l).con.tmPhase = .followSent) ∧
    (∃ (l : LaneId) (f : Frame) (s : State), s.hears l f ∧ isExtended f.header = true ∧ msgType f.header = 8 ∧ exChunked (extHeader f) = true ∧ exChunk (extHeader f) = 0 ∧ exSize (extHeader f) ≤ 26 ∧ exRequest (extHeader f) = false) := by
  exact ⟨⟨0, { header := 0x104F, objs := [0xFF00A001] }, (of [running, allPorts, fun s => s.modCc (0 : LaneId) fun c => { c with st := .attachedSrc, discRun := false, discRepeat := false }, fun s => s.modPd (0 : LaneId) fun p => { p with bist := .off, hrPhase := .idle, flight := none, queue := [], fifo := [], reasm := none, arActive := false, rxId := p.rxId.set 0 none, acceptPending := false }, fun s => serving s (0 : LaneId)]), by decide +kernel⟩,
    ⟨0, { header := 0x104F, objs := [0xFF00A002] }, (of [running, allPorts, fun s => s.modCc (0 : LaneId) fun c => { c with st := .attachedSrc, discRun := false, discRepeat := false }, fun s => s.modPd (0 : LaneId) fun p => { p with bist := .off, hrPhase := .idle, flight := none, queue := [], fifo := [], reasm := none, arActive := false, rxId := p.rxId.set 0 none, acceptPending := false }, fun s => serving s (0 : LaneId)]), by decide +kernel⟩,
    ⟨0, { header := 0x104F, objs := [0xFF00A003] }, (of [running, allPorts, fun s => s.modCc (0 : LaneId) fun c => { c with st := .attachedSrc, discRun := false, discRepeat := false }, fun s => s.modPd (0 : LaneId) fun p => { p with bist := .off, hrPhase := .idle, flight := none, queue := [], fifo := [], reasm := none, arActive := false, rxId := p.rxId.set 0 none, acceptPending := false }, fun s => serving s (0 : LaneId)]), by decide +kernel⟩,
    ⟨0, (of [running, allPorts, fun s => s.modCc (0 : LaneId) fun c => { c with st := .attachedSrc, discRun := false, discRepeat := false }, fun s => s.modPd (0 : LaneId) fun p => { p with bist := .off, hrPhase := .idle, flight := none, queue := [], fifo := [], reasm := none, arActive := false, rxId := p.rxId.set 0 none, acceptPending := false }, fun s => serving s (0 : LaneId), fun s => s.modSec fun x => { x with shadow := x.shadow.set 256 0x1234, authMode := 0 }, fun s => s.modSwap (0 : LaneId) fun w => { w with powerRole := true, dataRole := true }, fun s => s.modCon (0 : LaneId) fun c => { c with valid := true, seqRun := false }]), by decide +kernel⟩,
    ⟨0, (of [running, allPorts, fun s => s.modCc (0 : LaneId) fun c => { c with st := .attachedSrc, discRun := false, discRepeat := false }, fun s => s.modPd (0 : LaneId) fun p => { p with bist := .off, hrPhase := .idle, flight := none, queue := [], fifo := [], reasm := none, arActive := false, rxId := p.rxId.set 0 none, acceptPending := false }, fun s => serving s (0 : LaneId), fun s => s.modSec fun x => { x with shadow := x.shadow.set 256 0x1234, authMode := 0 }]), by decide +kernel⟩,
    ⟨0, (of [running, allPorts, fun s => s.modCc (0 : LaneId) fun c => { c with st := .attachedSrc, discRun := false, discRepeat := false }, fun s => s.modPd (0 : LaneId) fun p => { p with bist := .off, hrPhase := .idle, flight := none, queue := [], fifo := [], reasm := none, arActive := false, rxId := p.rxId.set 0 none, acceptPending := false }, fun s => serving s (0 : LaneId), fun s => s.modSec fun x => { x with authMode := 1, wstat := Vector.replicate 512 1 }, fun s => s.modSwap (0 : LaneId) fun w => { w with powerRole := false }, fun s => s.modCon (0 : LaneId) fun c => { c with valid := true, authState := 0, seqWait := false }]), by decide +kernel⟩,
    ⟨0, (of [running, allPorts, fun s => s.modCc (0 : LaneId) fun c => { c with st := .attachedSrc, discRun := false, discRepeat := false }, fun s => s.modPd (0 : LaneId) fun p => { p with bist := .off, hrPhase := .idle, flight := none, queue := [], fifo := [], reasm := none, arActive := false, rxId := p.rxId.set 0 none, acceptPending := false }, fun s => serving s (0 : LaneId), fun s => s.modSec fun x => { x with shadow := x.shadow.set 256 0x1234, authMode := 0 }, fun s => s.modCon (0 : LaneId) fun c => { c with seqWait := true, seq := .enterMode, recRetry := false }]), by decide +kernel⟩,
    ⟨0, (of [running, allPorts, fun s => s.modCc (0 : LaneId) fun c => { c with st := .attachedSrc, discRun := false, discRepeat := false }, fun s => s.modPd (0 : LaneId) fun p => { p with bist := .off, hrPhase := .idle, flight := none, queue := [], fifo := [], reasm := none, arActive := false, rxId := p.rxId.set 0 none, acceptPending := false }, fun s => serving s (0 : LaneId), fun s => s.modSec fun x => { x with shadow := x.shadow.set 256 0x1234, authMode := 0 }, fun s => s.modCon (0 : LaneId) fun c => { c with seqWait := true, seq := .twinSet, urkai := true, modeVdo := some 8 }]), by decide +kernel⟩,
    ⟨0, (of [running, allPorts, fun s => s.modCc (0 : LaneId) fun c => { c with st := .attachedSrc, discRun := false, discRepeat := false }, fun s => s.modPd (0 : LaneId) fun p => { p with bist := .off, hrPhase := .idle, flight := none, queue := [], fifo := [], reasm := none, arActive := false, rxId := p.rxId.set 0 none, acceptPending := false }, fun s => serving s (0 : LaneId), fun s => s.modCon (0 : LaneId) fun c => { c with seqWait := false, armCmd := some 19, tmPhase := .idle }]), by decide +kernel⟩,
    ⟨0, (of [running, allPorts, fun s => s.modCc (0 : LaneId) fun c => { c with st := .attachedSrc, discRun := false, discRepeat := false }, fun s => s.modPd (0 : LaneId) fun p => { p with bist := .off, hrPhase := .idle, flight := none, queue := [], fifo := [], reasm := none, arActive := false, rxId := p.rxId.set 0 none, acceptPending := false }, fun s => serving s (0 : LaneId), fun s => s.modCon (0 : LaneId) fun c => { c with seqWait := false, tmPhase := .markSent }]), by decide +kernel⟩,
    ⟨0, { header := 0x104f, objs := [0x1234a144] }, (of [running, allPorts, fun s => s.modCc (0 : LaneId) fun c => { c with st := .attachedSrc, discRun := false, discRepeat := false }, fun s => s.modPd (0 : LaneId) fun p => { p with bist := .off, hrPhase := .idle, flight := none, queue := [], fifo := [], reasm := none, arActive := false, rxId := p.rxId.set 0 none, acceptPending := false }, fun s => serving s (0 : LaneId), fun s => s.modSec fun x => { x with shadow := x.shadow.set 256 0x1234, authMode := 0 }, fun s => s.modCon (0 : LaneId) fun c => { c with seq := .enterMode, seqWait := true, tmPhase := .idle }]), by decide +kernel⟩,
    ⟨0, { header := 0x104F, objs := [0x0000A144] }, (of [running, allPorts, fun s => s.modCc (0 : LaneId) fun c => { c with st := .attachedSrc, discRun := false, discRepeat := false }, fun s => s.modPd (0 : LaneId) fun p => { p with bist := .off, hrPhase := .idle, flight := none, queue := [], fifo := [], reasm := none, arActive := false, rxId := p.rxId.set 0 none, acceptPending := false }, fun s => serving s (0 : LaneId), fun s => s.modSec fun x => { x with shadow := x.shadow.set 256 0, authMode := 0 }]), by decide +kernel⟩,
    ⟨0, { header := 0x104f, objs := [0x1234a145] }, (of [running, allPorts, fun s => s.modCc (0 : LaneId) fun c => { c with st := .attachedSrc, discRun := false, discRepeat := false }, fun s => s.modPd (0 : LaneId) fun p => { p with bist := .off, hrPhase := .idle, flight := none, queue := [], fifo := [], reasm := none, arActive := false, rxId := p.rxId.set 0 none, acceptPending := false }, fun s => serving s (0 : LaneId), fun s => s.modSec fun x => { x with shadow := x.shadow.set 256 0x1234, authMode := 0 }]), by decide +kernel⟩,
    ⟨0, { header := 0x104f, objs := [0x1234a152] }, (of [running, allPorts, fun s => s.modCc (0 : LaneId) fun c => { c with st := .attachedSrc, discRun := false, discRepeat := false }, fun s => s.modPd (0 : LaneId) fun p => { p with bist := .off, hrPhase := .idle, flight := none, queue := [], fifo := [], reasm := none, arActive := false, rxId := p.rxId.set 0 none, acceptPending := false }, fun s => serving s (0 : LaneId), fun s => s.modSec fun x => { x with shadow := x.shadow.set 256 0x1234, authMode := 0 }, fun s => s.modCon (0 : LaneId) fun c => { c with seq := .twinSet, seqWait := true, urkai := true }]), by decide +kernel⟩,
    ⟨0, (of [running, allPorts, fun s => s.modCc (0 : LaneId) fun c => { c with st := .attachedSrc, discRun := false, discRepeat := false }, fun s => s.modPd (0 : LaneId) fun p => { p with bist := .off, hrPhase := .idle, flight := none, queue := [], fifo := [], reasm := none, arActive := false, rxId := p.rxId.set 0 none, acceptPending := false }, fun s => serving s (0 : LaneId), fun s => s.modSec fun x => { x with shadow := x.shadow.set 256 0x1234, authMode := 0 }, fun s => s.modSwap (0 : LaneId) fun w => { w with powerRole := true }, fun s => s.modCon (0 : LaneId) fun c => { c with urkai := true, modeVdo := some 0xF, tmPhase := .idle }, fun s => s.modCfg (0 : LaneId) fun c => { c with umodeCtrl := 0x503 }, fun s => s.modPd (0 : LaneId) fun p => { p with hwq := [] }]), by decide +kernel⟩,
    ⟨0, (of [running, allPorts, fun s => s.modCc (0 : LaneId) fun c => { c with st := .attachedSrc, discRun := false, discRepeat := false }, fun s => s.modPd (0 : LaneId) fun p => { p with bist := .off, hrPhase := .idle, flight := none, queue := [], fifo := [], reasm := none, arActive := false, rxId := p.rxId.set 0 none, acceptPending := false }, fun s => serving s (0 : LaneId)]), by decide +kernel⟩,
    ⟨0, { header := 0x204f, objs := [0x1234a151, 0x1401] }, (of [running, allPorts, fun s => s.modCc (0 : LaneId) fun c => { c with st := .attachedSrc, discRun := false, discRepeat := false }, fun s => s.modPd (0 : LaneId) fun p => { p with bist := .off, hrPhase := .idle, flight := none, queue := [], fifo := [], reasm := none, arActive := false, rxId := p.rxId.set 0 none, acceptPending := false }, fun s => serving s (0 : LaneId), fun s => s.modSec fun x => { x with shadow := x.shadow.set 256 0x1234, authMode := 0 }, fun s => s.modCon (0 : LaneId) fun c => { c with tmPhase := .followSent }]), by decide +kernel⟩,
    ⟨0, { header := 0x9048, objs := [0x81018004, 0] }, (of [running, allPorts, fun s => s.modCc (0 : LaneId) fun c => { c with st := .attachedSrc, discRun := false, discRepeat := false }, fun s => s.modPd (0 : LaneId) fun p => { p with bist := .off, hrPhase := .idle, flight := none, queue := [], fifo := [], reasm := none, arActive := false, rxId := p.rxId.set 0 none, acceptPending := false }, fun s => serving s (0 : LaneId)]), by decide +kernel⟩⟩

theorem meets_TwinSwitch :
    (∃ (a : Agent) (l : LaneId) (v : Word) (s : State), hostServed s a = true ∧ s.fusedOff l = false ∧ bitOf v 16 = true ∧ bitOf v 17 = false ∧ (s.lane l).con.armState ≠ 1 ∧ (s.lane l).con.armState ≠ 2 ∧ armRefused s l (bitOf v 23) = false) ∧
    (∃ (a : Agent) (l : LaneId) (v : Word) (s : State), hostServed s a = true ∧ s.fusedOff l = false ∧ bitOf v 16 = true ∧ bitOf v 17 = false ∧ (s.lane l).con.armState ≠ 1 ∧ (s.lane l).con.armState ≠ 2 ∧ ((s.lane l).con.twinOn = false ∨ (s.lane l).con.tmLock = false ∨ armTime (s.lane l).cfg < s.dev.dtime + 5000000 ∨ (s.lane l).pd.hrBusy = true)) ∧
    (∃ (a : Agent) (l : LaneId) (v : Word) (s : State), hostServed s a = true ∧ s.fusedOff l = false ∧ bitOf v 16 = true ∧ bitOf v 17 = false ∧ ((s.lane l).con.armState = 1 ∨ (s.lane l).con.armState = 2)) ∧
    (∃ (a : Agent) (l : LaneId) (v : Word) (s : State), hostServed s a = true ∧ s.fusedOff l = false ∧ bitOf v 17 = true ∧ bitOf v 16 = false ∧ ((s.lane l).con.armState = 1 ∨ (s.lane l).con.armState = 2) ∧ serves s l = true ∧ (s.lane l).pd.queue = [] ∧ (s.lane l).pd.hrPhase = .idle) ∧
    (∃ (a : Agent) (l : LaneId) (v : Word) (s : State), hostServed s a = true ∧ s.fusedOff l = false ∧ bitOf v 17 = true ∧ bitOf v 16 = false ∧ ((s.lane l).con.armState = 0 ∨ (s.lane l).con.armState = 3)) ∧
    (∃ (l : LaneId) (f : Frame) (s : State), s.hears l f ∧ isSvdm f = true ∧ pdSvid s ≠ 0 ∧ vdmSvid f = pdSvid s ∧ vdmType f = 1 ∧ vdmCmd f = 19 ∧ (s.lane l).con.armState = 1 ∧ fld (obj f 1) 3 0 = (s.lane l).con.armedId.toNat ∧ s.dev.dtime + 100000 ≤ (s.lane l).con.armT) ∧
    (∃ (l : LaneId) (f : Frame) (s : State), s.hears l f ∧ isSvdm f = true ∧ pdSvid s ≠ 0 ∧ vdmSvid f = pdSvid s ∧ vdmType f = 1 ∧ vdmCmd f = 19 ∧ (s.lane l).con.armState = 1 ∧ fld (obj f 1) 3 0 ≠ (s.lane l).con.armedId.toNat) ∧
    (∃ (l : LaneId) (f : Frame) (s : State), s.hears l f ∧ isSvdm f = true ∧ pdSvid s ≠ 0 ∧ vdmSvid f = pdSvid s ∧ vdmType f = 1 ∧ vdmCmd f = 20 ∧ ((s.lane l).con.armState = 1 ∨ (s.lane l).con.armState = 2) ∧ fld (obj f 1) 3 0 = (s.lane l).con.armedId.toNat ∧ s.dev.dtime + 100000 ≤ (s.lane l).con.armT) ∧
    (∃ (l : LaneId) (s : State), (s.lane l).con.armState = 1) ∧
    (∃ (l : LaneId) (s : State), (s.lane l).con.armState ≠ 1) ∧
    (∃ (l : LaneId) (s : State), (s.lane l).con.armState = 2 ∧ (s.lane l).con.armedTarget = true ∧ (s.lane l).con.runStep = false ∧ (s.lane l).belay.sw = 2 ∧ (s.lane l).pd.hrPhase = .idle) ∧
    (∃ (l : LaneId) (s : State), (s.lane l).con.armState = 2 ∧ (s.lane l).con.armedTarget = true ∧ (s.lane l).con.runStep = false ∧ (s.lane l).belay.sw ≠ 2 ∧ ((s.lane l).con.fellBack = true ∨ serves s l = false)) ∧
    (∃ (l : LaneId) (s : State), (s.lane l).con.armState = 2 ∧ (s.lane l).con.armedTarget = true ∧ (s.lane l).con.runStep = true) ∧
    (∃ (l : LaneId) (s : State), (s.lane l).con.armState = 2 ∧ (s.lane l).con.armedTarget = false ∧ (s.lane l).belay.sw = 2 ∧ (s.lane l).pd.hrPhase = .idle) ∧
    (∃ (l : LaneId) (s : State), (s.lane l).con.standbyWait = true) ∧
    (∃ (l : LaneId) (s : State), (s.lane l).con.standbyWait = false) := by
  exact ⟨⟨.core 4, 0, 0x03810000, (of [running, allPorts, fun s => s.modCc (0 : LaneId) fun c => { c with st := .attachedSrc, discRun := false, discRepeat := false }, fun s => s.modPd (0 : LaneId) fun p => { p with bist := .off, hrPhase := .idle, flight := none, queue := [], fifo := [], reasm := none, arActive := false, rxId := p.rxId.set 0 none, acceptPending := false }, fun s => serving s (0 : LaneId), allPorts, fun s => s.modCfg (0 : LaneId) fun c => { c with twinStandby := 0x000A0032, twinRun := 0x003C012C, umodeCtrl := 0 }, fun s => s.modSwap (0 : LaneId) fun w => { w with powerRole := true }, fun s => s.modCon (0 : LaneId) fun c => { c with twinOn := true, tmLock := true, armState := 0, kind := 0, curr := 50 }, fun s => s.modDev fun d => { d with dtime := 1000 }, fun s => s.modCfg (0 : LaneId) fun c => { c with armTimeHi := 0, armTimeLo := 10000000 }]), by decide +kernel⟩,
    ⟨.core 4, 0, 0x03810000, (of [running, allPorts, fun s => s.modCc (0 : LaneId) fun c => { c with st := .attachedSrc, discRun := false, discRepeat := false }, fun s => s.modPd (0 : LaneId) fun p => { p with bist := .off, hrPhase := .idle, flight := none, queue := [], fifo := [], reasm := none, arActive := false, rxId := p.rxId.set 0 none, acceptPending := false }, fun s => serving s (0 : LaneId), fun s => s.modCon (0 : LaneId) fun c => { c with armState := 0 }]), by decide +kernel⟩,
    ⟨.core 4, 0, 0x03810000, (of [running, allPorts, fun s => s.modCc (0 : LaneId) fun c => { c with st := .attachedSrc, discRun := false, discRepeat := false }, fun s => s.modPd (0 : LaneId) fun p => { p with bist := .off, hrPhase := .idle, flight := none, queue := [], fifo := [], reasm := none, arActive := false, rxId := p.rxId.set 0 none, acceptPending := false }, fun s => serving s (0 : LaneId), fun s => s.modCon (0 : LaneId) fun c => { c with armState := 2 }]), by decide +kernel⟩,
    ⟨.core 4, 0, 0x20000, (of [running, allPorts, fun s => s.modCc (0 : LaneId) fun c => { c with st := .attachedSrc, discRun := false, discRepeat := false }, fun s => s.modPd (0 : LaneId) fun p => { p with bist := .off, hrPhase := .idle, flight := none, queue := [], fifo := [], reasm := none, arActive := false, rxId := p.rxId.set 0 none, acceptPending := false }, fun s => serving s (0 : LaneId), fun s => s.modCon (0 : LaneId) fun c => { c with armState := 2 }]), by decide +kernel⟩,
    ⟨.core 4, 0, 0x20000, (of [running, allPorts, fun s => s.modCc (0 : LaneId) fun c => { c with st := .attachedSrc, discRun := false, discRepeat := false }, fun s => s.modPd (0 : LaneId) fun p => { p with bist := .off, hrPhase := .idle, flight := none, queue := [], fifo := [], reasm := none, arActive := false, rxId := p.rxId.set 0 none, acceptPending := false }, fun s => serving s (0 : LaneId), fun s => s.modCon (0 : LaneId) fun c => { c with armState := 0 }]), by decide +kernel⟩,
    ⟨0, { header := 0x204f, objs := [0x1234a153, 0x3] }, (of [running, allPorts, fun s => s.modCc (0 : LaneId) fun c => { c with st := .attachedSrc, discRun := false, discRepeat := false }, fun s => s.modPd (0 : LaneId) fun p => { p with bist := .off, hrPhase := .idle, flight := none, queue := [], fifo := [], reasm := none, arActive := false, rxId := p.rxId.set 0 none, acceptPending := false }, fun s => serving s (0 : LaneId), fun s => s.modSec fun x => { x with shadow := x.shadow.set 256 0x1234, authMode := 0 }, fun s => s.modCon (0 : LaneId) fun c => { c with armState := 1, armedId := 3, armT := 2 ^ 63 }]), by decide +kernel⟩,
    ⟨0, { header := 0x204f, objs := [0x1234a153, 0x3] }, (of [running, allPorts, fun s => s.modCc (0 : LaneId) fun c => { c with st := .attachedSrc, discRun := false, discRepeat := false }, fun s => s.modPd (0 : LaneId) fun p => { p with bist := .off, hrPhase := .idle, flight := none, queue := [], fifo := [], reasm := none, arActive := false, rxId := p.rxId.set 0 none, acceptPending := false }, fun s => serving s (0 : LaneId), fun s => s.modSec fun x => { x with shadow := x.shadow.set 256 0x1234, authMode := 0 }, fun s => s.modCon (0 : LaneId) fun c => { c with armState := 1, armedId := 2, armT := 2 ^ 63 }]), by decide +kernel⟩,
    ⟨0, { header := 0x204f, objs := [0x1234a154, 0x3] }, (of [running, allPorts, fun s => s.modCc (0 : LaneId) fun c => { c with st := .attachedSrc, discRun := false, discRepeat := false }, fun s => s.modPd (0 : LaneId) fun p => { p with bist := .off, hrPhase := .idle, flight := none, queue := [], fifo := [], reasm := none, arActive := false, rxId := p.rxId.set 0 none, acceptPending := false }, fun s => serving s (0 : LaneId), fun s => s.modSec fun x => { x with shadow := x.shadow.set 256 0x1234, authMode := 0 }, fun s => s.modCon (0 : LaneId) fun c => { c with armState := 2, armedId := 3, armT := 2 ^ 63 }]), by decide +kernel⟩,
    ⟨0, (of [running, allPorts, fun s => s.modCc (0 : LaneId) fun c => { c with st := .attachedSrc, discRun := false, discRepeat := false }, fun s => s.modPd (0 : LaneId) fun p => { p with bist := .off, hrPhase := .idle, flight := none, queue := [], fifo := [], reasm := none, arActive := false, rxId := p.rxId.set 0 none, acceptPending := false }, fun s => serving s (0 : LaneId), fun s => s.modCon (0 : LaneId) fun c => { c with armState := 1 }]), by decide +kernel⟩,
    ⟨0, (of [running, allPorts, fun s => s.modCc (0 : LaneId) fun c => { c with st := .attachedSrc, discRun := false, discRepeat := false }, fun s => s.modPd (0 : LaneId) fun p => { p with bist := .off, hrPhase := .idle, flight := none, queue := [], fifo := [], reasm := none, arActive := false, rxId := p.rxId.set 0 none, acceptPending := false }, fun s => serving s (0 : LaneId)]), by decide +kernel⟩,
    ⟨0, (of [running, allPorts, fun s => s.modCc (0 : LaneId) fun c => { c with st := .attachedSrc, discRun := false, discRepeat := false }, fun s => s.modPd (0 : LaneId) fun p => { p with bist := .off, hrPhase := .idle, flight := none, queue := [], fifo := [], reasm := none, arActive := false, rxId := p.rxId.set 0 none, acceptPending := false }, fun s => serving s (0 : LaneId), fun s => s.modCon (0 : LaneId) fun c => { c with armState := 2, armedTarget := true, runStep := false }, fun s => s.modBelay (0 : LaneId) fun b => { b with sw := 2 }]), by decide +kernel⟩,
    ⟨0, (of [running, allPorts, fun s => s.modCc (0 : LaneId) fun c => { c with st := .attachedSrc, discRun := false, discRepeat := false }, fun s => s.modPd (0 : LaneId) fun p => { p with bist := .off, hrPhase := .idle, flight := none, queue := [], fifo := [], reasm := none, arActive := false, rxId := p.rxId.set 0 none, acceptPending := false }, fun s => serving s (0 : LaneId), fun s => s.modCon (0 : LaneId) fun c => { c with armState := 2, armedTarget := true, runStep := false, fellBack := true }, fun s => s.modBelay (0 : LaneId) fun b => { b with sw := 0 }]), by decide +kernel⟩,
    ⟨0, (of [running, allPorts, fun s => s.modCc (0 : LaneId) fun c => { c with st := .attachedSrc, discRun := false, discRepeat := false }, fun s => s.modPd (0 : LaneId) fun p => { p with bist := .off, hrPhase := .idle, flight := none, queue := [], fifo := [], reasm := none, arActive := false, rxId := p.rxId.set 0 none, acceptPending := false }, fun s => serving s (0 : LaneId), fun s => s.modCon (0 : LaneId) fun c => { c with armState := 2, armedTarget := true, runStep := true }, fun s => s.modCfg (0 : LaneId) fun c => { c with twinStandby := 0x000A0032, twinRun := 0x003C012C, umodeCtrl := 0 }]), by decide +kernel⟩,
    ⟨0, (of [running, allPorts, fun s => s.modCc (0 : LaneId) fun c => { c with st := .attachedSrc, discRun := false, discRepeat := false }, fun s => s.modPd (0 : LaneId) fun p => { p with bist := .off, hrPhase := .idle, flight := none, queue := [], fifo := [], reasm := none, arActive := false, rxId := p.rxId.set 0 none, acceptPending := false }, fun s => serving s (0 : LaneId), fun s => s.modCon (0 : LaneId) fun c => { c with armState := 2, armedTarget := false }, fun s => s.modBelay (0 : LaneId) fun b => { b with sw := 2 }, fun s => s.modCfg (0 : LaneId) fun c => { c with twinStandby := 0x000A0032, twinRun := 0x003C012C, umodeCtrl := 0 }]), by decide +kernel⟩,
    ⟨0, (of [running, allPorts, fun s => s.modCc (0 : LaneId) fun c => { c with st := .attachedSrc, discRun := false, discRepeat := false }, fun s => s.modPd (0 : LaneId) fun p => { p with bist := .off, hrPhase := .idle, flight := none, queue := [], fifo := [], reasm := none, arActive := false, rxId := p.rxId.set 0 none, acceptPending := false }, fun s => serving s (0 : LaneId), fun s => s.modCon (0 : LaneId) fun c => { c with standbyWait := true }]), by decide +kernel⟩,
    ⟨0, (of [running, allPorts, fun s => s.modCc (0 : LaneId) fun c => { c with st := .attachedSrc, discRun := false, discRepeat := false }, fun s => s.modPd (0 : LaneId) fun p => { p with bist := .off, hrPhase := .idle, flight := none, queue := [], fifo := [], reasm := none, arActive := false, rxId := p.rxId.set 0 none, acceptPending := false }, fun s => serving s (0 : LaneId)]), by decide +kernel⟩⟩

theorem meets_RoleSwaps :
    (∃ (a : Agent) (l : LaneId) (s : State), hostServed s a = true ∧ s.fusedOff l = false ∧ (s.lane l).swap.state ≠ 0) ∧
    (∃ (a : Agent) (l : LaneId) (s : State), hostServed s a = true ∧ s.fusedOff l = false ∧ judgePrSwap (s.lane l) = .accept ∧ serves s l = true ∧ (s.lane l).cc.attached = true ∧ (s.lane l).swap.ownPending = false ∧ (s.lane l).swap.prAccept = false ∧ ((s.lane l).swap.prDropped = false ∨ partnerBusy (s.lane l) = false) ∧ (s.lane l).pd.queue = []) ∧
    (∃ (a : Agent) (l : LaneId) (s : State), hostServed s a = true ∧ s.fusedOff l = false ∧ (s.lane l).swap.state = 0 ∧ (s.lane l).swap.prDropped = true ∧ partnerBusy (s.lane l) = true) ∧
    (∃ (l : LaneId) (f : Frame) (s : State), s.hears l f ∧ isCtl f 10 = true ∧ ((s.lane l).swap.state ≠ 0 ∨ (s.lane l).con.armState = 1 ∨ (s.lane l).con.armState = 2)) ∧
    (∃ (l : LaneId) (f : Frame) (s : State), s.hears l f ∧ isCtl f 10 = true ∧ (s.lane l).swap.state = 0 ∧ (s.lane l).con.armState = 0 ∧ (bitOf (s.lane l).cfg.swapCtrl 1 = false ∨ (s.lane l).cfg.mode = 1 ∨ (s.lane l).cfg.mode = 2 ∨ (s.lane l).con.urkai = false)) ∧
    (∃ (l : LaneId) (f : Frame) (s : State), s.hears l f ∧ isCtl f 10 = true ∧ (s.lane l).swap.state = 0 ∧ (s.lane l).con.armState = 0 ∧ bitOf (s.lane l).cfg.swapCtrl 1 = true ∧ (s.lane l).cfg.mode ≠ 1 ∧ (s.lane l).cfg.mode ≠ 2 ∧ isPack (s.lane l) = true ∧ (s.lane l).swap.packHold = false ∧ ((s.lane l).swap.powerRole = false ∨ revIlim (s.lane l).cfg ≠ 0)) ∧
    (∃ (l : LaneId) (s : State), ((s.lane l).swap.prAccept = true ∨ (s.lane l).swap.ownPending = true) ∧ (s.lane l).cc.attached = true ∧ (s.lane l).swap.state = 0 ∧ (s.lane l).pd.hrPhase = .idle) ∧
    (∃ (l : LaneId) (f : Frame) (s : State), s.hears l f ∧ isCtl f 4 = true ∧ (s.lane l).swap.ownPending = true ∧ (s.lane l).swap.ownVcs = false ∧ (s.lane l).pd.hwq.any (·.ams) = false) ∧
    (∃ (l : LaneId) (f : Frame) (s : State), s.hears l f ∧ isCtl f 12 = true ∧ (s.lane l).swap.ownPending = true) ∧
    (∃ (l : LaneId) (s : State), (s.lane l).swap.state = 1 ∧ (s.lane l).swap.presentsRp = true) ∧
    (∃ (l : LaneId) (s : State), (s.lane l).swap.state = 1 ∧ (s.lane l).swap.presentsRp = true ∧ (s.lane l).belay.sw = 0) ∧
    (∃ (l : LaneId) (f : Frame) (s : State), s.hears l f ∧ isCtl f 6 = true ∧ (s.lane l).swap.state = 1 ∧ (s.lane l).swap.presentsRp = false) ∧
    (∃ (l : LaneId) (f : Frame) (s : State), s.hears l f ∧ isCtl f 6 = true ∧ (s.lane l).swap.state = 2 ∧ (s.lane l).swap.presentsRp = false ∧ liveBit s l = true ∧ (s.lane l).belay.sw = 0 ∧ dieUp s l = true ∧ (s.lane l).belay.latched = false) ∧
    (∃ (l : LaneId) (s : State), (s.lane l).swap.state = 1 ∧ (s.lane l).swap.presentsRp = false) ∧
    (∃ (l : LaneId) (s : State), ((s.lane l).swap.state ≠ 1 ∨ (s.lane l).swap.presentsRp = true)) ∧
    (∃ (l : LaneId) (s : State), (s.lane l).swap.state = 2 ∧ (s.lane l).swap.presentsRp = false) ∧
    (∃ (l : LaneId) (f : Frame) (s : State), s.hears l f ∧ isCtl f 9 = true ∧ (s.lane l).swap.state = 0 ∧ (s.lane l).con.urkai = false ∧ bitOf (s.lane l).cfg.swapCtrl 3 = true) ∧
    (∃ (l : LaneId) (f : Frame) (s : State), s.hears l f ∧ isCtl f 9 = true ∧ (s.lane l).swap.state = 0 ∧ ((s.lane l).con.urkai = true ∨ bitOf (s.lane l).cfg.swapCtrl 3 = false)) ∧
    (∃ (l : LaneId) (f : Frame) (s : State), s.hears l f ∧ isCtl f 11 = true ∧ (s.lane l).swap.state = 0 ∧ bitOf (s.lane l).cfg.swapCtrl 2 = false) ∧
    (∃ (l : LaneId) (f : Frame) (s : State), s.hears l f ∧ isCtl f 11 = true ∧ (s.lane l).swap.state = 0 ∧ bitOf (s.lane l).cfg.swapCtrl 2 = true ∧ (s.lane l).swap.vconnRole = true) ∧
    (∃ (l : LaneId) (s : State), (s.lane l).swap.state = 5 ∧ (s.lane l).swap.vcsTake = true ∧ (s.lane l).cc.vconnOn = true ∧ (s.lane l).swap.vcsTried = false) ∧
    (∃ (l : LaneId) (s : State), (s.lane l).swap.state = 5 ∧ (s.lane l).swap.vcsTake = false ∧ (s.lane l).swap.psSent = false ∧ (s.lane l).cc.attached = true ∧ (s.lane l).pd.hrPhase = .idle ∧ (s.lane l).pd.hrCount.toNat < 2) ∧
    (∃ (l : LaneId) (s : State), (s.lane l).swap.state = 5 ∧ (s.lane l).swap.vcsTake = false ∧ (s.lane l).swap.psSent = true) := by
  exact ⟨⟨.core 4, 0, (of [allPorts, running, fun s => s.modSwap (0 : LaneId) fun w => { w with state := 5 }]), by decide +kernel⟩,
    ⟨.core 4, 0, (of [running, allPorts, fun s => s.modCc (0 : LaneId) fun c => { c with st := .attachedSrc, discRun := false, discRepeat := false }, fun s => s.modPd (0 : LaneId) fun p => { p with bist := .off, hrPhase := .idle, flight := none, queue := [], fifo := [], reasm := none, arActive := false, rxId := p.rxId.set 0 none, acceptPending := false }, fun s => serving s (0 : LaneId), fun s => s.modCon (0 : LaneId) fun c => { c with urkai := true, modeVdo := some 0x8, armState := 0 }, fun s => s.modCfg (0 : LaneId) fun c => { c with swapCtrl := 0x012C000F, ccCtrl := 3 }, fun s => s.modSwap (0 : LaneId) fun w => { w with state := 0, powerRole := true, packHold := false, ownPending := false, prAccept := false, prDropped := false }]), by decide +kernel⟩,
    ⟨.core 4, 0, (of [running, allPorts, fun s => s.modCc (0 : LaneId) fun c => { c with st := .attachedSrc, discRun := false, discRepeat := false }, fun s => s.modPd (0 : LaneId) fun p => { p with bist := .off, hrPhase := .idle, flight := none, queue := [], fifo := [], reasm := none, arActive := false, rxId := p.rxId.set 0 none, acceptPending := false }, fun s => serving s (0 : LaneId), fun s => s.modSwap (0 : LaneId) fun w => { w with state := 0, prDropped := true, swapAccept := true }]), by decide +kernel⟩,
    ⟨0, { header := 0x004A }, (of [running, allPorts, fun s => s.modCc (0 : LaneId) fun c => { c with st := .attachedSrc, discRun := false, discRepeat := false }, fun s => s.modPd (0 : LaneId) fun p => { p with bist := .off, hrPhase := .idle, flight := none, queue := [], fifo := [], reasm := none, arActive := false, rxId := p.rxId.set 0 none, acceptPending := false }, fun s => serving s (0 : LaneId), fun s => s.modSwap (0 : LaneId) fun w => { w with state := 1 }]), by decide +kernel⟩,
    ⟨0, { header := 0x004A }, (of [running, allPorts, fun s => s.modCc (0 : LaneId) fun c => { c with st := .attachedSrc, discRun := false, discRepeat := false }, fun s => s.modPd (0 : LaneId) fun p => { p with bist := .off, hrPhase := .idle, flight := none, queue := [], fifo := [], reasm := none, arActive := false, rxId := p.rxId.set 0 none, acceptPending := false }, fun s => serving s (0 : LaneId), fun s => s.modSwap (0 : LaneId) fun w => { w with state := 0 }, fun s => s.modCon (0 : LaneId) fun c => { c with armState := 0 }]), by decide +kernel⟩,
    ⟨0, { header := 0x004A }, (of [running, allPorts, fun s => s.modCc (0 : LaneId) fun c => { c with st := .attachedSrc, discRun := false, discRepeat := false }, fun s => s.modPd (0 : LaneId) fun p => { p with bist := .off, hrPhase := .idle, flight := none, queue := [], fifo := [], reasm := none, arActive := false, rxId := p.rxId.set 0 none, acceptPending := false }, fun s => serving s (0 : LaneId), fun s => s.modCon (0 : LaneId) fun c => { c with urkai := true, modeVdo := some 0x8, armState := 0 }, fun s => s.modCfg (0 : LaneId) fun c => { c with swapCtrl := 0x012C000F, ccCtrl := 3 }, fun s => s.modSwap (0 : LaneId) fun w => { w with state := 0, packHold := false }]), by decide +kernel⟩,
    ⟨0, (of [running, allPorts, fun s => s.modCc (0 : LaneId) fun c => { c with st := .attachedSrc, discRun := false, discRepeat := false }, fun s => s.modPd (0 : LaneId) fun p => { p with bist := .off, hrPhase := .idle, flight := none, queue := [], fifo := [], reasm := none, arActive := false, rxId := p.rxId.set 0 none, acceptPending := false }, fun s => serving s (0 : LaneId), fun s => s.modSwap (0 : LaneId) fun w => { w with state := 0, prAccept := true }]), by decide +kernel⟩,
    ⟨0, { header := 0x0044 }, (of [running, allPorts, fun s => s.modCc (0 : LaneId) fun c => { c with st := .attachedSrc, discRun := false, discRepeat := false }, fun s => s.modPd (0 : LaneId) fun p => { p with bist := .off, hrPhase := .idle, flight := none, queue := [], fifo := [], reasm := none, arActive := false, rxId := p.rxId.set 0 none, acceptPending := false }, fun s => serving s (0 : LaneId), fun s => s.modSwap (0 : LaneId) fun w => { w with ownPending := true, ownVcs := false }]), by decide +kernel⟩,
    ⟨0, { header := 0x004C }, (of [running, allPorts, fun s => s.modCc (0 : LaneId) fun c => { c with st := .attachedSrc, discRun := false, discRepeat := false }, fun s => s.modPd (0 : LaneId) fun p => { p with bist := .off, hrPhase := .idle, flight := none, queue := [], fifo := [], reasm := none, arActive := false, rxId := p.rxId.set 0 none, acceptPending := false }, fun s => serving s (0 : LaneId), fun s => s.modSwap (0 : LaneId) fun w => { w with ownPending := true }]), by decide +kernel⟩,
    ⟨0, (of [running, allPorts, fun s => s.modCc (0 : LaneId) fun c => { c with st := .attachedSrc, discRun := false, discRepeat := false }, fun s => s.modPd (0 : LaneId) fun p => { p with bist := .off, hrPhase := .idle, flight := none, queue := [], fifo := [], reasm := none, arActive := false, rxId := p.rxId.set 0 none, acceptPending := false }, fun s => serving s (0 : LaneId), fun s => s.modSwap (0 : LaneId) fun w => { w with state := 1, presentsRp := true }]), by decide +kernel⟩,
    ⟨0, (of [running, allPorts, fun s => s.modCc (0 : LaneId) fun c => { c with st := .attachedSrc, discRun := false, discRepeat := false }, fun s => s.modPd (0 : LaneId) fun p => { p with bist := .off, hrPhase := .idle, flight := none, queue := [], fifo := [], reasm := none, arActive := false, rxId := p.rxId.set 0 none, acceptPending := false }, fun s => serving s (0 : LaneId), fun s => s.modSwap (0 : LaneId) fun w => { w with state := 1, presentsRp := true }, fun s => s.modBelay (0 : LaneId) fun b => { b with sw := 0 }]), by decide +kernel⟩,
    ⟨0, { header := 0x0046 }, (of [running, allPorts, fun s => s.modCc (0 : LaneId) fun c => { c with st := .attachedSrc, discRun := false, discRepeat := false }, fun s => s.modPd (0 : LaneId) fun p => { p with bist := .off, hrPhase := .idle, flight := none, queue := [], fifo := [], reasm := none, arActive := false, rxId := p.rxId.set 0 none, acceptPending := false }, fun s => serving s (0 : LaneId), fun s => s.modSwap (0 : LaneId) fun w => { w with state := 1, presentsRp := false }]), by decide +kernel⟩,
    ⟨0, { header := 0x0046 }, (of [running, allPorts, fun s => s.modCc (0 : LaneId) fun c => { c with st := .attachedSrc, discRun := false, discRepeat := false }, fun s => s.modPd (0 : LaneId) fun p => { p with bist := .off, hrPhase := .idle, flight := none, queue := [], fifo := [], reasm := none, arActive := false, rxId := p.rxId.set 0 none, acceptPending := false }, fun s => serving s (0 : LaneId), running, allPorts, fun s => clocking s (0 : LaneId), fun s => s.modLane (0 : LaneId) fun x => { x with enabled := true, cfg := { x.cfg with laneCtrl := 1 } }, fun s => s.modSwap (0 : LaneId) fun w => { w with state := 2, presentsRp := false }, fun s => s.modBelay (0 : LaneId) fun b => { b with latched := false, sw := 0 }]), by decide +kernel⟩,
    ⟨0, (of [running, allPorts, fun s => s.modCc (0 : LaneId) fun c => { c with st := .attachedSrc, discRun := false, discRepeat := false }, fun s => s.modPd (0 : LaneId) fun p => { p with bist := .off, hrPhase := .idle, flight := none, queue := [], fifo := [], reasm := none, arActive := false, rxId := p.rxId.set 0 none, acceptPending := false }, fun s => serving s (0 : LaneId), fun s => s.modSwap (0 : LaneId) fun w => { w with state := 1, presentsRp := false }]), by decide +kernel⟩,
    ⟨0, (of [running, allPorts, fun s => s.modCc (0 : LaneId) fun c => { c with st := .attachedSrc, discRun := false, discRepeat := false }, fun s => s.modPd (0 : LaneId) fun p => { p with bist := .off, hrPhase := .idle, flight := none, queue := [], fifo := [], reasm := none, arActive := false, rxId := p.rxId.set 0 none, acceptPending := false }, fun s => serving s (0 : LaneId)]), by decide +kernel⟩,
    ⟨0, (of [running, allPorts, fun s => s.modCc (0 : LaneId) fun c => { c with st := .attachedSrc, discRun := false, discRepeat := false }, fun s => s.modPd (0 : LaneId) fun p => { p with bist := .off, hrPhase := .idle, flight := none, queue := [], fifo := [], reasm := none, arActive := false, rxId := p.rxId.set 0 none, acceptPending := false }, fun s => serving s (0 : LaneId), fun s => s.modSwap (0 : LaneId) fun w => { w with state := 2, presentsRp := false }]), by decide +kernel⟩,
    ⟨0, { header := 0x0049 }, (of [running, allPorts, fun s => s.modCc (0 : LaneId) fun c => { c with st := .attachedSrc, discRun := false, discRepeat := false }, fun s => s.modPd (0 : LaneId) fun p => { p with bist := .off, hrPhase := .idle, flight := none, queue := [], fifo := [], reasm := none, arActive := false, rxId := p.rxId.set 0 none, acceptPending := false }, fun s => serving s (0 : LaneId), fun s => s.modSwap (0 : LaneId) fun w => { w with state := 0 }, fun s => s.modCon (0 : LaneId) fun c => { c with urkai := false }, fun s => s.modCfg (0 : LaneId) fun c => { c with swapCtrl := 0xF }]), by decide +kernel⟩,
    ⟨0, { header := 0x0049 }, (of [running, allPorts, fun s => s.modCc (0 : LaneId) fun c => { c with st := .attachedSrc, discRun := false, discRepeat := false }, fun s => s.modPd (0 : LaneId) fun p => { p with bist := .off, hrPhase := .idle, flight := none, queue := [], fifo := [], reasm := none, arActive := false, rxId := p.rxId.set 0 none, acceptPending := false }, fun s => serving s (0 : LaneId), fun s => s.modSwap (0 : LaneId) fun w => { w with state := 0 }, fun s => s.modCon (0 : LaneId) fun c => { c with urkai := true }]), by decide +kernel⟩,
    ⟨0, { header := 0x004B }, (of [running, allPorts, fun s => s.modCc (0 : LaneId) fun c => { c with st := .attachedSrc, discRun := false, discRepeat := false }, fun s => s.modPd (0 : LaneId) fun p => { p with bist := .off, hrPhase := .idle, flight := none, queue := [], fifo := [], reasm := none, arActive := false, rxId := p.rxId.set 0 none, acceptPending := false }, fun s => serving s (0 : LaneId), fun s => s.modSwap (0 : LaneId) fun w => { w with state := 0 }, fun s => s.modCfg (0 : LaneId) fun c => { c with swapCtrl := 0xB }]), by decide +kernel⟩,
    ⟨0, { header := 0x004B }, (of [running, allPorts, fun s => s.modCc (0 : LaneId) fun c => { c with st := .attachedSrc, discRun := false, discRepeat := false }, fun s => s.modPd (0 : LaneId) fun p => { p with bist := .off, hrPhase := .idle, flight := none, queue := [], fifo := [], reasm := none, arActive := false, rxId := p.rxId.set 0 none, acceptPending := false }, fun s => serving s (0 : LaneId), fun s => s.modSwap (0 : LaneId) fun w => { w with state := 0, vconnRole := true }, fun s => s.modCfg (0 : LaneId) fun c => { c with swapCtrl := 0xF }]), by decide +kernel⟩,
    ⟨0, (of [running, allPorts, fun s => s.modCc (0 : LaneId) fun c => { c with st := .attachedSrc, discRun := false, discRepeat := false }, fun s => s.modPd (0 : LaneId) fun p => { p with bist := .off, hrPhase := .idle, flight := none, queue := [], fifo := [], reasm := none, arActive := false, rxId := p.rxId.set 0 none, acceptPending := false }, fun s => serving s (0 : LaneId), fun s => s.modSwap (0 : LaneId) fun w => { w with state := 5, vcsTake := true, vcsTried := false }, fun s => s.modCc (0 : LaneId) fun c => { c with vconnOn := true }]), by decide +kernel⟩,
    ⟨0, (of [running, allPorts, fun s => s.modCc (0 : LaneId) fun c => { c with st := .attachedSrc, discRun := false, discRepeat := false }, fun s => s.modPd (0 : LaneId) fun p => { p with bist := .off, hrPhase := .idle, flight := none, queue := [], fifo := [], reasm := none, arActive := false, rxId := p.rxId.set 0 none, acceptPending := false }, fun s => serving s (0 : LaneId), fun s => s.modSwap (0 : LaneId) fun w => { w with state := 5, vcsTake := false, psSent := false }, fun s => s.modPd (0 : LaneId) fun p => { p with hrCount := 0 }]), by decide +kernel⟩,
    ⟨0, (of [running, allPorts, fun s => s.modCc (0 : LaneId) fun c => { c with st := .attachedSrc, discRun := false, discRepeat := false }, fun s => s.modPd (0 : LaneId) fun p => { p with bist := .off, hrPhase := .idle, flight := none, queue := [], fifo := [], reasm := none, arActive := false, rxId := p.rxId.set 0 none, acceptPending := false }, fun s => serving s (0 : LaneId), fun s => s.modSwap (0 : LaneId) fun w => { w with state := 5, vcsTake := false, psSent := true }]), by decide +kernel⟩⟩

theorem meets_FastRoleSwap :
    (∃ (c : CoreId) (l : LaneId) (s : State), laneBitOwner s c l = true ∧ s.fusedOff l = false ∧ (s.lane l).swap.powerRole = true ∧ (s.lane l).con.valid = true ∧ bitOf (s.lane l).cfg.swapCtrl 0 = true ∧ (s.lane l).swap.holdAgreed = true ∧ (s.lane l).swap.state = 0 ∧ (s.lane l).swap.packHold = false ∧ (s.lane l).pd.hrPhase = .idle) ∧
    (∃ (l : LaneId) (s : State), ((s.lane l).swap.powerRole = false ∨ (s.lane l).con.valid = false ∨ bitOf (s.lane l).cfg.swapCtrl 0 = false ∨ (s.lane l).swap.holdAgreed = false ∨ (s.lane l).swap.state ≠ 0 ∨ (s.lane l).swap.packHold = true ∨ (s.lane l).pd.hrBusy = true)) ∧
    (∃ (c : CoreId) (l : LaneId) (s : State), c.val < 4 ∧ serverOf s (groupOf l) ≠ c) ∧
    (∃ (l : LaneId) (f : Frame) (s : State), s.hears l f ∧ isData f 4 = true ∧ (s.lane l).con.seqWait = false) ∧
    (∃ (l : LaneId) (f : Frame) (s : State), s.hears l f ∧ (s.lane l).con.urkai = true ∧ isSvdm f = true ∧ pdSvid s ≠ 0 ∧ vdmSvid f = pdSvid s ∧ vdmType f = 1 ∧ vdmCmd f = 21 ∧ (s.lane l).con.seqWait = true ∧ (s.lane l).con.seq = .holdSet) ∧
    (∃ (l : LaneId) (f : Frame) (s : State), (s.lane l).cc.attached = true ∧ (s.lane l).pd.bist = .off ∧ (s.lane l).pd.hrPhase = .idle ∧ (s.lane l).pd.flight = none ∧ (s.lane l).pd.queue = [] ∧ (s.lane l).pd.fifo = [] ∧ (s.lane l).pd.reasm = none ∧ f.sop = .sop ∧ (s.lane l).pd.rxId.get 0 ≠ some (msgId f.header) ∧ (s.lane l).con.urkai = true ∧ isSvdm f = true ∧ pdSvid s ≠ 0 ∧ vdmSvid f = pdSvid s ∧ vdmType f = 1 ∧ vdmCmd f = 21 ∧ serves s l = false) ∧
    (∃ (s : State), s.bus.frs = false ∧ fld s.bus.vsnsTh 11 0 ≠ 0) ∧
    (∃ (s : State), (s.bus.frs = true ∨ fld s.bus.vsnsTh 11 0 = 0)) ∧
    (∃ (l : LaneId) (s : State), (s.lane l).swap.frsSignal = true) ∧
    (∃ (l : LaneId) (mv : Nat) (s : State), (s.lane l).swap.state = 3 ∧ (s.lane l).conv.on = false ∧ 45 * (s.lane l).con.vc ≤ 10 * mv ∧ revIlim (s.lane l).cfg ≠ 0 ∧ dieUp s l = true) ∧
    (∃ (l : LaneId) (mv : Nat) (s : State), (10 * mv < 45 * (s.lane l).con.vc ∨ (s.lane l).swap.state ≠ 3)) ∧
    (∃ (l : LaneId) (f : Frame) (s : State), s.hears l f ∧ isCtl f 19 = true ∧ (s.lane l).swap.state = 3) ∧
    (∃ (l : LaneId) (f : Frame) (s : State), s.hears l f ∧ isCtl f 19 = true ∧ (s.lane l).swap.state ≠ 3 ∧ (s.lane l).pd.hrCount.toNat < 2) ∧
    (∃ (l : LaneId) (s : State), ((s.lane l).swap.state = 3 ∨ (s.lane l).swap.state = 4) ∧ (s.lane l).cc.attached = true ∧ (s.lane l).pd.hrPhase = .idle ∧ (s.lane l).pd.hrCount.toNat < 2) ∧
    (∃ (l : LaneId) (s : State), (s.lane l).swap.holdOn = true ∧ (s.lane l).swap.powerRole = false ∧ judgePrSwap (s.lane l) = .accept ∧ serves s l = true ∧ (s.lane l).cc.attached = true ∧ s.bus.frs = false ∧ (s.lane l).swap.ownPending = false ∧ (s.lane l).swap.prAccept = false ∧ ((s.lane l).swap.prDropped = false ∨ partnerBusy (s.lane l) = false) ∧ (s.lane l).pd.queue = []) ∧
    (∃ (l : LaneId) (s : State), ((s.lane l).swap.holdOn = false ∨ (s.lane l).swap.powerRole = true ∨ (s.lane l).swap.state ≠ 0 ∨ s.bus.frs = true)) := by
  exact ⟨⟨0, 0, (of [running, allPorts, fun s => s.modCc (0 : LaneId) fun c => { c with st := .attachedSrc, discRun := false, discRepeat := false }, fun s => s.modPd (0 : LaneId) fun p => { p with bist := .off, hrPhase := .idle, flight := none, queue := [], fifo := [], reasm := none, arActive := false, rxId := p.rxId.set 0 none, acceptPending := false }, fun s => serving s (0 : LaneId), fun s => s.modCon (0 : LaneId) fun c => { c with valid := true }, fun s => s.modCfg (0 : LaneId) fun c => { c with swapCtrl := 1 }, fun s => s.modSwap (0 : LaneId) fun w => { w with powerRole := true, holdAgreed := true, state := 0, packHold := false }]), by decide +kernel⟩,
    ⟨0, (of [running, allPorts, fun s => s.modCc (0 : LaneId) fun c => { c with st := .attachedSrc, discRun := false, discRepeat := false }, fun s => s.modPd (0 : LaneId) fun p => { p with bist := .off, hrPhase := .idle, flight := none, queue := [], fifo := [], reasm := none, arActive := false, rxId := p.rxId.set 0 none, acceptPending := false }, fun s => serving s (0 : LaneId)]), by decide +kernel⟩,
    ⟨3, 0, (of [running, allPorts, fun s => s.modCc (0 : LaneId) fun c => { c with st := .attachedSrc, discRun := false, discRepeat := false }, fun s => s.modPd (0 : LaneId) fun p => { p with bist := .off, hrPhase := .idle, flight := none, queue := [], fifo := [], reasm := none, arActive := false, rxId := p.rxId.set 0 none, acceptPending := false }, fun s => serving s (0 : LaneId)]), by decide +kernel⟩,
    ⟨0, { header := 0x1044, objs := [0x00801064] }, (of [running, allPorts, fun s => s.modCc (0 : LaneId) fun c => { c with st := .attachedSrc, discRun := false, discRepeat := false }, fun s => s.modPd (0 : LaneId) fun p => { p with bist := .off, hrPhase := .idle, flight := none, queue := [], fifo := [], reasm := none, arActive := false, rxId := p.rxId.set 0 none, acceptPending := false }, fun s => serving s (0 : LaneId), fun s => s.modCon (0 : LaneId) fun c => { c with seqWait := false }]), by decide +kernel⟩,
    ⟨0, { header := 0x104f, objs := [0x1234a155] }, (of [running, allPorts, fun s => s.modCc (0 : LaneId) fun c => { c with st := .attachedSrc, discRun := false, discRepeat := false }, fun s => s.modPd (0 : LaneId) fun p => { p with bist := .off, hrPhase := .idle, flight := none, queue := [], fifo := [], reasm := none, arActive := false, rxId := p.rxId.set 0 none, acceptPending := false }, fun s => serving s (0 : LaneId), fun s => s.modSec fun x => { x with shadow := x.shadow.set 256 0x1234, authMode := 0 }, fun s => s.modCon (0 : LaneId) fun c => { c with urkai := true, seqWait := true, seq := .holdSet, packRead := false }]), by decide +kernel⟩,
    ⟨0, { header := 0x104f, objs := [0x1234a155] }, (of [running, allPorts, fun s => s.modCc (0 : LaneId) fun c => { c with st := .attachedSrc, discRun := false, discRepeat := false }, fun s => s.modPd (0 : LaneId) fun p => { p with bist := .off, hrPhase := .idle, flight := none, queue := [], fifo := [], reasm := none, arActive := false, rxId := p.rxId.set 0 none, acceptPending := false }, fun s => serving s (0 : LaneId), fun s => s.modSec fun x => { x with shadow := x.shadow.set 256 0x1234, authMode := 0 }, fun s => s.modPd (0 : LaneId) fun p => { p with arActive := true }, fun s => s.modCon (0 : LaneId) fun c => { c with urkai := true }]), by decide +kernel⟩,
    ⟨(of [fun s => s.modBus fun b => { b with frs := false, vsnsTh := 0x100 }, fun s => s.modSwap (0 : LaneId) fun w => { w with frsArm := true, state := 0, packHold := false }, fun s => s.modPd (0 : LaneId) fun p => { p with hrPhase := .idle }, fun s => s.modBelay (0 : LaneId) fun b => { b with tripOpen := false, deferred := false }]), by decide +kernel⟩,
    ⟨State.reset, by decide +kernel⟩,
    ⟨0, (of [fun s => s.modSwap (0 : LaneId) fun w => { w with frsSignal := true }]), by decide +kernel⟩,
    ⟨0, 400000, (of [fun s => clocking s (0 : LaneId), fun s => s.modSwap (0 : LaneId) fun w => { w with state := 3 }, fun s => s.modConv (0 : LaneId) fun c => { c with on := false }, fun s => s.modCfg (0 : LaneId) fun c => { c with swapCtrl := 0x00640001 }]), by decide +kernel⟩,
    ⟨0, 0, State.reset, by decide +kernel⟩,
    ⟨0, { header := 0x0053 }, (of [running, allPorts, fun s => s.modCc (0 : LaneId) fun c => { c with st := .attachedSrc, discRun := false, discRepeat := false }, fun s => s.modPd (0 : LaneId) fun p => { p with bist := .off, hrPhase := .idle, flight := none, queue := [], fifo := [], reasm := none, arActive := false, rxId := p.rxId.set 0 none, acceptPending := false }, fun s => serving s (0 : LaneId), fun s => s.modSwap (0 : LaneId) fun w => { w with state := 3 }]), by decide +kernel⟩,
    ⟨0, { header := 0x0053 }, (of [running, allPorts, fun s => s.modCc (0 : LaneId) fun c => { c with st := .attachedSrc, discRun := false, discRepeat := false }, fun s => s.modPd (0 : LaneId) fun p => { p with bist := .off, hrPhase := .idle, flight := none, queue := [], fifo := [], reasm := none, arActive := false, rxId := p.rxId.set 0 none, acceptPending := false }, fun s => serving s (0 : LaneId), fun s => s.modSwap (0 : LaneId) fun w => { w with state := 0 }, fun s => s.modPd (0 : LaneId) fun p => { p with hrCount := 0 }]), by decide +kernel⟩,
    ⟨0, (of [running, allPorts, fun s => s.modCc (0 : LaneId) fun c => { c with st := .attachedSrc, discRun := false, discRepeat := false }, fun s => s.modPd (0 : LaneId) fun p => { p with bist := .off, hrPhase := .idle, flight := none, queue := [], fifo := [], reasm := none, arActive := false, rxId := p.rxId.set 0 none, acceptPending := false }, fun s => serving s (0 : LaneId), fun s => s.modSwap (0 : LaneId) fun w => { w with state := 4 }, fun s => s.modPd (0 : LaneId) fun p => { p with hrCount := 0 }]), by decide +kernel⟩,
    ⟨0, (of [fun s => s.modBus fun b => { b with frs := false }, running, allPorts, fun s => s.modCc (0 : LaneId) fun c => { c with st := .attachedSrc, discRun := false, discRepeat := false }, fun s => s.modPd (0 : LaneId) fun p => { p with bist := .off, hrPhase := .idle, flight := none, queue := [], fifo := [], reasm := none, arActive := false, rxId := p.rxId.set 0 none, acceptPending := false }, fun s => serving s (0 : LaneId), fun s => s.modCon (0 : LaneId) fun c => { c with urkai := true, modeVdo := some 0x8, armState := 0 }, fun s => s.modCfg (0 : LaneId) fun c => { c with swapCtrl := 0x012C000F, ccCtrl := 3 }, fun s => s.modSwap (0 : LaneId) fun w => { w with prDropped := false, prAccept := false, state := 0, powerRole := false, packHold := false, ownPending := false, holdOn := true }]), by decide +kernel⟩,
    ⟨0, State.reset, by decide +kernel⟩⟩

theorem meets_TallyAnchors :
    (∃ (l : LaneId) (s : State), (s.lane l).tally.cv = true ∧ (s.lane l).tally.cvDone = false ∧ (s.lane l).cfg.tallyFullT ≠ 0) ∧
    (∃ (l : LaneId) (s : State), ((s.lane l).tally.cv = false ∨ (s.lane l).tally.cvDone = true ∨ (s.lane l).cfg.tallyFullT = 0)) ∧
    (∃ (l : LaneId) (s : State), (s.lane l).swap.powerRole = false ∧ (s.lane l).cc.attached = true ∧ (s.lane l).cfg.tallyEmptyV ≠ 0 ∧ (s.lane l).tally.emptyDone = false) ∧
    (∃ (l : LaneId) (s : State), ((s.lane l).swap.powerRole = true ∨ (s.lane l).cc.attached = false ∨ (s.lane l).tally.emptyDone = true)) ∧
    (∃ (l : LaneId) (s : State), (s.lane l).cfg.tallyEmptyV = 0) ∧
    (∃ (a : Agent) (l : LaneId) (s : State), hostServed s a = true ∧ s.fusedOff l = false) ∧
    (∃ (a : Agent) (l : LaneId) (s : State), hostServed s a = true ∧ s.fusedOff l = false) ∧
    (∃ (l : LaneId) (f : Frame) (s : State), s.hears l f ∧ isData f 5 = true ∧ fld (obj f 0) 31 16 = 0 ∧ bitOf (obj f 0) 9 = true) ∧
    (∃ (l : LaneId) (f : Frame) (s : State), s.hears l f ∧ isData f 5 = true ∧ (fld (obj f 0) 31 16 ≠ 0 ∨ bitOf (obj f 0) 9 = false)) ∧
    (∃ (l : LaneId) (f : Frame) (s : State), s.hears l f ∧ isSvdm f = true ∧ pdSvid s ≠ 0 ∧ vdmSvid f = pdSvid s ∧ vdmType f ≠ 0 ∧ vdmCmd f = 24 ∧ (s.lane l).con.seqWait = true ∧ (s.lane l).con.seq = .recCommit ∧ s.sec.authMode = 0 ∧ (s.lane l).con.recRetry = false) := by
  exact ⟨⟨0, (of [fun s => s.modCfg (0 : LaneId) fun c => { c with tallyFullT := 5 }, fun s => s.modTally (0 : LaneId) fun t => { t with cv := true, cvDone := false }]), by decide +kernel⟩,
    ⟨0, State.reset, by decide +kernel⟩,
    ⟨0, (of [fun s => s.modCfg (0 : LaneId) fun c => { c with tallyEmptyV := 2100 }, fun s => s.modCc (0 : LaneId) fun c => { c with st := .attachedSnk }, fun s => s.modSwap (0 : LaneId) fun w => { w with powerRole := false }, fun s => s.modTally (0 : LaneId) fun t => { t with emptyDone := false }]), by decide +kernel⟩,
    ⟨0, State.reset, by decide +kernel⟩,
    ⟨0, State.reset, by decide +kernel⟩,
    ⟨.core 4, 0, (of [allPorts, running]), by decide +kernel⟩,
    ⟨.core 4, 0, (of [allPorts, running]), by decide +kernel⟩,
    ⟨0, { header := 0x1045, objs := [0x00000200] }, (of [running, allPorts, fun s => s.modCc (0 : LaneId) fun c => { c with st := .attachedSrc, discRun := false, discRepeat := false }, fun s => s.modPd (0 : LaneId) fun p => { p with bist := .off, hrPhase := .idle, flight := none, queue := [], fifo := [], reasm := none, arActive := false, rxId := p.rxId.set 0 none, acceptPending := false }, fun s => serving s (0 : LaneId)]), by decide +kernel⟩,
    ⟨0, { header := 0x1045, objs := [0x00010200] }, (of [running, allPorts, fun s => s.modCc (0 : LaneId) fun c => { c with st := .attachedSrc, discRun := false, discRepeat := false }, fun s => s.modPd (0 : LaneId) fun p => { p with bist := .off, hrPhase := .idle, flight := none, queue := [], fifo := [], reasm := none, arActive := false, rxId := p.rxId.set 0 none, acceptPending := false }, fun s => serving s (0 : LaneId)]), by decide +kernel⟩,
    ⟨0, { header := 0x104f, objs := [0x1234a158] }, (of [running, allPorts, fun s => s.modCc (0 : LaneId) fun c => { c with st := .attachedSrc, discRun := false, discRepeat := false }, fun s => s.modPd (0 : LaneId) fun p => { p with bist := .off, hrPhase := .idle, flight := none, queue := [], fifo := [], reasm := none, arActive := false, rxId := p.rxId.set 0 none, acceptPending := false }, fun s => serving s (0 : LaneId), fun s => s.modSec fun x => { x with shadow := x.shadow.set 256 0x1234, authMode := 0 }, fun s => s.modCon (0 : LaneId) fun c => { c with seqWait := true, seq := .recCommit, recRetry := false }]), by decide +kernel⟩⟩

theorem meets_BelayCloses :
    (∃ (l : LaneId) (r : TestResult) (s : State), (s.lane l).belay.stest = 3 ∧ (s.lane l).belay.want ≠ .none ∧ (r.aRef && r.aPol) = true ∧ (r.bRef && r.bPol) = true ∧ r.othersPass = true) ∧
    (∃ (l : LaneId) (r : TestResult) (s : State), (s.lane l).belay.stest = 3 ∧ (s.lane l).belay.want ≠ .none ∧ ((r.aRef && r.aPol) = false ∨ (r.bRef && r.bPol) = false ∨ r.othersPass = false) ∧ (s.lane l).belay.tripOpen = false) ∧
    (∃ (l : LaneId) (s : State), ((s.lane l).belay.stest ≠ 3 ∨ (s.lane l).belay.want = .none)) ∧
    (∃ (l : LaneId) (mv : Nat) (s : State), (s.lane l).belay.want = .asSink ∧ 4000 ≤ mv ∧ windowLo (s.lane l) ≤ 100 * mv ∧ 100 * mv ≤ windowHi (s.lane l) ∧ (s.lane l).belay.testPassed = true ∧ (s.lane l).belay.sw = 0 ∧ closeAllowed s l = true ∧ (s.lane l).belay.failA = false ∧ (s.lane l).belay.failB = false ∧ (s.group (groupOf l)).thermShut = false) ∧
    (∃ (l : LaneId) (mv : Nat) (mi : Nat) (s : State), (s.lane l).belay.want = .asSource ∧ (s.lane l).belay.dischIn = false ∧ mv ≤ 800 ∧ mi ≤ 5500 ∧ (s.lane l).belay.testPassed = true ∧ (s.lane l).belay.sw = 0 ∧ closeAllowed s l = true ∧ (s.lane l).belay.failA = false ∧ (s.lane l).belay.failB = false ∧ (s.group (groupOf l)).thermShut = false) ∧
    (∃ (l : LaneId) (mv : Nat) (mi : Nat) (s : State), (s.lane l).belay.want = .asSource ∧ (800 < mv ∨ 5500 < mi) ∧ (s.lane l).belay.testPassed = true ∧ (s.lane l).belay.sw = 0) ∧
    (∃ (l : LaneId) (s : State), (s.lane l).belay.sw = 2 ∧ (s.lane l).belay.stest = 1 ∧ (s.lane l).belay.failA = false) ∧
    (∃ (l : LaneId) (s : State), (s.lane l).belay.sw = 2 ∧ (s.lane l).belay.stest = 1 ∧ (s.lane l).belay.failA = true) ∧
    (∃ (l : LaneId) (s : State), (s.lane l).belay.sw = 2 ∧ (s.lane l).belay.stest = 2) ∧
    (∃ (l : LaneId) (s : State), ((s.lane l).belay.sw ≠ 0 ∨ (s.lane l).belay.testPassed = false) ∧ ((s.lane l).belay.sw ≠ 2 ∨ ((s.lane l).belay.stest ≠ 1 ∧ (s.lane l).belay.stest ≠ 2))) ∧
    (∃ (l : LaneId) (s : State), (s.lane l).belay.sw = 1 ∧ (s.lane l).belay.want = .asSource ∧ dieUp s l = true) ∧
    (∃ (l : LaneId) (s : State), (s.lane l).belay.sw = 1 ∧ (s.lane l).belay.want = .asSink ∧ (s.lane l).cc.st = .attachedSnk ∧ (s.lane l).conv.revEff ≠ 0 ∧ dieUp s l = true) ∧
    (∃ (l : LaneId) (s : State), (s.lane l).belay.sw ≠ 1) ∧
    (∃ (l : LaneId) (mv : Nat) (s : State), (s.lane l).belay.want = .asSource ∧ (s.lane l).belay.sw = 0 ∧ (s.lane l).belay.testPassed = true ∧ (s.lane l).belay.settling = false ∧ 800 < mv ∧ (s.lane l).belay.backfeedTries < 9) ∧
    (∃ (l : LaneId) (mv : Nat) (s : State), (s.lane l).belay.want = .asSource ∧ (s.lane l).belay.sw = 0 ∧ (s.lane l).belay.testPassed = true ∧ (s.lane l).belay.settling = false ∧ 800 < mv ∧ 9 ≤ (s.lane l).belay.backfeedTries) ∧
    (∃ (l : LaneId) (mv : Nat) (s : State), (s.lane l).belay.want = .asSource ∧ (s.lane l).belay.sw = 0 ∧ (s.lane l).belay.testPassed = true ∧ (s.lane l).belay.settling = false ∧ mv ≤ 800 ∧ (s.lane l).belay.vinHigh = false ∧ (s.lane l).belay.dischIn = false ∧ closeAllowed s l = true ∧ (s.lane l).belay.failA = false ∧ (s.lane l).belay.failB = false ∧ (s.group (groupOf l)).thermShut = false) ∧
    (∃ (l : LaneId) (s : State), ((s.lane l).belay.want ≠ .asSource ∨ (s.lane l).belay.sw ≠ 0 ∨ (s.lane l).belay.testPassed = false ∨ (s.lane l).belay.settling = true)) ∧
    (∃ (l : LaneId) (s : State), (s.lane l).belay.closeRetry = true ∧ (s.lane l).pd.hrBusy = true ∧ closeAllowed s l = true ∧ (s.lane l).belay.sw = 0) ∧
    (∃ (l : LaneId) (s : State), ((s.lane l).belay.closeRetry = false ∨ (s.lane l).belay.latched = true ∨ (s.lane l).pd.hrBusy = false)) := by
  exact ⟨⟨0, { aPol := true, aRef := true, bPol := true, bRef := true, othersPass := true, ma := 0 }, (of [fun s => s.modBelay (0 : LaneId) fun b => { b with stest := 3, want := .asSource }]), by decide +kernel⟩,
    ⟨0, { aRef := false }, (of [fun s => s.modBelay (0 : LaneId) fun b => { b with stest := 3, want := .asSource, tripOpen := false }]), by decide +kernel⟩,
    ⟨0, State.reset, by decide +kernel⟩,
    ⟨0, 20000, (of [running, allPorts, fun s => s.modDev fun d => { d with state := .run, run := true, trans := .none }, fun s => s.modLane (0 : LaneId) fun x => { x with enabled := true, cfg := { x.cfg with laneCtrl := 1 } }, fun s => clocking s (0 : LaneId), fun s => s.modBelay (0 : LaneId) fun b => { b with want := .asSink, latched := false, failA := false, failB := false, dischIn := false, testPassed := true, settling := true, sw := 0, stest := 0 }, fun s => s.modCon (0 : LaneId) fun c => { c with valid := true, kind := 0, volt := 4000 }, fun s => s.modConv (0 : LaneId) fun c => { c with vs := 4000 }, fun s => s.modCfg (0 : LaneId) fun c => { c with ovpSet := 0x0AF00808 }]), by decide +kernel⟩,
    ⟨0, 800, 5500, (of [running, allPorts, fun s => s.modDev fun d => { d with state := .run, run := true, trans := .none }, fun s => s.modLane (0 : LaneId) fun x => { x with enabled := true, cfg := { x.cfg with laneCtrl := 1 } }, fun s => clocking s (0 : LaneId), fun s => s.modBelay (0 : LaneId) fun b => { b with want := .asSource, latched := false, failA := false, failB := false, dischIn := false, testPassed := true, settling := true, sw := 0, stest := 0 }]), by decide +kernel⟩,
    ⟨0, 801, 0, (of [running, allPorts, fun s => s.modDev fun d => { d with state := .run, run := true, trans := .none }, fun s => s.modLane (0 : LaneId) fun x => { x with enabled := true, cfg := { x.cfg with laneCtrl := 1 } }, fun s => clocking s (0 : LaneId), fun s => s.modBelay (0 : LaneId) fun b => { b with want := .asSource, latched := false, failA := false, failB := false, dischIn := false, testPassed := true, settling := true, sw := 0, stest := 0 }]), by decide +kernel⟩,
    ⟨0, (of [fun s => s.modBelay (0 : LaneId) fun b => { b with sw := 2, stest := 1, failA := false }]), by decide +kernel⟩,
    ⟨0, (of [fun s => s.modBelay (0 : LaneId) fun b => { b with sw := 2, stest := 1, failA := true }]), by decide +kernel⟩,
    ⟨0, (of [fun s => s.modBelay (0 : LaneId) fun b => { b with sw := 2, stest := 2 }]), by decide +kernel⟩,
    ⟨0, (of [fun s => s.modBelay (0 : LaneId) fun b => { b with sw := 0, testPassed := false }]), by decide +kernel⟩,
    ⟨0, (of [fun s => clocking s (0 : LaneId), fun s => s.modBelay (0 : LaneId) fun b => { b with sw := 1, want := .asSource }]), by decide +kernel⟩,
    ⟨0, (of [fun s => clocking s (0 : LaneId), fun s => s.modBelay (0 : LaneId) fun b => { b with sw := 1, want := .asSink }, fun s => s.modCc (0 : LaneId) fun c => { c with st := .attachedSnk }, fun s => s.modConv (0 : LaneId) fun c => { c with revEff := 30 }]), by decide +kernel⟩,
    ⟨0, State.reset, by decide +kernel⟩,
    ⟨0, 801, (of [fun s => s.modBelay (0 : LaneId) fun b => { b with want := .asSource, sw := 0, backfeedTries := 8, testPassed := true, settling := false }]), by decide +kernel⟩,
    ⟨0, 801, (of [fun s => s.modBelay (0 : LaneId) fun b => { b with want := .asSource, sw := 0, backfeedTries := 9, testPassed := true, settling := false }]), by decide +kernel⟩,
    ⟨0, 800, (of [running, allPorts, fun s => s.modDev fun d => { d with state := .run, run := true, trans := .none }, fun s => s.modLane (0 : LaneId) fun x => { x with enabled := true, cfg := { x.cfg with laneCtrl := 1 } }, fun s => clocking s (0 : LaneId), fun s => s.modBelay (0 : LaneId) fun b => { b with want := .asSource, latched := false, failA := false, failB := false, dischIn := false, testPassed := true, settling := true, sw := 0, stest := 0 }, fun s => s.modBelay (0 : LaneId) fun b => { b with settling := false, vinHigh := false }]), by decide +kernel⟩,
    ⟨0, State.reset, by decide +kernel⟩,
    ⟨0, (of [running, allPorts, fun s => s.modDev fun d => { d with state := .run, run := true, trans := .none }, fun s => s.modLane (0 : LaneId) fun x => { x with enabled := true, cfg := { x.cfg with laneCtrl := 1 } }, fun s => clocking s (0 : LaneId), fun s => s.modBelay (0 : LaneId) fun b => { b with closeRetry := true, latched := false, sw := 0 }, fun s => s.modPd (0 : LaneId) fun p => { p with hrPhase := .rising }]), by decide +kernel⟩,
    ⟨0, State.reset, by decide +kernel⟩⟩

theorem meets_BelayTrips :
    (∃ (l : LaneId) (qa : Int) (qb : Int) (qs : Int) (s : State), (s.lane l).belay.sw ≠ 0 ∧ ((50 * (ilimEff (s.lane l) : Int) < flowCurrent (s.lane l) qa ∧ (s.lane l).belay.failA = false ∧ (s.lane l).belay.stest ≠ 1) ∨ (50 * (ilimEff (s.lane l) : Int) < flowCurrent (s.lane l) qb ∧ (s.lane l).belay.failB = false ∧ (s.lane l).belay.stest ≠ 2) ∨ 50 * (shortLimit (s.lane l) : Int) < flowCurrent (s.lane l) qs) ∧ (s.lane l).belay.tripOpen = false) ∧
    (∃ (l : LaneId) (qa : Int) (qb : Int) (qs : Int) (s : State), (¬(50 * (ilimEff (s.lane l) : Int) < flowCurrent (s.lane l) qa) ∨ (s.lane l).belay.failA = true ∨ (s.lane l).belay.stest = 1) ∧ (¬(50 * (ilimEff (s.lane l) : Int) < flowCurrent (s.lane l) qb) ∨ (s.lane l).belay.failB = true ∨ (s.lane l).belay.stest = 2) ∧ ¬(50 * (shortLimit (s.lane l) : Int) < flowCurrent (s.lane l) qs)) ∧
    (∃ (l : LaneId) (s : State), (s.lane l).belay.sw = 0 ∧ (s.lane l).belay.tripOpen = false ∧ (s.lane l).belay.leftAt = none) ∧
    (∃ (l : LaneId) (mv : Nat) (s : State), (s.lane l).belay.sw ≠ 0 ∧ windowHi (s.lane l) < 100 * mv ∧ (s.lane l).belay.tripOpen = false) ∧
    (∃ (l : LaneId) (mv : Nat) (s : State), (100 * mv ≤ windowHi (s.lane l) ∨ ((s.lane l).belay.sw = 0 ∧ (s.lane l).belay.tripOpen = false ∧ (s.lane l).belay.leftAt = none))) ∧
    (∃ (l : LaneId) (mv : Nat) (s : State), (s.lane l).belay.sw = 2 ∧ (s.lane l).swap.powerRole = true ∧ (s.lane l).swap.holdOn = false ∧ (s.lane l).con.kind ≠ 1 ∧ 100 * mv < windowLo (s.lane l) ∧ (s.lane l).belay.risen = true ∧ (s.lane l).belay.tripOpen = false) ∧
    (∃ (l : LaneId) (mv : Nat) (s : State), uvpApplies (s.lane l) = true ∧ windowLo (s.lane l) ≤ 100 * mv) ∧
    (∃ (l : LaneId) (mv : Nat) (s : State), ((s.lane l).belay.sw ≠ 2 ∨ (s.lane l).swap.holdOn = true ∨ ((s.lane l).swap.powerRole = false ∧ (s.lane l).swap.presentsRp = false)) ∧ (windowLo (s.lane l) ≤ 100 * mv ∨ (s.lane l).belay.sw ≠ 0 ∨ (s.lane l).belay.tripOpen = false)) ∧
    (∃ (l : LaneId) (ma : Int) (s : State), (s.lane l).belay.sw ≠ 0 ∧ ((s.lane l).swap.holdOn = false ∨ (s.lane l).swap.powerRole = false) ∧ 3 * (reverseLimit (s.lane l) : Int) < 4 * (if sourceClosed (s.lane l) then -ma else ma) ∧ (s.lane l).belay.tripOpen = false) ∧
    (∃ (l : LaneId) (ma : Int) (s : State), (((s.lane l).swap.holdOn = true ∧ (s.lane l).swap.powerRole = true) ∨ 4 * (if sourceClosed (s.lane l) then -ma else ma) ≤ 3 * (reverseLimit (s.lane l) : Int))) ∧
    (∃ (l : LaneId) (s : State), (s.lane l).belay.sw = 2 ∧ (s.lane l).belay.tripOpen = false) ∧
    (∃ (l : LaneId) (s : State), (s.lane l).belay.sw ≠ 2 ∧ ((s.lane l).belay.sw ≠ 0 ∨ (s.lane l).belay.tripOpen = false)) ∧
    (∃ (temp : Byte) (s : State), 199 ≤ temp.toNat ∧ temp.toNat < 214) ∧
    (∃ (temp : Byte) (s : State), temp.toNat < 194) ∧
    (∃ (temp : Byte) (s : State), 194 ≤ temp.toNat ∧ temp.toNat < 199) ∧
    (∃ (temp : Byte) (s : State), 214 ≤ temp.toNat) ∧
    (∃ (temp : Byte) (s : State), 189 ≤ temp.toNat ∧ temp.toNat < 214) ∧
    (∃ (temp : Byte) (s : State), temp.toNat < 189) ∧
    (∃ (g : GroupId) (temp : Byte) (s : State), 189 ≤ temp.toNat ∧ temp.toNat < 214 ∧ (s.group g).thermShut = true) := by
  exact ⟨⟨0, 15000, 0, 0, (of [fun s => s.modBelay (0 : LaneId) fun b => { b with sw := 2, failA := false, stest := 0 }, fun s => s.modSwap (0 : LaneId) fun w => { w with powerRole := true, holdOn := false }, fun s => s.modBelay (0 : LaneId) fun b => { b with tripOpen := false }]), by decide +kernel⟩,
    ⟨0, 0, 0, 0, State.reset, by decide +kernel⟩,
    ⟨0, (of [fun s => s.modBelay (0 : LaneId) fun b => { b with sw := 0, tripOpen := false, leftAt := none }]), by decide +kernel⟩,
    ⟨0, 60001, (of [fun s => s.modBelay (0 : LaneId) fun b => { b with sw := 2 }, fun s => s.modBelay (0 : LaneId) fun b => { b with tripOpen := false }]), by decide +kernel⟩,
    ⟨0, 400, State.reset, by decide +kernel⟩,
    ⟨0, 5000, (of [fun s => s.modBelay (0 : LaneId) fun b => { b with sw := 2, risen := true }, fun s => s.modSwap (0 : LaneId) fun w => { w with powerRole := true, holdOn := false }, fun s => s.modCon (0 : LaneId) fun c => { c with kind := 0, valid := true, volt := 4000 }, fun s => s.modConv (0 : LaneId) fun c => { c with vs := 4000 }, fun s => s.modCfg (0 : LaneId) fun c => { c with ovpSet := 0x0AF00808 }, fun s => s.modBelay (0 : LaneId) fun b => { b with tripOpen := false }]), by decide +kernel⟩,
    ⟨0, 60000, (of [fun s => s.modBelay (0 : LaneId) fun b => { b with sw := 2 }, fun s => s.modSwap (0 : LaneId) fun w => { w with powerRole := true, holdOn := false }, fun s => s.modCon (0 : LaneId) fun c => { c with kind := 0 }]), by decide +kernel⟩,
    ⟨0, 0, (of [fun s => s.modBelay (0 : LaneId) fun b => { b with sw := 0 }]), by decide +kernel⟩,
    ⟨0, -1000, (of [fun s => s.modBelay (0 : LaneId) fun b => { b with sw := 2 }, fun s => s.modSwap (0 : LaneId) fun w => { w with holdOn := false, powerRole := true }, fun s => s.modBelay (0 : LaneId) fun b => { b with tripOpen := false }]), by decide +kernel⟩,
    ⟨0, 0, State.reset, by decide +kernel⟩,
    ⟨0, (of [fun s => s.modBelay (0 : LaneId) fun b => { b with sw := 2 }, fun s => s.modBelay (0 : LaneId) fun b => { b with tripOpen := false }]), by decide +kernel⟩,
    ⟨0, (of [fun s => s.modBelay (0 : LaneId) fun b => { b with sw := 0 }]), by decide +kernel⟩,
    ⟨199, State.reset, by decide +kernel⟩,
    ⟨193, State.reset, by decide +kernel⟩,
    ⟨194, State.reset, by decide +kernel⟩,
    ⟨214, State.reset, by decide +kernel⟩,
    ⟨213, State.reset, by decide +kernel⟩,
    ⟨188, State.reset, by decide +kernel⟩,
    ⟨0, 189, (of [fun s => s.modGroup (0 : GroupId) fun x => { x with thermShut := true }]), by decide +kernel⟩⟩

theorem meets_SelfTestAndLimits :
    (∃ (l : LaneId) (s : State), fld (s.lane l).cfg.belayCtrl 11 8 ≠ 0 ∧ (s.lane l).belay.sw = 2 ∧ (s.lane l).belay.stest = 0 ∧ (s.lane l).belay.failA = false ∧ (s.lane l).belay.failB = true) ∧
    (∃ (l : LaneId) (s : State), fld (s.lane l).cfg.belayCtrl 11 8 ≠ 0 ∧ (s.lane l).belay.sw = 2 ∧ (s.lane l).belay.stest = 0 ∧ (s.lane l).belay.failB = false) ∧
    (∃ (l : LaneId) (s : State), (fld (s.lane l).cfg.belayCtrl 11 8 = 0 ∨ (s.lane l).belay.sw ≠ 2 ∨ (s.lane l).belay.stest ≠ 0)) ∧
    (∃ (a : Agent) (l : LaneId) (s : State), hostServed s a = true ∧ s.fusedOff l = false ∧ (s.lane l).belay.sw = 2 ∧ (s.lane l).belay.stest = 0 ∧ (s.lane l).belay.failB = false) ∧
    (∃ (a : Agent) (l : LaneId) (s : State), hostServed s a = true ∧ s.fusedOff l = false ∧ (s.lane l).belay.sw = 2 ∧ (s.lane l).belay.stest = 0 ∧ (s.lane l).belay.failA = false ∧ (s.lane l).belay.failB = true) ∧
    (∃ (a : Agent) (l : LaneId) (s : State), hostServed s a = true ∧ s.fusedOff l = false ∧ (s.lane l).belay.latched = true) ∧
    (∃ (a : Agent) (l : LaneId) (s : State), hostServed s a = true ∧ s.fusedOff l = false ∧ (s.lane l).belay.latched = false) ∧
    (∃ (a : Agent) (l : LaneId) (s : State), hostServed s a = true ∧ s.fusedOff l = false ∧ s.locked = true) ∧
    (∃ (a : Agent) (l : LaneId) (s : State), hostServed s a = true ∧ s.fusedOff l = false ∧ s.locked = false) ∧
    (∃ (a : Agent) (l : LaneId) (v : Word) (s : State), hostServed s a = true ∧ s.fusedOff l = false ∧ fld v 23 16 = 0 ∧ bitOf v 2 = false ∧ bitOf v 3 = false) ∧
    (∃ (a : Agent) (l : LaneId) (v : Word) (s : State), hostServed s a = true ∧ s.fusedOff l = false ∧ 10 ≤ fld v 23 16 ∧ fld v 23 16 < fld (s.lane l).cfg.ilimSet 7 0 ∧ bitOf v 2 = false ∧ bitOf v 3 = false) ∧
    (∃ (a : Agent) (l : LaneId) (v : Word) (s : State), hostServed s a = true ∧ s.fusedOff l = false ∧ 1 ≤ fld v 23 16 ∧ fld v 23 16 ≤ 9 ∧ 10 < fld (s.lane l).cfg.ilimSet 7 0 ∧ bitOf v 2 = false ∧ bitOf v 3 = false) ∧
    (∃ (a : Agent) (l : LaneId) (v : Word) (s : State), hostServed s a = true ∧ s.fusedOff l = false ∧ fld v 23 16 ≠ 0 ∧ fld (s.lane l).cfg.ilimSet 7 0 ≤ Max.max 10 (fld v 23 16) ∧ bitOf v 2 = false ∧ bitOf v 3 = false) ∧
    (∃ (l : LaneId) (s : State), (s.lane l).belay.shedPending = true) ∧
    (∃ (l : LaneId) (s : State), (s.lane l).belay.shedPending = false) := by
  exact ⟨⟨0, (of [fun s => s.modBelay (0 : LaneId) fun b => { b with sw := 2, stest := 0, failA := false, failB := true }, fun s => s.modCfg (0 : LaneId) fun c => { c with belayCtrl := 0x500 }]), by decide +kernel⟩,
    ⟨0, (of [fun s => s.modBelay (0 : LaneId) fun b => { b with sw := 2, stest := 0 }, fun s => s.modCfg (0 : LaneId) fun c => { c with belayCtrl := 0x500 }]), by decide +kernel⟩,
    ⟨0, (of [fun s => s.modCfg (0 : LaneId) fun c => { c with belayCtrl := 0 }]), by decide +kernel⟩,
    ⟨.core 4, 0, (of [running, allPorts, fun s => s.modBelay (0 : LaneId) fun b => { b with sw := 2, stest := 0, failB := false }]), by decide +kernel⟩,
    ⟨.core 4, 0, (of [running, allPorts, fun s => s.modBelay (0 : LaneId) fun b => { b with sw := 2, stest := 0, failA := false, failB := true }]), by decide +kernel⟩,
    ⟨.core 4, 0, (of [running, allPorts, fun s => s.modBelay (0 : LaneId) fun b => { b with latched := true }, fun s => s.modCc (0 : LaneId) fun c => { c with st := .disabled }]), by decide +kernel⟩,
    ⟨.core 4, 0, (of [running, allPorts, fun s => s.modBelay (0 : LaneId) fun b => { b with latched := false }]), by decide +kernel⟩,
    ⟨.core 4, 0, (of [running, allPorts, fun s => s.modDev fun d => { d with run := true }]), by decide +kernel⟩,
    ⟨.core 4, 0, (of [running, allPorts, fun s => s.modDev fun d => { d with run := false, check := none }]), by decide +kernel⟩,
    ⟨.core 4, 0, 0, (of [running, allPorts]), by decide +kernel⟩,
    ⟨.core 4, 0, 0x140000, (of [running, allPorts, fun s => s.modCfg (0 : LaneId) fun c => { c with ilimSet := 0x003C003C }]), by decide +kernel⟩,
    ⟨.core 4, 0, 0x40000, (of [running, allPorts, fun s => s.modCfg (0 : LaneId) fun c => { c with ilimSet := 0x003C003C }]), by decide +kernel⟩,
    ⟨.core 4, 0, 0x400000, (of [running, allPorts, fun s => s.modCfg (0 : LaneId) fun c => { c with ilimSet := 0x003C003C }]), by decide +kernel⟩,
    ⟨0, (of [fun s => s.modBelay (0 : LaneId) fun b => { b with shedPending := true }]), by decide +kernel⟩,
    ⟨0, (of [fun s => s.modBelay (0 : LaneId) fun b => { b with shedPending := false }]), by decide +kernel⟩⟩

theorem meets_LoopEngines :
    (∃ (l : LaneId) (s : State), (s.lane l).conv.on = true ∧ (s.lane l).conv.slew = false ∧ (s.lane l).conv.first = false ∧ (s.lane l).conv.rev = false ∧ (s.lane l).conv.revStart = false) ∧
    (∃ (l : LaneId) (s : State), ((s.lane l).conv.on = false ∨ (s.lane l).conv.slew = true)) ∧
    (∃ (l : LaneId) (s : State), (s.lane l).conv.on = true ∧ (s.lane l).conv.slew = false ∧ (s.lane l).conv.rev = false ∧ (s.lane l).conv.revStart = false) ∧
    (∃ (l : LaneId) (s : State), (s.lane l).conv.on = false) ∧
    (∃ (l : LaneId) (k : SlewKind) (w : SlewTriple) (s : State), slewMay (s.lane l) s.dev.dtime k w = true) ∧
    (∃ (l : LaneId) (k : SlewKind) (w : SlewTriple) (s : State), slewMay (s.lane l) s.dev.dtime k w = false) ∧
    (∃ (l : LaneId) (m1 : SlewSample) (s : State), (s.lane l).conv.slew = true ∧ slewAct (s.lane l) m1 = .leave) ∧
    (∃ (l : LaneId) (m1 : SlewSample) (s : State), (s.lane l).conv.slew = true ∧ slewAct (s.lane l) m1 = .turn) ∧
    (∃ (l : LaneId) (m1 : SlewSample) (s : State), (s.lane l).conv.slew = true ∧ slewAct (s.lane l) m1 = .hold) ∧
    (∃ (l : LaneId) (m1 : SlewSample) (s : State), (s.lane l).conv.slew = true ∧ slewAct (s.lane l) m1 = .stay) ∧
    (∃ (l : LaneId) (s : State), (s.lane l).conv.slew = false) ∧
    (∃ (l : LaneId) (s : State), (s.lane l).conv.slew = true) ∧
    (∃ (l : LaneId) (s : State), (s.lane l).conv.ffAct = true) ∧
    (∃ (l : LaneId) (s : State), (s.lane l).conv.ffAct = false) ∧
    (∃ (a : Agent) (l : LaneId) (s : State), hostServed s a = true ∧ s.fusedOff l = false) ∧
    (∃ (a : Agent) (l : LaneId) (s : State), hostServed s a = true ∧ s.fusedOff l = false ∧ s.dev.state = .holdover) ∧
    (∃ (a : Agent) (l : LaneId) (s : State), hostServed s a = true ∧ s.fusedOff l = false) ∧
    (∃ (a : Agent) (l : LaneId) (s : State), hostServed s a = true ∧ s.fusedOff l = false) ∧
    (∃ (l : LaneId) (s : State), (s.lane l).conv.revStart = true ∧ (s.lane l).conv.revNow = (s.lane l).conv.revEff.toNat) ∧
    (∃ (l : LaneId) (s : State), ((s.lane l).conv.revStart = false ∨ (s.lane l).conv.revNow ≠ (s.lane l).conv.revEff.toNat)) ∧
    (∃ (l : LaneId) (s : State), (s.lane l).conv.on = false) := by
  exact ⟨⟨0, (of [fun s => s.modConv (0 : LaneId) fun c => { c with on := true, slew := false, rev := false, revStart := false, first := false }]), by decide +kernel⟩,
    ⟨0, (of [fun s => s.modConv (0 : LaneId) fun c => { c with slew := true }]), by decide +kernel⟩,
    ⟨0, (of [fun s => s.modConv (0 : LaneId) fun c => { c with on := true, slew := false, rev := false, revStart := false }]), by decide +kernel⟩,
    ⟨0, (of [fun s => s.modConv (0 : LaneId) fun c => { c with on := false }]), by decide +kernel⟩,
    ⟨0, .voltage, ⟨{ vin := 5 }, {}, {}⟩, (of [fun s => s.modConv (0 : LaneId) fun c => { c with on := true, slew := false, slewFree := 0, vs := 4000, rev := false, revStart := false, soft := false }, fun s => s.modCfg (0 : LaneId) fun c => { c with convLoop := 0x0000FF01 }]), by decide +kernel⟩,
    ⟨0, .current, { }, (of [fun s => s.modConv (0 : LaneId) fun c => { c with on := false }]), by decide +kernel⟩,
    ⟨0, { }, (of [fun s => s.modConv (0 : LaneId) fun c => { c with slew := true, slewKind := .current }]), by decide +kernel⟩,
    ⟨0, { }, (of [fun s => s.modConv (0 : LaneId) fun c => { c with slew := true, slewKind := .voltage, slewBack := false }]), by decide +kernel⟩,
    ⟨0, { vin := 1000, vbin := 5000, code := -62 }, (of [fun s => s.modConv (0 : LaneId) fun c => { c with slew := true, slewKind := .voltage, slewBack := false, vs := 10000 }, fun s => s.modCfg (0 : LaneId) fun c => { c with convStage := 0x3C010A64 }]), by decide +kernel⟩,
    ⟨0, { vin := 1000, vbin := 5000 }, (of [fun s => s.modConv (0 : LaneId) fun c => { c with slew := true, slewKind := .voltage, slewBack := false, vs := 10000 }, fun s => s.modCfg (0 : LaneId) fun c => { c with convStage := 0x3C010A64 }]), by decide +kernel⟩,
    ⟨0, (of [fun s => s.modConv (0 : LaneId) fun c => { c with slew := false }]), by decide +kernel⟩,
    ⟨0, (of [fun s => s.modConv (0 : LaneId) fun c => { c with slew := true }]), by decide +kernel⟩,
    ⟨0, (of [fun s => s.modConv (0 : LaneId) fun c => { c with ffAct := true }]), by decide +kernel⟩,
    ⟨0, (of [fun s => s.modConv (0 : LaneId) fun c => { c with ffAct := false }]), by decide +kernel⟩,
    ⟨.core 4, 0, (of [running, allPorts]), by decide +kernel⟩,
    ⟨.core 4, 0, (of [running, allPorts, fun s => s.modDev fun d => { d with state := .holdover }]), by decide +kernel⟩,
    ⟨.core 4, 0, (of [running, allPorts]), by decide +kernel⟩,
    ⟨.core 4, 0, (of [running, allPorts]), by decide +kernel⟩,
    ⟨0, (of [fun s => s.modConv (0 : LaneId) fun c => { c with revStart := true, revNow := 30, revEff := 30 }]), by decide +kernel⟩,
    ⟨0, (of [fun s => s.modConv (0 : LaneId) fun c => { c with revStart := false }]), by decide +kernel⟩,
    ⟨0, (of [fun s => s.modConv (0 : LaneId) fun c => { c with on := false }]), by decide +kernel⟩⟩

theorem meets_BusAndBudget :
    (∃ (s : State), (s.tether.hitch = false ∨ s.dev.state ≠ .run)) ∧
    (∃ (s : State), arbiterRuns s = true ∧ s.tether.settling ≤ 1) ∧
    (∃ (s : State), s.tether.hitch = true ∧ s.dev.state = .run ∧ (imageRuns (s.core (arbiterCore s)) = false ∨ 2 ≤ s.tether.settling)) ∧
    (∃ (s : State), arbiterRuns s = true ∧ s.tether.settling ≤ 1) ∧
    (∃ (s : State), s.tether.hitch = false ∧ s.tether.excluded = false ∧ s.dev.state ≠ .holdover ∧ bitOf s.tether.ctrl 0 = false) ∧
    (∃ (s : State), (s.tether.hitch = true ∨ s.tether.excluded = true ∨ s.dev.state = .holdover ∨ bitOf s.tether.ctrl 0 = true)) ∧
    (∃ (s : State), arbiterRuns s = false) ∧
    (∃ (s : State), arbiterRuns s = true) ∧
    (∃ (s : State), fld s.bus.vsnsTh 23 12 ≠ 0) ∧
    (∃ (s : State), fld s.bus.vsnsTh 23 12 = 0) ∧
    (∃ (l : LaneId) (s : State), ((s.lane l).pd.arActive = true ∨ s.bus.frozen = true ∨ budgetSource s l = false ∨ (allocation s l ≤ (s.lane l).budget.ceil.toNat ∧ (s.lane l).con.twinOn = false))) ∧
    (∃ (l : LaneId) (s : State), serves s l = true ∧ s.bus.frozen = false ∧ budgetSource s l = true ∧ (s.lane l).con.twinOn = true ∧ armInForce (s.lane l) = true ∧ (s.lane l).con.armedTarget = true ∧ (s.lane l).budget.ceil.toNat < runPower (s.lane l) ∧ laneFloor s l ≤ (s.lane l).budget.ceil.toNat) ∧
    (∃ (l : LaneId) (s : State), (s.lane l).budget.deadline = true ∧ serves s l = true ∧ s.bus.frozen = false ∧ (s.lane l).budget.ceil.toNat < allocation s l) ∧
    (∃ (l : LaneId) (s : State), (s.lane l).budget.deadline = false) ∧
    (∃ (a : Agent) (v : Word) (s : State), hostServed s a = true ∧ ((v.truncate 24 : BitVec 24) ≠ 0 ∨ s.dev.state ≠ .run)) ∧
    (∃ (a : Agent) (v : Word) (s : State), hostServed s a = true ∧ (v.truncate 24 : BitVec 24) = 0 ∧ s.dev.state = .run) ∧
    (∃ (p : Fin 8) (s : State), s.tether.hitch = true ∧ fld s.bus.stagger 11 8 ≠ 0 ∧ p.val ≠ ownPos s) ∧
    (∃ (p : Fin 8) (s : State), s.tether.hitch = true ∧ fld s.bus.stagger 11 8 ≠ 0 ∧ p.val = ownPos s) ∧
    (∃ (s : State), (s.tether.hitch = false ∨ fld s.bus.stagger 11 8 = 0)) := by
  exact ⟨⟨(of [fun s => s.modTether fun t => { t with hitch := false }]), by decide +kernel⟩,
    ⟨(of [run, fun s => s.modCore (arbiterCore s) fun c => { c with baseImg := true, run := .running }, fun s => s.modTether fun t => { t with hitch := true, settling := 0, slots := Vector.replicate 8 none, pos := some 0 }, fun s => s.modBus fun b => { b with stagger := 0 }]), by decide +kernel⟩,
    ⟨(of [run, fun s => s.modCore (arbiterCore s) fun c => { c with baseImg := true, run := .running }, fun s => s.modTether fun t => { t with hitch := true, settling := 2 }]), by decide +kernel⟩,
    ⟨(of [run, fun s => s.modCore (arbiterCore s) fun c => { c with baseImg := true, run := .running }, fun s => s.modTether fun t => { t with hitch := true, settling := 0, pos := some 0 }, fun s => s.modBus fun b => { b with stagger := 0, budgetW := 100 }]), by decide +kernel⟩,
    ⟨(of [run, fun s => s.modTether fun t => { t with hitch := false, excluded := false, ctrl := 0 }]), by decide +kernel⟩,
    ⟨(of [fun s => s.modTether fun t => { t with hitch := true }]), by decide +kernel⟩,
    ⟨(of [fun s => s.modTether fun t => { t with hitch := false }]), by decide +kernel⟩,
    ⟨(of [fun s => s.modTether fun t => { t with hitch := true }, run, fun s => s.modCore (arbiterCore s) fun c => { c with baseImg := true, run := .running }]), by decide +kernel⟩,
    ⟨(of [fun s => s.modBus fun b => { b with vsnsTh := 0x00100000 }]), by decide +kernel⟩,
    ⟨(of [fun s => s.modBus fun b => { b with vsnsTh := 0 }]), by decide +kernel⟩,
    ⟨0, (of [fun s => s.modBus fun b => { b with frozen := true }]), by decide +kernel⟩,
    ⟨0, (of [run, allPorts, fun s => s.modCc (0 : LaneId) fun c => { c with st := .attachedSrc }, fun s => s.modLane (0 : LaneId) fun x => { x with enabled := true }, fun s => s.modBus fun b => { b with frozen := false }, fun s => serving s (0 : LaneId), fun s => s.modSwap (0 : LaneId) fun w => { w with powerRole := true, holdOn := false, packHold := false }, fun s => s.modCon (0 : LaneId) fun c => { c with twinOn := true, armState := 2, target := true, armedTarget := true, kind := 0, volt := 4000 }, fun s => s.modCfg (0 : LaneId) fun c => { c with twinStandby := 0x000A0032, twinRun := 0x003C012C, laneBudget := 0 }, fun s => s.modBudget (0 : LaneId) fun b => { b with ceil := 200 }]), by decide +kernel⟩,
    ⟨0, (of [run, allPorts, fun s => s.modCc (0 : LaneId) fun c => { c with st := .attachedSrc }, fun s => s.modLane (0 : LaneId) fun x => { x with enabled := true }, fun s => s.modBus fun b => { b with frozen := false }, fun s => serving s (0 : LaneId), fun s => s.modSwap (0 : LaneId) fun w => { w with powerRole := true, holdOn := false, packHold := false }, fun s => s.modCon (0 : LaneId) fun c => { c with kind := 3 }, fun s => s.modBudget (0 : LaneId) fun b => { b with ceil := 1, deadline := true, counted := 0 }]), by decide +kernel⟩,
    ⟨0, (of [fun s => s.modBudget (0 : LaneId) fun b => { b with deadline := false }]), by decide +kernel⟩,
    ⟨.core 4, 500, (of [run]), by decide +kernel⟩,
    ⟨.core 4, 0, (of [run]), by decide +kernel⟩,
    ⟨3, (of [fun s => s.modTether fun t => { t with hitch := true, pos := some 0 }, fun s => s.modBus fun b => { b with stagger := 0x00000400 }]), by decide +kernel⟩,
    ⟨0, (of [fun s => s.modTether fun t => { t with hitch := true, pos := some 0 }, fun s => s.modBus fun b => { b with stagger := 0x00000400 }]), by decide +kernel⟩,
    ⟨(of [fun s => s.modTether fun t => { t with hitch := false }]), by decide +kernel⟩⟩

theorem meets_SwathEngine :
    (∃ (a : Agent) (s : State), hostServed s a = true ∧ (s.swath.en = false ∨ s.live = false)) ∧
    (∃ (a : Agent) (s : State), hostServed s a = true ∧ s.swath.en = true ∧ s.live = true ∧ turnUrad < fld s.swath.fix[2] 22 0) ∧
    (∃ (a : Agent) (s : State), hostServed s a = true ∧ fixVerdict s = 1 ∧ s.swath.fromHitch = false) ∧
    (∃ (s : State), s.swath.en = true ∧ s.live = true ∧ s.swath.poseOk = false) ∧
    (∃ (s : State), s.swath.en = true ∧ s.live = true ∧ s.swath.poseOk = true) ∧
    (∃ (s : State), s.swath.en = true ∧ s.live = true ∧ s.swath.poseOk = true ∧ s.swath.master = true ∧ s.swath.exclHard = false ∧ s.swath.drOut = false ∧ s.swath.rev = false ∧ 100 * s.swath.minSpd ≤ groundSpeed (s.deadReckon.followWindow : State).swath) ∧
    (∃ (s : State), s.swath.en = true ∧ s.live = true ∧ s.swath.poseOk = true ∧ (s.swath.master = false ∨ s.swath.rev = true ∨ groundSpeed (s.deadReckon.followWindow : State).swath < 100 * s.swath.minSpd)) ∧
    (∃ (s : State), s.swath.en = true ∧ s.live = true ∧ s.swath.poseOk = true) ∧
    (∃ (s : State), s.swath.en = true ∧ s.live = true ∧ s.swath.poseOk = true) ∧
    (∃ (s : State), s.swath.en = true ∧ s.live = true ∧ s.swath.poseOk = true ∧ (∀ m, sectMode s m = 0 ∨ (s.lane m).sect.applied = false ∨ (s.lane m).sect.line = none)) ∧
    (∃ (s : State), (s.swath.en = false ∨ s.live = false) ∧ fld s.bus.stagger 11 8 ≠ 0) ∧
    (∃ (s : State), s.swath.en = true) ∧
    (∃ (s : State), s.swath.en = true) ∧
    (∃ (s : State), s.swath.en = true ∧ s.swath.fromHitch = true ∧ s.swath.poseLost = false) ∧
    (∃ (s : State), (s.swath.en = false ∨ s.swath.fromHitch = false ∨ s.swath.poseLost = true)) ∧
    (∃ (l : LaneId) (s : State), (s.lane l).sect.pending = true ∧ (s.lane l).sect.postT2 ≤ s.dev.dtime) ∧
    (∃ (l : LaneId) (s : State), ((s.lane l).sect.pending = false ∨ s.dev.dtime < (s.lane l).sect.postT2)) ∧
    (∃ (l : LaneId) (s : State), (s.lane l).sect.loads ≠ []) ∧
    (∃ (l : LaneId) (s : State), (s.lane l).sect.loads = []) ∧
    (∃ (a : Agent) (l : LaneId) (s : State), hostServed s a = true ∧ s.fusedOff l = false) ∧
    (∃ (a : Agent) (s : State), hostServed s a = true ∧ (mbxServed s = true ∧ s.mbx.busy = false ∧ s.dev.state = .run ∧ s.swath.en = true ∧ s.swath.poseOk = true : Prop) ∧ inWindow s.swath (argTile s.mbx.arg[0] : Int × Int) = false) ∧
    (∃ (a : Agent) (s : State), hostServed s a = true ∧ (mbxServed s = true ∧ s.mbx.busy = false ∧ s.dev.state = .run ∧ s.swath.en = true ∧ s.swath.poseOk = true : Prop) ∧ inWindow s.swath (argTile s.mbx.arg[0] : Int × Int) = true ∧ s.swath.tiles.get (slotOf (argTile s.mbx.arg[0] : Int × Int)) = 0) ∧
    (∃ (a : Agent) (s : State), hostServed s a = true ∧ mbxServed s = true ∧ s.mbx.busy = false ∧ s.dev.state = .ready) ∧
    (∃ (a : Agent) (s : State), hostServed s a = true ∧ (mbxServed s = true ∧ s.mbx.busy = false ∧ s.dev.state = .run ∧ s.swath.en = true ∧ s.swath.poseOk = true : Prop) ∧ s.swath.tiles.get (slotOf (argTile s.mbx.arg[0] : Int × Int)) ≠ 2) ∧
    (∃ (a : Agent) (s : State), hostServed s a = true ∧ (mbxServed s = true ∧ s.mbx.busy = false ∧ s.dev.state = .run ∧ s.swath.en = true ∧ s.swath.poseOk = true : Prop) ∧ s.swath.tiles.get (slotOf (argTile s.mbx.arg[0] : Int × Int)) = 2 ∧ s.swath.held.get (slotOf (argTile s.mbx.arg[0] : Int × Int)) = some (argTile s.mbx.arg[0] : Int × Int)) ∧
    (∃ (tx : Int) (ty : Int) (s : State), (s.swath.en = false ∨ tilePresent s.swath (tx, ty) = false)) ∧
    (∃ (tx : Int) (ty : Int) (row : Byte) (col : Byte) (n : Nat) (s : State), s.swath.en = true ∧ bitOf s.tether.ctrl 0 = false ∧ n = 1 ∧ cellValue s ((256 * tx + col.toNat, 256 * ty + row.toNat) : Int × Int) = 0) ∧
    (∃ (s : State), s.swath.en = true ∧ bitOf s.tether.ctrl 0 = false) ∧
    (∃ (s : State), s.swath.en = true ∧ bitOf s.tether.ctrl 0 = false) ∧
    (∃ (s : State), bitOf s.tether.ctrl 0 = true) ∧
    (∃ (s : State), (s.swath.en = false ∨ s.swath.poseOk = false ∨ s.live = false ∨ bitOf s.tether.ctrl 0 = true)) ∧
    (∃ (s : State), s.swath.en = true ∧ s.swath.poseOk = true ∧ s.live = true ∧ bitOf s.tether.ctrl 0 = false ∧ s.tether.tiles = []) := by
  exact ⟨⟨.core 4, (of [fun s => s.modSwath fun x => { x with ctrl := 0 }]), by decide +kernel⟩,
    ⟨.core 4, (of [run, fun s => s.modSwath fun x => { x with ctrl := x.ctrl ||| 1, powered := true }, fun s => s.modSwath fun x => { x with fix := x.fix.set 2 0x7FFFFF }]), by decide +kernel⟩,
    ⟨.core 4, (of [run, fun s => s.modSwath fun x => { x with ctrl := 1, powered := true, fix := Vector.replicate 7 0, lastFix := none, steps := [] }, fun s => s.modDev fun d => { d with dtime := 1000 }]), by decide +kernel⟩,
    ⟨(of [run, fun s => s.modSwath fun x => { x with ctrl := 1, powered := true, poseOk := false, steps := [] }]), by decide +kernel⟩,
    ⟨(of [run, fun s => s.modSwath fun x => { x with ctrl := 5, powered := true, poseOk := true, poseLost := false, drOut := false, eccBad := [], rev := false, tiles := Vector.replicate 256 1, e := 0, n := 0, hdg := 0, hdgFrac := 0, yaw := 0, steps := List.replicate 10 (2000, 0), win := (-8, -8), gsCtrl := 0, fixSpeed := 2000, grid := 100, e0 := 0, n0 := 0, held := Vector.ofFn fun k => some (windowTile (-8, -8) k) }, allPorts, fun s => s.modCfg (0 : LaneId) fun c => { c with sectCtrl := 0x00280001, sectW := 6000, sectFa := 0, sectGeoLat := 0, sectLat := 0 }, fun s => allLanes.foldl (fun t m => if m = (0 : LaneId) then t else t.modLane m fun x => { x with cfg := { x.cfg with sectCtrl := 0 }, sect := { x.sect with line := none } }) s]), by decide +kernel⟩,
    ⟨(of [run, fun s => s.modSwath fun x => { x with ctrl := 5, powered := true, poseOk := true, poseLost := false, drOut := false, eccBad := [], rev := false, tiles := Vector.replicate 256 1, e := 0, n := 0, hdg := 0, hdgFrac := 0, yaw := 0, steps := List.replicate 10 (2000, 0), win := (-8, -8), gsCtrl := 0, fixSpeed := 2000, grid := 100, e0 := 0, n0 := 0, held := Vector.ofFn fun k => some (windowTile (-8, -8) k) }, allPorts, fun s => s.modCfg (0 : LaneId) fun c => { c with sectCtrl := 0x00280001, sectW := 6000, sectFa := 0, sectGeoLat := 0, sectLat := 0 }, fun s => allLanes.foldl (fun t m => if m = (0 : LaneId) then t else t.modLane m fun x => { x with cfg := { x.cfg with sectCtrl := 0 }, sect := { x.sect with line := none } }) s]), by decide +kernel⟩,
    ⟨(of [run, fun s => s.modSwath fun x => { x with ctrl := 5, powered := true, poseOk := true, poseLost := false, drOut := false, eccBad := [], rev := false, tiles := Vector.replicate 256 1, e := 0, n := 0, hdg := 0, hdgFrac := 0, yaw := 0, steps := List.replicate 10 (2000, 0), win := (-8, -8), gsCtrl := 0, fixSpeed := 2000, grid := 100, e0 := 0, n0 := 0, held := Vector.ofFn fun k => some (windowTile (-8, -8) k) }, allPorts, fun s => s.modCfg (0 : LaneId) fun c => { c with sectCtrl := 0x00280001, sectW := 6000, sectFa := 0, sectGeoLat := 0, sectLat := 0 }, fun s => allLanes.foldl (fun t m => if m = (0 : LaneId) then t else t.modLane m fun x => { x with cfg := { x.cfg with sectCtrl := 0 }, sect := { x.sect with line := none } }) s, fun s => s.modSwath fun x => { x with ctrl := 1 }]), by decide +kernel⟩,
    ⟨(of [run, fun s => s.modSwath fun x => { x with ctrl := 5, powered := true, poseOk := true, poseLost := false, drOut := false, eccBad := [], rev := false, tiles := Vector.replicate 256 1, e := 0, n := 0, hdg := 0, hdgFrac := 0, yaw := 0, steps := List.replicate 10 (2000, 0), win := (-8, -8), gsCtrl := 0, fixSpeed := 2000, grid := 100, e0 := 0, n0 := 0, held := Vector.ofFn fun k => some (windowTile (-8, -8) k) }, allPorts, fun s => s.modCfg (0 : LaneId) fun c => { c with sectCtrl := 0x00280001, sectW := 6000, sectFa := 0, sectGeoLat := 0, sectLat := 0 }, fun s => allLanes.foldl (fun t m => if m = (0 : LaneId) then t else t.modLane m fun x => { x with cfg := { x.cfg with sectCtrl := 0 }, sect := { x.sect with line := none } }) s, fun s => s.modSect (0 : LaneId) fun y => { y with applied := true, line := some (-3000000, 0, 3000000, 0) }]), by decide +kernel⟩,
    ⟨(of [run, fun s => s.modSwath fun x => { x with ctrl := 5, powered := true, poseOk := true, poseLost := false, drOut := false, eccBad := [], rev := false, tiles := Vector.replicate 256 1, e := 0, n := 0, hdg := 0, hdgFrac := 0, yaw := 0, steps := List.replicate 10 (2000, 0), win := (-8, -8), gsCtrl := 0, fixSpeed := 2000, grid := 100, e0 := 0, n0 := 0, held := Vector.ofFn fun k => some (windowTile (-8, -8) k) }, allPorts, fun s => s.modCfg (0 : LaneId) fun c => { c with sectCtrl := 0x00280001, sectW := 6000, sectFa := 0, sectGeoLat := 0, sectLat := 0 }, fun s => allLanes.foldl (fun t m => if m = (0 : LaneId) then t else t.modLane m fun x => { x with cfg := { x.cfg with sectCtrl := 0 }, sect := { x.sect with line := none } }) s, fun s => s.modSect (0 : LaneId) fun y => { y with applied := true, line := some (-3000000, 0, 3000000, 0) }]), by decide +kernel⟩,
    ⟨(of [run, fun s => s.modSwath fun x => { x with ctrl := 5, powered := true, poseOk := true, poseLost := false, drOut := false, eccBad := [], rev := false, tiles := Vector.replicate 256 1, e := 0, n := 0, hdg := 0, hdgFrac := 0, yaw := 0, steps := List.replicate 10 (2000, 0), win := (-8, -8), gsCtrl := 0, fixSpeed := 2000, grid := 100, e0 := 0, n0 := 0, held := Vector.ofFn fun k => some (windowTile (-8, -8) k) }, allPorts, fun s => s.modCfg (0 : LaneId) fun c => { c with sectCtrl := 0x00280001, sectW := 6000, sectFa := 0, sectGeoLat := 0, sectLat := 0 }, fun s => allLanes.foldl (fun t m => if m = (0 : LaneId) then t else t.modLane m fun x => { x with cfg := { x.cfg with sectCtrl := 0 }, sect := { x.sect with line := none } }) s, fun s => allLanes.foldl (fun t m => t.modSect m fun y => { y with applied := false }) s]), by decide +kernel⟩,
    ⟨(of [fun s => s.modSwath fun x => { x with ctrl := 0 }, fun s => s.modBus fun b => { b with stagger := 0x400 }]), by decide +kernel⟩,
    ⟨(of [fun s => s.modSwath fun x => { x with ctrl := x.ctrl ||| 1, powered := true }]), by decide +kernel⟩,
    ⟨(of [fun s => s.modSwath fun x => { x with ctrl := x.ctrl ||| 1, powered := true }]), by decide +kernel⟩,
    ⟨(of [fun s => s.modSwath fun x => { x with ctrl := 0x11, poseLost := false }]), by decide +kernel⟩,
    ⟨(of [fun s => s.modSwath fun x => { x with ctrl := 0 }]), by decide +kernel⟩,
    ⟨0, (of [fun s => s.modSect (0 : LaneId) fun y => { y with pending := true, postT2 := 0 }]), by decide +kernel⟩,
    ⟨0, (of [fun s => s.modSect (0 : LaneId) fun y => { y with pending := false }]), by decide +kernel⟩,
    ⟨0, (of [fun s => s.modSect (0 : LaneId) fun y => { y with loads := [(7, true)] }]), by decide +kernel⟩,
    ⟨0, (of [fun s => s.modSect (0 : LaneId) fun y => { y with loads := [] }]), by decide +kernel⟩,
    ⟨.core 4, 0, (of [allPorts, run]), by decide +kernel⟩,
    ⟨.core 4, (of [imaged, run, fun s => s.modMbx fun m => { m with busy := false, arg := m.arg.set 0 0x00640064 }, fun s => s.modSwath fun x => { x with ctrl := 1, powered := true, poseOk := true, win := (0, 0) }]), by decide +kernel⟩,
    ⟨.core 4, (of [imaged, run, fun s => s.modMbx fun m => { m with busy := false, arg := (m.arg.set 0 0x00040004).set 1 0 }, fun s => s.modSwath fun x => { x with ctrl := 1, powered := true, poseOk := true, win := (0, 0), tiles := Vector.replicate 256 0, held := Vector.replicate 256 none }]), by decide +kernel⟩,
    ⟨.core 4, (of [imaged, fun s => s.modMbx fun m => { m with busy := false }, fun s => s.modDev fun d => { d with state := .ready }]), by decide +kernel⟩,
    ⟨.core 4, (of [imaged, run, fun s => s.modMbx fun m => { m with busy := false }, fun s => s.modSwath fun x => { x with ctrl := 1, poseOk := true, tiles := Vector.replicate 256 1 }]), by decide +kernel⟩,
    ⟨.core 4, (of [imaged, run, fun s => s.modMbx fun m => { m with busy := false, arg := m.arg.set 0 0x00040004 }, fun s => s.modSwath fun x => { x with ctrl := 1, poseOk := true, powered := true, tiles := Vector.replicate 256 2, held := Vector.replicate 256 (some (4, 4)) }]), by decide +kernel⟩,
    ⟨0, 0, (of [fun s => s.modSwath fun x => { x with tiles := Vector.replicate 256 0 }]), by decide +kernel⟩,
    ⟨0, 0, 0, 0, 1, (of [fun s => s.modTether fun t => { t with ctrl := 0 }, fun s => s.modSwath fun x => { x with ctrl := 1, powered := true, eccBad := [], tiles := Vector.replicate 256 1, held := Vector.replicate 256 (some ((0 : Int), (0 : Int))) }]), by decide +kernel⟩,
    ⟨(of [fun s => s.modTether fun t => { t with ctrl := 0 }, fun s => s.modSwath fun x => { x with ctrl := 1, powered := true, eccBad := [], tiles := Vector.replicate 256 1, held := Vector.replicate 256 (some ((0 : Int), (0 : Int))) }]), by decide +kernel⟩,
    ⟨(of [fun s => s.modTether fun t => { t with ctrl := 0 }, fun s => s.modSwath fun x => { x with ctrl := 1, powered := true, eccBad := [], tiles := Vector.replicate 256 1, held := Vector.replicate 256 (some ((0 : Int), (0 : Int))) }]), by decide +kernel⟩,
    ⟨(of [fun s => s.modTether fun t => { t with ctrl := 1 }]), by decide +kernel⟩,
    ⟨(of [fun s => s.modSwath fun x => { x with poseOk := false }]), by decide +kernel⟩,
    ⟨(of [run, fun s => s.modSwath fun x => { x with ctrl := 1, poseOk := true }, fun s => s.modTether fun t => { t with ctrl := 0, tiles := [] }]), by decide +kernel⟩⟩

theorem meets_Counters :
    (∃ (n : CounterId) (s : State), (s.counter n).en = true ∧ (∀ k, n.val < k.val → (s.counter k).clkSrc ≠ 1)) ∧
    (∃ (n : CounterId) (m : CounterId) (s : State), (s.counter n).en = true ∧ m.val = n.val + 1 ∧ (s.counter m).clkSrc = 1 ∧ (s.counter m).en = true ∧ (s.counter m).act = 0 ∧ (s.counter m).down = false ∧ (s.counter m).resetNext = false ∧ (s.counter m).valNew = none ∧ (s.counter m).val.toNat < (s.counter m).top.toNat ∧ (∀ k, m.val < k.val → (s.counter k).clkSrc ≠ 1)) ∧
    (∃ (n : CounterId) (s : State), (s.counter n).en = false) ∧
    (∃ (n : CounterId) (s : State), (s.counter n).en = true ∧ (s.counter n).down = false) ∧
    (∃ (n : CounterId) (s : State), ((s.counter n).en = false ∨ (s.counter n).down = true)) ∧
    (∃ (n : CounterId) (b : Bool) (s : State), (s.counter n).en = true ∧ (s.counter n).dirAllows b (s.counter n).down = true ∧ (b = false ∨ (s.counter n).bIdle = false) ∧ (if b then (s.counter n).cmpB else (s.counter n).cmpA).toNat ≤ (s.counter n).topEff.toNat ∧ (s.counter n).link = n.val ∧ fld (s.counter n).act 5 4 ≠ 1 ∧ fld (s.counter n).act 7 6 ≠ 1 ∧ (s.counter n).claim ≠ 3) ∧
    (∃ (n : CounterId) (b : Bool) (s : State), ((s.counter n).en = false ∨ (s.counter n).dirAllows b (s.counter n).down = false ∨ (b = true ∧ (s.counter n).bIdle = true))) ∧
    (∃ (n : CounterId) (rising : Bool) (s : State), (s.counter n).capSrc ≠ 0 ∧ (s.counter n).capSrc ≤ 5 ∧ edgeCounts (s.counter n) rising = true ∧ fld (s.counter n).cap 7 0 ≤ (s.counter n).presc ∧ (s.counter n).clkSrc ≠ 2) ∧
    (∃ (n : CounterId) (rising : Bool) (s : State), (s.counter n).capSrc ≠ 0 ∧ (s.counter n).capSrc ≤ 5 ∧ edgeCounts (s.counter n) rising = true ∧ (s.counter n).presc < fld (s.counter n).cap 7 0) ∧
    (∃ (n : CounterId) (s : State), ((s.counter n).capSrc = 0 ∨ 5 < (s.counter n).capSrc)) ∧
    (∃ (a : Agent) (n : CounterId) (s : State), hostServed s a = true ∧ cntWritable s a n = true) ∧
    (∃ (a : Agent) (n : CounterId) (s : State), hostServed s a = true ∧ a = .host ∧ s.dev.state = .run ∧ 2 ≤ (s.counter n).claim.toNat) ∧
    (∃ (a : Agent) (n : CounterId) (s : State), hostServed s a = true ∧ cntWritable s a n = true) ∧
    (∃ (a : Agent) (n : CounterId) (b : Bool) (s : State), hostServed s a = true ∧ cntWritable s a n = true ∧ (b = false ∨ (s.counter n).bIdle = false)) ∧
    (∃ (a : Agent) (n : CounterId) (b : Bool) (s : State), hostServed s a = true ∧ b = true ∧ (s.counter n).bIdle = true) ∧
    (∃ (a : Agent) (n : CounterId) (v : Word) (s : State), hostServed s a = true ∧ cntWritable s a n = true ∧ s.locked = false ∧ fld v 19 16 < 2) ∧
    (∃ (a : Agent) (n : CounterId) (s : State), hostServed s a = true ∧ cntWritable s a n = true ∧ s.locked = true ∧ (s.counter n).setLen < 2) ∧
    (∃ (a : Agent) (n : CounterId) (s : State), hostServed s a = true ∧ cntWritable s a n = true) ∧
    (∃ (a : Agent) (s : State), hostServed s a = true ∧ hostReads s a = true) ∧
    (∃ (n : CounterId) (s : State), ((s.counter n).slots = [] ∨ (s.counter n).arbiter = false)) ∧
    (∃ (n : CounterId) (s : State), (s.counter n).slots ≠ [] ∧ (s.counter n).arbiter = true) := by
  exact ⟨⟨0, (of [fun s => { s with counters := Vector.replicate 24 {} }, fun s => s.modCounter (0 : CounterId) fun c => { c with ctrl := 1, val := 7, top := 7 }]), by decide +kernel⟩,
    ⟨0, if (0 : CounterId).val = 23 then 0 else (0 : CounterId) + 1, (of [fun s => { s with counters := Vector.replicate 24 {} }, fun s => s.modCounter (0 : CounterId) fun c => { c with ctrl := 1, val := 7, top := 7 }, fun s => s.modCounter (if (0 : CounterId).val = 23 then 0 else (0 : CounterId) + 1 : CounterId) fun c => { c with ctrl := 0x101, top := 50, val := 3 }]), by decide +kernel⟩,
    ⟨0, (of [fun s => s.modCounter (0 : CounterId) fun c => { c with ctrl := 0 }]), by decide +kernel⟩,
    ⟨0, (of [fun s => s.modCounter (0 : CounterId) fun c => { c with ctrl := 1, down := false }]), by decide +kernel⟩,
    ⟨0, (of [fun s => s.modCounter (0 : CounterId) fun c => { c with ctrl := 0 }]), by decide +kernel⟩,
    ⟨0, true, (of [fun s => s.modCounter (0 : CounterId) fun c => { c with ctrl := 1, cmpA := 4, cmpB := 5, topEff := 9, act := BitVec.ofNat 32 (0x0F + 256 * (0 : CounterId).val), claim := 0 }]), by decide +kernel⟩,
    ⟨0, true, (of [fun s => s.modCounter (0 : CounterId) fun c => { c with ctrl := 0 }]), by decide +kernel⟩,
    ⟨0, true, (of [fun s => s.modCounter (0 : CounterId) fun c => { c with act := 0x88000, cap := 0x100, presc := 0, ctrl := 1, topEff := 99 }]), by decide +kernel⟩,
    ⟨0, true, (of [fun s => s.modCounter (0 : CounterId) fun c => { c with act := 0x88000, cap := 0x104, presc := 2 }]), by decide +kernel⟩,
    ⟨0, (of [fun s => s.modCounter (0 : CounterId) fun c => { c with act := 0 }]), by decide +kernel⟩,
    ⟨.core 4, 0, (of [fun s => s.modDev fun d => { d with state := .ready, run := false, check := none }]), by decide +kernel⟩,
    ⟨.host, 0, (of [running, fun s => s.modCounter (0 : CounterId) fun c => { c with claim := 2 }]), by decide +kernel⟩,
    ⟨.core 4, 0, (of [fun s => s.modDev fun d => { d with state := .ready, run := false, check := none }]), by decide +kernel⟩,
    ⟨.core 4, 0, true, (of [fun s => s.modDev fun d => { d with state := .ready, run := false, check := none }]), by decide +kernel⟩,
    ⟨.core 4, 0, true, (of [fun s => s.modDev fun d => { d with state := .ready, run := false, check := none }, fun s => s.modCounter (0 : CounterId) fun c => { c with act := 0x8000 }]), by decide +kernel⟩,
    ⟨.core 4, 0, 0x00015011, (of [fun s => s.modDev fun d => { d with state := .ready, run := false, check := none }]), by decide +kernel⟩,
    ⟨.core 4, 0, (of [fun s => s.modDev fun d => { d with state := .ready, run := true }, fun s => s.modCounter (0 : CounterId) fun c => { c with ctrl := 0 }]), by decide +kernel⟩,
    ⟨.core 4, 0, (of [fun s => s.modDev fun d => { d with state := .ready, run := false, check := none }]), by decide +kernel⟩,
    ⟨.core 4, (of [fun s => s.modDev fun d => { d with state := .ready, run := false, check := none }]), by decide +kernel⟩,
    ⟨0, (of [fun s => s.modCounter (0 : CounterId) fun c => { c with slots := [] }]), by decide +kernel⟩,
    ⟨0, (of [fun s => s.modCounter (0 : CounterId) fun c => { c with slots := [(5000, 0, true)], claim := 3, held := true }]), by decide +kernel⟩⟩

theorem meets_InterruptController :
    (∃ (a : Agent) (t : CoreId) (x : SourceId) (s : State), hostServed s a = true ∧ (s.src x).target.toNat = t.val ∧ (s.src x).routeEn = true) ∧
    (∃ (a : Agent) (t : CoreId) (x : SourceId) (s : State), hostServed s a = true ∧ (s.src x).target.toNat = t.val ∧ (s.src x).routeEn = false) ∧
    (∃ (a : Agent) (t : CoreId) (x : SourceId) (s : State), hostServed s a = true ∧ (s.src x).target.toNat ≠ t.val) ∧
    (∃ (t : CoreId) (x : SourceId) (s : State), ((s.core t).run = .running ∨ (s.core t).run = .waiting) ∧ (s.core t).boundary = true ∧ (s.ic t).withdrawn = none ∧ chosen s t = some x ∧ (s.src x).fast = false ∧ (s.core t).wdepth ≠ 8 ∧ eccAt s t (vecBase t + 4 * x.val) = false) ∧
    (∃ (t : CoreId) (x : SourceId) (s : State), ((s.core t).run = .running ∨ (s.core t).run = .waiting) ∧ (s.core t).boundary = true ∧ (s.ic t).withdrawn = none ∧ chosen s t = some x ∧ (s.src x).fast = true ∧ eccAt s t (vecBase t + 4 * x.val) = false) ∧
    (∃ (t : CoreId) (s : State), ((s.core t).run = .running ∨ (s.core t).run = .waiting) ∧ (s.core t).boundary = true ∧ (s.ic t).withdrawn = some true ∧ (s.core t).ie = true ∧ (s.core t).fa = false ∧ eccAt s t (vecBase t + 4 * 0x3FF) = false) ∧
    (∃ (t : CoreId) (s : State), ((s.core t).run = .running ∨ (s.core t).run = .waiting) ∧ (s.core t).boundary = true ∧ (s.ic t).withdrawn = some false ∧ (s.core t).ie = true ∧ (s.core t).fa = false ∧ (s.core t).na = false ∧ (s.core t).wdepth ≠ 8 ∧ eccAt s t (vecBase t + 4 * 0x3FF) = false) ∧
    (∃ (t : CoreId) (s : State), ((s.core t).boundary = false ∨ (s.core t).run = .halted ∨ (s.core t).run = .inReset ∨ ((s.ic t).withdrawn = none ∧ chosen s t = none))) ∧
    (∃ (a : Agent) (s : State), hostServed s a = true) ∧
    (∃ (a : Agent) (t : CoreId) (s : State), hostServed s a = true ∧ (s.ic t).rewroteAt ≠ some s.dev.dtime) ∧
    (∃ (a : Agent) (t : CoreId) (s : State), hostServed s a = true ∧ (s.ic t).rewroteAt = some s.dev.dtime) ∧
    (∃ (a : Agent) (s : State), hostServed s a = true ∧ s.sup.rewrites = []) ∧
    (∃ (t : CoreId) (s : State), (s.ic t).held = true ∧ s.sup.rewrites.any (fun e => e.1 = t || e.2.1 = t) = true) ∧
    (∃ (t : CoreId) (s : State), (s.ic t).held = false) ∧
    (∃ (a : Agent) (s : State), hostServed s a = true) ∧
    (∃ (t : CoreId) (s : State), s.sec.unlocked = true ∧ (s.core t).boundary = true ∧ (s.core t).run = .running) ∧
    (∃ (t : CoreId) (s : State), (s.sec.unlocked = false ∨ (s.core t).boundary = false ∨ (s.core t).run = .halted)) ∧
    (∃ (t : CoreId) (s : State), s.sec.unlocked = true ∧ ((s.core t).run = .debug ∨ (s.core t).run = .halted)) ∧
    (∃ (t : CoreId) (s : State), (s.sec.unlocked = false ∨ (s.core t).run = .running)) := by
  exact ⟨⟨.core 4, 0, 0, (of [fun s => s.modSrc (0 : SourceId) fun c => { c with target := BitVec.ofNat 3 (0 : CoreId).val, routeEn := true }]), by decide +kernel⟩,
    ⟨.core 4, 0, 0, (of [fun s => s.modSrc (0 : SourceId) fun c => { c with target := BitVec.ofNat 3 (0 : CoreId).val, routeEn := false }]), by decide +kernel⟩,
    ⟨.core 4, 4, 0, State.reset, by decide +kernel⟩,
    ⟨0, 0, withOne false, by decide +kernel, by decide +kernel, by decide +kernel, chosen_withOne_slow, by decide +kernel⟩,
    ⟨0, 0, withOne true, by decide +kernel, by decide +kernel, by decide +kernel, chosen_withOne_fast, by decide +kernel⟩,
    ⟨0, (of [fun s => s.setCore (0 : CoreId) { State.reset.core (0 : CoreId) with run := .running, st := 1 }, fun s => s.modIc (0 : CoreId) fun i => { i with withdrawn := some true }]), by decide +kernel⟩,
    ⟨0, (of [fun s => s.setCore (0 : CoreId) { State.reset.core (0 : CoreId) with run := .running, st := 1 }, fun s => s.modIc (0 : CoreId) fun i => { i with withdrawn := some false }]), by decide +kernel⟩,
    ⟨0, (of [fun s => s.setCore (0 : CoreId) { State.reset.core (0 : CoreId) with run := .inReset }]), by decide +kernel⟩,
    ⟨.core 4, State.reset, by decide +kernel⟩,
    ⟨.core 4, 0, (of [fun s => s.modIc (0 : CoreId) fun i => { i with rewroteAt := none }]), by decide +kernel⟩,
    ⟨.core 4, 0, (of [fun s => s.modIc (0 : CoreId) fun i => { i with rewroteAt := some s.dev.dtime }]), by decide +kernel⟩,
    ⟨.core 4, (of [fun s => s.modSup fun p => { p with rewrites := [] }]), by decide +kernel⟩,
    ⟨0, (of [fun s => s.modIc (0 : CoreId) fun i => { i with held := true }, fun s => s.modSup fun p => { p with rewrites := [((0 : CoreId), (0 : CoreId), 0, false)] }]), by decide +kernel⟩,
    ⟨0, (of [fun s => s.modIc (0 : CoreId) fun i => { i with held := false }]), by decide +kernel⟩,
    ⟨.core 4, State.reset, by decide +kernel⟩,
    ⟨0, (of [fun s => s.modSec fun x => { x with unlocked := true }, fun s => s.setCore (0 : CoreId) { State.reset.core (0 : CoreId) with run := .running }]), by decide +kernel⟩,
    ⟨0, (of [fun s => s.modSec fun x => { x with unlocked := false }]), by decide +kernel⟩,
    ⟨0, (of [fun s => s.modSec fun x => { x with unlocked := true }, fun s => s.modCore (0 : CoreId) fun c => { c with run := .debug }]), by decide +kernel⟩,
    ⟨0, (of [fun s => s.modSec fun x => { x with unlocked := false }]), by decide +kernel⟩⟩

theorem meets_Supervision :
    (∃ (a : Agent) (u : CoreId) (s : State), hostServed s a = true ∧ a = .core u ∧ u.val < 4) ∧
    (∃ (a : Agent) (s : State), hostServed s a = true ∧ (a = .host ∨ a = .core 4 ∨ a = .core 5)) ∧
    (∃ (s : State), watchdogRuns s = true ∧ (∀ k, (s.core k).beat = true)) ∧
    (∃ (s : State), watchdogRuns s = true ∧ s.dev.takeover = none) ∧
    (∃ (s : State), (s.dev.state = .boot ∨ s.dev.state = .loader ∨ s.dev.state = .halted)) ∧
    (∃ (t : CoreId) (g : GroupId) (s : State), serverOf s g = t ∧ (s.core t).run = .running ∧ s.dev.takeover = none) ∧
    (∃ (t : CoreId) (g : GroupId) (s : State), (serverOf s g ≠ t ∨ (s.core t).run ≠ .running)) ∧
    (∃ (t : CoreId) (g : GroupId) (s : State), coreOf g = t ∧ (s.group g).spliced = true ∧ (s.core t).run = .running) ∧
    (∃ (t : CoreId) (g : GroupId) (s : State), coreOf (partnerOf g) = t ∧ (s.group g).spliced = true ∧ (s.group g).returning = true ∧ (s.core t).run = .running ∧ rewriteWaits s g = false ∧ (s.ic (coreOf g)).held = false ∧ (s.ic (coreOf (partnerOf g))).held = false) ∧
    (∃ (t : CoreId) (g : GroupId) (s : State), coreOf (partnerOf g) = t ∧ (s.group g).spliced = true ∧ (s.group g).returning = true ∧ (s.core t).run = .running ∧ rewriteWaits s g = false ∧ ((s.ic (coreOf g)).held = true ∨ (s.ic (coreOf (partnerOf g))).held = true)) ∧
    (∃ (g : GroupId) (s : State), (s.group g).spliced = true ∧ (s.group g).returning = true ∧ rewriteWaits s g = false ∧ (s.ic (coreOf g)).held = false ∧ (s.ic (coreOf (partnerOf g))).held = false) ∧
    (∃ (g : GroupId) (s : State), ((s.group g).spliced = false ∨ (s.group g).returning = false)) ∧
    (∃ (a : Agent) (u : CoreId) (s : State), hostServed s a = true ∧ (a = .host ∨ (a = .core u ∧ u.val < 4))) ∧
    (∃ (a : Agent) (t : CoreId) (u : CoreId) (g : GroupId) (v : Word) (s : State), hostServed s a = true ∧ (coreOf g = t ∨ 4 ≤ t.val) ∧ a = .core u ∧ 4 ≤ u.val ∧ u ≠ t ∧ v = BitVec.ofNat 32 (2 ^ t.val) ∧ (s.core t).down = true ∧ (s.core t).grace = false ∧ (s.core t).out = false ∧ s.dev.state = .run) ∧
    (∃ (s : State), supFailed s 4 = true ∧ supFailed s 5 = true ∧ s.dev.takeover = none ∧ s.dev.halting = false ∧ s.dev.state = .run) ∧
    (∃ (s : State), (supFailed s 4 = false ∨ supFailed s 5 = false)) ∧
    (∃ (s : State), s.dev.takeover.isSome = true ∧ s.dev.halting = false ∧ s.sup.attempt = 0 ∧ s.dev.state ≠ .halted) ∧
    (∃ (s : State), (s.dev.takeover = none ∨ s.sup.attempt ≠ 0)) ∧
    (∃ (st : DevState) (s : State), s.dev.takeover = some st ∧ wardenDone s = true) ∧
    (∃ (s : State), s.dev.takeover = some .run ∧ s.dev.trans = .none ∧ s.dev.run = true ∧ s.dev.watch = false ∧ wardenDone s = true) ∧
    (∃ (st : DevState) (s : State), s.dev.takeover = some st ∧ (st = .watch ∨ st = .ready) ∧ s.dev.trans = .none ∧ s.dev.run = decide (st = .watch) ∧ s.dev.watch = decide (st = .watch) ∧ s.dev.check = none ∧ wardenDone s = true) ∧
    (∃ (s : State), wardenDone s = false) ∧
    (∃ (s : State), s.dev.takeover.isSome = true ∧ s.dev.halting = false ∧ s.sup.attempt ≠ 0 ∧ s.dev.state ≠ .halted) ∧
    (∃ (s : State), s.dev.takeover.isSome = true ∧ s.dev.halting = false ∧ (s.sup.attempt = 1 ∨ s.sup.attempt = 2) ∧ s.sup.fails.length ≤ 1) ∧
    (∃ (s : State), (s.dev.takeover = none ∨ s.sup.attempt = 0)) ∧
    (∃ (g : GroupId) (s : State), (s.group g).orphan = true) ∧
    (∃ (g : GroupId) (s : State), (s.group g).orphan = false) ∧
    (∃ (a : Agent) (l : LaneId) (s : State), hostServed s a = true ∧ s.fusedOff l = false ∧ (s.lane l).fw.protoLast = true) ∧
    (∃ (t : CoreId) (l : LaneId) (site : EccSite) (n : Nat) (x : SourceId) (b : Bool) (s : State), (site = .pdReceive l ∨ (b = false ∧ (site = .pdTransmit l ∨ site = .swathMap n ∨ site = .decodeTable t n ∨ site = .vectorEntry t x ∨ site = .loopEngine l)))) ∧
    (∃ (t : CoreId) (site : EccSite) (n : Nat) (b : Bool) (s : State), site = .decodeTable t n ∧ b = true) ∧
    (∃ (site : EccSite) (n : Nat) (b : Bool) (s : State), site = .swathMap n ∧ b = true) ∧
    (∃ (t : CoreId) (site : EccSite) (n : Nat) (b : Bool) (s : State), site = .coreMemory t n b ∧ (privAddr t n).isSome = true) ∧
    (∃ (t : CoreId) (site : EccSite) (n : Nat) (b : Bool) (s : State), (site = .coreMemory t n true ∨ site = .coreMemory t n false) ∧ b = false ∧ (privAddr t n).isSome = true) ∧
    (∃ (site : EccSite) (n : Nat) (b : Bool) (s : State), (site = .sharedRam n none ∨ site = .sharedRam n (some .host)) ∧ b = true) ∧
    (∃ (t : CoreId) (site : EccSite) (n : Nat) (b : Bool) (s : State), site = .sharedRam n (some (.core t)) ∧ b = true) ∧
    (∃ (site : EccSite) (n : Nat) (b : Bool) (s : State), site = .sharedRam n none ∧ b = false) ∧
    (∃ (t : CoreId) (site : EccSite) (x : SourceId) (b : Bool) (s : State), site = .vectorEntry t x ∧ b = true) ∧
    (∃ (l : LaneId) (site : EccSite) (b : Bool) (s : State), site = .loopEngine l ∧ b = true ∧ (s.lane l).conv.on = true) ∧
    (∃ (l : LaneId) (site : EccSite) (b : Bool) (s : State), site = .loopEngine l ∧ b = true ∧ (s.lane l).conv.on = false) ∧
    (∃ (l : LaneId) (site : EccSite) (b : Bool) (s : State), site = .pdTransmit l ∧ b = true ∧ (s.lane l).pd.queue ≠ [] ∧ (s.lane l).pd.arActive = true ∧ (s.lane l).pd.queue.all (fun m => !m.begun) = true) ∧
    (∃ (a : Agent) (u : CoreId) (s : State), a = .core u) ∧
    (∃ (a : Agent) (s : State), a = .host) := by
  exact ⟨⟨.core (2 : CoreId), 2, State.reset, by decide +kernel⟩,
    ⟨.host, (of [running]), by decide +kernel⟩,
    ⟨(of [run, fun s => { s with cores := s.cores.map fun (c : CoreState) => { c with beat := true } }]), by decide +kernel⟩,
    ⟨(of [fun s => s.modDev fun d => { d with state := .run, takeover := none }, fun s => { s with cores := s.cores.map fun (c : CoreState) => { c with beat := false, down := false, out := false, grace := false, waited := false, run := .running } }, fun s => s.modSup fun p => { p with ctrl := 0 }]), by decide +kernel⟩,
    ⟨(of [fun s => s.modDev fun d => { d with state := .halted }]), by decide +kernel⟩,
    ⟨coreOf (0 : GroupId), 0, (of [fun s => s.modDev fun d => { d with takeover := none }, fun s => s.modCore (coreOf (0 : GroupId) : CoreId) fun c => { c with run := .running }, fun s => s.modGroup (0 : GroupId) fun y => { y with spliced := false }]), by decide +kernel⟩,
    ⟨0, 0, State.reset, by decide +kernel⟩,
    ⟨coreOf (0 : GroupId), 0, (of [fun s => s.modCore (coreOf (0 : GroupId) : CoreId) fun c => { c with run := .running }, fun s => s.modGroup (0 : GroupId) fun y => { y with spliced := true }]), by decide +kernel⟩,
    ⟨coreOf (partnerOf (0 : GroupId)), 0, (of [fun s => s.modCore (coreOf (partnerOf (0 : GroupId)) : CoreId) fun c => { c with run := .running }, fun s => s.modGroup (0 : GroupId) fun y => { y with spliced := true, returning := true }, fun s => s.modSup fun p => { p with rewrites := [] }, fun s => { s with ics := s.ics.map fun (i : IcCore) => { i with held := false } }]), by decide +kernel⟩,
    ⟨coreOf (partnerOf (0 : GroupId)), 0, (of [fun s => s.modCore (coreOf (partnerOf (0 : GroupId)) : CoreId) fun c => { c with run := .running }, fun s => s.modGroup (0 : GroupId) fun y => { y with spliced := true, returning := true }, fun s => s.modSup fun p => { p with rewrites := [] }, fun s => { s with ics := s.ics.map fun (i : IcCore) => { i with held := true } }]), by decide +kernel⟩,
    ⟨0, (of [fun s => s.modGroup (0 : GroupId) fun y => { y with spliced := true, returning := true }, fun s => s.modSup fun p => { p with rewrites := [] }, fun s => { s with ics := s.ics.map fun (i : IcCore) => { i with held := false } }]), by decide +kernel⟩,
    ⟨0, (of [fun s => s.modGroup (0 : GroupId) fun y => { y with returning := false }]), by decide +kernel⟩,
    ⟨.host, 0, (of [running]), by decide +kernel⟩,
    ⟨.core (if (coreOf (0 : GroupId) : CoreId) = 4 then 5 else 4 : CoreId), coreOf (0 : GroupId), if (coreOf (0 : GroupId) : CoreId) = 4 then 5 else 4, 0, BitVec.ofNat 32 (2 ^ (coreOf (0 : GroupId) : CoreId).val), (of [run, fun s => s.modCore (coreOf (0 : GroupId) : CoreId) fun c => { c with down := true, out := false, grace := false }]), by decide +kernel⟩,
    ⟨(of [fun s => s.modDev fun d => { d with state := .run, trans := .none, takeover := none }, fun s => s.modCore 4 fun c => { c with out := true }, fun s => s.modCore 5 fun c => { c with out := true }]), by decide +kernel⟩,
    ⟨(of [fun s => s.modCore 4 fun c => { c with out := false, failed := false }]), by decide +kernel⟩,
    ⟨(of [fun s => goodImage s, fun s => s.modDev fun d => { d with takeover := some .run, trans := .none, state := .holdover }, fun s => s.modSup fun p => { p with attempt := 0 }]), by decide +kernel⟩,
    ⟨(of [fun s => s.modDev fun d => { d with takeover := none }]), by decide +kernel⟩,
    ⟨.run, (of [fun s => s.modDev fun d => { d with takeover := some (.run : DevState), trans := .none }, fun s => s.modSup fun p => { p with attempt := 1 }, fun s => { s with cores := s.cores.map fun (c : CoreState) => { c with grace := false, down := false }, groups := s.groups.map fun (g : Group) => { g with taken := true } }]), by decide +kernel⟩,
    ⟨(of [fun s => s.modDev fun d => { d with takeover := some .run, trans := .none, run := true, watch := false }, fun s => s.modSup fun p => { p with attempt := 1 }, fun s => { s with cores := s.cores.map fun (c : CoreState) => { c with grace := false, down := false }, groups := s.groups.map fun (g : Group) => { g with taken := true } }]), by decide +kernel⟩,
    ⟨.watch, (of [fun s => s.modDev fun d => { d with takeover := some (.watch : DevState), trans := .none, run := decide ((.watch : DevState) = .watch), watch := decide ((.watch : DevState) = .watch), check := none }, fun s => s.modSup fun p => { p with attempt := 1 }, fun s => { s with cores := s.cores.map fun (c : CoreState) => { c with grace := false, down := false }, groups := s.groups.map fun (g : Group) => { g with taken := true } }]), by decide +kernel⟩,
    ⟨(of [fun s => s.modDev fun d => { d with takeover := none }]), by decide +kernel⟩,
    ⟨(of [fun s => { s with image := { s.image with store := [] } }, fun s => s.modDev fun d => { d with takeover := some .run, trans := .none, state := .holdover }, fun s => s.modSup fun p => { p with attempt := 2 }]), by decide +kernel⟩,
    ⟨(of [fun s => goodImage s, fun s => s.modDev fun d => { d with takeover := some .run, trans := .none, state := .holdover }, fun s => s.modSup fun p => { p with attempt := 1, fails := [] }]), by decide +kernel⟩,
    ⟨(of [fun s => s.modDev fun d => { d with takeover := none }]), by decide +kernel⟩,
    ⟨0, (of [fun s => s.modGroup (0 : GroupId) fun y => { y with orphan := true }]), by decide +kernel⟩,
    ⟨0, (of [fun s => s.modGroup (0 : GroupId) fun y => { y with orphan := false }]), by decide +kernel⟩,
    ⟨.core 4, 0, (of [running, allPorts, fun s => s.modFw (0 : LaneId) fun f => { f with protoLast := true }, fun s => s.modCc (0 : LaneId) fun c => { c with st := .disabled }]), by decide +kernel⟩,
    ⟨0, 0, .pdTransmit (0 : LaneId), 0, 0, false, State.reset, by decide +kernel⟩,
    ⟨0, .decodeTable (0 : CoreId) (0 : Nat), 0, true, State.reset, by decide +kernel⟩,
    ⟨.swathMap (0 : Nat), 0, true, State.reset, by decide +kernel⟩,
    ⟨0, .coreMemory (0 : CoreId) (0x1234 : Nat) (true : Bool), 0x1234, true, State.reset, by decide +kernel⟩,
    ⟨0, .coreMemory (0 : CoreId) (0x1234 : Nat) true, 0x1234, false, State.reset, by decide +kernel⟩,
    ⟨.sharedRam (0 : Nat) none, 0, true, State.reset, by decide +kernel⟩,
    ⟨0, .sharedRam (0 : Nat) (some (.core (0 : CoreId))), 0, true, State.reset, by decide +kernel⟩,
    ⟨.sharedRam (0 : Nat) none, 0, false, State.reset, by decide +kernel⟩,
    ⟨0, .vectorEntry (0 : CoreId) (0 : SourceId), 0, true, State.reset, by decide +kernel⟩,
    ⟨0, .loopEngine (0 : LaneId), true, (of [fun s => s.modConv (0 : LaneId) fun c => { c with on := true }]), by decide +kernel⟩,
    ⟨0, .loopEngine (0 : LaneId), true, (of [fun s => s.modConv (0 : LaneId) fun c => { c with on := false }]), by decide +kernel⟩,
    ⟨0, .pdTransmit (0 : LaneId), true, (of [fun s => s.modPd (0 : LaneId) fun p => { p with arActive := true, queue := [{ tag := 3, sop := .sop, data := [0x000010A1, 7] }] }]), by decide +kernel⟩,
    ⟨.core (0 : CoreId), 0, State.reset, by decide +kernel⟩,
    ⟨.host, State.reset, by decide +kernel⟩⟩

theorem meets_TetherStack :
    (∃ (p : Port) (s : State), s.solo = false ∧ (match p with | .tu => (s.tether).tuUp | .td => (s.tether).tdUp : Bool) = false) ∧
    (∃ (p : Port) (s : State), s.solo = false ∧ (match p with | .tu => (s.tether).tuUp | .td => (s.tether).tdUp : Bool) = true) ∧
    (∃ (p : Port) (s : State), ((match p with | .tu => (s.tether).tuUp | .td => (s.tether).tdUp : Bool) = false ∨ s.solo = true)) ∧
    (∃ (s : State), (s.tether).tuUp = false ∧ s.solo = false ∧ (s.tether).pos = none ∧ (s.tether).posErr = false) ∧
    (∃ (s : State), (s.tether).hitch = true ∧ s.live = true ∧ s.solo = false) ∧
    (∃ (s : State), ((s.tether).hitch = false ∨ s.solo = true)) ∧
    (∃ (f : DownFrame) (s : State), (s.solo = true ∨ s.dev.state = .watch ∨ ((s.tether).hitch = true ∧ (f.crcOk = false ∨ (s.tether).hitchPos ≤ f.hitchPos)))) ∧
    (∃ (f : DownFrame) (s : State), s.solo = false ∧ s.dev.state = .run ∧ ((s.tether).hitch = false ∨ f.hitchPos < (s.tether).hitchPos) ∧ f.crcOk = true ∧ f.resValid = true ∧ f.hold = false ∧ (s.tether).excluded = false ∧ versionsApart f.version.toNat (ownVersion s) = false ∧ f.pose = none ∧ f.records = []) ∧
    (∃ (f : DownFrame) (s : State), s.solo = false ∧ s.dev.state = .holdover ∧ (s.tether).hitch = true ∧ f.hitchPos < (s.tether).hitchPos ∧ f.crcOk = true ∧ f.pose = none ∧ f.records = []) ∧
    (∃ (w : UpFrame) (q : Fin 8) (s : State), s.solo = false ∧ s.dev.state ≠ .watch ∧ (s.tether).hitch = false ∧ (s.tether).pos = some q ∧ w.records = []) ∧
    (∃ (w : UpFrame) (s : State), s.solo = false ∧ s.dev.state ≠ .watch ∧ (s.tether).hitch = true ∧ w.crcOk = true ∧ w.records = []) ∧
    (∃ (p : Port) (ms : MarkerStamp) (t1 : Nat) (t4 : Nat) (s : State), ms = .returned t1 t4 ∧ ((s.tether).hitch = true ∨ p ≠ (s.tether).facing) ∧ s.solo = false ∧ s.dev.state ≠ .watch) ∧
    (∃ (p : Port) (ms : MarkerStamp) (t1 : Nat) (s : State), ms = .arrived t1 ∧ (s.tether).hitch = false ∧ p = (s.tether).facing ∧ s.solo = false ∧ s.dev.state ≠ .watch) ∧
    (∃ (s : State), (s.solo = true ∨ s.dev.state = .watch)) ∧
    (∃ (s : State), s.dev.state = .watch ∧ s.solo = false) ∧
    (∃ (s : State), (s.dev.state ≠ .watch ∨ s.solo = true)) ∧
    (∃ (s : State), s.live = true ∧ (s.tether).hitch = false ∧ s.solo = false ∧ (s.tether).pos.isSome = true) ∧
    (∃ (s : State), ((s.tether).hitch = true ∨ s.solo = true ∨ (s.tether).pos = none)) ∧
    (∃ (a : Agent) (s : State), hostServed s a = true ∧ s.locked = false) ∧
    (∃ (a : Agent) (s : State), hostServed s a = true ∧ s.locked = true) ∧
    (∃ (a : Agent) (s : State), hostServed s a = true ∧ mbxServed s = true ∧ s.mbx.busy = false ∧ s.dev.state = .run ∧ (s.tether).pos ≠ some ⟨fld (vecAt s.mbx.arg 0) 2 0, by unfold fld; omega⟩ ∧ tunnelKnown s ⟨fld (vecAt s.mbx.arg 0) 2 0, by unfold fld; omega⟩ = some false) ∧
    (∃ (a : Agent) (j : Fin 8) (s : State), hostServed s a = true ∧ mbxServed s = true ∧ s.mbx.busy = false ∧ s.dev.state = .run ∧ fld (vecAt s.mbx.arg 0) 2 0 = j.val ∧ (s.tether).pos ≠ some j ∧ tunnelKnown s j = some true) ∧
    (∃ (a : Agent) (j : Fin 8) (s : State), hostServed s a = true ∧ mbxServed s = true ∧ s.mbx.busy = false ∧ s.dev.state = .run ∧ fld (vecAt s.mbx.arg 0) 2 0 = j.val ∧ (s.tether).pos = some j ∧ hspiOn s = true ∧ (hspiHeader (memBytes s.mem mbxBuf 8)).crcOk = true ∧ (hspiHeader (memBytes s.mem mbxBuf 8)).cmd = 3 ∧ (hspiHeader (memBytes s.mem mbxBuf 8)).addr = 0 ∧ (hspiHeader (memBytes s.mem mbxBuf 8)).len = 1) ∧
    (∃ (a : Agent) (s : State), hostServed s a = true ∧ s.mbx.busy = false ∧ s.dev.state = .loader) := by
  exact ⟨⟨.tu, (of [fun s => s.modTether fun t => { t with ctrl := 0 }, fun s => s.modTether fun t => { t with tuUp := false, tdUp := false, pos := none, posErr := false }]), by decide +kernel⟩,
    ⟨.tu, (of [fun s => s.modTether fun t => { t with ctrl := 0 }, fun s => s.modTether fun t => { t with tuUp := true, tdUp := true }]), by decide +kernel⟩,
    ⟨.tu, (of [fun s => s.modTether fun t => { t with tuUp := false, tdUp := false }]), by decide +kernel⟩,
    ⟨(of [fun s => s.modTether fun t => { t with ctrl := 0 }, fun s => s.modTether fun t => { t with tuUp := false, pos := none, posErr := false }]), by decide +kernel⟩,
    ⟨(of [fun s => s.modTether fun t => { t with ctrl := 0 }, run, fun s => s.modTether fun t => { t with hitch := true }]), by decide +kernel⟩,
    ⟨(of [fun s => s.modTether fun t => { t with hitch := false }]), by decide +kernel⟩,
    ⟨{ }, (of [fun s => s.modTether fun t => { t with hitch := true, hitchPos := 0 }]), by decide +kernel⟩,
    ⟨{ crcOk := true, resValid := true, hitchPos := 0, n := 2, version := BitVec.ofNat 8 (ownVersion State.reset), results := List.replicate 256 (77, 0) }, (of [fun s => s.modTether fun t => { t with ctrl := 0 }, run, fun s => s.modTether fun t => { t with hitch := false, excluded := false }]), by decide +kernel⟩,
    ⟨{ crcOk := true, resValid := true, hitchPos := 0, n := 2, version := 1, results := List.replicate 256 (77, 0) }, (of [fun s => s.modTether fun t => { t with ctrl := 0 }, fun s => s.modDev fun d => { d with state := .holdover }, fun s => s.modTether fun t => { t with hitch := true, hitchPos := 3 }]), by decide +kernel⟩,
    ⟨{ crcOk := true }, 0, (of [fun s => s.modTether fun t => { t with ctrl := 0 }, run, fun s => s.modTether fun t => { t with hitch := false, pos := some (0 : Fin 8) }]), by decide +kernel⟩,
    ⟨{ crcOk := true, slots := [{ pos := 3 }] }, (of [fun s => s.modTether fun t => { t with ctrl := 0 }, run, fun s => s.modTether fun t => { t with hitch := true }]), by decide +kernel⟩,
    ⟨.tu, .returned (0 : Nat) (0 : Nat), 0, 0, (of [fun s => s.modTether fun t => { t with ctrl := 0 }, run, fun s => s.modTether fun t => { t with hitch := true }]), by decide +kernel⟩,
    ⟨State.reset.tether.facing, .arrived (0 : Nat), 0, (of [fun s => s.modTether fun t => { t with ctrl := 0 }, run, fun s => s.modTether fun t => { t with hitch := false }]), by decide +kernel⟩,
    ⟨(of [fun s => s.modDev fun d => { d with state := .watch }]), by decide +kernel⟩,
    ⟨(of [fun s => s.modTether fun t => { t with ctrl := 0 }, fun s => s.modDev fun d => { d with state := .watch }]), by decide +kernel⟩,
    ⟨(of [run]), by decide +kernel⟩,
    ⟨(of [fun s => s.modTether fun t => { t with ctrl := 0 }, run, fun s => s.modTether fun t => { t with hitch := false, pos := some 2 }]), by decide +kernel⟩,
    ⟨(of [fun s => s.modTether fun t => { t with hitch := true }]), by decide +kernel⟩,
    ⟨.core 4, (of [fun s => s.modDev fun d => { d with state := .ready, run := false, check := none }]), by decide +kernel⟩,
    ⟨.core 4, (of [fun s => s.modDev fun d => { d with state := .run, run := true }]), by decide +kernel⟩,
    ⟨.core 4, (of [run, fun s => s.modMbx fun m => { m with busy := false }, fun s => s.modTether fun t => { t with pos := none }, imaged]), by decide +kernel⟩,
    ⟨.core 4, 3, (of [run, fun s => s.modMbx fun m => { m with busy := false, arg := Vector.replicate 4 (BitVec.ofNat 32 (3 : Fin 8).val) }, fun s => s.modTether fun t => { t with pos := some ((3 : Fin 8) + 1), n := 7, hitch := false, hitchPos := (3 : Fin 8) }, imaged]), by decide +kernel⟩,
    ⟨.core 4, 3, (of [fun s => s.modDev fun d => { d with state := .run, vsysOk := true, vioOk := true, resetLow := false }, fun s => s.modMbx fun m => { m with busy := false, arg := Vector.replicate 4 (BitVec.ofNat 32 (3 : Fin 8).val) }, fun s => s.modTether fun t => { t with pos := some (3 : Fin 8) }, imaged, fun s => { s with mem := memWriteList s.mem mbxBuf [3, 0, 0, 0, 0, 0, 1, 97] }]), by decide +kernel⟩,
    ⟨.core 4, (of [fun s => s.modDev fun d => { d with state := .loader }, fun s => s.modMbx fun m => { m with busy := false }]), by decide +kernel⟩⟩

theorem meets_HostPort :
    (∃ (s : State), hspiOn s = false) ∧
    (∃ (bs : List Byte) (s : State), hspiOn s = true ∧ bs.length < 8) ∧
    (∃ (bs : List Byte) (s : State), hspiOn s = true ∧ 8 ≤ bs.length ∧ (hspiHeader bs).crcOk = false) ∧
    (∃ (bs : List Byte) (s : State), hspiOn s = true ∧ 8 ≤ bs.length ∧ (hspiHeader bs).crcOk = true ∧ (hspiHeader bs).cmd = 2 ∧ (hspiHeader bs).addr = 0xFFFC ∧ 12 + 4 * (hspiHeader bs).len ≤ bs.length ∧ (hspiHeader bs).len = 2) ∧
    (∃ (bs : List Byte) (s : State), hspiOn s = true ∧ 12 + 4 * (hspiHeader bs).len ≤ bs.length ∧ (hspiHeader bs).len = 1 ∧ (hspiHeader bs).cmd = 2 ∧ hspiTest s (hspiHeader bs) = 0 ∧ payloadWord bs 1 = crc32 ((bs.drop 8).take 4)) ∧
    (∃ (bs : List Byte) (k : Option ReadCut) (s : State), hspiOn s = true ∧ 8 ≤ bs.length ∧ (hspiHeader bs).crcOk = true ∧ (hspiHeader bs).cmd = 3 ∧ (hspiHeader bs).addr = 0 ∧ (hspiHeader bs).len = 1 ∧ k = none) ∧
    (∃ (bs : List Byte) (s : State), hspiOn s = true ∧ 8 ≤ bs.length ∧ (hspiHeader bs).crcOk = true ∧ (hspiHeader bs).cmd = 3 ∧ (hspiHeader bs).addr = 0x40000 ∧ (hspiHeader bs).len = 1) ∧
    (∃ (bs : List Byte) (k : Option ReadCut) (s : State), hspiOn s = true ∧ 8 ≤ bs.length ∧ (hspiHeader bs).cmd = 3 ∧ hspiTest s (hspiHeader bs) = 0 ∧ k = some .turnaround) ∧
    (∃ (a : Agent) (s : State), hostServed s a = true) ∧
    (∃ (a : Agent) (n : Nat) (s : State), hostServed s a = true ∧ (n % 4 ≠ 0 ∨ (0x40000 ≤ n ∧ n < 0x100000) ∨ 0x980000 ≤ n)) ∧
    (∃ (a : Agent) (n : Nat) (s : State), hostServed s a = true ∧ n % 4 = 0 ∧ 0x104000 ≤ n ∧ n < 0x2C0000) ∧
    (∃ (a : Agent) (l : LaneId) (n : Nat) (s : State), hostServed s a = true ∧ n = 0x20010 + 0x1000 * l.val ∧ s.locked = false ∧ s.fusedOff l = false) ∧
    (∃ (a : Agent) (l : LaneId) (n : Nat) (s : State), hostServed s a = true ∧ n = 0x20010 + 0x1000 * l.val ∧ (s.locked = true ∨ s.fusedOff l = true)) ∧
    (∃ (a : Agent) (s : State), hostReads s a = true) ∧
    (∃ (a : Agent) (l : LaneId) (s : State), hostReads s a = true ∧ s.fusedOff l = false) ∧
    (∃ (a : Agent) (s : State), hostReads s a = true) ∧
    (∃ (a : Agent) (s : State), hostReads s a = true) ∧
    (∃ (a : Agent) (s : State), hostServed s a = true) := by
  exact ⟨⟨(of [fun s => s.modDev fun d => { d with resetLow := true }]), by decide +kernel⟩,
    ⟨[2, 0, 0], (of [fun s => s.modDev fun d => { d with vsysOk := true, vioOk := true, resetLow := false, state := .run }]), by decide +kernel⟩,
    ⟨[2, 0, 16, 0, 0, 0, 1, 0, 0], (of [fun s => s.modDev fun d => { d with vsysOk := true, vioOk := true, resetLow := false, state := .run }]), by decide +kernel⟩,
    ⟨[2, 0, 0, 255, 252, 0, 2, 240, 5, 0, 0, 0, 46, 47, 154, 22, 0, 0, 0, 0], (of [fun s => s.modDev fun d => { d with vsysOk := true, vioOk := true, resetLow := false, state := .run }]), by decide +kernel⟩,
    ⟨[2, 0, 17, 0, 0, 0, 1, 238, 239, 190, 173, 222, 31, 96, 90, 26], (of [fun s => s.modDev fun d => { d with vsysOk := true, vioOk := true, resetLow := false, state := .run }, fun s => s.modMbx fun m => { m with busy := false }]), by decide +kernel⟩,
    ⟨[3, 0, 0, 0, 0, 0, 1, 97], none, (of [fun s => s.modDev fun d => { d with vsysOk := true, vioOk := true, resetLow := false, state := .run }]), by decide +kernel⟩,
    ⟨[3, 0, 4, 0, 0, 0, 1, 238], (of [fun s => s.modDev fun d => { d with vsysOk := true, vioOk := true, resetLow := false, state := .run }]), by decide +kernel⟩,
    ⟨[3, 0, 0, 0, 32, 0, 2, 43], some .turnaround, (of [fun s => s.modDev fun d => { d with vsysOk := true, vioOk := true, resetLow := false, state := .run }, run]), by decide +kernel⟩,
    ⟨.core 4, (of [running]), by decide +kernel⟩,
    ⟨.core 4, 0x50000, (of [running]), by decide +kernel⟩,
    ⟨.core 4, 0x110004, (of [running]), by decide +kernel⟩,
    ⟨.core 4, 0, 0x20010 + 0x1000 * (0 : LaneId).val, (of [running, allPorts, fun s => s.modDev fun d => { d with run := false, check := none, state := .ready }]), by decide +kernel⟩,
    ⟨.core 4, 0, 0x20010 + 0x1000 * (0 : LaneId).val, (of [running, fun s => s.modDev fun d => { d with run := true }]), by decide +kernel⟩,
    ⟨.core 4, (of [running]), by decide +kernel⟩,
    ⟨.core 4, 0, (of [running, allPorts]), by decide +kernel⟩,
    ⟨.core 4, (of [running]), by decide +kernel⟩,
    ⟨.core 4, (of [running]), by decide +kernel⟩,
    ⟨.core 4, (of [running]), by decide +kernel⟩⟩

theorem meets_CommandsAndSecurity :
    (∃ (a : Agent) (s : State), hostServed s a = true ∧ mbxServed s = true ∧ s.mbx.busy = false ∧ s.dev.state = .ready) ∧
    (∃ (a : Agent) (s : State), hostServed s a = true ∧ mbxServed s = true ∧ s.mbx.busy = false ∧ (s.dev.state = .run ∨ s.dev.state = .loader)) ∧
    (∃ (a : Agent) (s : State), hostServed s a = true ∧ s.mbx.busy = false ∧ s.dev.state = .holdover) ∧
    (∃ (a : Agent) (s : State), hostServed s a = true ∧ mbxServed s = true ∧ s.mbx.busy = false ∧ s.dev.state = .ready ∧ s.image.activating = false ∧ s.mbx.arg[0] = 0 ∧ s.mbx.arg[1].toNat < 512) ∧
    (∃ (a : Agent) (s : State), hostServed s a = true ∧ s.image.activating = true ∧ s.mbx.busy = true ∧ s.mbx.code = 0x11) ∧
    (∃ (a : Agent) (s : State), hostServed s a = true ∧ mbxServed s = true ∧ s.mbx.busy = false ∧ s.dev.state = .ready ∧ s.image.activating = false ∧ s.image.writing = true ∧ (s.mbx.arg[0].toNat) = s.image.accepted ∧ 512 ≤ (s.mbx.arg[0].toNat) ∧ (s.mbx.arg[1].toNat) % 16 = 0 ∧ (s.mbx.arg[1].toNat) ≤ 16384 ∧ (s.mbx.arg[0].toNat) + (s.mbx.arg[1].toNat) < 512 + imgLength (storeBytes s)) ∧
    (∃ (a : Agent) (s : State), hostServed s a = true ∧ mbxServed s = true ∧ s.mbx.busy = false ∧ s.dev.state = .ready ∧ s.image.activating = false ∧ (s.mbx.arg[0].toNat) = 0 ∧ 512 ≤ (s.mbx.arg[1].toNat) ∧ (s.mbx.arg[1].toNat) ≤ 16384 ∧ (s.mbx.arg[1].toNat) < 512 + imgLength (chunkBytes s) ∧ headerRefusal s (chunkBytes s) true = none) ∧
    (∃ (a : Agent) (s : State), hostServed s a = true ∧ mbxServed s = true ∧ s.mbx.busy = false ∧ s.dev.state = .ready ∧ s.image.activating = false ∧ (s.mbx.arg[0].toNat) = 0 ∧ 512 ≤ (s.mbx.arg[1].toNat) ∧ (s.mbx.arg[1].toNat) ≤ 16384 ∧ (s.mbx.arg[1].toNat) ≤ 512 + imgLength (chunkBytes s) ∧ headerRefusal s (chunkBytes s) true ≠ none ∧ headerRefusal s (chunkBytes s) true ≠ some 0x63) ∧
    (∃ (a : Agent) (s : State), hostServed s a = true ∧ mbxServed s = true ∧ s.mbx.busy = false ∧ s.dev.state = .ready ∧ s.image.activating = false ∧ s.image.writing = true ∧ (s.mbx.arg[0].toNat) = s.image.accepted ∧ 512 ≤ (s.mbx.arg[0].toNat) ∧ (s.mbx.arg[1].toNat) % 16 = 0 ∧ (s.mbx.arg[1].toNat) ≤ 16384 ∧ (s.mbx.arg[0].toNat) + (s.mbx.arg[1].toNat) = 512 + imgLength (storeBytes s) ∧ s.image.authFails = []) ∧
    (∃ (a : Agent) (s : State), hostServed s a = true ∧ mbxServed s = true ∧ s.mbx.busy = false ∧ s.dev.state = .ready ∧ s.image.writing = false ∧ s.image.activating = false ∧ (s.image.storeOk = false ∨ s.image.actPend = false)) ∧
    (∃ (a : Agent) (s : State), hostServed s a = true ∧ mbxServed s = true ∧ s.mbx.busy = false ∧ s.dev.state = .ready ∧ s.image.activating = false ∧ activateRefusal s = none) ∧
    (∃ (b : Bool) (u : CoreId) (s : State), s.image.activating = true ∧ afterCore s.image.actCore = some u ∧ b = true) ∧
    (∃ (b : Bool) (s : State), s.image.activating = true ∧ s.image.actCore = 4 ∧ b = true) ∧
    (∃ (s : State), s.image.activating = false) ∧
    (∃ (a : Agent) (s : State), hostServed s a = true ∧ mbxServed s = true ∧ s.mbx.busy = false ∧ s.dev.state = .ready ∧ s.mbx.arg[1] = 0) ∧
    (∃ (a : Agent) (i : Fin 512) (s : State), hostServed s a = true ∧ mbxServed s = true ∧ s.mbx.busy = false ∧ s.dev.state = .ready ∧ s.mbx.arg[0].toNat = i.val ∧ s.mbx.arg[1] = 1 ∧ s.mbx.arg[2] = 0) ∧
    (∃ (a : Agent) (i : Fin 512) (s : State), hostServed s a = true ∧ mbxServed s = true ∧ s.mbx.busy = false ∧ s.dev.state = .ready ∧ s.mbx.arg[0].toNat = i.val ∧ s.mbx.arg[1] = 1 ∧ s.mbx.arg[2] = 0 ∧ i.val ≠ 224 ∧ (i.val < 128 ∨ 137 < i.val) ∧ i.val % 32 ≠ 31 ∧ blockLocked s.sec i.val = false ∧ s.sec.wordState i.val = 0 ∧ bufWord s 0 ≠ 0) ∧
    (∃ (a : Agent) (s : State), hostServed s a = true ∧ mbxServed s = true ∧ s.mbx.busy = false ∧ s.dev.state = .run ∧ (∀ j, fuseState (s.sec.fuses.get j) ≠ 3 ∧ fuseState (s.sec.fuses.get j) ≠ 2)) ∧
    (∃ (a : Agent) (s : State), hostServed s a = true) ∧
    (∃ (a : Agent) (v : Word) (s : State), hostServed s a = true ∧ dbgMode s.sec ≠ 0 ∧ dbgPasses (s.modSec fun x => { x with dbgPass := x.dbgPass.set 7 v } : State) = false ∧ s.dev.resetLow = false ∧ s.dev.vsysOk = true ∧ samplePolicy s = 0) ∧
    (∃ (a : Agent) (v : Word) (s : State), hostServed s a = true ∧ dbgMode s.sec = 1 ∧ (s.sec.dbgLast.all fun z => decide (z + 100000000 ≤ s.dev.dtime)) = true ∧ fieldState s.sec 208 8 = .present ∧ digestWords (Config.sha256 (wordBytes (s.modSec fun x => { x with dbgPass := x.dbgPass.set 7 v } : State).sec.dbgPass.toList)) = fieldWords s.sec 208 8) ∧
    (∃ (a : Agent) (v : Word) (s : State), hostServed s a = true ∧ dbgMode s.sec = 1 ∧ fieldState s.sec 208 8 = .present ∧ (digestWords (Config.sha256 (wordBytes (s.modSec fun x => { x with dbgPass := x.dbgPass.set 7 v } : State).sec.dbgPass.toList)) ≠ fieldWords s.sec 208 8 ∨ s.sec.dbgLast = some s.dev.dtime) ∧ s.dev.resetLow = false ∧ s.dev.vsysOk = true ∧ samplePolicy s = 0) ∧
    (∃ (a : Agent) (s : State), hostServed s a = true ∧ dbgMode s.sec = 0) ∧
    (∃ (a : Agent) (s : State), hostServed s a = true) ∧
    (∃ (a : Agent) (s : State), hostServed s a = true) ∧
    (∃ (a : Agent) (s : State), hostServed s a = true ∧ s.locked = false) ∧
    (∃ (a : Agent) (s : State), hostServed s a = true ∧ s.locked = true) := by
  exact ⟨⟨.core 4, (of [fun s => s.modDev fun d => { d with state := .ready }, imaged, fun s => s.modMbx fun m => { m with busy := false }]), by decide +kernel⟩,
    ⟨.core 4, (of [run, imaged, fun s => s.modMbx fun m => { m with busy := false }]), by decide +kernel⟩,
    ⟨.core 4, (of [fun s => s.modDev fun d => { d with state := .holdover }, imaged, fun s => s.modMbx fun m => { m with busy := false }]), by decide +kernel⟩,
    ⟨.core 4, (of [fun s => s.modDev fun d => { d with state := .ready }, imaged, fun s => s.modMbx fun m => { m with busy := false, arg := Vector.replicate 4 0 }, fun s => s.modImage fun x => { x with activating := false }]), by decide +kernel⟩,
    ⟨.core 4, (of [run, fun s => s.modMbx fun m => { m with busy := true, code := 0x11 }, fun s => s.modImage fun x => { x with activating := true }]), by decide +kernel⟩,
    ⟨.core 4, (of [fun s => s.modDev fun d => { d with state := .ready }, imaged, fun s => s.modMbx fun m => { m with busy := false, arg := (Vector.replicate 4 0).set 0 (BitVec.ofNat 32 s.image.accepted) |>.set 1 64 }, fun s => s.modImage fun x => { x with activating := false, writing := true, accepted := 640, store := memWriteList [] 28 [0xFF, 0xF0, 255, 255] }, fun s => s.modMbx fun m => { m with arg := ((Vector.replicate 4 0).set 0 640).set 1 64 }, fun s => { s with mem := memWrite32 s.mem 0x100004 0xABCD }]), by decide +kernel⟩,
    ⟨.core 4, chunkSet, by decide +kernel, by decide +kernel, by decide +kernel, by decide +kernel, by decide +kernel, by decide +kernel, by decide +kernel, by decide +kernel, by decide +kernel, chunkSet_passes⟩,
    ⟨.core 4, (of [fun s => s.modDev fun d => { d with state := .ready }, imaged, fun s => s.modMbx fun m => { m with busy := false, arg := (Vector.replicate 4 0).set 1 512 }, fun s => s.modImage fun x => { x with activating := false }, fun s => goodImage s, fun s => { s with mem := memWriteList s.mem mbxBuf ([0x55, 0x42, 0x58, 0x4D, 1, 0, 0, 0, 1] ++ List.replicate 19 0 ++ [16] ++ List.replicate 479 0 ++ List.replicate 4 255) }, fun s => { s with mem := memWriteList s.mem mbxBuf [0x54] }]), by decide +kernel⟩,
    ⟨.core 4, (of [fun s => s.modDev fun d => { d with state := .ready }, imaged, fun s => s.modImage fun x => { x with activating := false, writing := true, accepted := 512, authFails := [], store := memWriteList [] 28 [0xEF, 255, 255, 255] }, fun s => s.modMbx fun m => { m with busy := false, arg := ((Vector.replicate 4 0).set 0 512).set 1 16 }]), by decide +kernel⟩,
    ⟨.core 4, (of [fun s => s.modDev fun d => { d with state := .ready }, imaged, fun s => s.modMbx fun m => { m with busy := false }, fun s => s.modImage fun x => { x with writing := false, activating := false, actPend := false }]), by decide +kernel⟩,
    ⟨.core 4, (of [fun s => s.modDev fun d => { d with state := .ready }, imaged, fun s => s.modMbx fun m => { m with busy := false }, fun s => s.modImage fun x => { x with writing := false, activating := false, actPend := true, storeOk := true, storeAbi := 0, runAbi := 0 }, fun s => s.modTether fun t => { t with n := 1 }]), by decide +kernel⟩,
    ⟨true, 4, (of [fun s => s.modImage fun x => { x with activating := true, actCore := (if (4 : CoreId) = 4 then 5 else if (4 : CoreId) = 5 then 3 else (4 : CoreId) - 1) }]), by decide +kernel⟩,
    ⟨true, (of [fun s => s.modImage fun x => { x with activating := true, actCore := 4 }, fun s => s.modMbx fun m => { m with busy := true }]), by decide +kernel⟩,
    ⟨(of [fun s => s.modImage fun x => { x with activating := false }]), by decide +kernel⟩,
    ⟨.core 4, (of [fun s => s.modDev fun d => { d with state := .ready }, imaged, fun s => s.modMbx fun m => { m with busy := false, arg := Vector.replicate 4 0 }]), by decide +kernel⟩,
    ⟨.core 4, 300, (of [fun s => s.modDev fun d => { d with state := .ready }, imaged, fun s => s.modMbx fun m => { m with busy := false, arg := ((Vector.replicate 4 0).set 0 (BitVec.ofNat 32 (300 : Fin 512).val)).set 1 1 }]), by decide +kernel⟩,
    ⟨.core 4, 300, (of [fun s => s.modDev fun d => { d with state := .ready }, imaged, fun s => s.modMbx fun m => { m with busy := false, arg := ((Vector.replicate 4 0).set 0 (BitVec.ofNat 32 (300 : Fin 512).val)).set 1 1 }, fun s => s.modSec fun x => { x with wstat := Vector.replicate 512 0 }, fun s => { s with mem := memWrite32 s.mem 0x100000 0xABCD }]), by decide +kernel⟩,
    ⟨.core 4, (of [run, imaged, fun s => s.modMbx fun m => { m with busy := false }, fun s => s.modSec fun x => { x with fuses := Vector.replicate 512 0 }]), by decide +kernel, by decide +kernel, by decide +kernel, by decide +kernel, no_fuse_bad⟩,
    ⟨.core 4, (of [running]), by decide +kernel⟩,
    ⟨.core 4, 0, (of [running, fun s => s.modSec fun x => { x with policy := 0, alarmCut := none, wstat := Vector.replicate 512 1, shadow := Vector.replicate 512 2 }, fun s => s.modDev fun d => { d with resetLow := false, vsysOk := true }]), by decide +kernel⟩,
    ⟨.core 4, 5, passSet (of [running]), by decide +kernel, passSet_mode _, by decide +kernel, field_present (passSet_wstat _) (by decide +kernel), passSet_match _⟩,
    ⟨.core 4, 6, (of [running, fun s => s.modSec fun x => { x with wstat := Vector.replicate 512 1, shadow := Vector.replicate 512 1, dbgLast := some s.dev.dtime }]), by decide +kernel, by decide +kernel, by decide +kernel, Or.inr rfl, by decide +kernel, by decide +kernel, by decide +kernel⟩,
    ⟨.core 4, (of [running, fun s => s.modSec fun x => { x with shadow := Vector.replicate 512 0, wstat := Vector.replicate 512 0 }]), by decide +kernel⟩,
    ⟨.core 4, (of [running]), by decide +kernel⟩,
    ⟨.core 4, (of [running]), by decide +kernel⟩,
    ⟨.core 4, (of [running, fun s => s.modDev fun d => { d with run := false, check := none }]), by decide +kernel⟩,
    ⟨.core 4, (of [running, fun s => s.modDev fun d => { d with run := true }]), by decide +kernel⟩⟩

end Sys2Proof.Tests
end

/-! SUPPORT. The check of a lane and of the device (R392–R394): what DEV_CHECK shows of it, which codes the conditions of R211, R339 and R375 give, and what a lane that leaves service keeps. -/

namespace Sys2Proof.Machine

/-! ### Fields of a packed word -/

@[simp] theorem fld_zero (hi lo : Nat) : fld 0 hi lo = 0 := by simp [fld]

theorem fld_or (a b : Word) (hi lo : Nat) : fld (a ||| b) hi lo = fld a hi lo ||| fld b hi lo := by
  simp only [fld, BitVec.toNat_or, Nat.or_div_two_pow, Nat.or_mod_two_pow]

/-- A value placed below a field does not reach it. -/
theorem fld_shifted_below {v sh hi lo : Nat} (h : v * 2 ^ sh < 2 ^ lo) : fld (BitVec.ofNat 32 (v * 2 ^ sh)) hi lo = 0 := by
  have hlt : v * 2 ^ sh % 2 ^ 32 < 2 ^ lo := (Nat.mod_le _ _).trans_lt h
  rw [fld, BitVec.toNat_ofNat, Nat.div_eq_of_lt hlt, Nat.zero_mod]

/-- A value placed above a field does not reach it. -/
theorem fld_shifted_above {v sh hi lo : Nat} (hlo : lo ≤ hi) (h : hi < sh) : fld (BitVec.ofNat 32 (v * 2 ^ sh)) hi lo = 0 := by
  refine Nat.eq_of_testBit_eq fun j => ?_
  rw [fld, BitVec.toNat_ofNat, Nat.testBit_mod_two_pow, Nat.testBit_div_two_pow, Nat.testBit_mod_two_pow, Nat.testBit_mul_two_pow, Nat.zero_testBit]
  by_cases hj : j < hi - lo + 1
  · have : ¬ sh ≤ j + lo := by omega
    simp [this]
  · simp [hj]

/-- A value that fits its field is what the field shows. -/
theorem fld_shifted_at {v hi lo : Nat} (hlo : lo ≤ hi) (hv : v < 2 ^ (hi - lo + 1)) (hw : hi < 32) :
    fld (BitVec.ofNat 32 (v * 2 ^ lo)) hi lo = v := by
  have hlt : v * 2 ^ lo < 2 ^ 32 := by
    calc v * 2 ^ lo < 2 ^ (hi - lo + 1) * 2 ^ lo := Nat.mul_lt_mul_of_pos_right hv (Nat.two_pow_pos lo)
      _ = 2 ^ (hi + 1) := by rw [← Nat.pow_add]; congr 1; omega
      _ ≤ 2 ^ 32 := Nat.pow_le_pow_right (by decide) (by omega)
  rw [fld, BitVec.toNat_ofNat, Nat.mod_eq_of_lt hlt, Nat.mul_div_cancel _ (Nat.two_pow_pos lo), Nat.mod_eq_of_lt hv]

@[simp] theorem bitOf_setFld_bit0 (w : Word) : bitOf (setFld w 0 0 0) 0 = false := by
  simp [bitOf, setFld, mergeMask, maskOf]

/-! ### DEV_CHECK -/

/-- DEV_CHECK names the first failure in its CODE field (R393). -/
theorem checkWord_code {src dry : Bool} {lane : Nat} {f : CheckFail} {fs : List CheckFail} (hc : f.code < 256) :
    fld (checkWord src dry lane (f :: fs)) 7 0 = f.code := by
  simp (disch := omega) only [checkWord, packFields, fld_or, fld_shifted_above, fld_shifted_at, fld_zero, Nat.zero_or, Nat.or_zero]

/-- DEV_CHECK names the lane of the first failure in its LANE field (R393). -/
theorem checkWord_lane {src dry : Bool} {lane : Nat} {f : CheckFail} {fs : List CheckFail} (hc : f.code < 256) (hi : f.item < 256)
    (hl : f.lane < 32) : fld (checkWord src dry lane (f :: fs)) 20 16 = f.lane := by
  simp (disch := omega) only [checkWord, packFields, fld_or, fld_shifted_above, fld_shifted_at, fld_shifted_below, fld_zero, Nat.zero_or,
    Nat.or_zero]

@[simp] theorem State.noteCheck_lane (s : State) (src dry : Bool) (lane : Nat) (fs : List CheckFail) (k : LaneId) :
    (s.noteCheck src dry lane fs).lane k = s.lane k := by
  unfold State.noteCheck; dsimp only; split <;> rfl

/-- Of the device's registers a check writes DEV_CHECK, and HOST_IRQ where it fails (R392). -/
theorem State.noteCheck_dev (s : State) (src dry : Bool) (lane : Nat) (fs : List CheckFail) :
    { (s.noteCheck src dry lane fs).dev with hostIrq := s.dev.hostIrq } = { s.dev with devCheck := checkWord src dry lane fs } := by
  unfold State.noteCheck; dsimp only; split <;> rfl

theorem State.noteCheck_devCheck (s : State) (src dry : Bool) (lane : Nat) (fs : List CheckFail) :
    (s.noteCheck src dry lane fs).dev.devCheck = checkWord src dry lane fs := (congrArg Dev.devCheck (s.noteCheck_dev ..) :)

/-! ### The codes of R211, R339 and R375 -/

@[simp] theorem not_mem_codesOf_nil (k : Nat) : k ∉ codesOf [] := List.not_mem_nil

@[simp] theorem mem_codesOf_cons {k j : Nat} {b : Bool} {xs : List (Nat × Bool)} :
    k ∈ codesOf ((j, b) :: xs) ↔ (k = j ∧ b = true) ∨ k ∈ codesOf xs := by
  cases b <;> simp [codesOf]

theorem codesOf_subset {xs : List (Nat × Bool)} : codesOf xs ⊆ xs.map Prod.fst :=
  List.map_subset _ List.filter_sublist.subset

/-- Code 0x35 stands for LANE_BUDGET out of bounds (R211). -/
theorem mem_cfgCodes_budget {c : LaneCfg} :
    0x35 ∈ cfgCodes c ↔ 240 < fld c.laneBudget 8 0 ∨ (fld c.laneBudget 20 12 ≠ 0 ∧ fld c.laneBudget 20 12 < fld c.laneBudget 8 0) := by
  simp [cfgCodes]

/-- Code 0x38 stands for a window or a threshold of 0 (R339). -/
theorem mem_cfgCodes_windows {c : LaneCfg} :
    0x38 ∈ cfgCodes c ↔ fld c.fwWindow0 31 16 = 0 ∨ fld c.fwWindow0 15 0 = 0 ∨ fld c.fwWindow1 15 0 = 0 ∨ fld c.fwThresh 11 8 = 0 ∨
      fld c.fwThresh 7 4 = 0 ∨ fld c.fwThresh 3 0 = 0 := by
  simp [cfgCodes, windowsWrong, or_assoc]

/-- Code 0x0B stands for a position that R375 refuses. -/
theorem mem_deviceCodes_tether {s : State} {watch dry : Bool} : 0x0B ∈ deviceCodes s watch dry ↔ tetherWrong s = true := by
  simp [deviceCodes]

/-- Code 0x71 stands for EXCLUDED (R375). -/
theorem mem_imageCodes_excluded {s : State} : 0x71 ∈ imageCodes s ↔ s.tether.excluded = true := by
  simp [imageCodes]

theorem tetherWrong_iff {s : State} : tetherWrong s = true ↔ s.tether.posErr = true ∨ s.tether.acq = false ∨
    (fld s.tether.ctrl 11 8 ≠ 0 ∧ fld s.tether.ctrl 11 8 ≠ s.tether.n.val) ∨
    (s.solo = false ∧ 1 < s.tether.n.val ∧ s.tether.timeLock = false) := by
  simp [tetherWrong, or_assoc, and_assoc]

theorem laneCodes_of_served {s : State} {l : LaneId} (h : s.fusedOff l = false) : laneCodes s l = cfgCodes (s.lane l).cfg := by
  simp [laneCodes, h]

/-- A code of a lane fits the CODE field of DEV_CHECK. -/
theorem cfgCodes_lt {c : LaneCfg} {k : Nat} (h : k ∈ cfgCodes c) : k < 256 := by
  have hk := codesOf_subset h
  refine of_decide_eq_true ((List.all_eq_true (p := fun k => decide (k < 256))).mp ?_ k hk)
  rfl

/-! ### What a lane that leaves service keeps -/

/-- s has the device registers of r but for HOST_IRQ and LOG_HEAD, and each lane's settings and its place in service. -/
structure KeepsSettings (r s : State) : Prop where
  dev : { s.dev with hostIrq := r.dev.hostIrq, logHead := r.dev.logHead } = r.dev
  cfg : ∀ k, (s.lane k).cfg = (r.lane k).cfg
  enabled : ∀ k, (s.lane k).enabled = (r.lane k).enabled

namespace KeepsSettings
variable {r s : State}

theorem refl (s : State) : KeepsSettings s s := ⟨rfl, fun _ => rfl, fun _ => rfl⟩

theorem devCheck (h : KeepsSettings r s) : s.dev.devCheck = r.dev.devCheck := (congrArg Dev.devCheck h.dev :)

theorem ite {c : Prop} [Decidable c] {a b : State} (ha : KeepsSettings r a) (hb : KeepsSettings r b) : KeepsSettings r (if c then a else b) := by
  split <;> assumption

theorem modLane (h : KeepsSettings r s) (l : LaneId) (f : Lane → Lane) (hc : ∀ x, (f x).cfg = x.cfg) (he : ∀ x, (f x).enabled = x.enabled) :
    KeepsSettings r (s.modLane l f) := by
  refine ⟨h.dev, fun k => ?_, fun k => ?_⟩ <;> by_cases hk : k = l
  · subst hk; rw [State.lane_modLane, hc, h.cfg]
  · rw [State.lane_modLane_ne _ _ hk, h.cfg]
  · subst hk; rw [State.lane_modLane, he, h.enabled]
  · rw [State.lane_modLane_ne _ _ hk, h.enabled]

theorem modCc (h : KeepsSettings r s) (l : LaneId) (f : CcLane → CcLane) : KeepsSettings r (s.modCc l f) := h.modLane l _ (fun _ => rfl) fun _ => rfl
theorem modPd (h : KeepsSettings r s) (l : LaneId) (f : PdLane → PdLane) : KeepsSettings r (s.modPd l f) := h.modLane l _ (fun _ => rfl) fun _ => rfl
theorem modCon (h : KeepsSettings r s) (l : LaneId) (f : ContractLane → ContractLane) : KeepsSettings r (s.modCon l f) :=
  h.modLane l _ (fun _ => rfl) fun _ => rfl
theorem modSwap (h : KeepsSettings r s) (l : LaneId) (f : SwapLane → SwapLane) : KeepsSettings r (s.modSwap l f) :=
  h.modLane l _ (fun _ => rfl) fun _ => rfl
theorem modBelay (h : KeepsSettings r s) (l : LaneId) (f : BelayLane → BelayLane) : KeepsSettings r (s.modBelay l f) :=
  h.modLane l _ (fun _ => rfl) fun _ => rfl
theorem modConv (h : KeepsSettings r s) (l : LaneId) (f : ConvLane → ConvLane) : KeepsSettings r (s.modConv l f) :=
  h.modLane l _ (fun _ => rfl) fun _ => rfl
theorem modBudget (h : KeepsSettings r s) (l : LaneId) (f : BudgetLane → BudgetLane) : KeepsSettings r (s.modBudget l f) :=
  h.modLane l _ (fun _ => rfl) fun _ => rfl
theorem modSect (h : KeepsSettings r s) (l : LaneId) (f : SectLane → SectLane) : KeepsSettings r (s.modSect l f) :=
  h.modLane l _ (fun _ => rfl) fun _ => rfl
theorem modFw (h : KeepsSettings r s) (l : LaneId) (f : FwLane → FwLane) : KeepsSettings r (s.modFw l f) := h.modLane l _ (fun _ => rfl) fun _ => rfl

theorem post (h : KeepsSettings r s) (n : Nat) : KeepsSettings r (s.post n) :=
  ⟨by rw [State.post_dev, h.dev], fun k => by rw [State.post_lane, h.cfg], fun k => by rw [State.post_lane, h.enabled]⟩

theorem postLane (h : KeepsSettings r s) (l : LaneId) (k : Nat) : KeepsSettings r (s.postLane l k) := h.post _

theorem irq (h : KeepsSettings r s) (n : Fin 11) : KeepsSettings r (s.irq n) := ⟨h.dev, h.cfg, h.enabled⟩

theorem logFlags (h : KeepsSettings r s) (flags code : Nat) (k : LogKind) (i : Nat) (d0 d1 d2 : Word) :
    KeepsSettings r (s.logFlags flags code k i d0 d1 d2) := by
  unfold State.logFlags State.logAdvance
  have hm (m : Mem) (n : Word) : KeepsSettings r (({ s with mem := m } : State).modDev fun d => { d with logHead := n }) := ⟨h.dev, h.cfg, h.enabled⟩
  exact ((hm _ _).post _).ite (hm _ _)

theorem forEach {α : Type} {f : State → α → State} (h : KeepsSettings r s) (xs : List α) (hf : ∀ s x, KeepsSettings r s → KeepsSettings r (f s x)) :
    KeepsSettings r (s.forEach xs f) := State.forEach_keeps hf xs s h

theorem voidArm (h : KeepsSettings r s) (l : LaneId) (cause : BitVec 2) : KeepsSettings r (s.voidArm l cause) :=
  ((h.modCon l _).postLane l 3).ite h

theorem endUrkai (h : KeepsSettings r s) (l : LaneId) : KeepsSettings r (s.endUrkai l) := ((h.voidArm l 2).modCon l _).modSwap l _

theorem loadOff (h : KeepsSettings r s) (l : LaneId) : KeepsSettings r (s.loadOff l) := by
  unfold State.loadOff State.loadChanges
  exact (h.modSect l _).ite h

theorem countFault (h : KeepsSettings r s) (l : LaneId) (k : FaultClass) : KeepsSettings r (s.countFault l k).2 := by
  unfold State.countFault
  dsimp only
  split
  · exact ((h.modFw l _).modFw l _).logFlags ..
  · dsimp only; exact h.modFw l _

theorem endMessage (h : KeepsSettings r s) (l : LaneId) (tag : BitVec 4) (result : BitVec 3) (n : Nat) : KeepsSettings r (s.endMessage l tag result n) :=
  (h.modPd l _).postLane l 2

theorem abortQueue (h : KeepsSettings r s) (l : LaneId) : KeepsSettings r (s.abortQueue l) := by
  unfold State.abortQueue
  dsimp only
  split
  · exact h.modPd l _
  · exact (h.forEach _ fun _ _ hs => hs.endMessage ..).modPd l _

theorem flushRx (h : KeepsSettings r s) (l : LaneId) : KeepsSettings r (s.flushRx l) := h.modPd l _

theorem openPath (h : KeepsSettings r s) (l : LaneId) : KeepsSettings r (s.openPath l) := by
  unfold State.openPath; exact h.modBelay l _

theorem stopStage (h : KeepsSettings r s) (l : LaneId) : KeepsSettings r (s.stopStage l) := h.modConv l _

theorem leaveAttached (h : KeepsSettings r s) (l : LaneId) : KeepsSettings r (s.leaveAttached l) := by
  have flushed := (((h.loadOff l).endUrkai l).abortQueue l).flushRx l
  unfold State.leaveAttached
  dsimp only
  refine modBelay (modBudget (modFw (modCc (modSwap (stopStage (openPath ?_ l) l) l _) l _) l _) l _) l _
  exact (flushed.modPd l _).modCon l _

theorem disableLane (h : KeepsSettings r s) (l : LaneId) : KeepsSettings r (s.disableLane l) := (h.leaveAttached l).modCc l _

theorem detachLane (h : KeepsSettings r s) (l : LaneId) : KeepsSettings r (s.detachLane l) := ((h.leaveAttached l).modCc l _).postLane l 0

theorem endSwap (h : KeepsSettings r s) (l : LaneId) (outcome : BitVec 4) : KeepsSettings r (s.endSwap l outcome) := (h.modSwap l _).postLane l 6

theorem packHold (h : KeepsSettings r s) (l : LaneId) : KeepsSettings r (s.packHold l) := (h.modSwap l _).ite h

theorem errorRecovery (h : KeepsSettings r s) (l : LaneId) : KeepsSettings r (s.errorRecovery l) := by
  have logged : KeepsSettings r (s.log 0x0104 .lane l.val (txStatus (s.lane l).pd) 0 0) := h.logFlags ..
  have detached := ((((logged.endSwap l 8).ite (c := (s.lane l).swap.state ≠ 0) logged).packHold l).countFault l .proto).detachLane l
  exact ((detached.modCc l _).irq 6).ite detached

theorem hardResetOff (h : KeepsSettings r s) (l : LaneId) : KeepsSettings r (s.hardResetOff l) :=
  h.ite ((h.modPd l _).ite (((h.errorRecovery l).modCc l _).ite (h.modPd l _)))

/-- A lane that leaves service keeps its settings, and the device its registers (R43). -/
theorem leaveService (h : KeepsSettings r s) (l : LaneId) : KeepsSettings r (s.leaveService l) :=
  (h.hardResetOff l).ite (h.ite (h.disableLane l))

end KeepsSettings

/-! ### A refused PORT_EN -/

/-- The failures of the lane check of lane l (R392). -/
def laneFails (s : State) (l : LaneId) : List CheckFail := (laneCodes s l).map fun k => { code := k, lane := l.val }

/-- A lane with PORT_EN = 0 and out of service (R43). -/
def Lane.portOff (x : Lane) : Lane := { x with cfg := { x.cfg with laneCtrl := setFld x.cfg.laneCtrl 0 0 0 }, enabled := false }

/-- The outcome of a lane check that finds failures (R393). -/
def State.laneRefused (s : State) (l : LaneId) : State := (s.noteCheck true false l.val (laneFails s l)).modLane l Lane.portOff

@[simp] theorem State.laneRefused_lane (s : State) (l : LaneId) : (s.laneRefused l).lane l = (s.lane l).portOff := by
  simp [State.laneRefused]

theorem State.modLane_congr (s : State) {l : LaneId} {f g : Lane → Lane} (h : f (s.lane l) = g (s.lane l)) : s.modLane l f = s.modLane l g := by
  rw [State.modLane, h, State.modLane]

theorem State.modLane_modLane (s : State) (l : LaneId) (f g : Lane → Lane) : (s.modLane l f).modLane l g = s.modLane l (g ∘ f) := by
  rw [State.modLane, State.lane_modLane]
  simp [State.modLane, State.setLane]

/-- Outside a takeover a lane ends its service at once (R22, R43). -/
theorem State.dropLane_of_no_takeover {s : State} (ht : s.dev.takeover = none) (l : LaneId) :
    s.dropLane l = (s.modLane l fun x => { x with enabled := false }).leaveService l := by
  simp [State.dropLane, ht]

/-- LANE_CTRL of lane l as a write of v leaves it (R2, R391). -/
def State.laneWritten (s : State) (l : LaneId) (v : Word) : State :=
  s.modCfg l fun c => { c with laneCtrl := mergeMask (if s.locked then 1 else 0x31) c.laneCtrl v }

/-- A failed lane check returns PORT_EN to 0 and ends the lane's service (R392). -/
theorem State.laneCheck_of_fails {s : State} {l : LaneId} (ht : s.dev.takeover = none) (hf : laneCodes s l ≠ []) :
    KeepsSettings (s.laneRefused l) (s.laneCheck l) := by
  have hne : laneFails s l ≠ [] := by simpa [laneFails] using hf
  have htake : (s.noteCheck true false l.val (laneFails s l)).dev.takeover = none :=
    (congrArg Dev.takeover (s.noteCheck_dev ..) :).trans ht
  unfold State.laneCheck
  rw [← laneFails]
  dsimp only
  rw [if_neg hne]
  cases hen : (s.lane l).enabled with
  | true =>
    rw [if_pos rfl, State.dropLane_of_no_takeover (by exact htake), State.modCfg, State.modLane_modLane]
    exact (KeepsSettings.refl _).leaveService l
  | false =>
    rw [if_neg Bool.false_ne_true, State.modCfg, State.modLane_congr (g := Lane.portOff) _ (by simp [Lane.portOff, hen])]
    exact KeepsSettings.refl _

/-- In RUN a write of PORT_EN = 1 on a lane not fused off has its lane check (R392). -/
theorem State.storeLaneCtrl_run {s : State} {l : LaneId} {v : Word} (hf : s.fusedOff l = false) (hs : s.dev.state = .run)
    (ht : s.dev.takeover = none) (hv : bitOf v 0 = true) :
    s.storeLaneCtrl l v = (s.laneWritten l v).laneCheck l := by
  simp [State.storeLaneCtrl, State.laneWritten, hf, hs, ht, hv]

/-- DEV_CHECK of a failed lane check shows the lane and the first code (R393). -/
theorem State.laneRefused_devCheck {s : State} {l : LaneId} {k : Nat} {ks : List Nat} (h : laneCodes s l = k :: ks) (hk : k < 256) :
    fld (s.laneRefused l).dev.devCheck 20 16 = l.val ∧ fld (s.laneRefused l).dev.devCheck 7 0 = k := by
  have hword : (s.laneRefused l).dev.devCheck = checkWord true false l.val ({ code := k, lane := l.val } :: ks.map fun j => { code := j, lane := l.val }) := by
    rw [State.laneRefused, State.modLane_dev, State.noteCheck_devCheck, laneFails, h, List.map_cons]
  rw [hword]
  exact ⟨checkWord_lane hk (by simp) l.isLt, checkWord_code hk⟩

/-- A refused PORT_EN reads 0, its lane is out of service, and DEV_CHECK names the lane and the first of its codes (R392, R393). -/
theorem portEnSet_refused {a : Agent} {l : LaneId} {v : Word} {s : State} {code : Nat} (ha : hostServed s a = true) (hf : s.fusedOff l = false)
    (hs : s.dev.state = .run) (ht : s.dev.takeover = none) (hv : bitOf v 0 = true) (hbad : code ∈ laneCodes (s.laneWritten l v) l) :
    leads (.portEnSet a l v) s fun s' => bitOf (s'.lane l).cfg.laneCtrl 0 = false ∧ (s'.lane l).enabled = false ∧
      fld s'.dev.devCheck 20 16 = l.val ∧ code ∈ laneCodes (s.laneWritten l v) l ∧
      ((laneCodes (s.laneWritten l v) l).head? = some code → fld s'.dev.devCheck 7 0 = code) := by
  have hw : (s.laneWritten l v).fusedOff l = false := hf
  have hexec : exec (.portEnSet a l v) s = .next ((s.laneWritten l v).laneCheck l) := by
    rw [← State.storeLaneCtrl_run hf hs ht hv]
    exact if_pos ha
  have hkeep := State.laneCheck_of_fails (s := s.laneWritten l v) (l := l) ht (List.ne_nil_of_mem hbad)
  obtain ⟨k, ks, hcodes⟩ := List.exists_cons_of_ne_nil (List.ne_nil_of_mem hbad)
  have hk : k < 256 := cfgCodes_lt (laneCodes_of_served hw ▸ hcodes ▸ List.mem_cons_self)
  have hcheck := State.laneRefused_devCheck hcodes hk
  refine ⟨_, hexec, ?_, ?_, ?_, hbad, ?_⟩
  · rw [hkeep.cfg]; simp [Lane.portOff]
  · rw [hkeep.enabled]; simp [Lane.portOff]
  · rw [hkeep.devCheck]; exact hcheck.1
  · rw [hkeep.devCheck, hcodes]
    rintro ⟨⟩
    exact hcheck.2

/-! ### A refused RUN -/

/-- DEV_CTRL with RUN = 1 as a write of v in READY leaves it (R384). -/
def State.runWritten (s : State) (v : Word) : State := s.modDev fun d => { d with mapKeep := bitOf v 2, run := true, watch := false }

/-- In READY a write of RUN = 1 has its check (R392). -/
theorem State.storeDevCtrl_run {s : State} {v : Word} (hs : s.dev.state = .ready) (htr : s.dev.trans = .none) (ht : s.dev.takeover = none)
    (hc : s.dev.check = none) (hv : bitOf v 0 = true) : s.storeDevCtrl v = (s.runWritten v).runCheck (bitOf v 1) := by
  simp [State.storeDevCtrl, ctrlBits, State.actCtrl, State.runWritten, hs, htr, ht, hc, hv]

/-- A check at RUN that finds a failure clears RUN, leaves STATE alone, and writes DEV_CHECK (R392). -/
theorem State.runCheck_of_fails {s : State} {watch : Bool} (h : runFails s watch false ≠ []) :
    (s.runCheck watch).dev.state = s.dev.state ∧ (s.runCheck watch).dev.run = false ∧
      (s.runCheck watch).dev.devCheck = checkWord false false 0 (runFails s watch false) := by
  have hrun : s.runCheck watch = (s.noteCheck false false 0 (runFails s watch false)).modDev fun d => { d with run := false } := if_neg h
  rw [hrun]
  exact ⟨(congrArg Dev.state (s.noteCheck_dev ..) :), rfl, s.noteCheck_devCheck ..⟩

theorem mem_runFails_device {s : State} {watch dry : Bool} {k : Nat} (h : k ∈ deviceCodes s watch dry) :
    ({ code := k } : CheckFail) ∈ runFails s watch dry := by
  simp [runFails, h]

theorem mem_runFails_lane {s : State} {watch dry : Bool} {l : LaneId} {k : Nat} (hp : portBit s l = true) (h : k ∈ laneCodes s l) :
    ({ code := k, lane := l.val } : CheckFail) ∈ runFails s watch dry := by
  have hl : k ∈ runLaneCodes s l := by simpa [runLaneCodes, hp] using h
  have hmem : ({ code := k, lane := l.val } : CheckFail) ∈ allLanes.flatMap fun m => (runLaneCodes s m).map fun k => { code := k, lane := m.val } :=
    List.mem_flatMap.mpr ⟨l, List.mem_finRange l, List.mem_map_of_mem hl⟩
  simp only [runFails, List.mem_append]
  exact .inl (.inl (.inr hmem))

theorem mem_runFails_image {s : State} {watch dry : Bool} {k : Nat} (h : k ∈ imageCodes s) :
    ({ code := k } : CheckFail) ∈ runFails s watch dry := by
  simp [runFails, h]

/-- A refused RUN leaves the device in READY with RUN = 0, and DEV_CHECK names the first failure found (R392, R393). -/
theorem runSet_refused {a : Agent} {v : Word} {s : State} {f : CheckFail} (ha : hostServed s a = true) (hs : s.dev.state = .ready)
    (htr : s.dev.trans = .none) (ht : s.dev.takeover = none) (hc : s.dev.check = none) (hv : bitOf v 0 = true)
    (hf : f ∈ runFails (s.runWritten v) (bitOf v 1) false) (hcode : f.code < 256) (hitem : f.item < 256) (hlane : f.lane < 32) :
    leads (.runSet a v) s fun s' => s'.dev.state = .ready ∧ s'.dev.run = false ∧ f ∈ runFails (s.runWritten v) (bitOf v 1) false ∧
      ((runFails (s.runWritten v) (bitOf v 1) false).head? = some f → fld s'.dev.devCheck 7 0 = f.code ∧ fld s'.dev.devCheck 20 16 = f.lane) := by
  have hexec : exec (.runSet a v) s = .next ((s.runWritten v).runCheck (bitOf v 1)) := by
    rw [← State.storeDevCtrl_run hs htr ht hc hv]
    exact if_pos ha
  obtain ⟨hstate, hrun, hcheck⟩ := State.runCheck_of_fails (List.ne_nil_of_mem hf)
  refine ⟨_, hexec, hstate.trans hs, hrun, hf, fun hhead => ?_⟩
  obtain ⟨fs, hfs⟩ := List.head?_eq_some_iff.mp hhead
  rw [hcheck, hfs]
  exact ⟨checkWord_code hcode, checkWord_lane hcode hitem hlane⟩

/-! ### The statement -/

/-- Settles O36: each bad setting stands among the codes of the check, and a check with a failure refuses. -/
theorem checkRefusals : Obligations.CheckRefusals := by
  unfold Obligations.CheckRefusals
  intro a l v code s _ htr ht hc hv ctl lc c bad t unplaced refused
  have hcode (w : BitVec 32) (h : bad) : code ∈ cfgCodes { c with laneCtrl := w } := by
    rcases h with ⟨rfl, h⟩ | ⟨rfl, h⟩
    · exact mem_cfgCodes_budget.mpr h
    · exact mem_cfgCodes_windows.mpr h
  have hlt (h : bad) : code < 256 := cfgCodes_lt (hcode 0 h)
  refine ⟨fun ha hf hs h => ?_, fun ha hf hs hp h => ?_, fun ha hs h => ?_, fun ha hs h => ?_⟩
  · refine portEnSet_refused ha hf hs ht hv ?_
    rw [laneCodes_of_served (s := s.laneWritten l v) hf, State.laneWritten, State.lane_modCfg]
    exact hcode _ h
  · have hlane : code ∈ laneCodes ctl l := laneCodes_of_served (s := ctl) hf ▸ hcode _ h
    exact runSet_refused ha hs htr ht hc hv (mem_runFails_lane hp hlane) (hlt h) (by simp) l.isLt
  · have hdev : 0x0B ∈ deviceCodes ctl (bitOf v 1) false := mem_deviceCodes_tether.mpr (tetherWrong_iff.mpr h)
    exact runSet_refused ha hs htr ht hc hv (mem_runFails_device hdev) (by decide) (by decide) (by decide)
  · exact runSet_refused ha hs htr ht hc hv (mem_runFails_image (mem_imageCodes_excluded.mpr h)) (by decide) (by decide) (by decide)

end Sys2Proof.Machine

/-! SUPPORT. A delay slot that holds what it must not (R316): the instructions whose frame bars them from a slot, and the cause that a trap in a slot leaves. -/

namespace Sys2Proof.Machine

section slotTrap
variable {s : State} {t : CoreId}

/-- Completing what is in flight leaves the core where it stands, in its slot. -/
theorem State.flush_slot : ((s.flush t).core t).slot = (s.core t).slot := by
  simp only [State.flush, State.core_modCore]
  exact State.forEach_same (fun r => (r.core t).slot) _ (fun r x => r.commit_slot t x) _ s

/-- A trap taken in a delay slot says so by bit 8 of tcause (R302). -/
theorem State.takeTrap_tcause_in_slot {k : Nat} {pc : Word} {addr : Option Word} (htm : (s.core t).tm = false) (hslot : (s.core t).slot.isSome = true) :
    ((s.takeTrap t k pc addr).core t).tcause = BitVec.ofNat 32 (k + 256) := by
  simp [State.takeTrap, htm, State.flush_slot, hslot]

/-- An instruction with the barred frame traps in a slot as R316 gives. -/
theorem exec_barred_in_slot {i : Instr} {f : State → InstrEnd} (hi : exec i s = .next (s.instr t true f)) (hs : s.fetches t)
    (hslot : (s.core t).slot.isSome = true) : exec i s = .next ((s.begun t).takeTrap t 1 (s.core t).pc none) := by
  obtain ⟨hrun, hclock, hfetch, -⟩ := hs
  rw [hi, State.instr_barred hrun hclock hfetch hslot]

end slotTrap

/-- Settles O21: each of these instructions executes in the frame that a slot bars, and the trap is taken with the slot still standing. -/
theorem barredFromSlots : Obligations.BarredFromSlots := by
  unfold Obligations.BarredFromSlots
  intro t i s hs hslot hi
  have hframe : ∃ f, exec i s = .next (s.instr t true f) := by
    rcases hi with ⟨cond, disp, rfl⟩ | ⟨disp, rfl⟩ | ⟨ra, rfl⟩ | ⟨ra, rfl⟩ | rfl | rfl | rfl | rfl | rfl | ⟨n, rfl⟩ |
      ⟨disp, ba, rfl⟩ | ⟨disp, ba, rfl⟩ | ⟨z, dec, rfl⟩ | ⟨ra, z, dec, rfl⟩ | ⟨z, dec, rfl⟩ | ⟨rd, dec, p, rfl⟩ <;>
      exact ⟨_, rfl⟩
  obtain ⟨f, hf⟩ := hframe
  have hbegun : ((s.begun t).core t).slot.isSome = true := by rw [State.begun_slot, hslot]
  exact ⟨exec_barred_in_slot hf hs hslot, fun htm => State.takeTrap_tcause_in_slot htm hbegun⟩

end Sys2Proof.Machine

/-! SUPPORT. What every command keeps: the queue behind it, the canonical memories and the bounds of the message layer (O4). -/

namespace Sys2Proof.Machine

/-- An outcome is a next state that keeps what r has. -/
def Out.keeps (r : State) (o : Out) : Prop := ∃ s', o = .next s' ∧ Kept r s'

section keeps
variable {r s : State}

@[simp] theorem Out.keeps_next : Out.keeps r (.next s) ↔ Kept r s :=
  ⟨fun ⟨_, e, h⟩ => by cases e; exact h, fun h => ⟨s, rfl, h⟩⟩

theorem Out.keeps_ite {c : Prop} [Decidable c] {x y : Out} (hx : Out.keeps r x) (hy : Out.keeps r y) : Out.keeps r (if c then x else y) := by
  split <;> assumption

@[simp] theorem Out.keeps_byWrite {a : Agent} {f : State → State} (hf : Kept r s → Kept r (f s)) (hk : Kept r s) : Out.keeps r (s.byWrite a f) := by
  unfold State.byWrite; split
  · exact keeps_next.2 (hf hk)
  · exact keeps_next.2 hk

@[simp] theorem Out.keeps_byLaneWrite {a : Agent} {l : LaneId} {f : State → State} (hf : Kept r s → Kept r (f s)) (hk : Kept r s) :
    Out.keeps r (s.byLaneWrite a l f) :=
  Out.keeps_byWrite (fun h => by split; exacts [h, hf h]) hk

@[simp] theorem Out.keeps_byRead {a : Agent} {n : Nat} (hk : Kept r s) : Out.keeps r (s.byRead a n) := by
  unfold State.byRead; split <;> simp [hk]

/-- A command of a received message, where a stored message is answered by g. -/
theorem Out.keeps_stored {l : LaneId} {f : Frame} {g : State → State} (hg : ∀ u, Kept r u → Kept r (g u)) (hk : Kept r s) :
    Kept r (match s.receive l f with | (.stored, s1) => g s1 | (_, s1) => s1) := by
  have h := hk.receive l f
  split
  · next h1 => rw [h1] at h; exact hg _ h
  · next h1 => rw [h1] at h; exact h

/-- The end of an instruction that either traps or goes on. -/
theorem Kept.end_ite {c : Prop} [Decidable c] {x y : InstrEnd} (hx : Kept r x.state) (hy : Kept r y.state) : Kept r (if c then x else y).state := by
  split <;> assumption


end keeps

section camku
variable {r s : State} (hk : Kept r s) (t : CoreId)
include hk

theorem Kept.instr_bcc (cond : Fin 15) (disp : BitVec 22) : Out.keeps r (execBcc t cond disp s) :=
  Out.keeps_next.2 (hk.instr t true _ fun _ hu => hu)

theorem Kept.instr_jmpr (ra : RegCode) : Out.keeps r (execJmpr t ra s) := Out.keeps_next.2 (hk.instr t true _ fun _ hu => hu)

theorem Kept.instr_ret : Out.keeps r (execRet t s) :=
  Out.keeps_next.2 (hk.instr t true _ fun _ hu => Kept.end_ite hu (hu.modCore t _))

theorem Kept.instr_reti : Out.keeps r (execReti t s) :=
  Out.keeps_next.2 (hk.instr t true _ fun _ hu =>
    Kept.end_ite ((hu.modCore t _).endActive t true) (Kept.end_ite hu (Kept.end_ite hu ((hu.modCore t _).endActive t false))))

theorem Kept.instr_retx : Out.keeps r (execRetx t s) := Out.keeps_next.2 (hk.instr t true _ fun _ hu => Kept.end_ite hu hu)

theorem Kept.instr_wait : Out.keeps r (execWait t s) := Out.keeps_next.2 (hk.instr t true _ fun _ hu => (hu.modCore t _).wakeIfReady t)

theorem Kept.instr_halt : Out.keeps r (execHalt t s) :=
  Out.keeps_next.2 (hk.instr t true _ fun _ hu => by dsimp only [InstrEnd.state]; exact hu.modCore t _)

theorem Kept.instr_trap (n : BitVec 4) : Out.keeps r (execTrap t n s) := Out.keeps_next.2 (hk.instr t true _ fun _ hu => hu)

theorem Kept.instr_btas (rx : Option RegCode) (ba : BitVec 16) : Out.keeps r (execBtas t rx ba s) :=
  Out.keeps_next.2 (hk.instr t false _ fun _ hu => by dsimp only [InstrEnd.state]; exact (hu.writeBit t _ true).modCore t _)

theorem Kept.instr_macd (acc neg : Bool) (rx ry : RegCode) (xinc yinc : BitVec 4) : Out.keeps r (execMacd t acc neg rx ry xinc yinc s) := by
  refine Out.keeps_next.2 (hk.instr t false _ fun u hu => Kept.end_ite hu ?_)
  split
  · exact hu
  · dsimp only [InstrEnd.state]; exact hu.modCore t _

theorem Kept.instr_movs (sz : Fin 3) (dec : Bool) : Out.keeps r (execMovs t sz dec s) :=
  Out.keeps_next.2 (hk.str t _ _ fun _ hu => hu.movsElement t _ _)

theorem Kept.instr_fills (ra : RegCode) (sz : Fin 3) (dec : Bool) : Out.keeps r (execFills t ra sz dec s) :=
  Out.keeps_next.2 (hk.str t _ _ fun _ hu => hu.fillsElement t _ _ _)

theorem Kept.instr_cmps (sz : Fin 3) (dec : Bool) : Out.keeps r (execCmps t sz dec s) :=
  Out.keeps_next.2 (hk.str t _ _ fun _ hu => hu.cmpsElement t _ _)

theorem Kept.instr_crcs (rd : RegCode) (dec : Bool) (poly : Fin 3) : Out.keeps r (execCrcs t rd dec poly s) :=
  Out.keeps_next.2 (hk.str t _ _ fun _ hu => hu.crcsElement t rd _ poly)

theorem Kept.instr_cx (k : Fin 16) (rd ra rb : RegCode) (imm : BitVec 11) : Out.keeps r (execCx t k rd ra rb imm s) :=
  Out.keeps_next.2 (hk.instr t false _ fun _ hu => Kept.end_ite hu (hu.micros t _ _ _ _))

theorem Kept.instr_illegal (w : Word) : Out.keeps r (execIllegalInstruction t w s) := by
  unfold execIllegalInstruction; split
  · exact Out.keeps_next.2 hk
  · exact Out.keeps_next.2 (hk.instr t false _ fun _ hu => hu)

end camku

section messages
variable {r s : State} (hk : Kept r s) (l : LaneId) (f : Frame)
include hk

/-- A message row answers with what the base image, or nothing, does of the stored frame. -/
theorem Kept.rowStored {g : State → Out} (hg : ∀ u, Kept r u → Out.keeps r (g u)) :
    Out.keeps r (match s.receive l f with | (.stored, s1) => g s1 | (_, s1) => .next s1) := by
  have h := hk.receive l f
  split
  · next h1 => rw [h1] at h; exact hg _ h
  · next h1 => rw [h1] at h; exact Out.keeps_next.2 h

theorem Kept.row_message : Out.keeps r (execMessageReceived l f s) :=
  hk.rowStored l f fun _ hu => by simp [hu]

theorem Kept.row_tmFollow : Out.keeps r (execTmFollowAck l f s) :=
  hk.rowStored l f fun _ hu => by split <;> simp (maxDischargeDepth := 20) [hu]

theorem Kept.row_twinArm : Out.keeps r (execTwinArmAck l f s) :=
  hk.rowStored l f fun _ hu => by split <;> simp (maxDischargeDepth := 20) [hu]

theorem Kept.row_twinDisarm : Out.keeps r (execTwinDisarmAck l f s) :=
  hk.rowStored l f fun _ hu => by split <;> simp (maxDischargeDepth := 20) [hu]

theorem Kept.row_swapRefused : Out.keeps r (execSwapRefused l f s) :=
  hk.rowStored l f fun _ hu => by dsimp only; split <;> simp (maxDischargeDepth := 20) [hu]

theorem Kept.row_psRdy : Out.keeps r (execPsRdy l f s) :=
  hk.rowStored l f fun _ hu => by split <;> simp (maxDischargeDepth := 20) [hu]

theorem Kept.row_frSwap : Out.keeps r (execFrSwap l f s) :=
  hk.rowStored l f fun _ hu => by dsimp only; repeat' split
                                  all_goals simp (maxDischargeDepth := 20) [hu]

theorem Kept.row_request : Out.keeps r (execRequest l f s) :=
  Out.keeps_next.2 (hk.imageReceive l f _ fun _ hu => Kept.ite (by simp [hu]) hu)

theorem Kept.row_softReset : Out.keeps r (execSoftReset l f s) :=
  Out.keeps_next.2 (hk.imageReceive l f _ fun _ hu => by simp (maxDischargeDepth := 20) [hu])

theorem Kept.row_getSourceCap : Out.keeps r (execGetSourceCap l f s) :=
  Out.keeps_next.2 (hk.imageReceive l f _ fun _ hu => by simp [hu])

theorem Kept.row_sourceCaps : Out.keeps r (execSourceCapabilities l f s) :=
  Out.keeps_next.2 (hk.imageReceive l f _ fun _ hu => by simp [hu])

theorem Kept.row_eprKeepalive : Out.keeps r (execEprKeepalive l f s) :=
  Out.keeps_next.2 (hk.imageReceive l f _ fun _ hu => by simp [hu])

theorem Kept.row_eprMode : Out.keeps r (execEprMode l f s) := Out.keeps_next.2 (hk.imageReceive l f _ fun _ hu => by simp [hu])

theorem Kept.row_discoverIdentity : Out.keeps r (execDiscoverIdentity l f s) :=
  Out.keeps_next.2 (hk.imageReceive l f _ fun _ hu => by simp [hu])

theorem Kept.row_prSwap : Out.keeps r (execPrSwap l f s) := Out.keeps_next.2 (hk.imageReceive l f _ fun _ hu => by simp (maxDischargeDepth := 20) [hu])

theorem Kept.row_drSwap : Out.keeps r (execDrSwap l f s) := Out.keeps_next.2 (hk.imageReceive l f _ fun _ hu => by simp (maxDischargeDepth := 20) [hu])

theorem Kept.row_vconnSwap : Out.keeps r (execVconnSwap l f s) := Out.keeps_next.2 (hk.imageReceive l f _ fun _ hu => by simp (maxDischargeDepth := 20) [hu])

theorem Kept.row_sinkCaps : Out.keeps r (execSinkCapabilities l f s) := Out.keeps_next.2 (hk.imageReceive l f _ fun _ hu => by simp [hu])

theorem Kept.row_battery : Out.keeps r (execBatteryStatus l f s) := Out.keeps_next.2 (hk.imageReceive l f _ fun _ hu => by simp [hu])

theorem Kept.row_recCommit : Out.keeps r (execRecCommitAck l f s) := Out.keeps_next.2 (hk.imageReceive l f _ fun _ hu => by simp [hu])

theorem Kept.row_security : Out.keeps r (execSecurityRequest l f s) := Out.keeps_next.2 (hk.imageReceive l f _ fun _ hu => by simp [hu])

theorem Kept.row_enterMode : Out.keeps r (execEnterModeAck l f s) :=
  Out.keeps_next.2 (hk.urkaiReceive l f 4 _ _ (fun _ hu => by simp [hu]) fun _ hu => by simp [hu])

theorem Kept.row_exitMode : Out.keeps r (execExitModeAck l f s) :=
  Out.keeps_next.2 (hk.urkaiReceive l f 5 _ _ (fun _ hu => by simp [hu]) fun _ hu => by simp [hu])

theorem Kept.row_twinSet : Out.keeps r (execTwinSetAck l f s) :=
  Out.keeps_next.2 (hk.urkaiReceive l f 18 _ _ (fun _ hu => by simp [hu]) fun _ hu => by simp [hu])

theorem Kept.row_holdSet : Out.keeps r (execHoldSetAck l f s) :=
  Out.keeps_next.2 (hk.urkaiReceive l f 21 _ _ (fun _ hu => by simp [hu]) fun _ hu => by simp [hu])

end messages
section events
variable {r s : State} (hk : Kept r s)
include hk

theorem Kept.row_pllLocked : Out.keeps r (execPllLocked s) := by
  have h := hk.redetect
  unfold execPllLocked; dsimp only; split
  · exact Out.keeps_next.2 (((h.modDev _).withMem fun hm => memClear_wf _ _ hm).startCore 4 0)
  · exact Out.keeps_next.2 h

theorem Kept.row_watchProbe (l : LaneId) (cc1 cc2 : CcTerm) : Out.keeps r (execWatchProbe l cc1 cc2 s) := by
  have h1 (g : CcLane → CcLane) : Kept r (s.modCc l g) := hk.modCc l g
  have h2 {c : Prop} [Decidable c] {x y : State} (hx : Kept r x) (hy : Kept r y) : Out.keeps r (.next (if c then x else y)) := Out.keeps_next.2 (hx.ite hy)
  unfold execWatchProbe
  exact Out.keeps_ite (Out.keeps_next.2 hk) (Out.keeps_ite (Out.keeps_next.2 (h1 _)) (Out.keeps_ite (h2 ((h1 _).watchAttach l) (h1 _))
    (Out.keeps_ite (Out.keeps_next.2 ((h1 _).watchAttach l)) (Out.keeps_ite (Out.keeps_next.2 ((h1 _).watchCut l)) (Out.keeps_next.2 (h1 _))))))

theorem Kept.row_bistCarrierEnd (l : LaneId) : Out.keeps r (execBistCarrierEnd l s) :=
  Out.keeps_next.2 (hk.modPd_of l _ fun p h => by split <;> exact h)

theorem Kept.row_preCloseTest (l : LaneId) (y : TestResult) : Out.keeps r (execPreCloseTest l y s) := by
  unfold execPreCloseTest; dsimp only; repeat' split
  all_goals simp (maxDischargeDepth := 20) [hk]

theorem Kept.row_budgetFrame (b : BusSample) : Out.keeps r (execBudgetFrame b s) := by
  have h0 : Kept r (s.forEach allLanes State.laneClock) := hk.forEach _ fun _ hu l => hu.laneClock l
  have h1 := (Kept.ite (c := arbiterRuns s && decide (s.tether.settling < 2)) (h0.setFrozen false) h0).measure b
  unfold execBudgetFrame
  refine Out.keeps_ite (Out.keeps_next.2 ((h1.modTether _).post 0x21B)) (Out.keeps_ite (Out.keeps_next.2 ?_) (Out.keeps_next.2 h1))
  exact (((h1.modBus _).modTether _).post 0x21B).applyResults _ |>.placeAll _

theorem Kept.row_arbitration (results : List (BitVec 12 × BitVec 4)) : Out.keeps r (execArbitrationResult results s) := by
  unfold execArbitrationResult; split
  · exact Out.keeps_next.2 hk
  · refine Out.keeps_next.2 (Kept.forEach _ (fun u hu l => ?_) (((hk.modTether _).setFrozen false).post 0x21C))
    split
    · exact (hu.followCeil l _).giveSlot l _
    · exact hu

theorem Kept.row_capture (n : CounterId) (rising : Bool) : Out.keeps r (execCapture n rising s) := by
  have h1 : Kept r (if (s.counter n).capSrc = 5 then
      { s with slIn := setFld s.slIn (fld (s.counter n).act 30 26) (fld (s.counter n).act 30 26) (b2n rising) } else s) :=
    Kept.ite ⟨hk.pending, hk.ok⟩ hk
  have h2 (g : Counter → Counter) := (h1.modCounter n g).postCnt n 1
  unfold execCapture
  refine Out.keeps_ite (Out.keeps_next.2 hk) (Out.keeps_ite (Out.keeps_next.2 h1) (Out.keeps_ite (Out.keeps_next.2 (h1.modCounter n _)) ?_))
  exact Out.keeps_ite (Out.keeps_next.2 (((h2 _).stepCounter n _ false true).tickFrom _ _ _ _)) (Out.keeps_next.2 (h2 _))

theorem Kept.row_claim (t : CoreId) : Out.keeps r (execInterruptClaim t s) := by
  unfold execInterruptClaim; dsimp only; repeat' split
  all_goals first | exact Out.keeps_next.2 hk | exact Out.keeps_next.2 (Kept.claimEntry _ _ _ _ _ (by simp [hk]) hk)

theorem Kept.row_wardenTakeover : Out.keeps r (execWardenTakeover s) := by
  unfold execWardenTakeover; split
  · have h1 := ((hk.forEach allLanes fun _ hu l => hu.raiseAr l).log 0x0701 .device 0 (supStatus s) 0 0).withCores
    refine Out.keeps_next.2 (Kept.modDev _ (Kept.modImage _ ?_ (Kept.modSup _ (h1 _))))
    exact id
  · exact Out.keeps_next.2 hk

theorem Kept.row_upstreamFrame (p : Port) (f : UpFrame) : Out.keeps r (execUpstreamFrame p f s) := by
  have h (g : Tether → Tether) : Kept r (if s.tether.hitch && !s.solo then s.modTether g else s) := Kept.ite (hk.modTether g) hk
  unfold execUpstreamFrame; dsimp only
  refine Out.keeps_ite (Out.keeps_next.2 (h _)) (Out.keeps_ite (Out.keeps_ite (Out.keeps_next.2 ?_) (Out.keeps_next.2 (h _))) (Out.keeps_next.2 ?_))
  · exact (((h _).takeSlots p f).forEach _ fun _ hu x => hu.takeUpRecord x).frameReceived true
  · have h1 := h fun t => { t with upTu := t.upTu || decide (p = .tu), upTd := t.upTd || decide (p = .td) }
    have hm := h1.forEach (f := fun st r => match r with | .mark tx ty row col len => st.applyMark tx ty row col len | _ => st) f.records
      fun _ hu x => by split <;> simp [hu]
    have hs := Kept.ite (c := f.crcOk) hm h1
    exact ((Kept.ite ((hs.modTether _).keepCarriers _ _) hs).sendUp f).frameReceived _

theorem Kept.row_check (a : Agent) (tag : Byte) : Out.keeps r (execCheck a tag s) :=
  Out.keeps_next.2 (hk.mbxRun a 0x01 tag _ _ fun _ hu => hu.noteCheck _ _ _ _)

theorem Kept.row_tileLoad (a : Agent) (tag : Byte) : Out.keeps r (execTileLoad a tag s) :=
  Out.keeps_next.2 (hk.mbxRun a 0x02 tag _ _ fun _ hu => hu.tileLoad)

theorem Kept.row_tileTake (a : Agent) (tag : Byte) : Out.keeps r (execTileTake a tag s) :=
  Out.keeps_next.2 (hk.mbxRun a 0x03 tag _ _ fun _ hu => hu.tileTake)

theorem Kept.row_fuseProgram (a : Agent) (tag : Byte) (vprog : List Nat) (reads : List VerifyRead) : Out.keeps r (execFuseProgram a tag vprog reads s) :=
  Out.keeps_next.2 (hk.mbxRun a 0x20 tag _ _ fun _ hu => hu.fuseProgram vprog reads)

theorem Kept.row_audit (a : Agent) (tag : Byte) (reads : List MarginRead) : Out.keeps r (execAudit a tag reads s) :=
  Out.keeps_next.2 (hk.mbxRun a 0x21 tag _ _ fun _ hu => hu.auditAll reads)

theorem Kept.row_imageWrite (a : Agent) (tag : ChunkTag) : Out.keeps r (execImageWrite a tag s) := by
  unfold execImageWrite; split
  · simp [hk]
  · exact Out.keeps_next.2 (hk.mbxRun a 0x10 tag.tag _ _ fun _ hu => hu.imageWrite tag.readsBack)

/-- Every command answers a next state that keeps the queue, the memories and the message layers. -/
theorem exec_keeps (i : Instr) : Out.keeps r (exec i s) := by
  cases i
  case bcc t cond disp => exact hk.instr_bcc t cond disp
  case jmpr t ra => exact hk.instr_jmpr t ra
  case ret t => exact hk.instr_ret t
  case reti t => exact hk.instr_reti t
  case retx t => exact hk.instr_retx t
  case wait t => exact hk.instr_wait t
  case halt t => exact hk.instr_halt t
  case trap t n => exact hk.instr_trap t n
  case btas t rx ba => exact hk.instr_btas t rx ba
  case macd t acc neg rx ry xinc yinc => exact hk.instr_macd t acc neg rx ry xinc yinc
  case movs t sz dec => exact hk.instr_movs t sz dec
  case fills t ra sz dec => exact hk.instr_fills t ra sz dec
  case cmps t sz dec => exact hk.instr_cmps t sz dec
  case crcs t rd dec poly => exact hk.instr_crcs t rd dec poly
  case cx t k rd ra rb imm => exact hk.instr_cx t k rd ra rb imm
  case pllLocked => exact hk.row_pllLocked
  case watchProbe l cc1 cc2 => exact hk.row_watchProbe l cc1 cc2
  case messageReceived l f => exact hk.row_message l f
  case bistCarrierEnd l => exact hk.row_bistCarrierEnd l
  case request l f => exact hk.row_request l f
  case softReset l f => exact hk.row_softReset l f
  case getSourceCap l f => exact hk.row_getSourceCap l f
  case sourceCapabilities l f => exact hk.row_sourceCaps l f
  case eprKeepalive l f => exact hk.row_eprKeepalive l f
  case eprMode l f => exact hk.row_eprMode l f
  case discoverIdentity l f => exact hk.row_discoverIdentity l f
  case enterModeAck l f => exact hk.row_enterMode l f
  case exitModeAck l f => exact hk.row_exitMode l f
  case twinSetAck l f => exact hk.row_twinSet l f
  case tmFollowAck l f => exact hk.row_tmFollow l f
  case twinArmAck l f => exact hk.row_twinArm l f
  case twinDisarmAck l f => exact hk.row_twinDisarm l f
  case prSwap l f => exact hk.row_prSwap l f
  case swapRefused l f => exact hk.row_swapRefused l f
  case psRdy l f => exact hk.row_psRdy l f
  case sinkCapabilities l f => exact hk.row_sinkCaps l f
  case holdSetAck l f => exact hk.row_holdSet l f
  case frSwap l f => exact hk.row_frSwap l f
  case drSwap l f => exact hk.row_drSwap l f
  case vconnSwap l f => exact hk.row_vconnSwap l f
  case batteryStatus l f => exact hk.row_battery l f
  case recCommitAck l f => exact hk.row_recCommit l f
  case preCloseTest l y => exact hk.row_preCloseTest l y
  case budgetFrame b => exact hk.row_budgetFrame b
  case tileLoad a tag => exact hk.row_tileLoad a tag
  case tileTake a tag => exact hk.row_tileTake a tag
  case capture n rising => exact hk.row_capture n rising
  case interruptClaim t => exact hk.row_claim t
  case wardenTakeover => exact hk.row_wardenTakeover
  case upstreamFrame p f => exact hk.row_upstreamFrame p f
  case check a tag => exact hk.row_check a tag
  case imageWrite a tag => exact hk.row_imageWrite a tag
  case fuseProgram a tag vprog reads => exact hk.row_fuseProgram a tag vprog reads
  case audit a tag reads => exact hk.row_audit a tag reads
  case securityRequest l f => exact hk.row_security l f
  case illegalInstruction t w => exact hk.instr_illegal t w
  case arbitrationResult results => exact hk.row_arbitration results
  all_goals simp only [exec,
    execAdd, execSub, execAddc, execSubc, execAnd, execOr, execXor, execAndn, execShl, execShr, execSar, execRor, execMul, execMulh, execMulhu, execMin, execMax, execMinu,
    execMaxu, execClz, execCmp, execTst, execAddi, execAndi, execOri, execXori, execCmpi, execShi, execMovi, execMovhi, execLd, execLdh, execLdhu, execLdb, execLdbu,
    execSt, execSth, execStb, execCall, execNop, execCallr, execMfc, execMtc, execEi, execDi, execMfx, execMtx, execMflk, execMtlk, execBset, execBclr, execBnot, execBtst,
    execBmovToC, execBmovn, execBmovToBit, execBand, execBandn, execBor, execBorn, execBxor, execBrbs, execBrbc, execAclr, execMac, execMsu, execMacu, execMfal, execMfah,
    execMfag, execMtal, execMtah, execMtag, execAsr, execAsl, execArnd, execPowerUp, execResetAsserted, execResetReleased, execVsysNotValid, execVcoreOutOfRange,
    execLinkFrameTimeout, execLinkRestored, execVioLow, execVsysWarn, execVsysWarnClear, execVconnSupLow, execVconnSupRestored, execImageCheckComplete, execRunSet,
    execRunClear, execWatchSet, execWatchEntryComplete, execWatchClear, execPortEnSet, execPortEnClear, execGroupIdle, execHoldoverLimit, execTamper, execMesh, execVglitch,
    execCglitch, execDrpToggle, execAttachWaitSrc, execAttachWaitSnk, execCcDebounce, execTerminationLost, execTryCcDebounce, execDrpTry, execTrywaitDebounce,
    execTryTimeout, execDetach, execUnattachedWaitEnd, execCut, execCutClear, execVconnOc, execVconnReapply, execDiscoveryResponseTimeout, execTransmitStart,
    execGoodcrcReceived, execGoodcrcTimeout, execSend, execPop, execPdExtData, execSinkTx, execAmsHoldTimeout, execChunkRequest, execChunkSenderResponse,
    execChunkSenderRequest, execHardReset, execHardResetReceived, execHardResetComplete, execPsHardReset, execSrcRecover, execSinkVbusReturn, execSinkHardResetTimeout,
    execCableReset, execArActiveRise, execSrcTransition, execContractLimitFall, execKeepaliveMissed, execSinkKeepalive, execUrkaiDiscovery, execUrkaiResponseTimeout,
    execTimeMark, execArm, execDisarm, execArmDeadline, execTwinSwitch, execStandbyLimit, execPrsReq, execPrSwapAccept, execSwapSrcTransition, execSwapVsafe0v,
    execPsSourceOn, execPsSourceOff, execFrsArm, execFrsTrig, execFrsSwapTx, execFrsHoldCheck, execFrsTimeout, execFrsTrigClear, execHoldEnd, execPackHoldEnd,
    execVconnStable, execVconnSourceTimeout, execVconnSourceOff, execFullAnchor, execEmptyAnchor, execEmptyMark, execClr, execComparatorAccept, execCloseComplete,
    execBackfeed, execPreCloseRetry, execOcp, execOvp, execUvp, execReverseCurrent, execOverload, execThermWarn, execThermalShutdown, execThermalRestart, execDischargeEnd,
    execSelfTest, execStestNow, execLatchClr, execIlimSet, execShedIlim, execShedIlimBelay, execRampComplete, execRatioModeChange, execSlewEnter, execLeave, execSlewTo,
    execFfRampEnd, execConvVset, execConvIset, execPhaseOffset, execFrozen, execBusSag, execSagEnd, execShedMeasure, execShedDeadline, execBusBudget,
    execFixCommit, execSwathStep, execPospps, execFixStale, execDrOut, execPoseLost, execPostLapse, execApplied, execSectCtrl, execTurnEvent, execPeakEvent,
    execCompareMatch, execCntnVal, execCntnValRead, execCntnTop, execCntnCmp, execCntnCtrl, execCntnCap, execDoorbell, execHoldOff, execIcClr, execTake, execRelease,
    execMlockBreak, execMpClr, execDebugHalt, execDecCtrl, execHeartbeatPeriod, execTakeG, execRtnG, execRelG, execReturnTimeout, execCoreRst, execWardenAttempt,
    execWardenSuccess, execWardenAttemptTimeout, execOrphanTimeout, execProtoLast, execEccError, execEvtLogRsv, execLinkUp, execLinkDown, execAcqTimeout, execFrameStart,
    execDownstreamFrame, execTimingMarker, execTimeLock, execStaggerRequest, execSwathMark, execTileChunk, execTunnel, execHitchSuccession, execSolo, execWatchBeacon,
    execHspiWrite, execHspiRead, execHspiClr, execDtimeLoRead, execTallyQLoRead, execPoseERead, execPpsLoRead, execActivate, execActivateNextCore, execMeas, execDbgPass7,
    execRelock, execAlarmPolicy, execSecCtrl, execVsysMon, execRegisterWrite, execVcoreAndVioInRange, execSinkVbusPresent, execPartnerRpChange, execRunLimit,
    execCurrentLimit, execReverseRampEnd, execSlotTimeConversion, execDebugResume]
  all_goals repeat' split
  all_goals simp +contextual (maxDischargeDepth := 50) [hk]

end events

/-- Settles O4: every command keeps `Kept`, and so does the tick of an empty queue. -/
theorem stepKeepsOk : Obligations.StepKeepsOk := by
  unfold Obligations.StepKeepsOk
  intro s hok
  unfold step
  cases hq : s.pending with
  | nil =>
    have h : Kept s s.idleTick := Kept.idleTick ⟨rfl, hok⟩
    exact ⟨_, rfl, h.ok, h.pending.trans hq⟩
  | cons c rest =>
    obtain ⟨s', hs', h⟩ := exec_keeps (r := { s with pending := rest }) ⟨rfl, hok⟩ c
    exact ⟨s', hs', h.ok, h.pending⟩

/-- Settles O5: at reset the memories are empty or blank, and every lane's message layer is at its reset value. -/
theorem resetOk : Obligations.ResetOk := by
  unfold Obligations.ResetOk
  exact ⟨rfl, rfl, fun l => (reset_lane_pd l).symm ▸ reset_pd_ok⟩

/-- Settles O1: it is the second branch of step. -/
theorem stepRunsFront : Obligations.StepRunsFront := by
  unfold Obligations.StepRunsFront
  intro c rest s h
  rw [step, h]

end Sys2Proof.Machine

/-! SUPPORT. The tick of an empty queue (O2), the values at reset (O6) and the words of each format (O8). -/

namespace Sys2Proof.Machine

/-- Noise on the links leaves DTIME alone. -/
theorem State.linkNoise_dtime (s : State) : s.linkNoise.dev.dtime = s.dev.dtime := by
  unfold State.linkNoise
  refine State.forEach_same (fun r => r.dev.dtime) _ (fun r g => ?_) _ s
  rfl

/-- A powered device on XIN whose DTIME runs 10^-6 ppm fast by the tether (R368), and is about to gain a nanosecond. -/
def fastClock : State :=
  (State.reset.modDev fun d => { d with xin := true, vsysOk := true, dtFrac := 999999999999 }).modTether fun t => { t with rate := 1 }

/-- Its next tick of 40 ns counts 41. -/
theorem fastClock_tick : fastClock.idleTick.dev.dtime = 41 := by
  have h : fastClock.idleTick = State.linkNoise { fastClock with
      dev := { fastClock.dev.advance 40 1 with tclkPhase := 40 }, lanes := fastClock.lanes.map fun x => { x with conv := x.conv.elapse 40 } } := rfl
  rw [h, State.linkNoise_dtime]
  rfl

/-- Refutes O2: where the tether lets DTIME run fast, a tick of 40 ns adds 41 when the fraction carries. -/
theorem not_emptyQueueTicks : ¬ Obligations.EmptyQueueTicks := by
  unfold Obligations.EmptyQueueTicks
  intro h
  obtain ⟨s', hs, ht, -, -⟩ := (h fastClock rfl).2 rfl rfl rfl
  obtain rfl : fastClock.idleTick = s' := by simpa [step, show fastClock.pending = [] from rfl] using hs
  rw [fastClock_tick] at ht
  exact absurd ht (by decide)

/-- A vector read at reset. -/
theorem State.reset_core (t : CoreId) : State.reset.core t = {} := by
  simp [State.core, State.reset, Vector.get]

/-- Settles O6: each vector of the reset state holds its type's reset value at every index. -/
theorem resetValues : Obligations.ResetValues := by
  unfold Obligations.ResetValues
  refine ⟨rfl, rfl, rfl, rfl, fun t => ?_, fun l => ?_, fun x => ?_⟩
  · simp [State.reset_core]
  · simp [State.lane, State.reset, Vector.get]
  · simp [State.src, State.reset, Vector.get, IcSrc.pending]
    split <;> (try split) <;> simp

/-- Settles O8: the decoder computes on each word. -/
theorem decodedWords : Obligations.DecodedWords := by
  unfold Obligations.DecodedWords
  intro t
  refine ⟨rfl, rfl, rfl, rfl, rfl, rfl, rfl, rfl, rfl, rfl, rfl, rfl, rfl, rfl⟩

end Sys2Proof.Machine

/-! SUPPORT. A Camku instruction that changes its core alone: how it goes on, what a written register and written flags leave alone, and the words in which the statements say so (R293, R298, R310, R315). -/

namespace Sys2Proof.Machine

/-! ### Registers and flags of a core -/

theorem CoreState.dest_ne_none (c : CoreState) (r : RegCode) : c.dest r ≠ .none := by
  unfold CoreState.dest winDest; dsimp only; repeat' split
  all_goals simp

theorem CoreState.getDest_putDest (c : CoreState) {x : Dest} (v : Word) (h : x ≠ .none) : (c.putDest x v).getDest x = v := by
  cases x with
  | none => exact absurd rfl h
  | _ => exact get_set_self ..

theorem CoreState.getDest_putDest_ne (c : CoreState) {x y : Dest} (v : Word) (h : y ≠ x) : (c.putDest x v).getDest y = c.getDest y := by
  cases x <;> cases y <;> first | rfl | exact get_set_ne _ _ fun e => h (e ▸ rfl)

theorem CoreState.putDest_keepsRest (c : CoreState) (x : Dest) (v : Word) : c.keepsRest (c.putDest x v) := by
  cases x <;> rfl

theorem mergeMask_keeps (m a b : Word) : mergeMask m a b &&& ~~~m = a &&& ~~~m := by
  unfold mergeMask; ext i hi; simp; grind

@[simp] theorem CoreState.setFlags_flags (c : CoreState) (f : Flags) : (c.setFlags f).flags = f := by
  obtain ⟨z, n, v, w⟩ := f
  cases z <;> cases n <;> cases v <;> cases w <;>
    simp [CoreState.flags, CoreState.setFlags, mergeMask, packFields, b2n, bitOf]

theorem CoreState.setFlags_st (c : CoreState) (f : Flags) : (c.setFlags f).st &&& ~~~0x1E0 = c.st &&& ~~~0x1E0 := mergeMask_keeps ..

@[simp] theorem CoreState.setFlags_getDest (c : CoreState) (f : Flags) (x : Dest) : (c.setFlags f).getDest x = c.getDest x := by cases x <;> rfl

@[simp] theorem CoreState.setReg_pc (c : CoreState) (r : RegCode) (v : Word) : (c.setReg r v).pc = c.pc := c.putDest_pc ..
@[simp] theorem CoreState.setReg_slot (c : CoreState) (r : RegCode) (v : Word) : (c.setReg r v).slot = c.slot := c.putDest_slot ..
@[simp] theorem CoreState.setReg_st (c : CoreState) (r : RegCode) (v : Word) : (c.setReg r v).st = c.st := c.putDest_st ..
@[simp] theorem CoreState.setReg_run (c : CoreState) (r : RegCode) (v : Word) : (c.setReg r v).run = c.run := c.putDest_run ..
@[simp] theorem CoreState.setReg_flags (c : CoreState) (r : RegCode) (v : Word) : (c.setReg r v).flags = c.flags := by simp [CoreState.flags]
@[simp] theorem CoreState.setReg_flight (c : CoreState) (r : RegCode) (v : Word) : (c.setReg r v).flight = c.flight.filter fun x => !x.loads (c.dest r) := rfl

@[simp] theorem CoreState.setReg_getDest (c : CoreState) (r : RegCode) (v : Word) : (c.setReg r v).getDest (c.dest r) = v :=
  c.getDest_putDest v (c.dest_ne_none r)

theorem CoreState.setReg_getDest_ne (c : CoreState) {r : RegCode} {y : Dest} (v : Word) (h : y ≠ c.dest r) : (c.setReg r v).getDest y = c.getDest y :=
  c.getDest_putDest_ne v h

theorem CoreState.setReg_keepsRest (c : CoreState) (r : RegCode) (v : Word) : c.keepsRest (c.setReg r v) := c.putDest_keepsRest ..

/-! ### Behind an instruction -/

@[simp] theorem CoreState.advance_getDest (c : CoreState) (x : Dest) : c.advance.getDest x = c.getDest x := by
  unfold CoreState.advance; dsimp only; repeat' split
  all_goals cases x <;> rfl

@[simp] theorem CoreState.advance_flight (c : CoreState) : c.advance.flight = c.flight := by
  unfold CoreState.advance; dsimp only; repeat' split
  all_goals rfl

@[simp] theorem CoreState.advance_slot (c : CoreState) : c.advance.slot = none := by
  unfold CoreState.advance; dsimp only; repeat' split
  all_goals first | assumption | rfl

@[simp] theorem CoreState.advance_pc (c : CoreState) : c.advance.pc = c.behind := by
  unfold CoreState.advance CoreState.behind
  cases h : c.slot with
  | none => simp only
  | some x =>
    simp only
    split <;> rfl

/-- Outside the slot of RETX, going on leaves st alone. -/
theorem CoreState.advance_st {c : CoreState} (h : c.slot.any Slot.retx = false) : c.advance.st = c.st := by
  unfold CoreState.advance; split
  · rfl
  · next hs => rw [hs] at h; simp_all

theorem CoreState.keepsRest_advance {c e : CoreState} (h : c.keepsRest e) : c.keepsRest e.advance := by
  refine Eq.trans ?_ h
  unfold CoreState.advance; dsimp only; repeat' split
  all_goals rfl

theorem CoreState.goesOn_advance {c e : CoreState} {f : Flags} (hpc : e.pc = c.pc) (hslot : e.slot = c.slot) (hf : e.flags = f)
    (hst : e.st &&& ~~~0x1E0 = c.st &&& ~~~0x1E0) : c.goesOn e.advance f := by
  refine ⟨by simp [CoreState.behind, hpc, hslot], by simp, fun h => ?_⟩
  have h := CoreState.advance_st (hslot ▸ h)
  exact ⟨by rw [← hf]; simp [CoreState.flags, h], by rw [h, hst]⟩

/-- What an instruction that only writes a register and flags leaves. -/
theorem CoreState.writesReg_advance {c e : CoreState} {x : Dest} {v : Word} {f : Flags} (hx : e.getDest x = v) (hne : ∀ y, y ≠ x → e.getDest y = c.getDest y)
    (hpc : e.pc = c.pc) (hslot : e.slot = c.slot) (hf : e.flags = f) (hst : e.st &&& ~~~0x1E0 = c.st &&& ~~~0x1E0) (hrest : c.keepsRest e)
    (hfl : e.flight = c.flight.filter fun i => !i.loads x) : c.writesReg e.advance x v f :=
  ⟨by simp [hx], fun y hy => by simp [hne y hy], CoreState.goesOn_advance hpc hslot hf hst, CoreState.keepsRest_advance hrest, by simp [hfl]⟩

theorem CoreState.setReg_writes (c : CoreState) (r : RegCode) (v : Word) : c.writesCode (c.setReg r v).advance r v c.flags :=
  CoreState.writesReg_advance (by simp) (fun _ h => c.setReg_getDest_ne v h) (by simp) (by simp) (by simp) (by simp) (c.setReg_keepsRest r v) rfl

theorem CoreState.setReg_setFlags_writes (c : CoreState) (r : RegCode) (v : Word) (f : Flags) : c.writesCode ((c.setReg r v).setFlags f).advance r v f :=
  CoreState.writesReg_advance (by simp) (fun _ h => by simp [c.setReg_getDest_ne v h]) (c.setReg_pc r v) (c.setReg_slot r v) (by simp)
    (by rw [CoreState.setFlags_st, CoreState.setReg_st]) (c.setReg_keepsRest r v) rfl

/-- An ALU row writes its result and, where it sets flags, theirs (R310). -/
theorem CoreState.alu_writes (c : CoreState) (op : AluOp) (rd : RegCode) (a b : Word) (sets : Bool) :
    c.writesCode (c.alu op rd a b sets).advance rd (op a b c.flags).1 (if sets then (op a b c.flags).2 else c.flags) := by
  cases sets
  · exact c.setReg_writes rd _
  · exact c.setReg_setFlags_writes rd _ _

theorem CoreState.setFlags_writes (c : CoreState) (f : Flags) : c.writesFlags (c.setFlags f).advance f :=
  ⟨fun x => by simp, CoreState.goesOn_advance rfl rfl (by simp) (c.setFlags_st f), CoreState.keepsRest_advance rfl, by simp; rfl⟩

/-- What a core that changes nothing but specials and what is in flight leaves. -/
theorem CoreState.sends_advance {c e : CoreState} {xs : List InFlight} (hregs : c.keepsRegs e) (hpc : e.pc = c.pc) (hslot : e.slot = c.slot)
    (hst : e.st = c.st) (hrest : c.keepsRest e) (hfl : e.flight = xs) : c.sends e.advance xs :=
  ⟨fun x => by simp [hregs x], CoreState.goesOn_advance hpc hslot (by simp [CoreState.flags, hst]) (by rw [hst]), CoreState.keepsRest_advance hrest, by simp [hfl]⟩

/-! ### The frame of an instruction that changes its core alone -/

section onCore
variable {i : Instr} {s : State} {t : CoreId} {P : CoreState → CoreState → Prop}

@[simp] theorem State.onlyCore_modCore (s : State) (t : CoreId) (f : CoreState → CoreState) : s.onlyCore (s.modCore t f) t := by
  simp [State.onlyCore, State.modCore, State.setCore, State.core, Vector.get]

/-- An instruction that goes on with its core changed alone. -/
theorem onCore_modCore {f : CoreState → CoreState} (hi : exec i s = .next ((s.begun t).modCore t f)) (hP : P ((s.begun t).core t) (f ((s.begun t).core t))) :
    onCore i s t P :=
  ⟨_, hi, by simp, fun _ => rfl, by simpa using hP⟩

/-- An instruction that is a change of its core. -/
theorem onCore_coreInstr {f : CoreState → CoreState} (hs : s.fetches t) (hi : exec i s = .next (s.coreInstr t f))
    (hrun : (f ((s.begun t).core t)).run = ((s.begun t).core t).run) (hP : P ((s.begun t).core t) (f ((s.begun t).core t)).advance) : onCore i s t P := by
  obtain ⟨hr, hc, hf, hk⟩ := hs
  exact onCore_modCore (f := fun c => (f c).advance) (by rw [hi, State.coreInstr_runs hr hc hf hk hrun]) hP

@[simp] theorem CoreState.alu_run (c : CoreState) (op : AluOp) (rd : RegCode) (a b : Word) (sets : Bool) : (c.alu op rd a b sets).run = c.run := by
  cases sets <;> exact c.setReg_run ..

/-- A row of two registers. -/
theorem onCore_aluRow {op : AluOp} {rd ra rb : RegCode} {sets : Bool} (hs : s.fetches t) (hi : exec i s = .next (s.aluRow t op rd ra rb sets))
    (hP : ∀ c d : CoreState, c.writesCode d rd (op (c.reg ra) (c.reg rb) c.flags).1 (if sets then (op (c.reg ra) (c.reg rb) c.flags).2 else c.flags) → P c d) :
    onCore i s t P :=
  onCore_coreInstr hs hi (by simp) (hP _ _ (CoreState.alu_writes ..))

/-- A row that writes one register and no flags. -/
theorem onCore_setReg {rd : RegCode} {v : CoreState → Word} (hs : s.fetches t) (hi : exec i s = .next (s.coreInstr t fun c => c.setReg rd (v c))) :
    onCore i s t fun c d => c.writesCode d rd (v c) c.flags :=
  onCore_coreInstr hs hi (by simp) (CoreState.setReg_writes ..)

end onCore

end Sys2Proof.Machine

/-! SUPPORT. Camku arithmetic, logic, shifts, compares, immediates and moves (O9–O14). -/

namespace Sys2Proof.Machine

/-! ### Overflow (R310) -/

theorem getLsbD_31_eq (x : Word) : x.getLsbD 31 = decide (x.toInt < 0) := by
  rw [← BitVec.msb_eq_toInt, BitVec.msb_eq_getLsbD_last]

theorem toInt_cases (x : Word) : (x.toInt = x.toNat ∧ x.toNat < 2 ^ 31) ∨ (x.toInt = x.toNat - 2 ^ 32 ∧ 2 ^ 31 ≤ x.toNat) := by
  rw [BitVec.toInt_eq_toNat_cond]; split <;> omega

theorem addOverflow_eq (x y : Word) (k : Bool) :
    addOverflow x y (x + y + BitVec.ofNat 32 (b2n k)) = decide (x.toInt + y.toInt + b2n k < -(2 ^ 31) ∨ 2 ^ 31 ≤ x.toInt + y.toInt + b2n k) := by
  have hr : (x + y + BitVec.ofNat 32 (b2n k)).toNat = (x.toNat + y.toNat + b2n k) % 2 ^ 32 := by
    simp [BitVec.toNat_add]
  have hk : b2n k ≤ 1 := by cases k <;> simp [b2n]
  have hx := toInt_cases x
  have hy := toInt_cases y
  have hs := toInt_cases (x + y + BitVec.ofNat 32 (b2n k))
  rw [hr] at hs
  rw [Bool.eq_iff_iff]
  simp only [addOverflow, getLsbD_31_eq, ne_eq, decide_eq_decide, decide_not, Bool.not_eq_true', decide_eq_false_iff_not, Bool.and_eq_true, decide_eq_true_eq]
  omega

theorem subOverflow_eq (x y : Word) (k : Bool) :
    subOverflow x y (x - y - BitVec.ofNat 32 (b2n k)) = decide (x.toInt - y.toInt - b2n k < -(2 ^ 31) ∨ 2 ^ 31 ≤ x.toInt - y.toInt - b2n k) := by
  have hr : (x - y - BitVec.ofNat 32 (b2n k)).toNat = (x.toNat + (2 ^ 32 - y.toNat) + (2 ^ 32 - b2n k)) % 2 ^ 32 := by
    cases k <;> simp [BitVec.toNat_sub, b2n] <;> omega
  have hk : b2n k ≤ 1 := by cases k <;> simp [b2n]
  have hx := toInt_cases x
  have hy := toInt_cases y
  have hs := toInt_cases (x - y - BitVec.ofNat 32 (b2n k))
  have hyl := y.isLt
  rw [hr] at hs
  rw [Bool.eq_iff_iff]
  simp only [subOverflow, getLsbD_31_eq, ne_eq, decide_eq_decide, decide_not, Bool.not_eq_true', decide_eq_false_iff_not, Bool.and_eq_true, decide_eq_true_eq]
  omega

/-- The flags of a sum and of a difference, by the exact sums (R310). -/
theorem addWith_eq (x y : Word) (k : Bool) : addWith x y k = (x + y + BitVec.ofNat 32 (b2n k),
    { z := decide (x + y + BitVec.ofNat 32 (b2n k) = 0), n := (x + y + BitVec.ofNat 32 (b2n k)).getLsbD 31,
      c := decide (2 ^ 32 ≤ x.toNat + y.toNat + b2n k), v := decide (x.toInt + y.toInt + b2n k < -(2 ^ 31) ∨ 2 ^ 31 ≤ x.toInt + y.toInt + b2n k) }) := by
  simp only [addWith, addOverflow_eq]

theorem subWith_eq (x y : Word) (k : Bool) : subWith x y k = (x - y - BitVec.ofNat 32 (b2n k),
    { z := decide (x - y - BitVec.ofNat 32 (b2n k) = 0), n := (x - y - BitVec.ofNat 32 (b2n k)).getLsbD 31,
      c := decide (y.toNat + b2n k ≤ x.toNat), v := decide (x.toInt - y.toInt - b2n k < -(2 ^ 31) ∨ 2 ^ 31 ≤ x.toInt - y.toInt - b2n k) }) := by
  simp only [subWith, subOverflow_eq]

/-- Settles O9: each row writes what addWith or subWith gives, whose flags are those of the exact sums. -/
theorem addSubtract : Obligations.AddSubtract := by
  unfold Obligations.AddSubtract
  intro t rd ra rb sets s hs
  refine ⟨onCore_aluRow hs rfl fun c d h => ?_, onCore_aluRow hs rfl fun c d h => ?_, onCore_aluRow hs rfl fun c d h => ?_, onCore_aluRow hs rfl fun c d h => ?_⟩
  · simpa [addWith_eq, b2n] using h
  · simpa [subWith_eq, b2n] using h
  · simpa [addWith_eq] using h
  · have hk : b2n (!c.flags.c) = 1 - b2n c.flags.c := by cases c.flags.c <;> rfl
    simpa [subWith_eq, hk] using h

/-! ### Logic, products and bounds (R312) -/

/-- Bits 32–63 of a product, taken as integers, are those of the 64-bit words. -/
theorem highWord_eq (p : Int) : highWord p = (BitVec.ofInt 64 p).extractLsb' 32 32 := by
  apply BitVec.eq_of_toNat_eq
  rw [highWord, BitVec.extractLsb'_toNat, BitVec.toNat_ofInt, BitVec.toNat_ofInt, Nat.shiftRight_eq_div_pow, Int.fdiv_eq_ediv_of_nonneg _ (by decide)]
  have h : (0 : Int) ≤ p % 2 ^ 64 := Int.emod_nonneg _ (by decide)
  omega

theorem mulHigh_eq (x y : Word) : mulHigh x y = (x.signExtend 64 * y.signExtend 64).extractLsb' 32 32 := by
  rw [mulHigh, highWord_eq, BitVec.ofInt_mul]; rfl

theorem mulHighU_eq (x y : Word) : mulHighU x y = (x.zeroExtend 64 * y.zeroExtend 64).extractLsb' 32 32 := by
  have h (z : Word) : BitVec.ofInt 64 (z.toNat : Int) = z.zeroExtend 64 := by
    apply BitVec.eq_of_toNat_eq; simp [BitVec.truncate_eq_setWidth]
  rw [mulHighU, highWord_eq, BitVec.ofInt_mul, h, h]

/-- The first one of a word that is not 0 stands at its logarithm. -/
theorem leadingZeros_spec (x : Word) : leadingZeros x ≤ 32 ∧ (∀ i, 32 - leadingZeros x ≤ i → x.getLsbD i = false) ∧
    (leadingZeros x < 32 → x.getLsbD (31 - leadingZeros x) = true) := by
  unfold leadingZeros; split
  · next h => simp [h]
  · next h =>
    have h0 : x.toNat ≠ 0 := fun e => h (BitVec.eq_of_toNat_eq e)
    have hl : x.toNat.log2 < 32 := (Nat.log2_lt h0).2 x.isLt
    refine ⟨by omega, fun i hi => ?_, fun _ => ?_⟩
    · rw [BitVec.getLsbD]
      exact Nat.testBit_lt_two_pow (Nat.lt_of_lt_of_le Nat.lt_log2_self (Nat.pow_le_pow_right (by decide) (by omega)))
    · have : 31 - (31 - x.toNat.log2) = x.toNat.log2 := by omega
      rw [this, BitVec.getLsbD]
      exact Nat.testBit_log2 h0

/-- Settles O10: each row is an operation whose c and v stay. -/
theorem logicAndProducts : Obligations.LogicAndProducts := by
  unfold Obligations.LogicAndProducts
  intro t rd ra rb sets s hs gives
  have row (i : Instr) (f : Word → Word → Word) (r : Word → Word → Word → Prop) (hi : exec i s = .next (s.aluRow t (plainOp f) rd ra rb sets))
      (hr : ∀ x y, r x y (f x y)) : gives i r :=
    onCore_aluRow hs hi fun c d h => ⟨_, hr _ _, by cases sets <;> exact h⟩
  have clz : gives (.clz t rd ra sets) fun x _ v =>
      v.toNat ≤ 32 ∧ (∀ i, 32 - v.toNat ≤ i → x.getLsbD i = false) ∧ (v.toNat < 32 → x.getLsbD (31 - v.toNat) = true) := by
    have hz (x : Word) : (BitVec.ofNat 32 (leadingZeros x)).toNat = leadingZeros x := by
      have := (leadingZeros_spec x).1
      simp only [BitVec.toNat_ofNat]; omega
    refine onCore_coreInstr hs rfl (by simp) ⟨BitVec.ofNat 32 (leadingZeros (((s.begun t).core t).reg ra)), ?_, ?_⟩
    · dsimp only; rw [hz]; exact leadingZeros_spec _
    · exact (CoreState.alu_writes _ (plainOp fun a _ => BitVec.ofNat 32 (leadingZeros a)) rd _ 0 sets)
  clear_value gives
  refine ⟨?_, ?_, ?_, ?_, ?_, ?_, ?_, ?_, ?_, ?_, ?_, clz⟩
  · refine row (.and t rd ra rb sets) (· &&& ·) _ rfl ?_; exact fun _ _ => rfl
  · refine row (.or t rd ra rb sets) (· ||| ·) _ rfl ?_; exact fun _ _ => rfl
  · refine row (.xor t rd ra rb sets) (· ^^^ ·) _ rfl ?_; exact fun _ _ => rfl
  · refine row (.andn t rd ra rb sets) (fun x y => x &&& ~~~y) _ rfl ?_; exact fun _ _ => rfl
  · refine row (.mul t rd ra rb sets) (· * ·) _ rfl ?_; exact fun x y => BitVec.eq_of_toNat_eq (by simp)
  · refine row (.mulh t rd ra rb sets) mulHigh _ rfl ?_; exact mulHigh_eq
  · refine row (.mulhu t rd ra rb sets) mulHighU _ rfl ?_; exact mulHighU_eq
  · refine row (.min t rd ra rb sets) minS _ rfl ?_; exact fun x y => by unfold minS; split <;> omega
  · refine row (.max t rd ra rb sets) maxS _ rfl ?_; exact fun x y => by unfold maxS; split <;> omega
  · refine row (.minu t rd ra rb sets) minU _ rfl ?_; exact fun x y => by unfold minU; split <;> omega
  · refine row (.maxu t rd ra rb sets) maxU _ rfl ?_; exact fun x y => by unfold maxU; split <;> omega


/-! ### Shifts (R312, R313) -/

theorem sshiftRight_eq_div (x : Word) (n : Nat) : x.sshiftRight n = BitVec.ofInt 32 (x.toInt / 2 ^ n) := by
  rw [BitVec.sshiftRight, Int.shiftRight_eq_div_pow]; simp

theorem rotateRight_eq_or (x : Word) {n : Nat} (h : n < 32) : x.rotateRight n = x >>> n ||| x <<< (32 - n) := by
  rw [BitVec.rotateRight_def, Nat.mod_eq_of_lt h]

/-- A row that shifts by k, its result and the bit that it shifts out. -/
theorem onCore_shift {i : Instr} {s : State} {t : CoreId} {rd : RegCode} {sets : Bool} {f : CoreState → CoreState} {k : Fin 4} {x b : CoreState → Word}
    (hs : s.fetches t) (hi : exec i s = .next (s.coreInstr t f)) (hf : ∀ c, f c = c.alu (shiftOp k) rd (x c) (b c) sets) :
    onCore i s t fun c d => c.writesCode d rd (shiftResult k (x c) ((b c).toNat % 32))
      (if sets then { z := decide (shiftResult k (x c) ((b c).toNat % 32) = 0), n := (shiftResult k (x c) ((b c).toNat % 32)).getLsbD 31, c := if (b c).toNat % 32 = 0 then c.flags.c else shiftedOut k (x c) ((b c).toNat % 32), v := c.flags.v } else c.flags) :=
  onCore_coreInstr hs hi (by simp [hf]) (by rw [hf]; exact CoreState.alu_writes ..)

/-- Settles O11: a shift by register or by immediate is one operation, whose amount is below 32. -/
theorem shifts : Obligations.Shifts := by
  unfold Obligations.Shifts
  intro t rd ra rb amount sets s hs
  have ha : (amount.zeroExtend 32).toNat % 32 = amount.toNat := by
    have := amount.isLt
    simp only [BitVec.truncate_eq_setWidth, BitVec.toNat_setWidth]; omega
  have hr (x : Word) (b : Word) : x.rotateRight (b.toNat % 32) = x >>> (b.toNat % 32) ||| x <<< (32 - b.toNat % 32) :=
    rotateRight_eq_or x (Nat.mod_lt _ (by decide))
  have byReg (k : Fin 4) {i : Instr} (hi : exec i s = .next (s.aluRow t (shiftOp k) rd ra rb sets)) :=
    onCore_shift (x := fun c => c.reg ra) (b := fun c => c.reg rb) hs hi fun _ => rfl
  have byImm (k : Fin 4) :=
    onCore_shift (i := .shi t k rd ra amount sets) (x := fun c => c.reg ra) (b := fun _ => amount.zeroExtend 32) hs rfl fun _ => rfl
  have hr' (x : Word) := rotateRight_eq_or x (n := amount.toNat) (by omega)
  simp only [ha] at byImm
  refine ⟨byReg 0 rfl, byImm 0, byReg 1 rfl, byImm 1, ?_, ?_, ?_, ?_⟩
  · have h := byReg 2 (i := .sar t rd ra rb sets) rfl
    simp only [shiftResult, sshiftRight_eq_div] at h
    exact h
  · have h := byImm 2
    simp only [shiftResult, sshiftRight_eq_div] at h
    exact h
  · have h := byReg 3 (i := .ror t rd ra rb sets) rfl
    simp only [shiftResult, hr] at h
    exact h
  · have h := byImm 3
    simp only [shiftResult, hr'] at h
    exact h

/-! ### Compares, immediates and moves (R312, R313, R315) -/

theorem CoreState.compare_writes (c : CoreState) (x y : Word) : c.writesFlags (c.compare x y).advance
    { z := decide (x = y), n := (x - y).getLsbD 31, c := decide (y.toNat ≤ x.toNat), v := decide (x.toInt - y.toInt < -(2 ^ 31) ∨ 2 ^ 31 ≤ x.toInt - y.toInt) } := by
  have h : (subWith x y false).2 =
      { z := decide (x = y), n := (x - y).getLsbD 31, c := decide (y.toNat ≤ x.toNat), v := decide (x.toInt - y.toInt < -(2 ^ 31) ∨ 2 ^ 31 ≤ x.toInt - y.toInt) } := by
    have h0 : (x - y = 0#32) = (x = y) := propext ⟨fun h => by bv_omega, fun h => by bv_omega⟩
    simp [subWith_eq, b2n, h0]
  rw [← h]
  exact c.setFlags_writes _

/-- Settles O12: each row sets flags alone. -/
theorem compares : Obligations.Compares := by
  unfold Obligations.Compares
  intro t ra rb imm sets s hs
  exact ⟨onCore_coreInstr hs rfl rfl (CoreState.compare_writes ..), onCore_coreInstr hs rfl rfl (CoreState.compare_writes ..),
    onCore_coreInstr hs rfl rfl (CoreState.setFlags_writes ..)⟩

/-- Settles O13: each row writes one register. -/
theorem immediatesAndMoves : Obligations.ImmediatesAndMoves := by
  unfold Obligations.ImmediatesAndMoves
  intro t rd ra imm n s hs
  refine ⟨onCore_setReg hs rfl, onCore_setReg hs rfl, onCore_setReg hs rfl, onCore_setReg hs rfl, onCore_setReg hs rfl, ?_,
    onCore_setReg hs rfl, onCore_setReg hs rfl, onCore_setReg hs rfl, onCore_setReg hs rfl, ?_⟩
  · have h (x : Word) : imm ++ x.extractLsb' 0 16 = (imm.zeroExtend 32) <<< 16 ||| (x &&& 0xFFFF) := by
      apply BitVec.eq_of_getLsbD_eq
      intro i hi
      have hm : (0xFFFF : Word).getLsbD i = decide (i < 16) := by
        rw [show (0xFFFF : Word) = BitVec.ofNat 32 (2 ^ 16 - 1) from rfl, BitVec.getLsbD_ofNat, Nat.testBit_two_pow_sub_one]
        simp; omega
      rw [BitVec.getLsbD_append, BitVec.getLsbD_or, BitVec.getLsbD_and, hm]
      by_cases h : i < 16 <;> simp [h, hi, BitVec.truncate_eq_setWidth] <;> omega
    simp only [h]
    exact onCore_setReg hs rfl
  · have h := onCore_setReg (rd := rd) (v := fun c => c.ctrl t n.val) (i := .mfc t rd n) hs rfl
    fin_cases n <;> exact h

/-- Settles O14: a special is written at once, and a control register by what is sent to it. -/
theorem movesToSpecials : Obligations.MovesToSpecials := by
  unfold Obligations.MovesToSpecials
  intro t ra n s hs
  have special (f : CoreState → CoreState) {i : Instr} (hi : exec i s = .next (s.coreInstr t f)) (hr : ∀ c, (f c).run = c.run) (hf : ∀ c, (f c).flight = c.flight) :
      onCore i s t fun c d => (f c).sends d c.flight :=
    onCore_coreInstr hs hi (hr _) (hf _ ▸ CoreState.sends_advance (fun _ => rfl) rfl rfl rfl rfl rfl)
  have sent (x : CoreState → InFlight) {i : Instr} (hi : exec i s = .next (s.coreInstr t fun c => { c with flight := c.flight ++ [x c] })) :
      onCore i s t fun c d => c.sends d (c.flight ++ [x c]) :=
    onCore_coreInstr hs hi rfl (CoreState.sends_advance (fun y => by cases y <;> rfl) rfl rfl rfl rfl rfl)
  exact ⟨special id rfl (fun _ => rfl) fun _ => rfl, special (fun c => { c with lk := c.reg ra }) rfl (fun _ => rfl) fun _ => rfl,
    special (fun c => { c with xs := c.reg ra }) rfl (fun _ => rfl) fun _ => rfl, special (fun c => { c with xd := c.reg ra }) rfl (fun _ => rfl) fun _ => rfl,
    special (fun c => { c with xc := c.reg ra }) rfl (fun _ => rfl) fun _ => rfl,
    sent (fun c => .ctrl 4 n (c.reg ra)) rfl, sent (fun _ => .ie 4 true) rfl, sent (fun _ => .ie 4 false) rfl⟩

end Sys2Proof.Machine

/-! SUPPORT. What stands before an instruction's own work: results in flight that age (O15), the fetch (O16), the encoding (O7). -/

namespace Sys2Proof.Machine

/-! ### Results in flight (R298) -/

/-- The only result in flight has come one instruction closer, or has taken effect. -/
theorem State.begun_core_single {s : State} {t : CoreId} {x : InFlight} (h : (s.core t).flight = [x]) :
    (s.begun t).core t = match x.age with
      | some y => { s.core t with flight := [y], ccnt := (s.core t).ccnt + 1 }
      | none => { (s.commit t x).core t with flight := [], ccnt := ((s.commit t x).core t).ccnt + 1 } := by
  cases ha : x.age <;> simp [State.begun, State.ageFlight, h, ha, State.forEach]

theorem setStBit_ie (c : CoreState) (v : Bool) : (c.setStBit 0 v).ie = v ∧ (c.setStBit 0 v).st &&& ~~~1 = c.st &&& ~~~1 := by
  refine ⟨?_, mergeMask_keeps ..⟩
  cases v <;> simp [CoreState.ie, CoreState.setStBit, setFld, mergeMask, maskOf, b2n, bitOf]

/-- Settles O15: an item ages by one, and at distance 1 it is committed. -/
theorem distances : Obligations.Distances := by
  unfold Obligations.Distances
  intro s t x hx d
  have hd := State.begun_core_single hx
  have regs (c : CoreState) (f : List InFlight) (k : Word) (y : Dest) : CoreState.getDest { c with flight := f, ccnt := k } y = c.getDest y := by
    cases y <;> rfl
  refine ⟨?_, ?_, ?_, ?_, ?_, ?_, ?_, ?_, ?_⟩
  all_goals intros
  all_goals subst x
  · next n r v hn =>
    simp [d, hd, InFlight.age, show ¬ n ≤ 1 by omega, CoreState.keepsRegs, regs]
  · next r v hr =>
    refine ⟨by simp [d, hd, InFlight.age], ?_, fun y hy => ?_⟩
    · simp only [d, hd, InFlight.age, State.commit, State.core_modCore]
      exact (regs ..).trans (CoreState.getDest_putDest _ v hr)
    · simp only [d, hd, InFlight.age, State.commit, State.core_modCore]
      exact (regs ..).trans (CoreState.getDest_putDest_ne _ v hy)
  · next n k v hn => simp [d, hd, InFlight.age, show ¬ n ≤ 1 by omega]
  · simp [d, hd, InFlight.age, State.commit, CoreState.setCtrl, mergeMask, stRw]
  · simp [d, hd, InFlight.age, State.commit, CoreState.setCtrl]
  · simp [d, hd, InFlight.age, State.commit, CoreState.setCtrl]
  · simp [d, hd, InFlight.age, State.commit, CoreState.setCtrl]
  · simp [d, hd, InFlight.age, State.commit, CoreState.setCtrl]
  · next v =>
    simp only [d, hd, InFlight.age, State.commit, State.core_modCore]
    exact setStBit_ie (s.core t) v

/-! ### Fields of an encoded word (R307, R309) -/

theorem bitNat_lt (b : Bool) : bitNat b < 2 := by cases b <;> decide

theorem decide_bitNat (b : Bool) : decide (bitNat b = 1) = b := by cases b <;> rfl

/-- A field of a word that is a sum of fields. -/
theorem wfield_ofNat (n lo len : Nat) : wfield (BitVec.ofNat 32 n) lo len = n % 2 ^ 32 / 2 ^ lo % 2 ^ len := by
  rw [wfield, BitVec.toNat_ofNat]

/-- What the decoder reads of a word of format R: an ALU, SHI or ACC word. -/
theorem wordR_reads {op rd ra rb fn : Nat} (s : Bool) (hop : op < 64) (hrd : rd < 32) (hra : ra < 32) (hrb : rb < 32) (hfn : fn < 64) :
    wfield (wordR op rd ra rb (bitNat s) fn) 26 6 = op ∧ wfield (wordR op rd ra rb (bitNat s) fn) 21 5 = rd ∧
    wfield (wordR op rd ra rb (bitNat s) fn) 16 5 = ra ∧ wfield (wordR op rd ra rb (bitNat s) fn) 11 5 = rb ∧
    flagAt (wordR op rd ra rb (bitNat s) fn) 10 = s ∧ wfield (wordR op rd ra rb (bitNat s) fn) 6 4 = 0 ∧
    wfield (wordR op rd ra rb (bitNat s) fn) 0 6 = fn := by
  have hs := bitNat_lt s
  have h10 : wfield (wordR op rd ra rb (bitNat s) fn) 10 1 = bitNat s := by simp only [wordR, wfield_ofNat]; omega
  simp only [flagAt, h10, decide_bitNat, true_and]
  simp only [wordR, wfield_ofNat]
  omega

/-- What the decoder reads of a CTL word (R315). -/
theorem wordCtl_reads {rd ra rb fn : Nat} (hrd : rd < 32) (hra : ra < 32) (hrb : rb < 32) (hfn : fn < 64) :
    wfield (wordR 0x1A rd ra rb 0 fn) 26 6 = 0x1A ∧ wfield (wordR 0x1A rd ra rb 0 fn) 21 5 = rd ∧ wfield (wordR 0x1A rd ra rb 0 fn) 16 5 = ra ∧
    wfield (wordR 0x1A rd ra rb 0 fn) 6 5 = 0 ∧ wfield (wordR 0x1A rd ra rb 0 fn) 0 6 = fn ∧
    wfield (wordR 0x1A rd ra rb 0 fn) 15 1 = rb / 16 ∧ wfield (wordR 0x1A rd ra rb 0 fn) 11 4 = rb % 16 := by
  simp only [wordR, wfield_ofNat]
  omega

theorem wordI_fields {op : Nat} (hop : op < 64) (rd ra : RegCode) (imm : BitVec 16) : wfield (wordI op rd ra imm) 26 6 = op ∧
    wfield (wordI op rd ra imm) 21 5 = rd.toNat ∧ wfield (wordI op rd ra imm) 16 5 = ra.toNat ∧ wfield (wordI op rd ra imm) 0 16 = imm.toNat := by
  simp only [wordI, wfield_ofNat]
  omega

theorem wordX_fields {sub : Nat} (hsub : sub < 16) (rx : Option RegCode) (ba : BitVec 16) : wfield (wordX sub rx ba) 26 6 = 0x20 ∧
    wfield (wordX sub rx ba) 22 4 = sub ∧ wfield (wordX sub rx ba) 0 16 = ba.toNat ∧ wfield (wordX sub rx ba) 16 1 = bitNat rx.isSome ∧
    wfield (wordX sub rx ba) 17 5 = (rx.getD 0).toNat := by
  have h0 : (0 : RegCode).toNat = 0 := rfl
  cases rx <;> simp only [wordX, wfield_ofNat, Option.isSome, bitNat, Option.getD, Bool.false_eq_true, if_true, if_false, h0] <;> omega

theorem wordS_fields {sz poly fn : Nat} (hsz : sz < 3) (hp : poly < 3) (hfn : fn < 64) (rd ra : RegCode) (dec : Bool) :
    wfield (wordS rd ra sz dec poly fn) 26 6 = 0x2C ∧ wfield (wordS rd ra sz dec poly fn) 21 5 = rd.toNat ∧ wfield (wordS rd ra sz dec poly fn) 16 5 = ra.toNat ∧
    wfield (wordS rd ra sz dec poly fn) 11 5 = 0 ∧ wfield (wordS rd ra sz dec poly fn) 9 2 = sz ∧ wfield (wordS rd ra sz dec poly fn) 8 1 = bitNat dec ∧
    wfield (wordS rd ra sz dec poly fn) 6 2 = poly ∧ wfield (wordS rd ra sz dec poly fn) 0 6 = fn := by
  have := bitNat_lt dec
  simp only [wordS, wfield_ofNat]
  omega

theorem wordBcc_fields (cond : Fin 15) (disp : BitVec 22) : wfield (BitVec.ofNat 32 (0x18 * 2 ^ 26 + cond.val * 2 ^ 22 + disp.toNat)) 26 6 = 0x18 ∧
    wfield (BitVec.ofNat 32 (0x18 * 2 ^ 26 + cond.val * 2 ^ 22 + disp.toNat)) 22 4 = cond.val ∧
    wfield (BitVec.ofNat 32 (0x18 * 2 ^ 26 + cond.val * 2 ^ 22 + disp.toNat)) 0 22 = disp.toNat := by
  simp only [wfield_ofNat]; omega

theorem wordCall_fields (disp : BitVec 26) : wfield (BitVec.ofNat 32 (0x19 * 2 ^ 26 + disp.toNat)) 26 6 = 0x19 ∧
    wfield (BitVec.ofNat 32 (0x19 * 2 ^ 26 + disp.toNat)) 0 26 = disp.toNat := by
  simp only [wfield_ofNat]; omega

theorem wordBrb_fields {op : Nat} (hop : op < 64) (disp : BitVec 10) (ba : BitVec 16) :
    wfield (BitVec.ofNat 32 (op * 2 ^ 26 + disp.toNat * 2 ^ 16 + ba.toNat)) 26 6 = op ∧
    wfield (BitVec.ofNat 32 (op * 2 ^ 26 + disp.toNat * 2 ^ 16 + ba.toNat)) 16 10 = disp.toNat ∧
    wfield (BitVec.ofNat 32 (op * 2 ^ 26 + disp.toNat * 2 ^ 16 + ba.toNat)) 0 16 = ba.toNat := by
  simp only [wfield_ofNat]; omega

theorem wordMacd_fields (acc neg : Bool) (rx ry : RegCode) (xinc yinc : BitVec 4) {w : Word}
    (hw : w = BitVec.ofNat 32 (0x28 * 2 ^ 26 + bitNat acc * 2 ^ 25 + bitNat neg * 2 ^ 24 + rx.toNat * 2 ^ 19 + ry.toNat * 2 ^ 14 + xinc.toNat * 2 ^ 10 + yinc.toNat * 2 ^ 6)) :
    wfield w 26 6 = 0x28 ∧ wfield w 0 6 = 0 ∧ wfield w 25 1 = bitNat acc ∧ wfield w 24 1 = bitNat neg ∧ wfield w 19 5 = rx.toNat ∧ wfield w 14 5 = ry.toNat ∧
    wfield w 10 4 = xinc.toNat ∧ wfield w 6 4 = yinc.toNat := by
  have h1 := bitNat_lt acc
  have h2 := bitNat_lt neg
  subst hw
  simp only [wfield_ofNat]; omega

theorem wordCx_fields (k : Fin 16) (rd ra rb : RegCode) (imm : BitVec 11) {w : Word}
    (hw : w = BitVec.ofNat 32 ((0x30 + k.val) * 2 ^ 26 + rd.toNat * 2 ^ 21 + ra.toNat * 2 ^ 16 + imm.toNat % 2048 + (rb.toNat * 2 ^ 11))) :
    wfield w 26 6 = 0x30 + k.val ∧ wfield w 21 5 = rd.toNat ∧ wfield w 16 5 = ra.toNat ∧ wfield w 11 5 = rb.toNat ∧ wfield w 0 11 = imm.toNat := by
  subst hw
  simp only [wfield_ofNat]; omega

/-! ### Decoding an encoded word -/

theorem fin15_val (c : Fin 15) : fin15 c.val = some c := by simp [fin15]
theorem fin3_val (c : Fin 3) : fin3 c.val = some c := by simp [fin3]

/-- Settles O7: the decoder reads from each word the fields that the encoder put there. -/
theorem decodeOfEncode : Obligations.DecodeOfEncode := by
  unfold Obligations.DecodeOfEncode
  intro i t w h
  cases i
  all_goals simp only [encodeCamku, Option.some.injEq, Prod.mk.injEq, reduceCtorEq] at h
  all_goals obtain ⟨rfl, rfl⟩ := h
  case add | sub | addc | subc | and | or | xor | andn | shl | shr | sar | ror | mul | mulh | mulhu | min | max | minu | maxu | clz | cmp | tst =>
    simp (disch := omega) [decodeCamku, decodeAlu, wordAlu, regAt, wordR_reads]
  case aclr | mac | msu | macu | mfal | mfah | mfag | mtal | mtah | mtag | asr | asl | arnd =>
    simp (disch := omega) [decodeCamku, decodeAcc, regAt, wordR_reads]
  case shi fn _ _ _ _ =>
    fin_cases fn <;> simp (disch := omega) [decodeCamku, regAt, wordR_reads]
  case nop | jmpr | callr | ret | reti | retx | wait | halt | ei | di | mflk | mtlk =>
    simp (disch := omega) [decodeCamku, decodeCtl, regAt, wordCtl_reads]
  case trap n =>
    have hn : n.toNat / 16 = 0 := by omega
    simp (disch := omega) [decodeCamku, decodeCtl, flagAt, wordCtl_reads, hn, Nat.mod_eq_of_lt]
  case mfc c | mtc c _ => simp (disch := omega) [decodeCamku, decodeCtl, regAt, wordCtl_reads, fin15_val]
  case mfx | mtx => simp (disch := omega) [decodeCamku, decodeCtl, regAt, wordCtl_reads, fin3_val]
  case addi | andi | ori | xori | cmpi | movi | movhi | ld | ldh | ldhu | ldb | ldbu | st | sth | stb =>
    simp (disch := omega) [decodeCamku, regAt, wordI_fields]
  case bset rx _ | bclr rx _ | bnot rx _ | btst rx _ | bmovToC rx _ | bmovn rx _ | bmovToBit rx _ | band rx _ | bandn rx _ | bor rx _ | born rx _ | bxor rx _ | btas rx _ =>
    cases rx <;> simp (disch := omega) [decodeCamku, decodeBit, flagAt, regAt, wordX_fields, bitNat]
  case movs | fills | cmps | crcs =>
    simp (disch := omega) [decodeCamku, decodeStr, flagAt, regAt, wordS_fields, fin3_val, decide_bitNat]
  case bcc cond disp =>
    obtain ⟨h1, h2, h3⟩ := wordBcc_fields cond disp
    simp only [decodeCamku, h1, h2, h3, fin15_val]; simp
  case call disp =>
    obtain ⟨h1, h2⟩ := wordCall_fields disp
    simp only [decodeCamku, h1, h2]; simp
  case brbs disp ba =>
    obtain ⟨h1, h2, h3⟩ := wordBrb_fields (op := 0x21) (by decide) disp ba
    simp only [decodeCamku, h1, h2, h3]; simp
  case brbc disp ba =>
    obtain ⟨h1, h2, h3⟩ := wordBrb_fields (op := 0x22) (by decide) disp ba
    simp only [decodeCamku, h1, h2, h3]; simp
  case macd acc neg rx ry xinc yinc =>
    generalize hw : BitVec.ofNat 32 _ = w
    obtain ⟨h1, h2, h3, h4, h5, h6, h7, h8⟩ := wordMacd_fields acc neg rx ry xinc yinc hw.symm
    simp [decodeCamku, flagAt, regAt, h1, h2, h3, h4, h5, h6, h7, h8, decide_bitNat]
  case cx k rd ra rb imm =>
    generalize hw : BitVec.ofNat 32 _ = w
    obtain ⟨h1, h2, h3, h4, h5⟩ := wordCx_fields k rd ra rb imm hw.symm
    fin_cases k <;> simp [decodeCamku, regAt, h1, h2, h3, h4, h5]

/-! ### The fetch (R302, R304) -/

/-- Every Camku instruction executes in the frame of its core. -/
theorem exec_of_encode {i : Instr} {t : CoreId} {w : Word} (h : encodeCamku i = some (t, w)) : ∃ bars f, ∀ s, exec i s = .next (s.instr t bars f) := by
  cases i
  all_goals simp only [encodeCamku, Option.some.injEq, Prod.mk.injEq, reduceCtorEq] at h
  all_goals obtain ⟨rfl, -⟩ := h
  all_goals simp only [exec, State.aluRow, State.immRow, State.loadRow, State.storeRow, State.bitRow, State.flagRow, State.bitBranch, State.callTo, State.str,
    State.coreInstr,
    execAdd, execSub, execAddc, execSubc, execAnd, execOr, execXor, execAndn, execShl, execShr, execSar, execRor, execMul, execMulh, execMulhu, execMin, execMax,
    execMinu, execMaxu, execClz, execCmp, execTst, execAddi, execAndi, execOri, execXori, execCmpi, execShi, execMovi, execMovhi, execLd, execLdh, execLdhu,
    execLdb, execLdbu, execSt, execSth, execStb, execBcc, execCall, execNop, execJmpr, execCallr, execRet, execReti, execRetx, execWait, execHalt, execTrap,
    execMfc, execMtc, execEi, execDi, execMfx, execMtx, execMflk, execMtlk, execBset, execBclr, execBnot, execBtst, execBmovToC, execBmovn, execBmovToBit,
    execBand, execBandn, execBor, execBorn, execBxor, execBtas, execBrbs, execBrbc, execMacd, execAclr, execMac, execMsu, execMacu, execMfal, execMfah, execMfag,
    execMtal, execMtah, execMtag, execAsr, execAsl, execArnd, execMovs, execFills, execCmps, execCrcs, execCx]
  all_goals exact ⟨_, _, fun _ => rfl⟩

/-- Settles O16: the frame stops before the instruction's own work. -/
theorem fetchFirst : Obligations.FetchFirst := by
  unfold Obligations.FetchFirst
  intro i t w s he
  obtain ⟨bars, f, hi⟩ := exec_of_encode he
  refine ⟨fun h => by rw [hi, State.instr_idle h], fun hr hc k hf => by rw [hi, State.instr_noFetch hr hc hf, State.begun_pc], ?_⟩
  rintro rd ra rb sets h hr hc hf hk
  have hrow (g : CoreState → CoreState) : s.coreInstr t g = (s.begun t).takeTrap t 9 ((s.begun t).core t).pc none := by
    rw [State.coreInstr, State.instr_breaks hr hc hf hk rfl, State.begun_pc]
  rcases h with rfl | rfl
  · exact congrArg _ (hrow _)
  · exact congrArg _ (hrow _)

end Sys2Proof.Machine

/-! SUPPORT. Fields of a word that is changed, traps and transfers of a Camku core (O19, O20, O22–O24). -/

namespace Sys2Proof.Machine

/-! ### Fields of a word -/

theorem getLsbD_maskOf {hi lo : Nat} (h : lo ≤ hi) (i : Nat) : (maskOf hi lo).getLsbD i = decide (i < 32 ∧ lo ≤ i ∧ i ≤ hi) := by
  rw [maskOf, BitVec.getLsbD_ofNat, Nat.testBit_mul_two_pow, Nat.testBit_two_pow_sub_one]
  grind

theorem getLsbD_mergeMask (m a b : Word) (i : Nat) : (mergeMask m a b).getLsbD i = if m.getLsbD i then b.getLsbD i else a.getLsbD i := by
  rw [mergeMask, BitVec.getLsbD_or, BitVec.getLsbD_and, BitVec.getLsbD_and, BitVec.getLsbD_not]
  by_cases hi : i < 32
  · cases hm : m.getLsbD i <;> simp [hi]
  · simp [BitVec.getLsbD_of_ge _ _ (Nat.le_of_not_lt hi)]

theorem getLsbD_setFld {hi lo : Nat} (h : lo ≤ hi) (w : Word) (v i : Nat) :
    (setFld w hi lo v).getLsbD i = if i < 32 ∧ lo ≤ i ∧ i ≤ hi then v.testBit (i - lo) else w.getLsbD i := by
  rw [setFld, getLsbD_mergeMask, getLsbD_maskOf h]
  simp only [decide_eq_true_eq]
  split
  · next hc => rw [BitVec.getLsbD_ofNat, Nat.testBit_mul_two_pow]; simp [hc.1, hc.2.1]
  · rfl

theorem testBit_fld (w : Word) (hi lo j : Nat) : (fld w hi lo).testBit j = (decide (j < hi - lo + 1) && w.getLsbD (lo + j)) := by
  rw [fld, Nat.testBit_mod_two_pow, Nat.testBit_div_two_pow, Nat.add_comm j lo]; rfl

theorem fld_lt (w : Word) (hi lo : Nat) : fld w hi lo < 2 ^ (hi - lo + 1) := Nat.mod_lt _ (Nat.two_pow_pos _)

/-- A field that is written reads back as the value's low bits. -/
theorem fld_setFld_same {hi lo : Nat} (h : lo ≤ hi) (hw : hi < 32) (w : Word) (v : Nat) : fld (setFld w hi lo v) hi lo = v % 2 ^ (hi - lo + 1) := by
  refine Nat.eq_of_testBit_eq fun j => ?_
  rw [testBit_fld, getLsbD_setFld h, Nat.testBit_mod_two_pow]
  by_cases hj : j < hi - lo + 1
  · rw [if_pos (by omega), show lo + j - lo = j by omega]
  · simp [hj]

/-- A field reads as before where the bits that changed lie outside it. -/
theorem fld_congr {w v : Word} {hi lo : Nat} (hl : lo ≤ hi) (h : ∀ i, lo ≤ i → i ≤ hi → w.getLsbD i = v.getLsbD i) : fld w hi lo = fld v hi lo := by
  refine Nat.eq_of_testBit_eq fun j => ?_
  rw [testBit_fld, testBit_fld]
  by_cases hj : j < hi - lo + 1
  · rw [h _ (by omega) (by omega)]
  · simp [hj]

theorem fld_setFld_ne {hi lo hi' lo' : Nat} (h : lo ≤ hi) (h' : lo' ≤ hi') (hd : hi' < lo ∨ hi < lo') (w : Word) (v : Nat) :
    fld (setFld w hi lo v) hi' lo' = fld w hi' lo' :=
  fld_congr h' fun i h1 h2 => by rw [getLsbD_setFld h, if_neg (by omega)]

/-- A word that agrees with another outside a mask. -/
theorem and_not_eq_of {m a b : Word} (h : ∀ i, i < 32 → m.getLsbD i = false → a.getLsbD i = b.getLsbD i) : a &&& ~~~m = b &&& ~~~m := by
  apply BitVec.eq_of_getLsbD_eq
  intro i hi
  rw [BitVec.getLsbD_and, BitVec.getLsbD_and, BitVec.getLsbD_not]
  cases hm : m.getLsbD i
  · rw [h i hi hm]
  · simp

/-- The bits of a constant mask. -/
theorem getLsbD_mask_band (i : Nat) : (0xF7000 : Word).getLsbD i = decide ((12 ≤ i ∧ i ≤ 14) ∨ (16 ≤ i ∧ i ≤ 19)) := by
  by_cases hi : i < 32
  · revert hi i; decide
  · rw [BitVec.getLsbD_of_ge _ _ (by omega)]; simp; omega

theorem bitOf_setFld_ne {w : Word} {hi lo v n : Nat} (h : lo ≤ hi) (hn : n < lo ∨ hi < n) : bitOf (setFld w hi lo v) n = bitOf w n := by
  rw [bitOf, bitOf, getLsbD_setFld h, if_neg (by omega)]

theorem setFld_bit3 (w : Word) : setFld w 3 3 1 = w ||| 8 := by
  apply BitVec.eq_of_getLsbD_eq
  intro i hi
  rw [getLsbD_setFld (by decide), BitVec.getLsbD_or]
  have h8 : (8 : Word).getLsbD i = decide (i = 3) := by revert hi i; decide
  rw [h8]
  split
  · next h => simp [show i = 3 by omega]
  · next h => simp [show i ≠ 3 by omega]

/-! ### Traps (R302, R303) -/

section trap
variable {s : State} {t : CoreId} {k : Nat} {pc : Word} {addr : Option Word}

theorem State.takeTrap_double (h : (s.core t).tm = true) : s.takeTrap t k pc addr = s.modCore t fun c => { c with run := .doubleTrap } := by
  simp [State.takeTrap, h]

/-- Outside a delay slot a trap saves the core as its results in flight leave it. -/
theorem State.takeTrap_core (h : (s.core t).tm = false) (hs : (s.core t).slot = none) :
    (s.takeTrap t k pc addr).core t = { (s.flush t).core t with
      tpc := pc, tst := ((s.flush t).core t).st, tcause := BitVec.ofNat 32 k, taddr := addr.getD ((s.flush t).core t).taddr,
      st := ((s.flush t).core t).st ||| 8, pc := (((s.flush t).core t).tvb &&& 0xFFFFFF80) + BitVec.ofNat 32 (8 * k), slot := none, run := .running } := by
  simp [State.takeTrap, h, State.flush_slot, hs, setFld_bit3]

/-- In a delay slot a trap saves the core as it stood before the transfer. -/
theorem State.takeTrap_core_slot {x : Slot} (h : (s.core t).tm = false) (hs : (s.core t).slot = some x) :
    (s.takeTrap t k pc addr).core t = { (s.flush t).core t with
      base := x.base, lk := x.lk, tpc := x.from_, tst := x.flight.foldl InFlight.onSt x.st, tcause := BitVec.ofNat 32 (k + 256),
      taddr := addr.getD ((s.flush t).core t).taddr, st := x.flight.foldl InFlight.onSt x.st ||| 8,
      pc := (((s.flush t).core t).tvb &&& 0xFFFFFF80) + BitVec.ofNat 32 (8 * k), slot := none, run := .running } := by
  simp [State.takeTrap, h, State.flush_slot, hs, setFld_bit3]

theorem State.flush_flight : ((s.flush t).core t).flight = [] := by simp [State.flush]

theorem tm_or_eight (c : CoreState) (w : Word) (h : c.st = w ||| 8) : c.tm = true := by
  rw [CoreState.tm, bitOf, h, BitVec.getLsbD_or]; simp

end trap

/-- Settles O19: the core a trap leaves, in and outside a delay slot. -/
theorem trapEntry : Obligations.TrapEntry := by
  unfold Obligations.TrapEntry
  intro s t k pc addr _ c d
  have regs (e : CoreState) (a1 a2 a3 a4 a5 a6 : Word) (a7 : Option Slot) (a8 : CoreRun) (a9 : Fin 17) (a10 : Word) (y : Dest) :
      CoreState.getDest { e with tpc := a1, tst := a2, tcause := a3, taddr := a4, st := a5, pc := a6, slot := a7, run := a8, base := a9, lk := a10 } y =
        e.getDest y := by cases y <;> rfl
  refine ⟨State.takeTrap_double, fun h => ?_⟩
  cases hs : (s.core t).slot with
  | none =>
    have hd : d = _ := State.takeTrap_core h hs
    refine ⟨tm_or_eight _ c.st (by rw [hd]), by rw [hd], by rw [hd], by rw [hd], by rw [hd]; exact State.flush_flight, fun x => ?_, by rw [hd], ?_, by simp⟩
    · rw [hd]; exact regs c ..
    · intro _; rw [hd]; exact ⟨rfl, rfl, rfl, rfl, rfl, rfl⟩
  | some x =>
    have hd : d = _ := State.takeTrap_core_slot h hs
    refine ⟨tm_or_eight _ (x.flight.foldl InFlight.onSt x.st) (by rw [hd]), by rw [hd], by rw [hd], by rw [hd], by rw [hd]; exact State.flush_flight,
      fun x => ?_, by rw [hd], by simp, ?_⟩
    · rw [hd]; exact regs c ..
    · rintro y ⟨⟩; rw [hd]; exact ⟨rfl, rfl, rfl, rfl, rfl, rfl⟩

/-! ### WAIT, HALT and TRAP (R278, R315) -/

theorem State.commit_groups (s : State) (t : CoreId) (x : InFlight) : (s.commit t x).groups = s.groups := by cases x <;> rfl

theorem State.begun_groups (s : State) (t : CoreId) : (s.begun t).groups = s.groups := by
  simp only [State.begun, State.ageFlight, State.modCore_groups]
  exact State.forEach_same (fun r => r.groups) _ (fun r x => r.commit_groups t x) _ s

theorem State.modCore_modCore (s : State) (t : CoreId) (f g : CoreState → CoreState) : (s.modCore t f).modCore t g = s.modCore t fun c => g (f c) := by
  simp [State.modCore, State.setCore, State.core, get_set_self]

/-- The group of a core that has a clock is not restarted. -/
theorem State.wakeGroup_clocked {s : State} {t : CoreId} (h : s.clocked t = true) : s.wakeGroup t = s := by
  unfold State.wakeGroup
  simp only [State.clocked, Bool.and_eq_true] at h
  split
  · next ht => have h2 := h.2; rw [dif_pos ht] at h2; simp [h2]
  · rfl

theorem State.begun_clocked (s : State) (t : CoreId) : (s.begun t).clocked t = s.clocked t := by
  simp only [State.clocked, State.begun_dev, State.group, State.begun_groups]

/-- A core that changes only in what does not bear on its sources has the same sources ready. -/
theorem State.modCore_wakes (s : State) (t : CoreId) (f : CoreState → CoreState) (h : (f (s.core t)).st = (s.core t).st) :
    (s.modCore t f).wakes t = s.wakes t := by
  funext x; simp only [State.wakes, State.modCore_src, State.modCore_ic, State.core_modCore, h] <;> rfl

/-- The state in which WAIT leaves the core that it puts to sleep. -/
def CoreState.asleep (c : CoreState) (r : CoreRun) : CoreState := { c with run := r, waited := true }

theorem State.wait_wakes {s : State} {t : CoreId} (hc : s.clocked t = true) :
    (s.modCore t fun c => { c with run := .waiting, waited := true }).wakeIfReady t =
      s.modCore t fun c => c.asleep (if allSources.any (s.wakes t) then .running else .waiting) := by
  have hw := State.modCore_wakes s t (fun c => { c with run := .waiting, waited := true }) rfl
  have hg : (s.modCore t fun c => { c with run := .waiting, waited := true }).wakeGroup t = s.modCore t fun c => { c with run := .waiting, waited := true } :=
    State.wakeGroup_clocked (by simpa [State.clocked] using hc)
  unfold State.wakeIfReady
  rw [hw, hg]
  cases allSources.any (s.wakes t)
  · simp; rfl
  · simp only [State.wakeCore, State.core_modCore, decide_true, Bool.and_self, if_true, State.modCore_modCore]; rfl

theorem allSources_any (p : SourceId → Bool) : allSources.any p = true ↔ ∃ x, p x = true := by
  simp [allSources, List.any_eq_true]

theorem CoreState.advance_noSlot {c : CoreState} (h : c.slot = none) : c.advance = { c with pc := c.pc + 4 } := by
  simp [CoreState.advance, h]

/-- Going on behind an instruction that changed its core. -/
theorem State.goOn_modCore {s : State} {t : CoreId} {f g : CoreState → CoreState} (h : (f (s.core t)).run ≠ .inReset) :
    (s.modCore t f).goOn t g = s.modCore t fun c => g (f c) := by
  rw [State.goOn, State.core_modCore, if_neg h, State.modCore_modCore]

/-- Settles O20: each row by the frame of an instruction that runs. -/
theorem trapsAndStops : Obligations.TrapsAndStops := by
  unfold Obligations.TrapsAndStops
  intro t n w s hs
  dsimp only
  obtain ⟨hr, hc, hf, hk⟩ := id hs
  refine ⟨fun hslot => ?_, fun hw => ?_, fun hw => ?_, fun hslot => ⟨?_, ?_⟩⟩
  · simp [exec, execTrap, State.instr_runs hr hc hf hk, hslot]
  · simp [exec, execIllegalInstruction, State.instr_runs hr hc hf hk, hw]
  · obtain ⟨i, hi⟩ := Option.ne_none_iff_exists'.1 hw
    simp [exec, execIllegalInstruction, hi]
  · have hb : ((s.begun t).core t).slot = none := by rw [State.begun_slot, hslot]
    obtain ⟨w, hw⟩ : ∃ w, allSources.any ((s.begun t).wakes t) = w := ⟨_, rfl⟩
    have hstep : exec (.wait t) s = .next ((s.begun t).modCore t fun c => (c.asleep (if w then .running else .waiting)).advance) := by
      have hcb : (s.begun t).clocked t = true := by rw [State.begun_clocked, hc]
      simp only [exec, execWait]
      rw [State.instr_runs hr hc hf hk (by simp [hslot])]
      dsimp only
      rw [State.wait_wakes hcb, hw, State.goOn_modCore]
      cases w <;> simp [CoreState.asleep]
    refine onCore_modCore hstep ?_
    have hb' (r : CoreRun) : (((s.begun t).core t).asleep r).slot = none := hb
    rw [CoreState.advance_noSlot (hb' _)]
    refine ⟨rfl, fun x => by cases x <;> rfl, rfl, fun h => ?_, fun h => ?_⟩
    · rw [(allSources_any _).2 h] at hw; subst hw; rfl
    · rw [show allSources.any ((s.begun t).wakes t) = false by simp [h]] at hw; subst hw; rfl
  · have hb : ((s.begun t).core t).slot = none := by rw [State.begun_slot, hslot]
    have hstep : exec (.halt t) s = .next ((s.begun t).modCore t fun c => ({ c with run := .halted } : CoreState).advance) := by
      simp only [exec, execHalt]
      rw [State.instr_runs hr hc hf hk (by simp [hslot])]
      exact congrArg _ (State.goOn_modCore (by simp))
    refine onCore_modCore hstep ?_
    have hb' : ({ (s.begun t).core t with run := .halted } : CoreState).slot = none := hb
    rw [CoreState.advance_noSlot hb']
    exact ⟨rfl, fun x => by cases x <;> rfl, rfl, rfl⟩

end Sys2Proof.Machine

/-! SUPPORT. Transfers of a Camku core: branches, calls and returns, and the way out of handlers (O22–O24). -/

namespace Sys2Proof.Machine

/-! ### A transfer outside a slot (R315) -/

section transfer
variable {i : Instr} {s : State} {t : CoreId} {bars : Bool} {f : State → InstrEnd}

/-- A core that leaves for a target, with the core as it stood kept for a trap in the slot. -/
def CoreState.leave (c : CoreState) (from_ : CoreState) (target : Option Word) (retx : Bool) : CoreState :=
  { c with slot := some { target := target, from_ := from_.pc, retx := retx, base := from_.base, st := from_.st, lk := from_.lk, flight := from_.flight },
           pc := from_.pc + 4 }

@[simp] theorem CoreState.leave_getDest (c b : CoreState) (x : Option Word) (r : Bool) (y : Dest) : (c.leave b x r).getDest y = c.getDest y := by
  cases y <;> rfl

theorem CoreState.leave_transfers (c b : CoreState) (x : Option Word) (r : Bool) : b.transfers (c.leave b x r) x r := ⟨rfl, rfl⟩

theorem CoreState.leave_keepsRest (c b : CoreState) (x : Option Word) (r : Bool) (h : b.keepsRest c) : b.keepsRest (c.leave b x r) := Eq.trans rfl h

/-- A branch outside a slot, from a state in which the core still runs. -/
theorem exec_branch {s2 : State} {target : Option Word} {retx : Bool} (hi : exec i s = .next (s.instr t bars f)) (hs : s.fetches t)
    (hslot : (s.core t).slot = none) (hf : f (s.begun t) = .branch target retx s2) (hrun : (s2.core t).run = .running) :
    exec i s = .next (s2.modCore t fun d => d.leave ((s.begun t).core t) target retx) := by
  obtain ⟨hr, hc, hfe, hk⟩ := hs
  rw [hi, State.instr_runs hr hc hfe hk (by simp [hslot]), hf]
  simp only [State.goOn, hrun, reduceCtorEq, if_false, CoreState.leave, State.begun_pc]

theorem exec_traps {s2 : State} {k : Nat} {a : Option Word} (hi : exec i s = .next (s.instr t bars f)) (hs : s.fetches t)
    (hslot : (s.core t).slot = none) (hf : f (s.begun t) = .trap k a s2) : exec i s = .next (s2.takeTrap t k (s.core t).pc a) := by
  obtain ⟨hr, hc, hfe, hk⟩ := hs
  rw [hi, State.instr_runs hr hc hfe hk (by simp [hslot]), hf]

/-- A branch that changes its core alone. -/
theorem onCore_branch {target : Option Word} {retx : Bool} {g : CoreState → CoreState} {P : CoreState → CoreState → Prop}
    (hi : exec i s = .next (s.instr t bars f)) (hs : s.fetches t) (hslot : (s.core t).slot = none)
    (hf : f (s.begun t) = .branch target retx ((s.begun t).modCore t g)) (hg : (g ((s.begun t).core t)).run = ((s.begun t).core t).run)
    (hP : P ((s.begun t).core t) ((g ((s.begun t).core t)).leave ((s.begun t).core t) target retx)) : onCore i s t P := by
  have hrun : (((s.begun t).modCore t g).core t).run = .running := by rw [State.core_modCore, hg, State.begun_run]; exact hs.1
  refine onCore_modCore (f := fun c => (g c).leave ((s.begun t).core t) target retx) ?_ hP
  rw [exec_branch hi hs hslot hf hrun, State.modCore_modCore]

end transfer

theorem State.modCore_id (s : State) (t : CoreId) : s.modCore t id = s := by
  simp [State.modCore, State.setCore, State.core, Vector.get]

/-- A displacement in words is four times it in bytes. -/
theorem wordsOff_eq {n : Nat} (d : BitVec n) : wordsOff d = 4 * d.signExtend 32 := by
  rw [wordsOff]; bv_omega

/-- What a condition code of R311 asks of the flags. -/
def Flags.meets (f : Flags) (cond : Fin 15) : Prop :=
  match cond with
  | 0 => True | 1 => f.z | 2 => ¬ f.z | 3 => f.c | 4 => ¬ f.c | 5 => f.n | 6 => ¬ f.n | 7 => f.v | 8 => ¬ f.v
  | 9 => f.c ∧ ¬ f.z | 10 => ¬ f.c ∨ f.z | 11 => f.n = f.v | 12 => f.n ≠ f.v | 13 => ¬ f.z ∧ f.n = f.v | 14 => f.z ∨ f.n ≠ f.v

theorem Flags.holds_iff (f : Flags) (cond : Fin 15) : f.holds cond.val = true ↔ f.meets cond := by
  obtain ⟨z, n, c, v⟩ := f
  fin_cases cond <;> simp [Flags.holds, Flags.meets]

/-- Settles O22: each branch by `onCore_branch`, its condition by R311. -/
theorem branches : Obligations.Branches := by
  unfold Obligations.Branches
  intro t cond disp near ba ra s hs to_ met
  have row {i : Instr} {f : State → InstrEnd} {target : CoreState → Option Word} (hi : exec i s = .next (s.instr t true f))
      (hf : f (s.begun t) = .branch (target ((s.begun t).core t)) false (s.begun t)) : to_ i target := by
    intro hslot
    refine onCore_branch (g := id) (target := target ((s.begun t).core t)) (retx := false) hi hs hslot (hf.trans ?_) rfl ?_
    · exact congrArg _ (State.modCore_id _ _).symm
    exact ⟨CoreState.leave_transfers .., fun x => CoreState.leave_getDest .., CoreState.leave_keepsRest _ _ _ _ rfl, rfl, rfl⟩
  have hm : ∀ f, met f ↔ f.holds cond.val = true := fun f => (Flags.holds_iff f cond).symm
  clear_value to_ met
  refine ⟨fun h => row rfl ?_, fun h => row rfl ?_, row rfl rfl, row rfl ?_, row rfl ?_, fun hslot => ⟨?_, ?_⟩⟩
  · rw [hm] at h; simp [h, wordsOff_eq]
  · rw [hm] at h; simp [h]
  · rw [← wordsOff_eq]; cases bitSeen (s.begun t) t ba <;> rfl
  · rw [← wordsOff_eq]; cases bitSeen (s.begun t) t ba <;> rfl
  · exact exec_barred_in_slot rfl hs hslot
  · exact exec_barred_in_slot rfl hs hslot

/-! ### The window view (R292, R295) -/

section window
variable (c : CoreState)

theorem CoreState.setWin_wpos (p d : Nat) : (c.setWin p d).wpos = p % 8 := by
  rw [CoreState.wpos, CoreState.setWin, fld_setFld_ne (by decide) (by decide) (by decide), fld_setFld_same (by decide) (by decide)]
  exact Nat.mod_mod ..

theorem CoreState.setWin_wdepth (p d : Nat) : (c.setWin p d).wdepth = d % 16 :=
  fld_setFld_same (by decide) (by decide) ..

theorem CoreState.setWin_getLsbD (p d : Nat) {n : Nat} (h : n < 12) : (c.setWin p d).st.getLsbD n = c.st.getLsbD n := by
  rw [CoreState.setWin, getLsbD_setFld (by decide), if_neg (by omega), getLsbD_setFld (by decide), if_neg (by omega)]

theorem CoreState.setWin_st (p d : Nat) : (c.setWin p d).st &&& ~~~0xF7000 = c.st &&& ~~~0xF7000 :=
  and_not_eq_of fun i _ hm => by
    rw [getLsbD_mask_band, decide_eq_false_iff_not] at hm
    rw [CoreState.setWin, getLsbD_setFld (by decide), if_neg (by omega), getLsbD_setFld (by decide), if_neg (by omega)]

theorem CoreState.wdepth_lt : c.wdepth < 16 := fld_lt ..
theorem CoreState.wpos_lt : c.wpos < 8 := fld_lt ..

/-- In a plain context codes 8–15 name the window's first octet and 24–31 its third (R307). -/
theorem CoreState.dest_window (htm : c.tm = false) (hfa : c.fa = false) (k : Fin 8) :
    c.dest (BitVec.ofNat 5 (8 + k.val)) = winDest c.base k ∧ c.dest (BitVec.ofNat 5 (24 + k.val)) = winDest (octUp c.base 2) k := by
  have hv : c.view = c.base := by simp [CoreState.view, htm]
  fin_cases k <;> simp [CoreState.dest, hv, htm, hfa]

theorem octUp_octDown (b : Fin 17) : octUp (octDown b 2) 2 = b := by revert b; decide

theorem CoreState.slideUp_tm : c.slideUp.tm = c.tm := c.setWin_getLsbD _ _ (by decide)
theorem CoreState.slideUp_fa : c.slideUp.fa = c.fa := c.setWin_getLsbD _ _ (by decide)
theorem CoreState.slideBack_tm : c.slideBack.tm = c.tm := c.setWin_getLsbD _ _ (by decide)
theorem CoreState.slideBack_fa : c.slideBack.fa = c.fa := c.setWin_getLsbD _ _ (by decide)

theorem CoreState.dest_congr {c d : CoreState} (hst : d.st = c.st) (hb : d.base = c.base) (hk : d.tcause = c.tcause) (r : RegCode) : d.dest r = c.dest r := by
  simp only [CoreState.dest, CoreState.view, CoreState.tm, CoreState.fa, CoreState.wdepth, hst, hb, hk] <;> rfl

/-- The callee's w0–w7 are the caller's w16–w23. -/
theorem CoreState.slideUp_dest (htm : c.tm = false) (hfa : c.fa = false) (k : Fin 8) :
    c.slideUp.dest (BitVec.ofNat 5 (8 + k.val)) = c.dest (BitVec.ofNat 5 (24 + k.val)) := by
  rw [(c.slideUp.dest_window (c.slideUp_tm.trans htm) (c.slideUp_fa.trans hfa) k).1, (c.dest_window htm hfa k).2]; rfl

theorem CoreState.slideBack_dest (htm : c.tm = false) (hfa : c.fa = false) (k : Fin 8) :
    c.slideBack.dest (BitVec.ofNat 5 (24 + k.val)) = c.dest (BitVec.ofNat 5 (8 + k.val)) := by
  rw [(c.slideBack.dest_window (c.slideBack_tm.trans htm) (c.slideBack_fa.trans hfa) k).2, (c.dest_window htm hfa k).1]
  exact congrArg (winDest · k) (octUp_octDown c.base)

end window

/-- What a call leaves of the core, before its slot. -/
theorem CoreState.slideUp_spec (c : CoreState) (h : c.wdepth < 8) :
    c.slideUp.wdepth = c.wdepth + 1 ∧ c.slideUp.wpos = (c.wpos + 1) % 8 ∧ c.slideUp.st &&& ~~~0xF7000 = c.st &&& ~~~0xF7000 :=
  ⟨(c.setWin_wdepth _ _).trans (Nat.mod_eq_of_lt (by omega)), c.setWin_wpos _ _, c.setWin_st _ _⟩

/-- What a return leaves of the core, before its slot. -/
theorem CoreState.slideBack_spec (c : CoreState) (h : 1 < c.wdepth) :
    c.slideBack.wdepth + 1 = c.wdepth ∧ c.slideBack.wpos = (c.wpos + 7) % 8 ∧ c.slideBack.st &&& ~~~0xF7000 = c.st &&& ~~~0xF7000 := by
  have hlt := c.wdepth_lt
  have hd : c.slideBack.wdepth = (c.wdepth - 1) % 16 := c.setWin_wdepth _ _
  exact ⟨by omega, c.setWin_wpos _ _, c.setWin_st _ _⟩

/-- Settles O23: the spill and fill checks, and the slides of the view. -/
theorem callsAndReturns : Obligations.CallsAndReturns := by
  unfold Obligations.CallsAndReturns
  intro t disp ra s hs hslot
  dsimp only
  have slide {i : Instr} {target : CoreState → Word} (hi : exec i s = .next (s.callTo t target)) :
      (((s.begun t).core t).wdepth = 8 → exec i s = .next ((s.begun t).takeTrap t 6 (s.core t).pc none)) ∧
      (((s.begun t).core t).wdepth < 8 → onCore i s t fun c d =>
        c.transfers d (some (target c)) false ∧ c.keepsRegs d ∧ d.lk = c.pc + 8 ∧ d.wdepth = c.wdepth + 1 ∧ d.wpos = (c.wpos + 1) % 8 ∧
        d.st &&& ~~~0xF7000 = c.st &&& ~~~0xF7000 ∧ d.flight = c.flight ∧ d.a0 = c.a0 ∧ d.a1 = c.a1 ∧
        (c.tm = false → c.fa = false → ∀ k : Fin 8, d.dest (BitVec.ofNat 5 (8 + k.val)) = c.dest (BitVec.ofNat 5 (24 + k.val)))) := by
    refine ⟨fun h => exec_traps hi hs hslot (if_pos h), fun h => ?_⟩
    refine onCore_branch (g := fun d => { d.slideUp with lk := ((s.begun t).core t).pc + 8 }) hi hs hslot (if_neg (by omega)) rfl ?_
    generalize (s.begun t).core t = c at h ⊢
    obtain ⟨hdepth, hpos, hst⟩ := c.slideUp_spec h
    refine ⟨CoreState.leave_transfers .., fun x => by cases x <;> rfl, rfl, hdepth, hpos, hst, rfl, rfl, rfl, fun htm hfa k => ?_⟩
    exact (CoreState.dest_congr rfl rfl rfl _).trans (c.slideUp_dest htm hfa k)
  refine ⟨by simpa only [wordsOff_eq] using slide (i := .call t disp) rfl, slide (i := .callr t ra) rfl, fun h => exec_traps rfl hs hslot (if_pos h), fun h => ?_⟩
  refine onCore_branch (g := CoreState.slideBack) rfl hs hslot (if_neg (by omega)) rfl ?_
  generalize (s.begun t).core t = c at h ⊢
  obtain ⟨hdepth, hpos, hst⟩ := c.slideBack_spec h
  refine ⟨CoreState.leave_transfers .., fun x => by cases x <;> rfl, rfl, hdepth, hpos, hst, fun htm hfa k => ?_⟩
  exact (CoreState.dest_congr rfl rfl rfl _).trans (c.slideBack_dest htm hfa k)

/-! ### The way out of a handler (R300, R302) -/

theorem getLsbD_stBack {n : Nat} (h : n < 12) (h4 : n ≠ 4) (h11 : n ≠ 11) : stBack.getLsbD n = true := by
  revert h4 h11; revert n; decide

theorem getLsbD_stBack_ge {n : Nat} (h : 12 ≤ n) : stBack.getLsbD n = false := by
  by_cases hn : n < 32
  · revert h; revert hn; revert n; decide
  · exact BitVec.getLsbD_of_ge _ _ (by omega)

/-- A return brings back the fields of st but WPOS and WDEPTH. -/
theorem mergeMask_stBack (a b : Word) {n : Nat} (h : n < 12) (h4 : n ≠ 4) (h11 : n ≠ 11) : (mergeMask stBack a b).getLsbD n = b.getLsbD n := by
  rw [getLsbD_mergeMask, if_pos (getLsbD_stBack h h4 h11)]

theorem mergeMask_stBack_ge (a b : Word) {n : Nat} (h : 12 ≤ n) : (mergeMask stBack a b).getLsbD n = a.getLsbD n := by
  rw [getLsbD_mergeMask, getLsbD_stBack_ge h]; rfl

theorem fld_mergeMask_stBack (a b : Word) {hi lo : Nat} (h : lo ≤ hi) (h12 : 12 ≤ lo) : fld (mergeMask stBack a b) hi lo = fld a hi lo :=
  fld_congr h fun _ hi _ => mergeMask_stBack_ge a b (by omega)

theorem State.endActive_eq {s : State} {t : CoreId} {fast : Bool} {x : SourceId} (hx : x.val = (if fast then (s.ic t).curF else (s.ic t).curN).toNat % 1024) :
    s.endActive t fast = if x.val = 0x3FF || (s.src x).claimer.toNat ≠ t.val then s else s.modSrc x fun c => { c with active := false } := by
  obtain rfl : x = ⟨_, Nat.mod_lt _ (by decide)⟩ := Fin.ext hx
  rfl

theorem State.endActive_core (s : State) (t u : CoreId) (fast : Bool) : (s.endActive t fast).core u = s.core u := by
  rw [State.endActive_eq (x := ⟨_, Nat.mod_lt _ (by decide)⟩) rfl]
  split
  · split <;> rfl
  · split <;> rfl

/-- The source that the core has claimed and that its handler served is no longer ACTIVE (R274). -/
theorem State.endActive_src {s : State} {t : CoreId} {fast : Bool} {x : SourceId}
    (hx : x.val = (if fast then (s.ic t).curF else (s.ic t).curN).toNat % 1024) (hne : x.val ≠ 0x3FF) (hc : (s.src x).claimer.toNat = t.val) :
    ((s.endActive t fast).src x).active = false := by
  rw [State.endActive_eq hx, if_neg (by simp [hne, hc])]
  simp

theorem mergeMask_stBack_window (a b : Word) : mergeMask stBack a b &&& 0xFF000 &&& ~~~0x8000 = a &&& 0xFF000 &&& ~~~0x8000 := by
  have h : ∀ m : Word, m &&& stBack = 0 → mergeMask stBack a b &&& m = a &&& m := fun m hm => by
    apply BitVec.eq_of_getLsbD_eq
    intro i _
    have hi := congrArg (BitVec.getLsbD · i) hm
    simp only [BitVec.getLsbD_and, BitVec.getLsbD_zero] at hi
    rw [BitVec.getLsbD_and, BitVec.getLsbD_and, getLsbD_mergeMask]
    split <;> simp_all
  rw [h _ (by decide)]

/-- Behind the slot of RETX the core resumes at the target, with st restored and the change of WDEPTH of a spill or a fill. -/
theorem CoreState.advance_retx {c : CoreState} {x : Slot} {target : Word} (hs : c.slot = some x) (hx : x.retx = true) (ht : x.target = some target) :
    c.advance.pc = target ∧ c.advance.slot = none ∧ (∀ n, n < 12 → n ≠ 4 → n ≠ 11 → c.advance.st.getLsbD n = c.tst.getLsbD n) ∧
    c.advance.wpos = c.wpos ∧ (fld c.tcause 7 0 = 6 → 1 ≤ c.wdepth → c.advance.wdepth = c.wdepth - 1) ∧
    (fld c.tcause 7 0 = 7 → c.wdepth ≤ 8 → c.advance.wdepth = c.wdepth + 1) ∧
    (fld c.tcause 7 0 ≠ 6 → fld c.tcause 7 0 ≠ 7 → c.advance.wdepth = c.wdepth) := by
  have hst : c.advance.st = setFld (mergeMask stBack c.st c.tst) 19 16
      (if fld c.tcause 7 0 = 6 then c.wdepth - 1 else if fld c.tcause 7 0 = 7 then c.wdepth + 1 else c.wdepth) := by
    simp only [CoreState.advance, hs, hx, if_true, CoreState.retxRestore]; rfl
  have hlt := c.wdepth_lt
  have hdepth : c.advance.wdepth = (if fld c.tcause 7 0 = 6 then c.wdepth - 1 else if fld c.tcause 7 0 = 7 then c.wdepth + 1 else c.wdepth) % 16 := by
    rw [CoreState.wdepth, hst, fld_setFld_same (by decide) (by decide)]; rfl
  refine ⟨?_, CoreState.advance_slot c, fun n hn h4 h11 => ?_, ?_, fun h h1 => ?_, fun h h8 => ?_, fun h6 h7 => ?_⟩
  · rw [CoreState.advance_pc, CoreState.behind, hs]; simp [ht]
  · rw [hst, getLsbD_setFld (by decide), if_neg (by omega), mergeMask_stBack _ _ hn h4 h11]
  · rw [CoreState.wpos, hst, fld_setFld_ne (by decide) (by decide) (by decide), fld_mergeMask_stBack _ _ (by decide) (by decide)]; rfl
  · rw [hdepth, if_pos h]; omega
  · rw [hdepth, if_neg (by omega), if_pos h]; omega
  · rw [hdepth, if_neg h6, if_neg h7]; omega

/-- Settles O24: RETI and RETX by their branches, and the slot of RETX by what going on restores. -/
theorem handlerReturns : Obligations.HandlerReturns := by
  unfold Obligations.HandlerReturns
  intro t s hs
  dsimp only
  have hrun : ((s.begun t).core t).run = .running := by rw [State.begun_run]; exact hs.1
  have hpc : ((s.begun t).core t).pc = (s.core t).pc := State.begun_pc ..
  refine ⟨fun hslot => ⟨fun hfa hna => ?_, fun hfa => ?_, fun hfa hna hd => ?_, fun hfa hna hd => ?_, fun htm => ?_, fun htm => ?_⟩, ?_⟩
  · rw [hpc]; exact exec_traps rfl hs hslot (by simp [hfa, hna])
  · refine ⟨_, exec_branch rfl hs hslot (if_pos hfa) (by rw [State.endActive_core, State.core_modCore]; exact hrun), ?_⟩
    simp only [State.core_modCore, State.endActive_core, State.modCore_src]
    refine ⟨CoreState.leave_transfers .., fun n hn h4 h11 => mergeMask_stBack _ _ hn h4 h11, ?_, rfl, fun x hx hne hc => ?_⟩
    · exact mergeMask_stBack_window ..
    · exact State.endActive_src hx hne hc
  · rw [hpc]; exact exec_traps rfl hs hslot (by simp [hfa, hna, hd])
  · refine ⟨_, exec_branch rfl hs hslot ((if_neg (by simp [hfa])).trans ((if_neg (by simp [hna])).trans (if_neg (by omega))))
      (by rw [State.endActive_core, State.core_modCore]; exact hrun), ?_⟩
    simp only [State.core_modCore, State.endActive_core, State.modCore_src]
    generalize (s.begun t).core t = c at hd ⊢
    obtain ⟨hdepth, hpos, -⟩ := c.slideBack_spec hd
    refine ⟨CoreState.leave_transfers .., fun n hn h4 h11 => mergeMask_stBack _ _ hn h4 h11, ?_, ?_, fun x hx hne hc => ?_⟩
    · exact (congrArg (· + 1) (fld_mergeMask_stBack _ _ (by decide) (by decide))).trans hdepth
    · exact (fld_mergeMask_stBack _ _ (by decide) (by decide)).trans hpos
    · exact State.endActive_src hx hne hc
  · rw [hpc]; exact exec_traps rfl hs hslot (by simp [htm])
  · refine onCore_branch (g := id) (target := some ((s.begun t).core t).tpc) (retx := true) rfl hs hslot ((if_pos htm).trans ?_) rfl ?_
    · exact congrArg _ (State.modCore_id _ _).symm
    · exact ⟨CoreState.leave_transfers .., rfl, fun x => CoreState.leave_getDest .., rfl⟩
  · intro x target hslot hx ht
    have hslot' : ((s.begun t).core t).slot = some x := by rw [State.begun_slot, hslot]
    refine onCore_coreInstr (f := id) hs rfl rfl ?_
    generalize (s.begun t).core t = c at hslot' ⊢
    exact CoreState.advance_retx hslot' hx ht

end Sys2Proof.Machine

/-! SUPPORT. Bits of a Camku core (O25, O26), and commands that write zero bytes into a memory that is not canonical (O18, O30, O31). -/

namespace Sys2Proof.Machine

/-! ### Concrete states -/

/-- What a command leaves of a state. -/
def stateAfter (i : Instr) (s : State) : State := match exec i s with | .next s' => s' | _ => s

/-- What a command leads to holds of the state that it leaves. -/
theorem leads.stateAfter {i : Instr} {s : State} {P : State → Prop} (h : leads i s P) : P (stateAfter i s) := by
  obtain ⟨s', hs, hP⟩ := h
  simpa only [Machine.stateAfter, hs] using hP

/-- The device in RUN with its clock, on which core 0 runs, changed by f. -/
def core0 (f : CoreState → CoreState) : State :=
  ((State.reset.modDev fun d => { d with state := .run, vsysOk := true, xin := true, pll := true }).modGroup 0 fun g => { g with coreRun := true }).modCore 0
    fun c => f { c with run := .running }

/-- A memory that lists one address twice, which no step reaches (O4): a zero written there uncovers the second cell. -/
def twice (a : Nat) : Mem := [(a, 1), (a, 1)]

/-! ### Bits -/

/-- Settles O25: each row sets flags by the bit at its address. -/
theorem bitTests : Obligations.BitTests := by
  unfold Obligations.BitTests
  intro t rx ba s hs at_ gives
  have row {i : Instr} {f : Bool → Flags → Flags} (hi : exec i s = .next (s.flagRow t rx ba f)) : gives i f :=
    onCore_modCore (f := fun c => (c.setFlags (f (bitSeen (s.begun t) t (((s.begun t).core t).bitAddr rx ba)) c.flags)).advance)
      (by
        obtain ⟨hr, hc, hf, hk⟩ := hs
        rw [hi, State.flagRow, State.instr_runs hr hc hf hk (by simp)]
        exact congrArg _ (State.goOn_modCore (by rw [show ∀ (c : CoreState) g, (c.setFlags g).run = c.run from fun _ _ => rfl, State.begun_run, hr]; decide)))
      (CoreState.setFlags_writes ..)
  clear_value gives
  exact ⟨row rfl, row rfl, row rfl, row rfl, row rfl, row rfl, row rfl, row rfl⟩

/-- Refutes O26: BCLR on a core whose bit space lists byte 0 twice leaves its bit 0 set. -/
theorem not_bitWrites : ¬ Obligations.BitWrites := by
  unfold Obligations.BitWrites
  intro h
  have h1 := (h 0 none 0x8000 (core0 fun c => { c with bits := twice 0 }) (by unfold State.fetches; decide +kernel)).2.1.1 0 (by decide)
  have hbit := h1.stateAfter.1
  revert hbit
  decide +kernel

/-! ### Memory -/

/-- Refutes O18: STB of a zero byte to an address that memory lists twice reads back the second cell. -/
theorem not_stores : ¬ Obligations.Stores := by
  unfold Obligations.Stores
  intro h
  have h1 := (h 0 1 2 0 { core0 fun c => c.setReg 2 0x100000 with mem := twice 0x820000 } (by unfold State.fetches; decide +kernel)).2.2.1.1
    (.data 0x820000) 0x820000 (by decide +kernel) (by simp) (by decide +kernel)
  have hbyte := h1.stateAfter.1 0 (by decide)
  revert hbyte
  decide +kernel

/-- Refutes O30: MOVS of a zero byte to an address that memory lists twice reads back the second cell. -/
theorem not_repeatElements : ¬ Obligations.RepeatElements := by
  unfold Obligations.RepeatElements
  intro h
  have h1 := (h 0 1 2 0 false 0 { core0 fun c => { c with xc := 1, xs := 0x100004, xd := 0x100000 } with mem := twice 0x820000 }
    (by unfold State.fetches; decide +kernel) rfl).2 (by decide +kernel)
  have h2 := (h1.2 0x820004 0x820000 (by decide +kernel) (by decide +kernel) (by decide +kernel) (by decide +kernel)).1 (by decide +kernel) (by decide +kernel)
  have hbyte := h2.stateAfter.1 0 (by decide)
  revert hbyte
  decide +kernel

/-- Refutes O31: FILLS with a zero byte of an address that memory lists twice reads back the second cell. -/
theorem not_fillRuns : ¬ Obligations.FillRuns := by
  unfold Obligations.FillRuns
  intro h
  have h1 := (h 0 1 0 false { core0 fun c => { c with xc := 1, xd := 0x100000 } with mem := twice 0x820000 }
    (by unfold State.fetches; decide +kernel) rfl (by decide +kernel) (by decide +kernel)).1 (by decide +kernel)
  have hbyte := h1.stateAfter.1 0 0 (by decide +kernel) (by decide)
  revert hbyte
  decide +kernel

end Sys2Proof.Machine

/-! SUPPORT. Loads (O17) and CX (O32). -/

namespace Sys2Proof.Machine

/-! ### Loads (R289, R290, R314) -/

section loads
variable {i : Instr} {s : State} {t : CoreId} {n : Nat} {conv : Word → Word} {rd ra : RegCode} {imm : BitVec 16}

theorem CoreState.loadReg_sends (c : CoreState) (rd : RegCode) (v : Word) : c.sends (c.loadReg rd v).advance (c.flight ++ [.load 2 (c.dest rd) v]) :=
  CoreState.sends_advance (fun x => by cases x <;> rfl) rfl rfl rfl rfl rfl

theorem exec_loadRow {p : Place} (hi : exec i s = .next (s.loadRow t n conv rd ra imm)) (hs : s.fetches t)
    (hp : placeOf (s.begun t) t (((s.begun t).core t).ea ra imm).toNat = some p) (hc : loadCause (s.begun t) t (((s.begun t).core t).ea ra imm) n = none) :
    exec i s = .next (((((s.begun t).loadAt t p n).2.stallAt t (some p)).modCore t fun c =>
      c.loadReg rd (conv ((s.begun t).loadAt t p n).1)).goOn t CoreState.advance) := by
  obtain ⟨hr, hcl, hf, hk⟩ := hs
  rw [hi, State.loadRow, State.instr_runs hr hcl hf hk (by simp)]
  simp only [hc, State.loadN, hp]

theorem exec_loadRow_trap {k : Nat} (hi : exec i s = .next (s.loadRow t n conv rd ra imm)) (hs : s.fetches t)
    (hc : loadCause (s.begun t) t (((s.begun t).core t).ea ra imm) n = some k) :
    exec i s = .next ((s.begun t).takeTrap t k ((s.begun t).core t).pc (some (((s.begun t).core t).ea ra imm))) := by
  obtain ⟨hr, hcl, hf, hk⟩ := hs
  rw [hi, State.loadRow, State.instr_runs hr hcl hf hk (by simp)]
  simp only [hc, State.begun_pc]

/-- A load from a place without a stall. -/
theorem leads_loadRow_fast {p : Place} (hi : exec i s = .next (s.loadRow t n conv rd ra imm)) (hs : s.fetches t)
    (hp : placeOf (s.begun t) t (((s.begun t).core t).ea ra imm).toNat = some p) (hc : loadCause (s.begun t) t (((s.begun t).core t).ea ra imm) n = none)
    (hslow : p.slow = false) (hat : ((s.begun t).loadAt t p n).2 = s.begun t) :
    leads i s fun s' => (s.begun t).onlyCore s' t ∧ ((s.begun t).core t).sends (s'.core t) (((s.begun t).core t).flight ++
      [.load 2 (((s.begun t).core t).dest rd) (conv ((s.begun t).loadAt t p n).1)]) := by
  have hrun : (((s.begun t).core t).loadReg rd (conv ((s.begun t).loadAt t p n).1)).run ≠ .inReset := by
    rw [show ∀ (c : CoreState) r v, (c.loadReg r v).run = c.run from fun _ _ _ => rfl, State.begun_run, hs.1]; decide
  refine ⟨_, exec_loadRow hi hs hp hc, ?_⟩
  rw [hat, State.stallAt, Option.any_some, hslow, if_neg (by decide), State.goOn_modCore hrun]
  exact ⟨by simp, by rw [State.core_modCore]; exact CoreState.loadReg_sends ..⟩

/-- A stall of a core that runs takes a free value, and counts its length in ccnt. -/
theorem State.stall_eq (h : (s.core t).run ≠ .inReset) : s.stall t =
    (s.modDev fun d => { d with fresh := d.fresh + 1 }).modCore t fun c => { c with ccnt := c.ccnt + BitVec.ofNat 32 (s.free.1.toNat % 41) } := by
  unfold State.stall State.goOn
  exact if_neg h

theorem State.onlyCore_fresh (s : State) (t : CoreId) (f : CoreState → CoreState) (k : Dev → Dev) (hk : ({ k s.dev with fresh := s.dev.fresh } : Dev) = s.dev) :
    s.onlyCore { (s.modDev k).modCore t f with dev := { ((s.modDev k).modCore t f).dev with fresh := s.dev.fresh } } t := by
  simp [State.onlyCore, State.modCore, State.setCore, State.core, State.modDev, Vector.get, hk]

/-- The cycles of a stall show in ccnt alone. -/
theorem CoreState.advance_ccnt (c : CoreState) (k : Word) : ({ c with ccnt := k } : CoreState).advance = { c.advance with ccnt := k } := by
  unfold CoreState.advance; dsimp only; repeat' split
  all_goals rfl

theorem CoreState.sends_ccnt {c d : CoreState} {xs : List InFlight} (h : c.sends d xs) (k : Word) :
    c.sends { ({ d with ccnt := k } : CoreState) with ccnt := c.ccnt } xs := by
  have hk : d.ccnt = c.ccnt := by
    obtain ⟨-, -, hrest, -⟩ := h
    exact (congrArg CoreState.ccnt hrest :)
  rw [← hk]
  exact h

theorem stall_cycles (a : Word) (k : Nat) : (a + BitVec.ofNat 32 (k % 41) - a).toNat ≤ 40 := by
  rw [BitVec.add_comm, BitVec.add_sub_cancel, BitVec.toNat_ofNat, Nat.mod_eq_of_lt (by omega)]
  omega

/-- A load from shared RAM or the swath map, with its stall of at most 40 cycles. -/
theorem leads_loadRow_slow {p : Place} (hi : exec i s = .next (s.loadRow t n conv rd ra imm)) (hs : s.fetches t)
    (hp : placeOf (s.begun t) t (((s.begun t).core t).ea ra imm).toNat = some p) (hc : loadCause (s.begun t) t (((s.begun t).core t).ea ra imm) n = none)
    (hslow : p.slow = true) (hat : ((s.begun t).loadAt t p n).2 = s.begun t) :
    leads i s fun s' => (s.begun t).onlyCore { s' with dev := { s'.dev with fresh := (s.begun t).dev.fresh } } t ∧
      ((s.begun t).core t).sends { s'.core t with ccnt := ((s.begun t).core t).ccnt } (((s.begun t).core t).flight ++
        [.load 2 (((s.begun t).core t).dest rd) (conv ((s.begun t).loadAt t p n).1)]) ∧
      ((s'.core t).ccnt - ((s.begun t).core t).ccnt).toNat ≤ 40 := by
  have hrun : ((s.begun t).core t).run ≠ .inReset := by rw [State.begun_run, hs.1]; decide
  refine ⟨_, exec_loadRow hi hs hp hc, ?_⟩
  rw [hat, State.stallAt, Option.any_some, hslow, if_pos rfl, State.stall_eq hrun, State.modCore_modCore, State.goOn_modCore hrun]
  refine ⟨State.onlyCore_fresh _ _ _ _ rfl, ?_, ?_⟩
  · rw [State.core_modCore, State.modDev_core]
    generalize (s.begun t).core t = c
    rw [show ∀ k v, CoreState.loadReg { c with ccnt := k } rd v = { c.loadReg rd v with ccnt := k } from fun _ _ => rfl, CoreState.advance_ccnt]
    exact CoreState.sends_ccnt (c.loadReg_sends ..) _
  · rw [State.core_modCore, State.modDev_core]
    generalize (s.begun t).core t = c
    rw [show ∀ k v, CoreState.loadReg { c with ccnt := k } rd v = { c.loadReg rd v with ccnt := k } from fun _ _ => rfl, CoreState.advance_ccnt]
    exact stall_cycles ..

end loads

/-- n bytes of a memory are less than 256^n. -/
theorem memReadN_lt (m : Mem) (a n : Nat) : memReadN m a n < 256 ^ n := by
  induction n generalizing a with
  | zero => exact Nat.one_pos
  | succ n ih =>
    have h := ih (a + 1)
    have hb := (memRead m a).isLt
    rw [memReadN, Nat.pow_succ]
    omega

/-- n bytes of the boot ROM, as a little-endian number. -/
def romBytes (h n : Nat) : Nat := (List.range n).foldr (fun k v => (Config.bootRom (h + k)).toNat + 256 * v) 0

theorem romBytes_lt (h n : Nat) : romBytes h n < 256 ^ n := by
  have step (xs : List Nat) : xs.foldr (fun k v => (Config.bootRom (h + k)).toNat + 256 * v) 0 < 256 ^ xs.length := by
    induction xs with
    | nil => exact Nat.one_pos
    | cons x r ih =>
      have hb := (Config.bootRom (h + x)).isLt
      rw [List.foldr_cons, List.length_cons, Nat.pow_succ]
      omega
  simpa [romBytes] using step (List.range n)

/-- What a load's conversion makes of n bytes as a number. -/
def converts (conv : Word → Word) (num : Nat → Word) (n : Nat) : Prop := ∀ m, m < 256 ^ n → conv (BitVec.ofNat 32 m) = num m

theorem converts_half : converts sextHalf (fun m => (BitVec.ofNat 16 m).signExtend 32) 2 := fun m _ => by
  rw [sextHalf, BitVec.truncate_eq_setWidth, BitVec.setWidth_ofNat_of_le (by decide)]

theorem converts_byte : converts sextByte (fun m => (BitVec.ofNat 8 m).signExtend 32) 1 := fun m _ => by
  rw [sextByte, BitVec.truncate_eq_setWidth, BitVec.setWidth_ofNat_of_le (by decide)]

theorem converts_zero {w n : Nat} (hw : 2 ^ w = 256 ^ n) (h32 : w ≤ 32) : converts id (fun m => (BitVec.ofNat w m).zeroExtend 32) n := fun m hm => by
  apply BitVec.eq_of_toNat_eq
  have : 2 ^ w ≤ 2 ^ 32 := Nat.pow_le_pow_right (by decide) h32
  simp only [id, BitVec.toNat_ofNat, BitVec.zeroExtend_eq_setWidth, BitVec.toNat_setWidth]
  rw [Nat.mod_eq_of_lt (show m < 2 ^ w by omega)]

/-- The trap of a load from a place that its address names. -/
theorem loadCause_place {s : State} {t : CoreId} {a : Word} {n : Nat} {p : Place} (ha : a.toNat % n = 0) (hp : placeOf s t a.toNat = some p) :
    loadCause s t a n = if !p.sized n then some 4 else match p.marked with
      | some h => if wordBad s h then some 5 else none
      | none => none := by
  simp only [loadCause, ha, hp]; rfl

theorem loadCause_nowhere {s : State} {t : CoreId} {a : Word} {n : Nat} (ha : a.toNat % n = 0) (hp : placeOf s t a.toNat = none) :
    loadCause s t a n = some 4 := by
  simp only [loadCause, ha, hp]; rfl

/-- Settles O17: the five widths by `exec_loadRow` and its trap, the cause by the address and its place. -/
theorem loads : Obligations.Loads := by
  unfold Obligations.Loads
  intro t rd ra imm s hs b c a rom gives
  have row {i : Instr} {n : Nat} {conv : Word → Word} {num : Nat → Word} (hi : exec i s = .next (s.loadRow t n conv rd ra imm)) (hn : n ≠ 0)
      (hconv : converts conv num n) : gives i n num := by
    refine ⟨fun h hp hc => ?_, fun h hp hc => ?_, fun h hp hc => ?_, fun ha => ?_, fun ha hp => ?_, fun h ha hn4 hp => ?_, fun p h ha hp hm hsz hbad => ?_⟩
    · rcases hp with hp | hp
      all_goals
        have := leads_loadRow_fast hi hs hp hc rfl rfl
        simpa only [State.loadAt, hconv _ (memReadN_lt ..)] using this
    · have := leads_loadRow_fast hi hs hp hc rfl rfl
      have hval : conv ((s.begun t).loadAt t (.rom h) n).1 = num (rom h n) := hconv _ (romBytes_lt h n)
      rw [hval] at this
      exact this
    · rcases hp with hp | hp
      all_goals
        have := leads_loadRow_slow hi hs hp hc rfl rfl
        simpa only [State.loadAt, hconv _ (memReadN_lt ..)] using this
    · exact exec_loadRow_trap hi hs (by simp only [loadCause]; exact if_pos ha)
    · exact exec_loadRow_trap hi hs (loadCause_nowhere ha hp)
    · refine exec_loadRow_trap hi hs ?_
      rcases hp with hp | hp <;> rw [show ((s.begun t).core t).ea ra imm = a from rfl, loadCause_place ha hp] <;> simp [Place.sized, hn4]
    · refine exec_loadRow_trap hi hs ?_
      have hsized : p.sized n = true := by
        cases p <;> simp_all [Place.sized, Place.marked]
      rw [show ((s.begun t).core t).ea ra imm = a from rfl, loadCause_place ha hp, hsized, hm]
      simp only [Bool.not_true, Bool.false_eq_true, if_false]
      exact if_pos hbad
  clear_value gives
  refine ⟨row rfl (by decide) fun m _ => rfl, row rfl (by decide) converts_half, row rfl (by decide) (converts_zero (by decide) (by decide)),
    row rfl (by decide) converts_byte, row rfl (by decide) (converts_zero (by decide) (by decide)), fun h hp hc => exec_loadRow (n := 4) (conv := id) rfl hs hp hc⟩

/-! ### Customer opcodes (R327–R331) -/

/-- A micro-operation that computes a value. -/
theorem microStep_value (s : State) (t : CoreId) (x : MicroArgs) (w : Word) (m : Micro) {v : Word} (hop : opCode w < 0x0D)
    (hv : microValue (opCode w) (m.sel (s.core t) x (opA w)) (m.sel (s.core t) x (opB w) + microK w) = some v) :
    microStep s t x w m = .go 0 (m.put x (opDst w) v) s := by
  unfold microStep
  dsimp only
  generalize opCode w = op at hop hv
  split <;> first | omega | skip
  simp only [hv]

/-- The words of an entry begin with its first. -/
theorem microWords_cons (s : State) (t : CoreId) (k : Nat) :
    ∃ r, microWords s t k = (memRead32 s.mem (decEntry t k), if eccAt s t (decEntry t k) then some (BitVec.ofNat 32 (0x40000000 + decEntry t k)) else none) :: r := by
  exact ⟨_, rfl⟩

/-- The commit of one register and unchanged flags. -/
theorem CoreState.commitMicro_reg (c : CoreState) (rd : RegCode) (v : Word) :
    c.commitMicro { c.micro with regs := [(c.dest rd, v)] } = (c.setReg rd v).setFlags c.flags := by
  have h : ∀ x, ({ ({ c.putDest x v with flight := c.flight.filter fun y => !y.loads x } : CoreState) with xs := c.xs, xd := c.xd, xc := c.xc } : CoreState) =
      { c.putDest x v with flight := c.flight.filter fun y => !y.loads x } := fun x => by cases x <;> rfl
  have hput : c.putRegs [(c.dest rd, v)] = c.setReg rd v := rfl
  exact congrArg (CoreState.setFlags · c.flags) (h (c.dest rd))

/-- A field read as a slice of bits. -/
theorem fld_extract (w : Word) (hi lo : Nat) : fld w hi lo = (w.extractLsb' lo (hi - lo + 1)).toNat := by
  rw [fld, BitVec.extractLsb'_toNat, Nat.shiftRight_eq_div_pow]

/-- An entry whose first micro-op computes from RA and RB into RD and ends leaves the value in rd. -/
theorem onCore_cx {t : CoreId} {k : Fin 16} {rd ra rb : RegCode} {imm : BitVec 11} {s : State} {v : CoreState → Word} {w : Word} (hs : s.fetches t)
    (hvalid : ((s.begun t).core t).valid.getLsbD k.val = true) (hbad : eccAt (s.begun t) t (decEntry t k.val) = false)
    (hw : memRead32 (s.begun t).mem (decEntry t k.val) = w) (hend : opEnd w = true) (hdst : opDst w = 8) (ha : opA w = 9) (hb : opB w = 10)
    (hop : opCode w < 0x0D) (hv : ∀ c : CoreState, microValue (opCode w) (c.reg ra) (c.reg rb + microK w) = some (v c)) :
    onCore (.cx t k rd ra rb imm) s t fun c d => c.writesCode d rd (v c) c.flags := by
  obtain ⟨hr, hc, hf, hk⟩ := hs
  have hrun : ((s.begun t).core t).run ≠ .inReset := by rw [State.begun_run, hr]; decide
  refine onCore_modCore (f := fun c => ((c.setReg rd (v c)).setFlags c.flags).advance) ?_ (CoreState.setReg_setFlags_writes ..)
  simp only [exec, execCx]
  rw [State.instr_runs hr hc hf hk (by simp)]
  obtain ⟨r, hwords⟩ := microWords_cons (s.begun t) t k.val
  simp only [hvalid, hwords, hbad, hw, Bool.not_true, Bool.false_eq_true, if_false, State.micros]
  have hval := hv ((s.begun t).core t)
  rw [microStep_value (v := v ((s.begun t).core t)) (hop := hop) (hv := by rw [ha, hb]; exact hval), hdst]
  have hgo := State.goOn_modCore (s := s.begun t) (t := t) (f := fun c => (c.setReg rd (v c)).setFlags c.flags) (g := CoreState.advance)
    (by rw [show ∀ (c : CoreState) g, (c.setFlags g).run = c.run from fun _ _ => rfl, CoreState.setReg_run]; exact hrun)
  dsimp only
  rw [if_pos hend]
  dsimp only
  rw [← hgo, State.goOn.eq_def (s.begun t), if_neg hrun]
  exact congrArg (fun d => Host.Outcome.next (((s.begun t).setCore t d).goOn t CoreState.advance)) (CoreState.commitMicro_reg ..)

/-- Settles O32: an entry that is not loaded traps, and one micro-op by `onCore_cx`. -/
theorem customerOpcodes : Obligations.CustomerOpcodes := by
  unfold Obligations.CustomerOpcodes
  intro t k rd ra rb imm s hs b w sextK
  obtain ⟨hr, hc, hf, hk⟩ := id hs
  refine ⟨fun hv => ?_, fun hv hbad hend hdst ha hb => ⟨fun hop => ?_, fun hop => ?_, fun hop => ?_⟩⟩
  · simp only [exec, execCx]
    rw [State.instr_runs hr hc hf hk (by simp)]
    simp only [show (((s.begun t).core t).valid.getLsbD k.val) = false from hv]; rfl
  all_goals
    have hcode : opCode w = _ := (fld_extract w 30 26).trans (congrArg BitVec.toNat hop)
    have hK : microK w = sextK := by
      rw [microK, opK, fld_extract, BitVec.ofNat_toNat]; rfl
    exact onCore_cx (w := w) hs hv hbad rfl hend ((fld_extract w 25 21).trans (congrArg BitVec.toNat hdst)) ((fld_extract w 20 16).trans (congrArg BitVec.toNat ha))
      ((fld_extract w 15 11).trans (congrArg BitVec.toNat hb)) (by rw [hcode]; decide) fun c => by rw [hcode, hK]; rfl

end Sys2Proof.Machine

/-! SUPPORT. Accumulators (O27–O29). -/

namespace Sys2Proof.Machine

/-! ### Accumulators of a core (R298, R319) -/

section acc
variable (c : CoreState) (a : Bool)

@[simp] theorem CoreState.putAcc_acc (v : BitVec 72) : (c.putAcc a v).acc a = v := by cases a <;> rfl
@[simp] theorem CoreState.putAcc_acc_not (v : BitVec 72) : (c.putAcc a v).acc (!a) = c.acc (!a) := by cases a <;> rfl
@[simp] theorem CoreState.putAcc_getDest (v : BitVec 72) (x : Dest) : (c.putAcc a v).getDest x = c.getDest x := by cases a <;> cases x <;> rfl
@[simp] theorem CoreState.putAcc_st (v : BitVec 72) : (c.putAcc a v).st = c.st := by cases a <;> rfl
@[simp] theorem CoreState.putAcc_pc (v : BitVec 72) : (c.putAcc a v).pc = c.pc := by cases a <;> rfl
@[simp] theorem CoreState.putAcc_slot (v : BitVec 72) : (c.putAcc a v).slot = c.slot := by cases a <;> rfl
@[simp] theorem CoreState.putAcc_run (v : BitVec 72) : (c.putAcc a v).run = c.run := by cases a <;> rfl
@[simp] theorem CoreState.putAcc_flight (v : BitVec 72) : (c.putAcc a v).flight = c.flight := by cases a <;> rfl

theorem setFld_bit9 (w : Word) : setFld w 9 9 1 = w ||| 0x200 := by
  apply BitVec.eq_of_getLsbD_eq
  intro i hi
  rw [getLsbD_setFld (by decide), BitVec.getLsbD_or]
  have h8 : (0x200 : Word).getLsbD i = decide (i = 9) := by revert hi i; decide
  rw [h8]
  split
  · next h => simp [show i = 9 by omega]
  · next h => simp [show i ≠ 9 by omega]

theorem CoreState.stickAs_eq (v : Bool) : c.stickAs v = { c with st := if v then c.st ||| 0x200 else c.st } := by
  cases v
  · rfl
  · exact congrArg (fun w => ({ c with st := w } : CoreState)) (setFld_bit9 c.st)

@[simp] theorem CoreState.advance_acc (b : Bool) : c.advance.acc b = c.acc b := by
  unfold CoreState.advance; dsimp only; repeat' split
  all_goals rfl

/-- What R319 makes of an exact sum. -/
def limited (satm : Bool) (e : Int) : BitVec 72 :=
  if decide (-(2 ^ 71) ≤ e ∧ e < 2 ^ 71) || !satm then BitVec.ofInt 72 e else if e < 0 then BitVec.ofInt 72 (-(2 ^ 71)) else BitVec.ofInt 72 (2 ^ 71 - 1)

theorem accumulate_eq (satm : Bool) (x p : Int) :
    accumulate satm x p = (limited satm (x + p), !decide (-(2 ^ 71) ≤ x + p ∧ x + p < 2 ^ 71)) := by
  unfold accumulate limited
  dsimp only
  have hle : decide (x + p ≤ 2 ^ 71 - 1) = decide (x + p < 2 ^ 71) := by simp; omega
  rw [hle, ← Bool.decide_and]
  by_cases h : -(2 ^ 71) ≤ x + p ∧ x + p < 2 ^ 71
  · simp only [h, decide_true]; rfl
  · cases satm
    · simp only [h, decide_false]; rfl
    · simp only [h, decide_false, Bool.false_eq_true, if_false, if_true, Bool.not_true, Bool.or_self, Bool.not_false]
      split <;> rfl

end acc

/-- What a limited sum leaves in an accumulator, with AS where the sum does not fit, behind the instruction. -/
theorem CoreState.stickAs_advance {c d : CoreState} {a : Bool} {e : Int} (fits : Bool) (hacc : d.acc a = limited c.satm e) (hnot : d.acc (!a) = c.acc (!a))
    (hregs : c.keepsRegs d) (hpc : d.pc = c.pc) (hslot : d.slot = c.slot) (hst : d.st = c.st) :
    (d.stickAs (!fits)).advance.acc a = limited c.satm e ∧ (d.stickAs (!fits)).advance.acc (!a) = c.acc (!a) ∧ c.keepsRegs (d.stickAs (!fits)).advance ∧
    (d.stickAs (!fits)).advance.pc = c.behind ∧ (d.stickAs (!fits)).advance.flight = d.flight ∧
    (c.slot = none → (d.stickAs (!fits)).advance.st = if fits then c.st else c.st ||| 0x200) := by
  rw [CoreState.stickAs_eq]
  refine ⟨(CoreState.advance_acc ..).trans hacc, (CoreState.advance_acc ..).trans hnot, fun x => ?_, ?_, CoreState.advance_flight _, fun hs => ?_⟩
  · rw [CoreState.advance_getDest]; exact Eq.trans (by cases x <;> rfl) (hregs x)
  · rw [CoreState.advance_pc]; simp only [CoreState.behind, hpc, hslot]
  · refine (CoreState.advance_st (by simp [hslot, hs])).trans ?_
    cases fits <;> simp [hst]

/-- Settles O28: the products and ASL by the limit of R319. -/
theorem accumulates : Obligations.Accumulates := by
  unfold Obligations.Accumulates
  intro t acc ra rb n s hs gives
  have hb : ((s.begun t).core t).slot = (s.core t).slot := State.begun_slot ..
  have prod {i : Instr} {p e : CoreState → Int} (hi : exec i s = .next (s.coreInstr t fun c => c.product acc (p c)))
      (he : ∀ c, (c.acc acc).toInt + p c = e c) : gives i e true := by
    refine onCore_coreInstr hs hi ?_ ?_
    · simp only [CoreState.product, CoreState.stickAs_eq, CoreState.macAcc, CoreState.putAcc_run]
    · generalize hc : (s.begun t).core t = c at hb ⊢
      simp only [CoreState.product, accumulate_eq, he]
      obtain ⟨h1, h2, h3, h4, h5, h6⟩ := CoreState.stickAs_advance (c := c) (d := c.macAcc acc (limited c.satm (e c))) (a := acc) (e := e c)
        (decide (-(2 ^ 71) ≤ e c ∧ e c < 2 ^ 71)) (c.putAcc_acc acc _) (c.putAcc_acc_not acc _) (fun x => Eq.trans (by cases x <;> rfl) (c.putAcc_getDest acc _ x))
        (c.putAcc_pc acc _) (c.putAcc_slot acc _) (c.putAcc_st acc _)
      exact ⟨h1, h2, h3, h4, fun _ => h5, fun h => absurd h (by decide), fun h => h6 (hb.trans h)⟩
  have asl : gives (.asl t acc n) (fun c => (c.accSeen acc).toInt * 2 ^ n.toNat) false := by
    refine onCore_coreInstr hs rfl ?_ ?_
    · simp only [CoreState.stickAs_eq, CoreState.setAcc, CoreState.putAcc_run]
    · generalize hc : (s.begun t).core t = c at hb ⊢
      simp only [accumulate_eq, BitVec.toInt_zero, Int.zero_add]
      obtain ⟨h1, h2, h3, h4, h5, h6⟩ := CoreState.stickAs_advance (c := c) (a := acc) (e := (c.accSeen acc).toInt * 2 ^ n.toNat)
        (d := c.setAcc acc (limited c.satm ((c.accSeen acc).toInt * 2 ^ n.toNat)))
        (decide (-(2 ^ 71) ≤ (c.accSeen acc).toInt * 2 ^ n.toNat ∧ (c.accSeen acc).toInt * 2 ^ n.toNat < 2 ^ 71)) (c.putAcc_acc acc _) (c.putAcc_acc_not acc _)
        (fun x => Eq.trans (by cases x <;> rfl) (c.putAcc_getDest acc _ x))
        (c.putAcc_pc acc _) (c.putAcc_slot acc _) (c.putAcc_st acc _)
      exact ⟨h1, h2, h3, h4, fun h => absurd h (by decide), fun _ => h5.trans (by rw [h1]; rfl), fun h => h6 (hb.trans h)⟩
  clear_value gives
  exact ⟨prod rfl fun _ => rfl, prod rfl fun _ => (Int.sub_eq_add_neg).symm, prod rfl fun _ => by push_cast; rfl, asl⟩

/-! ### Parts of an accumulator (R321) -/

theorem toNat_append_add {m n : Nat} (x : BitVec m) (y : BitVec n) : (x ++ y).toNat = x.toNat * 2 ^ n + y.toNat := by
  rw [BitVec.toNat_append, ← Nat.shiftLeft_add_eq_or_of_lt y.isLt, Nat.shiftLeft_eq]

/-- An accumulator written whole, behind the instruction. -/
theorem CoreState.setAcc_advance (c : CoreState) (a : Bool) (v : BitVec 72) :
    (c.setAcc a v).advance.acc a = v ∧ (c.setAcc a v).advance.acc (!a) = c.acc (!a) ∧ c.keepsRegs (c.setAcc a v).advance ∧
    c.goesOn (c.setAcc a v).advance c.flags ∧ (c.setAcc a v).advance.flight = c.flight.map (InFlight.showAcc a v) := by
  refine ⟨(CoreState.advance_acc ..).trans (c.putAcc_acc a v), (CoreState.advance_acc ..).trans (c.putAcc_acc_not a v), fun x => ?_,
    CoreState.goesOn_advance (c.putAcc_pc a v) (c.putAcc_slot a v) ?_ ?_, CoreState.advance_flight _⟩
  · rw [CoreState.advance_getDest]; exact Eq.trans (by cases x <;> rfl) (c.putAcc_getDest a v x)
  · simp only [CoreState.flags, CoreState.setAcc, CoreState.putAcc_st]
  · simp only [CoreState.setAcc, CoreState.putAcc_st]

theorem bitsAcc_word (c : CoreState) (a : Bool) (lo : Nat) : c.bitsAcc a lo = (c.accSeen a).extractLsb' lo 32 := by
  apply BitVec.eq_of_toNat_eq
  rw [CoreState.bitsAcc, BitVec.toNat_ofNat, BitVec.extractLsb'_toNat, Nat.shiftRight_eq_div_pow]

theorem partAcc_value (old : BitVec 72) (lo len v : Nat) (x : BitVec 72)
    (h : x.toNat = old.toNat - (old.toNat / 2 ^ lo % 2 ^ len) * 2 ^ lo + (v % 2 ^ len) * 2 ^ lo) :
    BitVec.ofNat 72 (old.toNat - (old.toNat / 2 ^ lo % 2 ^ len) * 2 ^ lo + (v % 2 ^ len) * 2 ^ lo) = x := by
  rw [← h, BitVec.ofNat_toNat, BitVec.setWidth_eq]

/-- The rounded shift of R321 is a floor. -/
theorem roundShift_eq (a : Int) (n : BitVec 5) :
    roundShift a n.toNat = if n = 0 then a else (a + 2 ^ (n.toNat - 1)) / 2 ^ n.toNat := by
  rw [roundShift, Int.fdiv_eq_ediv_of_nonneg _ (by positivity)]
  have h : n.toNat = 0 ↔ n = 0 := by simp [← BitVec.toNat_inj]
  simp only [h]

theorem clampWord_eq (r : Int) :
    clampWord r = (BitVec.ofInt 32 (Max.max (-(2 ^ 31)) (Min.min (2 ^ 31 - 1) r)), decide (Max.max (-(2 ^ 31)) (Min.min (2 ^ 31 - 1) r) ≠ r)) := by
  unfold clampWord
  split
  · next h =>
    have : Max.max (-(2 ^ 31)) (Min.min (2 ^ 31 - 1) r) = -(2 ^ 31) := by omega
    rw [this, decide_eq_true (by omega)]; rfl
  · split
    · next h =>
      have : Max.max (-(2 ^ 31)) (Min.min (2 ^ 31 - 1) r) = 2 ^ 31 - 1 := by omega
      rw [this, decide_eq_true (by omega)]; rfl
    · have : Max.max (-(2 ^ 31)) (Min.min (2 ^ 31 - 1) r) = r := by omega
      rw [this]; simp

/-- Settles O29: parts by the bits they hold, ASR and ARND by floors. -/
theorem accumulatorParts : Obligations.AccumulatorParts := by
  unfold Obligations.AccumulatorParts
  intro t acc rd ra n s hs reads sets
  have read {i : Instr} {v : CoreState → Word} {u : BitVec 72 → Word} (hi : exec i s = .next (s.coreInstr t fun c => c.setReg rd (v c)))
      (hv : ∀ c, v c = u (c.accSeen acc)) : reads i u := by
    have h := onCore_setReg hs hi
    simp only [hv] at h
    exact h
  have set {i : Instr} {v u : CoreState → BitVec 72} (hi : exec i s = .next (s.coreInstr t fun c => c.setAcc acc (v c))) (hv : ∀ c, v c = u c) : sets i u := by
    refine onCore_coreInstr hs hi (CoreState.putAcc_run ..) ?_
    rw [hv]
    exact CoreState.setAcc_advance ..
  clear_value reads sets
  refine ⟨set rfl fun _ => rfl, read rfl fun c => bitsAcc_word c acc 0, read rfl fun c => bitsAcc_word c acc 32, read rfl fun c => ?_, set rfl fun c => ?_,
    set rfl fun c => ?_, set rfl fun c => ?_, set rfl fun c => ?_, ?_⟩
  · rw [bitsAcc_word, sextByte, BitVec.truncate_eq_setWidth]
    congr 1
    apply BitVec.eq_of_toNat_eq
    have := (c.accSeen acc).isLt
    simp [Nat.shiftRight_eq_div_pow]
  · refine partAcc_value _ _ _ _ _ ?_
    have h1 := (c.accSeen acc).isLt
    have h2 := (c.reg ra).isLt
    rw [toNat_append_add, BitVec.extractLsb'_toNat, Nat.shiftRight_eq_div_pow]
    omega
  · refine partAcc_value _ _ _ _ _ ?_
    have h1 := (c.accSeen acc).isLt
    have h2 := (c.reg ra).isLt
    rw [toNat_append_add, toNat_append_add, BitVec.extractLsb'_toNat, BitVec.extractLsb'_toNat, Nat.shiftRight_eq_div_pow, Nat.shiftRight_eq_div_pow]
    omega
  · refine partAcc_value _ _ _ _ _ ?_
    have h1 := (c.accSeen acc).isLt
    have h2 := (c.reg ra).isLt
    rw [toNat_append_add, BitVec.extractLsb'_toNat, BitVec.extractLsb'_toNat, Nat.shiftRight_eq_div_pow, Nat.shiftRight_eq_div_pow]
    omega
  · rw [BitVec.sshiftRight, Int.shiftRight_eq_div_pow]; simp
  · refine onCore_coreInstr (f := fun c => (c.setReg rd (clampWord (roundShift (c.accSeen acc).toInt n.toNat)).1).setFlags
      { c.flags with v := (clampWord (roundShift (c.accSeen acc).toInt n.toNat)).2 }) hs rfl (CoreState.setReg_run ..) ?_
    simp only [clampWord_eq, roundShift_eq]
    exact CoreState.setReg_setFlags_writes ..

/-! ### MACD (R320) -/

theorem winDest_inj {a b : Fin 17} {j k : Fin 8} : winDest a j = winDest b k ↔ a = b ∧ j = k := by
  simp only [winDest, Dest.win.injEq, Fin.mk.injEq, Fin.ext_iff]; omega

theorem octUp_ne (b : Fin 17) : octUp b 1 ≠ b ∧ octUp b 2 ≠ b ∧ octUp b 1 ≠ octUp b 2 := by revert b; decide

/-- Two codes name two physical registers (R307). -/
theorem CoreState.dest_inj (c : CoreState) {r q : RegCode} (h : r ≠ q) : c.dest r ≠ c.dest q := by
  obtain ⟨h1, h2, h3⟩ := octUp_ne c.view
  have hne : r.toNat ≠ q.toNat := fun e => h (BitVec.eq_of_toNat_eq e)
  have hr := r.isLt
  have hq := q.isLt
  unfold CoreState.dest
  generalize c.view = b at h1 h2 h3 ⊢
  dsimp only
  cases c.tm <;> cases c.fa <;> simp only [Bool.false_eq_true, if_false, if_true] <;> split_ifs <;>
    simp [winDest_inj, h1, h2, h3, h1.symm, h2.symm, h3.symm, winDest] <;> omega

/-- The host address of a word of X-RAM (k = 0) or Y-RAM (k = 1). -/
def ramAddr (t : CoreId) (k : Fin 2) (a : Nat) : Nat := 0x820000 + k.val * 0x10000 + t.val * 0x40000 + (a - (0x100000 + k.val * 0x80000))

section macd
variable {s : State} {t : CoreId} {k : Fin 2} {a : Word}

theorem placeOf_ram (h1 : 0x100000 + k.val * 0x80000 ≤ a.toNat) (h2 : a.toNat < 0x110000 + k.val * 0x80000) :
    placeOf s t a.toNat = some (.data (ramAddr t k a.toNat)) := by
  have hp : privAddr t a.toNat = some (ramAddr t k a.toNat) := by
    unfold privAddr ramAddr
    rw [if_neg (by omega)]
    rcases (by omega : k.val = 0 ∨ k.val = 1) with hk | hk
    · rw [if_pos (by omega), hk]
    · rw [if_neg (by omega), if_pos (by omega), hk]
  simp only [placeOf, hp]
  rw [if_neg (by omega)]

theorem macdCause_odd (h : a.toNat % 4 ≠ 0) : macdCause s t k.val a = some 3 := if_pos h

theorem macdCause_outside (h : a.toNat % 4 = 0) (ho : a.toNat < 0x100000 + k.val * 0x80000 ∨ 0x110000 + k.val * 0x80000 ≤ a.toNat) :
    macdCause s t k.val a = some 4 := by
  unfold macdCause
  dsimp only
  rw [if_neg (by omega), if_pos (by omega)]

theorem macdCause_inside (h : a.toNat % 4 = 0) (h1 : 0x100000 + k.val * 0x80000 ≤ a.toNat) (h2 : a.toNat < 0x110000 + k.val * 0x80000) :
    macdCause s t k.val a = if wordBad s (ramAddr t k a.toNat) then some 5 else none := by
  unfold macdCause
  dsimp only
  rw [if_neg (by omega), if_neg (by omega), loadCause_place h (placeOf_ram h1 h2)]; rfl

/-- An aligned operand traps by 4 or 5, or not at all. -/
theorem macdCause_aligned (h : a.toNat % 4 = 0) (j : Nat) (hj : macdCause s t k.val a = some j) : 4 ≤ j := by
  by_cases ho : a.toNat < 0x100000 + k.val * 0x80000 ∨ 0x110000 + k.val * 0x80000 ≤ a.toNat
  · rw [macdCause_outside h ho] at hj; cases hj; decide
  · rw [macdCause_inside h (by omega) (by omega)] at hj
    split at hj <;> cases hj
    decide

/-- An aligned operand in its RAM traps by 5, or not at all. -/
theorem macdCause_inside_ge (h : a.toNat % 4 = 0) (h1 : 0x100000 + k.val * 0x80000 ≤ a.toNat) (h2 : a.toNat < 0x110000 + k.val * 0x80000) (j : Nat)
    (hj : macdCause s t k.val a = some j) : 5 ≤ j := by
  rw [macdCause_inside h h1 h2] at hj
  split at hj <;> cases hj
  decide

/-- No operand traps by a cause below 3. -/
theorem macdCause_ge (j : Nat) (hj : macdCause s t k.val a = some j) : 3 ≤ j := by
  by_cases h : a.toNat % 4 = 0
  · exact (by decide : 3 ≤ 4).trans (macdCause_aligned h j hj)
  · rw [macdCause_odd h] at hj; cases hj; decide

theorem lowerCause_left {x y : Option (Nat × Word)} {p : Nat × Word} (hx : x = some p) (hy : ∀ q, y = some q → p.1 ≤ q.1) : lowerCause x y = some p := by
  subst hx
  cases y with
  | none => rfl
  | some q => exact if_pos (hy q rfl)

theorem lowerCause_right {x y : Option (Nat × Word)} {q : Nat × Word} (hy : y = some q) (hx : ∀ p, x = some p → q.1 < p.1) : lowerCause x y = some q := by
  subst hy
  cases x with
  | none => rfl
  | some p => exact if_neg (by have := hx p rfl; omega)

end macd

section exec
variable {s : State} {t : CoreId} {acc neg : Bool} {rx ry : RegCode} {xinc yinc : BitVec 4}

theorem exec_macd_trap {k : Nat} {a : Word} (hs : s.fetches t) (hne : rx ≠ ry)
    (h : lowerCause ((macdCause (s.begun t) t 0 (((s.begun t).core t).reg rx)).map fun k => (k, ((s.begun t).core t).reg rx))
      ((macdCause (s.begun t) t 1 (((s.begun t).core t).reg ry)).map fun k => (k, ((s.begun t).core t).reg ry)) = some (k, a)) :
    exec (.macd t acc neg rx ry xinc yinc) s = .next ((s.begun t).takeTrap t k ((s.begun t).core t).pc (some a)) := by
  obtain ⟨hr, hc, hf, hk⟩ := hs
  simp only [exec, execMacd]
  rw [State.instr_runs hr hc hf hk (by simp)]
  simp only [hne, if_false, h, State.begun_pc]

/-- The trap of X, which comes first among equal causes. -/
theorem exec_macd_trapX {k : Nat} (hs : s.fetches t) (hne : rx ≠ ry) (hx : macdCause (s.begun t) t 0 (((s.begun t).core t).reg rx) = some k)
    (hy : ∀ j, macdCause (s.begun t) t 1 (((s.begun t).core t).reg ry) = some j → k ≤ j) :
    exec (.macd t acc neg rx ry xinc yinc) s = .next ((s.begun t).takeTrap t k ((s.begun t).core t).pc (some (((s.begun t).core t).reg rx))) :=
  exec_macd_trap hs hne (lowerCause_left (by rw [hx]; rfl) fun q hq => by
    obtain ⟨j, hj, rfl⟩ := Option.map_eq_some_iff.1 hq; exact hy j hj)

/-- The trap of Y, where that of X is higher or none. -/
theorem exec_macd_trapY {k : Nat} (hs : s.fetches t) (hne : rx ≠ ry) (hy : macdCause (s.begun t) t 1 (((s.begun t).core t).reg ry) = some k)
    (hx : ∀ j, macdCause (s.begun t) t 0 (((s.begun t).core t).reg rx) = some j → k < j) :
    exec (.macd t acc neg rx ry xinc yinc) s = .next ((s.begun t).takeTrap t k ((s.begun t).core t).pc (some (((s.begun t).core t).reg ry))) :=
  exec_macd_trap hs hne (lowerCause_right (by rw [hy]; rfl) fun q hq => by
    obtain ⟨j, hj, rfl⟩ := Option.map_eq_some_iff.1 hq; exact hx j hj)

/-- The value that a word of a RAM gives MACD. -/
theorem State.loadN_ram {b : State} {k : Fin 2} {a : Word} (h1 : 0x100000 + k.val * 0x80000 ≤ a.toNat) (h2 : a.toNat < 0x110000 + k.val * 0x80000) :
    (b.loadN t a 4).1 = memRead32 b.mem (ramAddr t k a.toNat) := by
  simp only [State.loadN, placeOf_ram h1 h2]; rfl

/-- The core behind a MACD that raises no trap. -/
def CoreState.macd (c : CoreState) (acc : Bool) (p : Int) (rx ry : RegCode) (x y : Word) : CoreState := ((c.product acc p).setReg rx x).setReg ry y

theorem exec_macd (hs : s.fetches t) (hne : rx ≠ ry) (hx : macdCause (s.begun t) t 0 (((s.begun t).core t).reg rx) = none)
    (hy : macdCause (s.begun t) t 1 (((s.begun t).core t).reg ry) = none) (p : Int)
    (hp : ((s.begun t).loadN t (((s.begun t).core t).reg rx) 4).1.toInt * ((s.begun t).loadN t (((s.begun t).core t).reg ry) 4).1.toInt = p)
    (hrun : ∀ c : CoreState, (c.product acc (if neg then -p else p)).run = c.run) :
    exec (.macd t acc neg rx ry xinc yinc) s = .next ((s.begun t).modCore t fun c =>
      (c.macd acc (if neg then -p else p) rx ry (((s.begun t).core t).reg rx + (xinc.signExtend 32) <<< 2) (((s.begun t).core t).reg ry + (yinc.signExtend 32) <<< 2)).advance) := by
  obtain ⟨hr, hc, hf, hk⟩ := hs
  simp only [exec, execMacd]
  rw [State.instr_runs hr hc hf hk (by simp)]
  simp only [hne, if_false, hx, hy, hp, Option.map_none, lowerCause]
  refine congrArg _ (State.goOn_modCore ?_)
  rw [CoreState.setReg_run, CoreState.setReg_run, hrun, State.begun_run, hr]; decide

end exec

theorem CoreState.product_eq (c : CoreState) (a : Bool) (p : Int) :
    c.product a p = { c.macAcc a (limited c.satm ((c.acc a).toInt + p)) with
      st := if decide (-(2 ^ 71) ≤ (c.acc a).toInt + p ∧ (c.acc a).toInt + p < 2 ^ 71) then c.st else c.st ||| 0x200 } := by
  rw [CoreState.product, accumulate_eq, CoreState.stickAs_eq]
  have hst : (c.macAcc a (limited c.satm ((c.acc a).toInt + p))).st = c.st := c.putAcc_st a _
  rw [hst]
  cases decide (-(2 ^ 71) ≤ (c.acc a).toInt + p ∧ (c.acc a).toInt + p < 2 ^ 71) <;> rfl

theorem CoreState.product_st (c : CoreState) (a : Bool) (p : Int) :
    (c.product a p).st = if decide (-(2 ^ 71) ≤ (c.acc a).toInt + p ∧ (c.acc a).toInt + p < 2 ^ 71) then c.st else c.st ||| 0x200 := by
  rw [CoreState.product_eq]

/-- AS does not bear on how a core sees its registers. -/
theorem CoreState.product_dest (c : CoreState) (a : Bool) (p : Int) (r : RegCode) : (c.product a p).dest r = c.dest r := by
  have hbit (n : Nat) (hn : n ≠ 9) : (c.product a p).st.getLsbD n = c.st.getLsbD n := by
    rw [CoreState.product_st, ← setFld_bit9]
    split
    · rfl
    · rw [getLsbD_setFld (by decide), if_neg (by omega)]
  have htm : (c.product a p).tm = c.tm := hbit 3 (by decide)
  have hfa : (c.product a p).fa = c.fa := hbit 2 (by decide)
  have hdepth : (c.product a p).wdepth = c.wdepth := fld_congr (by decide) fun i h1 _ => hbit i (by omega)
  have hbase : (c.product a p).base = c.base := by rw [CoreState.product_eq]; cases a <;> rfl
  have hcause : (c.product a p).tcause = c.tcause := by rw [CoreState.product_eq]; cases a <;> rfl
  simp only [CoreState.dest, CoreState.view, htm, hfa, hdepth, hbase, hcause] <;> rfl

theorem CoreState.product_run (c : CoreState) (a : Bool) (p : Int) : (c.product a p).run = c.run := by rw [CoreState.product_eq]; exact c.putAcc_run a _
theorem CoreState.product_pc (c : CoreState) (a : Bool) (p : Int) : (c.product a p).pc = c.pc := by rw [CoreState.product_eq]; exact c.putAcc_pc a _
theorem CoreState.product_slot (c : CoreState) (a : Bool) (p : Int) : (c.product a p).slot = c.slot := by rw [CoreState.product_eq]; exact c.putAcc_slot a _
theorem CoreState.product_getDest (c : CoreState) (a : Bool) (p : Int) (x : Dest) : (c.product a p).getDest x = c.getDest x := by
  rw [CoreState.product_eq]; exact Eq.trans (by cases x <;> rfl) (c.putAcc_getDest a _ x)
theorem CoreState.product_acc (c : CoreState) (a : Bool) (p : Int) : (c.product a p).acc a = limited c.satm ((c.acc a).toInt + p) := by
  rw [CoreState.product_eq]; exact c.putAcc_acc a _
theorem CoreState.product_acc_not (c : CoreState) (a : Bool) (p : Int) : (c.product a p).acc (!a) = c.acc (!a) := by
  rw [CoreState.product_eq]; exact c.putAcc_acc_not a _

@[simp] theorem CoreState.setReg_acc (c : CoreState) (r : RegCode) (v : Word) (a : Bool) : (c.setReg r v).acc a = c.acc a := by
  have h : ∀ x, ({ c.putDest x v with flight := c.flight.filter fun y => !y.loads x } : CoreState).acc a = c.acc a := fun x => by cases x <;> rfl
  exact h _

/-- A register's place does not depend on what the registers hold. -/
theorem CoreState.setReg_dest (c : CoreState) (r q : RegCode) (v : Word) : (c.setReg r v).dest q = c.dest q := by
  have h : ∀ x, ({ c.putDest x v with flight := c.flight.filter fun y => !y.loads x } : CoreState).dest q = c.dest q := fun x => by cases x <;> rfl
  exact h _

/-- What MACD leaves: the limited sum, both pointers, and AS. -/
theorem CoreState.macd_advance (c : CoreState) (a : Bool) (p : Int) {rx ry : RegCode} (x y : Word) (hne : rx ≠ ry) :
    (c.macd a p rx ry x y).advance.acc a = limited c.satm ((c.acc a).toInt + p) ∧ (c.macd a p rx ry x y).advance.acc (!a) = c.acc (!a) ∧
    (c.macd a p rx ry x y).advance.pc = c.behind ∧ (c.macd a p rx ry x y).advance.getDest (c.dest rx) = x ∧
    (c.macd a p rx ry x y).advance.getDest (c.dest ry) = y ∧
    (∀ z, z ≠ c.dest rx → z ≠ c.dest ry → (c.macd a p rx ry x y).advance.getDest z = c.getDest z) ∧
    (c.slot = none → (c.macd a p rx ry x y).advance.st =
      if decide (-(2 ^ 71) ≤ (c.acc a).toInt + p ∧ (c.acc a).toInt + p < 2 ^ 71) then c.st else c.st ||| 0x200) := by
  have hdest (r : RegCode) (d : CoreState) (hd : d = c.product a p) : d.dest r = c.dest r := hd ▸ c.product_dest a p r
  refine ⟨?_, ?_, ?_, ?_, ?_, fun z hx hy => ?_, fun hs => ?_⟩
  · rw [CoreState.advance_acc, CoreState.macd, CoreState.setReg_acc, CoreState.setReg_acc, CoreState.product_acc]
  · rw [CoreState.advance_acc, CoreState.macd, CoreState.setReg_acc, CoreState.setReg_acc, CoreState.product_acc_not]
  · rw [CoreState.advance_pc]
    simp only [CoreState.behind, CoreState.macd, CoreState.setReg_pc, CoreState.setReg_slot, CoreState.product_pc, CoreState.product_slot]
  · rw [CoreState.advance_getDest, CoreState.macd, CoreState.setReg_getDest_ne _ _ (by rw [CoreState.setReg_dest, CoreState.product_dest]; exact c.dest_inj hne),
      ← c.product_dest a p rx, CoreState.setReg_getDest]
  · rw [CoreState.advance_getDest, CoreState.macd]
    conv_lhs => rw [← c.product_dest a p ry, ← (c.product a p).setReg_dest rx ry x]
    rw [CoreState.setReg_getDest]
  · rw [CoreState.advance_getDest, CoreState.macd, CoreState.setReg_getDest_ne _ _ (by rw [CoreState.setReg_dest, CoreState.product_dest]; exact hy),
      CoreState.setReg_getDest_ne _ _ (by rw [CoreState.product_dest]; exact hx), CoreState.product_getDest]
  · have hslot : (c.macd a p rx ry x y).slot.any Slot.retx = false := by
      simp [CoreState.macd, CoreState.product_slot, hs]
    rw [CoreState.advance_st hslot, CoreState.macd, CoreState.setReg_st, CoreState.setReg_st, CoreState.product_st]

theorem incr_words (x : Word) (d : BitVec 4) : x + (d.signExtend 32) <<< 2 = x + 4 * d.signExtend 32 := by
  rw [← wordsOff_eq]; rfl

/-- Settles O27: the traps by the lower cause, and the product by `CoreState.macd_advance`. -/
theorem multiplyAccumulateDual : Obligations.MultiplyAccumulateDual := by
  unfold Obligations.MultiplyAccumulateDual
  intro t acc neg rx ry xinc yinc s hs b c x y hx hy
  refine ⟨fun he => ?_, fun hne hx4 hy4 ho => ?_, fun hne hx4 hy4 h1 h2 ho => ?_, fun hne hx4 => ?_, fun hne hx4 hy4 => ?_,
    fun hne hx4 hy4 h1 h2 h3 h4 hbad => ?_, fun hne hx4 hy4 h1 h2 h3 h4 hgood hbad => ?_, fun hne hx4 hy4 h1 h2 h3 h4 hgx hgy => ?_⟩
  · obtain ⟨hr, hc, hf, hk⟩ := hs
    simp only [exec, execMacd]
    rw [State.instr_runs hr hc hf hk (by simp)]
    simp only [he, if_true]; rw [← State.begun_pc]
  · exact exec_macd_trapX hs hne (macdCause_outside (k := 0) hx4 ho) (macdCause_aligned (k := 1) hy4)
  · exact exec_macd_trapY hs hne (macdCause_outside (k := 1) hy4 ho) (macdCause_inside_ge (k := 0) hx4 h1 h2)
  · exact exec_macd_trapX hs hne (macdCause_odd (k := 0) hx4) (macdCause_ge (k := 1))
  · exact exec_macd_trapY hs hne (macdCause_odd (k := 1) hy4) (macdCause_aligned (k := 0) hx4)
  · exact exec_macd_trapX hs hne ((macdCause_inside (k := 0) hx4 h1 h2).trans (if_pos hbad)) (macdCause_inside_ge (k := 1) hy4 h3 h4)
  · exact exec_macd_trapY hs hne ((macdCause_inside (k := 1) hy4 h3 h4).trans (if_pos hbad)) fun j hj => by
      cases (((macdCause_inside (k := 0) hx4 h1 h2).trans (if_neg (Bool.eq_false_iff.1 hgood))).symm.trans hj)
  · intro p e fits
    have hloadx := State.loadN_ram (b := b) (t := t) (k := 0) (a := c.reg rx) h1 h2
    have hloady := State.loadN_ram (b := b) (t := t) (k := 1) (a := c.reg ry) h3 h4
    refine onCore_modCore (exec_macd hs hne ((macdCause_inside (k := 0) hx4 h1 h2).trans (if_neg (Bool.eq_false_iff.1 hgx)))
      ((macdCause_inside (k := 1) hy4 h3 h4).trans (if_neg (Bool.eq_false_iff.1 hgy))) p ?_ fun c => c.product_run ..) ?_
    · exact congrArg₂ (fun u v : Word => u.toInt * v.toInt) hloadx hloady
    · obtain ⟨g1, g2, g3, g4, g5, g6, g7⟩ := c.macd_advance acc (if neg then -p else p) (c.reg rx + (xinc.signExtend 32) <<< 2)
        (c.reg ry + (yinc.signExtend 32) <<< 2) hne
      exact ⟨g1, g2, g3, g4.trans (incr_words ..), g5.trans (incr_words ..), g6, fun h => g7 ((State.begun_slot s t).trans h)⟩

end Sys2Proof.Machine

/-! SUPPORT. The arbiter (O33): what each pass of R212 keeps of the budget. -/

namespace Sys2Proof.Machine

/-- The ceilings of a list of claims together. -/
def ceilSum (cs : List LaneClaim) : Int := (cs.map fun c => c.ceil).sum

/-- The floors of a list of claims together. -/
def floorSum (cs : List LaneClaim) : Int := (cs.map fun c => (c.floor : Int)).sum

@[simp] theorem ceilSum_cons (c : LaneClaim) (cs : List LaneClaim) : ceilSum (c :: cs) = c.ceil + ceilSum cs := rfl
@[simp] theorem floorSum_cons (c : LaneClaim) (cs : List LaneClaim) : floorSum (c :: cs) = c.floor + floorSum cs := rfl

theorem floorSum_append (cs ds : List LaneClaim) : floorSum (cs ++ ds) = floorSum cs + floorSum ds := by simp [floorSum]

theorem floorSum_nonneg (cs : List LaneClaim) : 0 ≤ floorSum cs := by
  induction cs with
  | nil => exact Int.le_refl 0
  | cons c r ih => rw [floorSum_cons]; omega

theorem floorSum_filter_cons (p : LaneClaim → Bool) (c : LaneClaim) (r : List LaneClaim) :
    floorSum ((c :: r).filter p) = (if p c then (c.floor : Int) else 0) + floorSum (r.filter p) := by
  rw [List.filter_cons]; split <;> simp

/-- Ordering by priority lists no claim twice. -/
theorem floorSum_inOrder (cs : List LaneClaim) : floorSum (inOrder cs) ≤ floorSum cs := by
  have h : floorSum (inOrder cs) = floorSum (cs.filter fun c => c.prio = 7) + floorSum (cs.filter fun c => c.prio = 6) +
      floorSum (cs.filter fun c => c.prio = 5) + floorSum (cs.filter fun c => c.prio = 4) + floorSum (cs.filter fun c => c.prio = 3) +
      floorSum (cs.filter fun c => c.prio = 2) + floorSum (cs.filter fun c => c.prio = 1) + floorSum (cs.filter fun c => c.prio = 0) := by
    simp [inOrder, List.range, List.range.loop, floorSum_append, add_assoc]
  rw [h]
  clear h
  induction cs with
  | nil => exact Int.le_refl 0
  | cons c r ih =>
    simp only [floorSum_filter_cons, floorSum_cons, decide_eq_true_eq]
    split_ifs <;> omega

/-- The first pass: what it grants and what it leaves make up the budget, and no lane has more than its floor. -/
theorem grantFloors_keeps {b : Int} (cs : List LaneClaim) (hb : 0 ≤ b) :
    0 ≤ (grantFloors b cs).1 ∧ ceilSum (grantFloors b cs).2 + (grantFloors b cs).1 = b ∧
    ∀ c ∈ (grantFloors b cs).2, 0 ≤ c.ceil ∧ c.ceil ≤ c.floor := by
  induction cs generalizing b with
  | nil => exact ⟨hb, Int.zero_add b, by simp [grantFloors]⟩
  | cons c r ih =>
    obtain ⟨h1, h2, h3⟩ := ih (b := b - Min.min (c.floor : Int) (Max.max b 0)) (by omega)
    refine ⟨h1, ?_, fun d hd => ?_⟩
    · simp only [grantFloors, ceilSum_cons]; omega
    · rcases List.mem_cons.1 hd with rfl | hd
      · dsimp only; omega
      · exact h3 d hd

/-- Where the floors fit, the first pass grants each. -/
theorem grantFloors_fits {b : Int} (cs : List LaneClaim) (hb : floorSum cs ≤ b) : ∀ c ∈ (grantFloors b cs).2, c.ceil = c.floor := by
  induction cs generalizing b with
  | nil => simp [grantFloors]
  | cons c r ih =>
    have hr := floorSum_nonneg r
    rw [floorSum_cons] at hb
    intro d hd
    rcases List.mem_cons.1 hd with rfl | hd
    · dsimp only; omega
    · exact ih (by omega) d hd

/-- The second pass: it grants no more than what is left, and moves a ceiling toward its want, of a Twin lane wholly or not at all. -/
theorem grantWants_keeps {b : Int} (cs : List LaneClaim) (hb : 0 ≤ b) :
    ceilSum (grantWants b cs) ≤ ceilSum cs + b ∧
    ∀ d ∈ grantWants b cs, ∃ c ∈ cs, d.floor = c.floor ∧ Min.min c.ceil d.want ≤ d.ceil ∧ d.ceil ≤ Max.max c.ceil d.want ∧
      (d.twin = true → d.ceil = d.want ∨ d.ceil = c.ceil) := by
  induction cs generalizing b with
  | nil => exact ⟨by simpa [grantWants, ceilSum] using hb, by simp [grantWants]⟩
  | cons c r ih =>
    obtain ⟨g, hg⟩ : ∃ g, g = if c.twin then (if (c.want : Int) - c.ceil ≤ b then (c.want : Int) - c.ceil else 0) else Min.min ((c.want : Int) - c.ceil) b := ⟨_, rfl⟩
    have hle : g ≤ b := by rw [hg]; split_ifs <;> omega
    obtain ⟨h1, h2⟩ := ih (b := b - g) (by omega)
    have hcons : grantWants b (c :: r) =
        { c with ceil := c.ceil + g, held := heldNext (c.ceil + g) c.want c.prev c.held } :: grantWants (b - g) r := by rw [hg]; rfl
    rw [hcons]
    refine ⟨by simp only [ceilSum_cons]; omega, fun d hd => ?_⟩
    rcases List.mem_cons.1 hd with rfl | hd
    · refine ⟨c, List.mem_cons_self, rfl, ?_⟩
      dsimp only
      rw [hg]
      split_ifs with ht hx
      · exact ⟨by omega, by omega, fun _ => .inl (by omega)⟩
      · exact ⟨by omega, by omega, fun _ => .inr (by omega)⟩
      · exact ⟨by omega, by omega, fun h => absurd h ht⟩
    · obtain ⟨e, he, h⟩ := h2 d hd
      exact ⟨e, List.mem_cons_of_mem _ he, h⟩

/-- Settles O33: the two passes in turn. -/
theorem ceilingsWithinBudget : Obligations.CeilingsWithinBudget := by
  unfold Obligations.CeilingsWithinBudget
  intro b cs hb
  obtain ⟨hleft, hsum, hfloor⟩ := grantFloors_keeps (inOrder cs) hb
  obtain ⟨hspent, hwant⟩ := grantWants_keeps (grantFloors b (inOrder cs)).2 hleft
  refine ⟨?_, fun hfit d hd => ?_, fun d hd => ?_⟩
  · exact hspent.trans (Int.le_of_eq hsum)
  · obtain ⟨c, hc, hf, hlo, -⟩ := hwant d hd
    have := grantFloors_fits (inOrder cs) ((floorSum_inOrder cs).trans hfit) c hc
    rw [hf]; omega
  · obtain ⟨c, hc, hf, hlo, hhi, htwin⟩ := hwant d hd
    obtain ⟨h0, h1⟩ := hfloor c hc
    rw [hf]
    exact ⟨by omega, by omega, fun ht => (htwin ht).imp_right fun h => by omega⟩

end Sys2Proof.Machine

/-! SUPPORT. States in which a statement about the device's families fails (O35). -/

namespace Sys2Proof.Machine

/-- A lane's settings that pass the lane check. -/
def LaneCfg.passing (c : LaneCfg) : LaneCfg :=
  { c with ccCtrl := 0x00022001, pdo := c.pdo.set 0 0x0001912C, ilimSet := 0x003C003C, vconvMax := 1100, ovpSet := 0x0A1E0808, convStage := 0x3C010A64,
           ci := c.ci.set 0 1, cv := c.cv.set 0 1 }

/-- A device in RUN with every lane fitted, changed by f on lane 0. -/
def runDevice (f : Lane → Lane) : State :=
  ((State.reset.modDev fun d => { d with state := .run, vsysOk := true, vioOk := true }).modSec fun x => { x with laneDis := 0 }).modLane 0 f

/-- Refutes O35: PORT_EN set on a lane that is attached and not enabled brings it live as it stands, still attached. -/
theorem not_operatingStates : ¬ Obligations.OperatingStates := by
  unfold Obligations.OperatingStates
  intro h
  have h1 := h (.core 4) 0 0 1 0 0 0 (runDevice fun x => { x with cfg := x.cfg.passing, cc := { x.cc with st := .attachedSrc } })
  obtain ⟨-, -, -, -, -, -, -, -, -, -, -, -, -, -, hset, -⟩ := h1
  have hst := (hset (by decide +kernel) (by decide +kernel) rfl rfl (by decide +kernel) (by decide +kernel) (by decide +kernel)).stateAfter.2.2
  revert hst
  decide +kernel

end Sys2Proof.Machine

/-! SUPPORT. How far an operation of one lane reaches: the lane itself, with postings the interrupt sources and what they wake, and with event records the log and the device's registers. Two states that are equal once these are erased differ in them alone. -/

namespace Sys2Proof.Machine

/-- s with lane l erased, from level 1 on with what a posting reaches erased too (R268), and from level 2 on with what an event record reaches (R356). -/
def State.erase (s : State) (k : Nat) (l : LaneId) : State :=
  { s.setLane l {} with
    srcs := if 0 < k then State.reset.srcs else s.srcs, cores := if 0 < k then State.reset.cores else s.cores,
    groups := if 0 < k then State.reset.groups else s.groups, mem := if 1 < k then [] else s.mem, dev := if 1 < k then {} else s.dev }

section
variable {k : Nat} {l : LaneId} {s s' : State}

theorem set_get_of_set_eq {v w : Vector Lane 32} (h : v.set l.val {} l.isLt = w.set l.val {} l.isLt) : v.set l.val (w.get l) l.isLt = w := by
  have h1 := congrArg (fun u : Vector Lane 32 => u.set l.val (w.get l) l.isLt) h
  have h2 : w.set l.val (w.get l) l.isLt = w := by simp [Vector.get_eq_getElem]
  simpa only [Vector.set_set, h2] using h1

theorem State.onlyLane_of_erase (h : s'.erase 0 l = s.erase 0 l) : s.onlyLane s' l := by
  obtain ⟨⟩ := s; obtain ⟨⟩ := s'
  simp only [State.erase, State.setLane, Nat.lt_irrefl, Nat.not_lt_zero, if_false, mk.injEq, Nat.reduceLT] at h
  simp only [State.onlyLane, State.setLane, mk.injEq, State.lane]
  obtain ⟨h1, h2, h3⟩ := h
  exact ⟨h1, set_get_of_set_eq h2, h3⟩

theorem State.onlyLanePosts_of_erase (h : s'.erase 1 l = s.erase 1 l) : s.onlyLanePosts s' l := by
  obtain ⟨⟩ := s; obtain ⟨⟩ := s'
  simp only [State.erase, State.setLane, Nat.lt_irrefl, if_false, mk.injEq, Nat.lt_one_iff, Nat.reduceLT, if_true, true_and] at h
  simp only [State.onlyLanePosts, State.setLane, mk.injEq, State.lane, true_and]
  obtain ⟨h1, h2, h3⟩ := h
  exact ⟨h1, set_get_of_set_eq h2, h3⟩

theorem State.onlyLaneLogs_of_erase (h : s'.erase 2 l = s.erase 2 l) : s.onlyLaneLogs s' l := by
  obtain ⟨⟩ := s; obtain ⟨⟩ := s'
  simp only [State.erase, State.setLane, mk.injEq, Nat.reduceLT, if_true, true_and] at h
  simp only [State.onlyLaneLogs, State.setLane, mk.injEq, State.lane, true_and]
  obtain ⟨h2, h3⟩ := h
  exact ⟨set_get_of_set_eq h2, h3⟩

@[simp] theorem State.erase_setLane (x : Lane) : (s.setLane l x).erase k l = s.erase k l := by
  simp [State.erase, State.setLane]
@[simp] theorem State.erase_modLane (f : Lane → Lane) : (s.modLane l f).erase k l = s.erase k l := State.erase_setLane _
@[simp] theorem State.erase_modCfg (f : LaneCfg → LaneCfg) : (s.modCfg l f).erase k l = s.erase k l := State.erase_setLane _
@[simp] theorem State.erase_modCc (f : CcLane → CcLane) : (s.modCc l f).erase k l = s.erase k l := State.erase_setLane _
@[simp] theorem State.erase_modPd (f : PdLane → PdLane) : (s.modPd l f).erase k l = s.erase k l := State.erase_setLane _
@[simp] theorem State.erase_modCon (f : ContractLane → ContractLane) : (s.modCon l f).erase k l = s.erase k l := State.erase_setLane _
@[simp] theorem State.erase_modSwap (f : SwapLane → SwapLane) : (s.modSwap l f).erase k l = s.erase k l := State.erase_setLane _
@[simp] theorem State.erase_modTally (f : TallyLane → TallyLane) : (s.modTally l f).erase k l = s.erase k l := State.erase_setLane _
@[simp] theorem State.erase_modBelay (f : BelayLane → BelayLane) : (s.modBelay l f).erase k l = s.erase k l := State.erase_setLane _
@[simp] theorem State.erase_modConv (f : ConvLane → ConvLane) : (s.modConv l f).erase k l = s.erase k l := State.erase_setLane _
@[simp] theorem State.erase_modBudget (f : BudgetLane → BudgetLane) : (s.modBudget l f).erase k l = s.erase k l := State.erase_setLane _
@[simp] theorem State.erase_modSect (f : SectLane → SectLane) : (s.modSect l f).erase k l = s.erase k l := State.erase_setLane _
@[simp] theorem State.erase_modFw (f : FwLane → FwLane) : (s.modFw l f).erase k l = s.erase k l := State.erase_setLane _

@[simp] theorem State.erase_modGroup (hk : 0 < k) (g : GroupId) (f : Group → Group) : (s.modGroup g f).erase k l = s.erase k l := by
  simp [State.erase, State.modGroup, hk, State.setLane]
@[simp] theorem State.erase_post (hk : 0 < k) (n : Nat) : (s.post n).erase k l = s.erase k l := by
  simp [State.erase, hk, State.setLane]
@[simp] theorem State.erase_postLane (hk : 0 < k) (m : LaneId) (n : Nat) : (s.postLane m n).erase k l = s.erase k l := State.erase_post hk _
@[simp] theorem State.erase_modDev (hk : 1 < k) (f : Dev → Dev) : (s.modDev f).erase k l = s.erase k l := by
  simp [State.erase, hk, State.setLane, State.modDev]
@[simp] theorem State.erase_irq (hk : 1 < k) (n : Fin 11) : (s.irq n).erase k l = s.erase k l := State.erase_modDev hk _
theorem State.erase_withMem (hk : 1 < k) (m : Mem) : State.erase { s with mem := m } k l = s.erase k l := by
  simp [State.erase, hk, State.setLane]
@[simp] theorem State.erase_logFlags (hk : 1 < k) (fl c : Nat) (q : LogKind) (i : Nat) (a b d : Word) : (s.logFlags fl c q i a b d).erase k l = s.erase k l := by
  have h0 : 0 < k := by omega
  unfold State.logFlags State.logAdvance
  dsimp only
  split <;> simp [State.erase_withMem, hk, h0]
@[simp] theorem State.erase_log (hk : 1 < k) (c : Nat) (q : LogKind) (i : Nat) (a b d : Word) : (s.log c q i a b d).erase k l = s.erase k l :=
  State.erase_logFlags hk ..
@[simp] theorem State.erase_logSw (hk : 1 < k) (c : Nat) (q : LogKind) (i : Nat) (a b d : Word) : (s.logSw c q i a b d).erase k l = s.erase k l :=
  State.erase_logFlags hk ..

@[simp] theorem State.erase_ite {c : Prop} [Decidable c] {a b : State} (ha : a.erase k l = s.erase k l) (hb : b.erase k l = s.erase k l) :
    (if c then a else b).erase k l = s.erase k l := by split <;> assumption

@[simp] theorem State.erase_forEach {α : Type} {f : State → α → State} (xs : List α) (hf : ∀ u x, (f u x).erase k l = u.erase k l) :
    (s.forEach xs f).erase k l = s.erase k l := by
  induction xs generalizing s with
  | nil => rfl
  | cons x r ih => exact (ih (s := f s x)).trans (hf s x)

end

end Sys2Proof.Machine

/-! SUPPORT. A state in which a claim is due at WDEPTH 15 (O56). -/
namespace Sys2Proof.Machine

/-- A device on which source 0 alone is posted, to core 0 at WDEPTH 15, one of the values of the field beyond what the windows give. -/
def claimAtWrap : State :=
  (({ core0 (fun c => { c with st := 0xF0001 }) with srcs := Vector.replicate 1024 {} } : State).modSrc 0 fun c =>
    { c with routeEn := true, cntEn := true, count := 1 }).modIc 0 fun i => { i with maskEff := Vector.replicate 32 0 }

theorem claimAtWrap_src {x : SourceId} (h : x ≠ 0) : claimAtWrap.src x = {} := by
  have hx : (0 : Nat) ≠ x.val := fun e => h (Fin.ext e.symm)
  show (Vector.set (Vector.replicate 1024 ({} : IcSrc)) 0 _ (by decide))[x.val] = _
  rw [Vector.getElem_set_ne _ x.isLt hx, Vector.getElem_replicate]

theorem claimAtWrap_chosen : chosen claimAtWrap 0 = some 0 := by
  have hd {x : SourceId} (h : x ≠ 0) : deliverable claimAtWrap 0 x = false := by
    have hp : (claimAtWrap.src x).pending = false := by rw [claimAtWrap_src h]; rfl
    simp [deliverable, hp]
  have hf : allSources.filter (deliverable claimAtWrap 0) = [0] := by
    rw [allSources, List.finRange_succ, List.filter_cons_of_pos (by decide +kernel), List.filter_eq_nil_iff.2]
    intro x hx
    obtain ⟨y, -, rfl⟩ := List.mem_map.1 hx
    rw [hd (Fin.succ_ne_zero y)]
    exact Bool.false_ne_true
  rw [chosen, hf]
  rfl

theorem claimAtWrap_exec : exec (.interruptClaim 0) claimAtWrap = .next (claimAtWrap.claimEntry 0 false 0 1 fun st => st.consume 0 0) := by
  show execInterruptClaim 0 claimAtWrap = _
  unfold execInterruptClaim
  rw [if_pos (by decide +kernel), show (claimAtWrap.ic 0).withdrawn = none by decide +kernel, claimAtWrap_chosen]
  rfl

theorem claimAtWrap_wdepth : ((stateAfter (.interruptClaim 0) claimAtWrap).core 0).wdepth ≠ (claimAtWrap.core 0).wdepth + 1 := by
  rw [stateAfter, claimAtWrap_exec]
  decide +kernel

/-- Refutes O56: a claim at WDEPTH 15 leaves WDEPTH 0, as its field has four bits. -/
theorem not_interruptController : ¬ Obligations.InterruptController := by
  unfold Obligations.InterruptController
  intro h
  obtain ⟨-, -, -, hclaim, -⟩ := h (.core 4) 0 0 0 claimAtWrap
  obtain ⟨-, -, -, -, -, -, -, -, -, -, hw, -⟩ := (hclaim (by decide +kernel) (by decide +kernel) (by decide +kernel) claimAtWrap_chosen
    (by decide +kernel) (by decide +kernel) (by decide +kernel)).stateAfter
  exact claimAtWrap_wdepth hw
end Sys2Proof.Machine

/-! SUPPORT. How far each operation of a lane reaches: what it leaves once the lane, its postings and its records are erased. -/

namespace Sys2Proof.Machine

section
variable {j : Nat} {l : LaneId} {s : State}

@[simp] theorem State.erase_writeIlim (v : Nat) : (s.writeIlim l v).erase j l = s.erase j l := by unfold State.writeIlim; simp
@[simp] theorem State.erase_setFwd (v : Nat) : (s.setFwd l v).erase j l = s.erase j l := by unfold State.setFwd; simp
@[simp] theorem State.erase_setRev (v : Nat) : (s.setRev l v).erase j l = s.erase j l := by unfold State.setRev; simp
@[simp] theorem State.erase_setVset (v : Nat) : (s.setVset l v).erase j l = s.erase j l := by unfold State.setVset; simp
@[simp] theorem State.erase_runEngine (hk : 0 < j)  : (s.runEngine l).erase j l = s.erase j l := by unfold State.runEngine; simp [hk]
@[simp] theorem State.erase_softStart (hk : 0 < j)  : (s.softStart l).erase j l = s.erase j l := by unfold State.softStart; split <;> simp [hk]
@[simp] theorem State.erase_reverseStart (hk : 0 < j)  : (s.reverseStart l).erase j l = s.erase j l := by
  unfold State.reverseStart
  repeat' split
  all_goals simp [hk]
@[simp] theorem State.erase_stopStage  : (s.stopStage l).erase j l = s.erase j l := by unfold State.stopStage; simp
@[simp] theorem State.erase_openPath  : (s.openPath l).erase j l = s.erase j l := by unfold State.openPath; simp
@[simp] theorem State.erase_startClose  : (s.startClose l).erase j l = s.erase j l := by
  unfold State.startClose
  dsimp only
  repeat' split
  all_goals simp
@[simp] theorem State.erase_askClose (w : CloseWant) : (s.askClose l w).erase j l = s.erase j l := by unfold State.askClose; split <;> simp
@[simp] theorem State.erase_tryRamp  : (s.tryRamp l).erase j l = s.erase j l := by
  unfold State.tryRamp
  dsimp only
  repeat' split
  all_goals simp
@[simp] theorem State.erase_voidArm (hk : 0 < j) (cause : BitVec 2) : (s.voidArm l cause).erase j l = s.erase j l := by
  unfold State.voidArm; split <;> simp [hk]
@[simp] theorem State.erase_endUrkai (hk : 0 < j)  : (s.endUrkai l).erase j l = s.erase j l := by unfold State.endUrkai; simp [hk]
@[simp] theorem State.erase_loadChanges (time : Nat) (on : Bool) : (s.loadChanges l time on).erase j l = s.erase j l := by unfold State.loadChanges; simp
@[simp] theorem State.erase_loadOff  : (s.loadOff l).erase j l = s.erase j l := by unfold State.loadOff; split <;> simp
@[simp] theorem State.erase_armMissed (hk : 0 < j)  : (s.armMissed l).erase j l = s.erase j l := by unfold State.armMissed; split <;> simp [hk]
@[simp] theorem State.erase_countFault (hk : 1 < j) (k : FaultClass) : (s.countFault l k).2.erase j l = s.erase j l := by
  unfold State.countFault
  dsimp only
  repeat' split
  all_goals simp [hk, Nat.lt_of_succ_lt hk]
@[simp] theorem State.erase_endMessage (hk : 0 < j) (tag : BitVec 4) (result : BitVec 3) (retries : Nat) : (s.endMessage l tag result retries).erase j l = s.erase j l := by
  unfold State.endMessage; simp [hk]
@[simp] theorem State.erase_abortQueue (hk : 0 < j)  : (s.abortQueue l).erase j l = s.erase j l := by
  unfold State.abortQueue
  dsimp only
  repeat' split
  all_goals simp [hk]
@[simp] theorem State.erase_flushRx  : (s.flushRx l).erase j l = s.erase j l := by unfold State.flushRx; simp
@[simp] theorem State.erase_leaveAttached (hk : 0 < j)  : (s.leaveAttached l).erase j l = s.erase j l := by unfold State.leaveAttached; simp [hk]
@[simp] theorem State.erase_enterUnattached  : (s.enterUnattached l).erase j l = s.erase j l := by unfold State.enterUnattached; simp
@[simp] theorem State.erase_disableLane (hk : 0 < j)  : (s.disableLane l).erase j l = s.erase j l := by unfold State.disableLane; simp [hk]
@[simp] theorem State.erase_detachLane (hk : 0 < j)  : (s.detachLane l).erase j l = s.erase j l := by unfold State.detachLane; simp [hk]
@[simp] theorem State.erase_cutLane (hk : 1 < j)  : (s.cutLane l).erase j l = s.erase j l := by unfold State.cutLane; simp [hk, Nat.lt_of_succ_lt hk]
@[simp] theorem State.erase_endSwap (hk : 0 < j) (outcome : BitVec 4) : (s.endSwap l outcome).erase j l = s.erase j l := by unfold State.endSwap; simp [hk]
@[simp] theorem State.erase_packHold  : (s.packHold l).erase j l = s.erase j l := by unfold State.packHold; split <;> simp
@[simp] theorem State.erase_errorRecovery (hk : 1 < j)  : (s.errorRecovery l).erase j l = s.erase j l := by
  unfold State.errorRecovery
  dsimp only
  repeat' split
  all_goals simp [hk, Nat.lt_of_succ_lt hk]
@[simp] theorem State.erase_hardReset (hk : 1 < j)  : (s.hardReset l).erase j l = s.erase j l := by
  unfold State.hardReset
  dsimp only
  repeat' split
  all_goals simp [hk, Nat.lt_of_succ_lt hk]
@[simp] theorem State.erase_hardResetOff (hk : 1 < j)  : (s.hardResetOff l).erase j l = s.erase j l := by
  unfold State.hardResetOff
  dsimp only
  repeat' split
  all_goals simp [hk, Nat.lt_of_succ_lt hk]
@[simp] theorem State.erase_leaveService (hk : 1 < j)  : (s.leaveService l).erase j l = s.erase j l := by
  unfold State.leaveService
  dsimp only
  repeat' split
  all_goals simp [hk, Nat.lt_of_succ_lt hk]
@[simp] theorem State.erase_tripRecord (hk : 1 < j)  : (s.tripRecord l).erase j l = s.erase j l := by
  unfold State.tripRecord
  dsimp only
  repeat' split
  all_goals simp [hk, Nat.lt_of_succ_lt hk]
@[simp] theorem State.erase_tripPath (cause : BitVec 4) (a b : Bool) : (s.tripPath l cause a b).erase j l = s.erase j l := by unfold State.tripPath; simp
@[simp] theorem State.erase_trip (hk : 1 < j) (cause : BitVec 4) (a b : Bool) : (s.trip l cause a b).erase j l = s.erase j l := by
  unfold State.trip; simp [hk, Nat.lt_of_succ_lt hk]
@[simp] theorem State.erase_crossing (hk : 1 < j) (cause : BitVec 4) (a b : Bool) : (s.crossing l cause a b).erase j l = s.erase j l := by
  unfold State.crossing
  dsimp only
  repeat' split
  all_goals simp [hk, Nat.lt_of_succ_lt hk]
@[simp] theorem State.erase_setFails (hk : 0 < j) (a b : Bool) : (s.setFails l a b).erase j l = s.erase j l := by
  unfold State.setFails
  dsimp only
  repeat' split
  all_goals simp [hk]
@[simp] theorem State.erase_applyVconn  : (s.applyVconn l).erase j l = s.erase j l := by unfold State.applyVconn; split <;> simp
@[simp] theorem State.erase_baseLimits  : (s.baseLimits l).erase j l = s.erase j l := by
  unfold State.baseLimits
  dsimp only
  repeat' split
  all_goals simp
@[simp] theorem State.erase_attachAs (hk : 0 < j) (src : Bool) (pin : CcPin) (ra : Bool) (rp : BitVec 2) : (s.attachAs l src pin ra rp).erase j l = s.erase j l := by
  unfold State.attachAs; split <;> simp [hk]
@[simp] theorem State.erase_changeLegs (s1 : State) : (s.changeLegs s1 l).erase j l = s1.erase j l := by unfold State.changeLegs; simp
@[simp] theorem State.erase_valleyOf (m : StageSample) : (s.valleyOf l m).erase j l = s.erase j l := by unfold State.valleyOf; simp
@[simp] theorem State.erase_feedForward (toRun : Bool) : (s.feedForward l toRun).erase j l = s.erase j l := by
  unfold State.feedForward
  dsimp only
  repeat' split
  all_goals simp
@[simp] theorem State.erase_rampDone (hk : 0 < j)  : (s.rampDone l).erase j l = s.erase j l := by unfold State.rampDone; simp [hk]
@[simp] theorem State.erase_applySetpoints  : (s.applySetpoints l).erase j l = s.erase j l := by unfold State.applySetpoints; simp
@[simp] theorem State.erase_storeConvVset (v : Word) : (s.storeConvVset l v).erase j l = s.erase j l := by unfold State.storeConvVset; split <;> simp
@[simp] theorem State.erase_storeConvIset (v : Word) : (s.storeConvIset l v).erase j l = s.erase j l := by unfold State.storeConvIset; split <;> simp
@[simp] theorem State.erase_storePhase (v : Word) : (s.storePhase l v).erase j l = s.erase j l := by unfold State.storePhase; split <;> simp
@[simp] theorem State.erase_closeAt (voutMv vinMv : Nat) : (s.closeAt l voutMv vinMv).erase j l = s.erase j l := by unfold State.closeAt; simp
@[simp] theorem State.erase_testFails (hk : 1 < j) (a b : Bool) : (s.testFails l a b).erase j l = s.erase j l := by
  unfold State.testFails
  dsimp only
  repeat' split
  all_goals simp [hk, Nat.lt_of_succ_lt hk]
@[simp] theorem State.erase_testB (hk : 1 < j)  : (s.testB l).erase j l = s.erase j l := by
  unfold State.testB
  dsimp only
  repeat' split
  all_goals simp [hk, Nat.lt_of_succ_lt hk]
@[simp] theorem State.erase_sampleCause (cause : BitVec 4) : (s.sampleCause l cause).erase j l = s.erase j l := by unfold State.sampleCause; split <;> simp
@[simp] theorem State.erase_setThermWarn (hk : 0 < j) (v : Bool)  : (s.setThermWarn v l).erase j l = s.erase j l := by
  unfold State.setThermWarn; split <;> simp [hk]
@[simp] theorem State.erase_thermTrip (hk : 1 < j)  : (s.thermTrip l).erase j l = s.erase j l := by
  unfold State.thermTrip
  dsimp only
  repeat' split
  all_goals simp [hk, Nat.lt_of_succ_lt hk]
@[simp] theorem State.erase_selfTestRun (hk : 1 < j) (r : TestResult) : (s.selfTestRun l r).erase j l = s.erase j l := by
  unfold State.selfTestRun
  dsimp only
  repeat' split
  all_goals simp [hk, Nat.lt_of_succ_lt hk]
@[simp] theorem State.erase_storeIlim (v : Word) : (s.storeIlim l v).erase j l = s.erase j l := by unfold State.storeIlim; simp
@[simp] theorem State.erase_storeShed (v : Nat) : (s.storeShed l v).erase j l = s.erase j l := by
  unfold State.storeShed
  dsimp only
  repeat' split
  all_goals simp
@[simp] theorem State.erase_latchClear (hk : 0 < j)  : (s.latchClear l).erase j l = s.erase j l := by
  unfold State.latchClear
  dsimp only
  repeat' split
  all_goals simp [hk]
@[simp] theorem State.erase_storeBelayCtrl (hk : 0 < j) (v : Word) : (s.storeBelayCtrl l v).erase j l = s.erase j l := by
  unfold State.storeBelayCtrl
  repeat' split
  all_goals simp [hk]
@[simp] theorem State.erase_fillSlot (hk : 0 < j) (marker : Bool) (f : Frame) : (s.fillSlot l marker f).erase j l = s.erase j l := by
  unfold State.fillSlot; simp [hk]
@[simp] theorem State.erase_refuseFrame (hk : 0 < j)  : (s.refuseFrame l).erase j l = s.erase j l := by unfold State.refuseFrame; simp [hk]
@[simp] theorem State.erase_popHead  : (s.popHead l).erase j l = s.erase j l := by unfold State.popHead; simp
@[simp] theorem State.erase_takeNewest  : (s.takeNewest l).erase j l = s.erase j l := by unfold State.takeNewest; simp
@[simp] theorem State.erase_extData (wr : Option Word) : (s.extData l wr).2.erase j l = s.erase j l := by unfold State.extData; split <;> simp
@[simp] theorem State.erase_swapSent (m : TxSlot) : (s.swapSent l m).erase j l = s.erase j l := by
  unfold State.swapSent
  repeat' split
  all_goals simp
@[simp] theorem State.erase_sendStaged (hk : 0 < j)  : (s.sendStaged l).erase j l = s.erase j l := by
  unfold State.sendStaged
  dsimp only
  repeat' split
  all_goals simp [hk]
@[simp] theorem State.erase_imageSend (hk : 0 < j) (ams : Bool) (f : Frame) : (s.imageSend l ams f).erase j l = s.erase j l := by
  unfold State.imageSend; simp [hk]
@[simp] theorem State.erase_imageSendExt (hk : 0 < j) (ams : Bool) (type : Nat) (payload : List Byte) : (s.imageSendExt l ams type payload).erase j l = s.erase j l := by
  unfold State.imageSendExt; split <;> simp [hk]
@[simp] theorem State.erase_hwSend (k : HwKind) (ams : Bool) (f : Frame) : (s.hwSend l k ams f).erase j l = s.erase j l := by
  unfold State.hwSend; split <;> simp
@[simp] theorem State.erase_stampEop  : (s.stampEop l).erase j l = s.erase j l := by
  unfold State.stampEop
  dsimp only
  repeat' split
  all_goals simp
@[simp] theorem State.erase_startFrame  : (s.startFrame l).erase j l = s.erase j l := by
  unfold State.startFrame
  dsimp only
  repeat' split
  all_goals simp
@[simp] theorem State.erase_notSupported (hk : 0 < j) (kind : Sop) : (s.notSupported l kind).erase j l = s.erase j l := by
  unfold State.notSupported; split <;> simp [hk]
@[simp] theorem State.erase_abandonReasm (hk : 0 < j)  : (s.abandonReasm l).erase j l = s.erase j l := by unfold State.abandonReasm; split <;> simp [hk]
@[simp] theorem State.erase_nextChunk (hk : 0 < j) (r : Reassembly) (f : Frame) : (s.nextChunk l r f).erase j l = s.erase j l := by
  unfold State.nextChunk
  dsimp only
  repeat' split
  all_goals simp [hk]
@[simp] theorem State.erase_firstChunk (hk : 0 < j) (f : Frame) : (s.firstChunk l f).erase j l = s.erase j l := by
  unfold State.firstChunk
  dsimp only
  repeat' split
  all_goals simp [hk]
@[simp] theorem State.erase_arAnswer (hk : 1 < j) (f : Frame) : (s.arAnswer l f).erase j l = s.erase j l := by
  unfold State.arAnswer
  dsimp only
  repeat' split
  all_goals simp [hk, Nat.lt_of_succ_lt hk]
@[simp] theorem State.erase_answerOpen (hk : 1 < j)  : (s.answerOpen l).erase j l = s.erase j l := by
  unfold State.answerOpen
  dsimp only
  repeat' split
  all_goals simp [hk, Nat.lt_of_succ_lt hk]
@[simp] theorem State.erase_amsFail  : (s.amsFail l).erase j l = s.erase j l := by
  unfold State.amsFail
  dsimp only
  repeat' split
  all_goals simp
@[simp] theorem State.erase_notSent (m : TxSlot) : (s.notSent l m).erase j l = s.erase j l := by
  unfold State.notSent
  dsimp only
  repeat' split
  all_goals simp
@[simp] theorem State.erase_endHead (hk : 1 < j) (result : BitVec 3) (retries : Nat) : (s.endHead l result retries).erase j l = s.erase j l := by
  unfold State.endHead
  repeat' split
  all_goals simp [hk, Nat.lt_of_succ_lt hk]
@[simp] theorem State.erase_raiseAr (hk : 1 < j)  : (s.raiseAr l).erase j l = s.erase j l := by
  unfold State.raiseAr
  dsimp only
  repeat' split
  all_goals simp [hk, Nat.lt_of_succ_lt hk]
@[simp] theorem State.erase_dropAr (hk : 0 < j)  : (s.dropAr l).erase j l = s.erase j l := by unfold State.dropAr; split <;> simp [hk]
@[simp] theorem State.erase_chunkAsked (hk : 1 < j) (f : Frame) : (s.chunkAsked l f).erase j l = s.erase j l := by
  unfold State.chunkAsked
  dsimp only
  repeat' split
  all_goals simp [hk, Nat.lt_of_succ_lt hk]
@[simp] theorem State.erase_discardHead (hk : 1 < j)  : (s.discardHead l).erase j l = s.erase j l := by
  unfold State.discardHead; simp [hk, Nat.lt_of_succ_lt hk]
@[simp] theorem State.erase_keepAlive (f : Frame) : (s.keepAlive l f).erase j l = s.erase j l := by
  unfold State.keepAlive
  dsimp only
  repeat' split
  all_goals simp
@[simp] theorem State.erase_noteCaps (f : Frame) : (s.noteCaps l f).erase j l = s.erase j l := by unfold State.noteCaps; split <;> simp
@[simp] theorem State.erase_softVoid (hk : 0 < j)  : (s.softVoid l).erase j l = s.erase j l := by unfold State.softVoid; simp [hk]
@[simp] theorem State.erase_startDiscovery (hk : 0 < j) (epr : Bool) : (s.startDiscovery l epr).erase j l = s.erase j l := by
  unfold State.startDiscovery; simp [hk]
@[simp] theorem State.erase_cableReset (hk : 0 < j)  : (s.cableReset l).erase j l = s.erase j l := by
  unfold State.cableReset
  dsimp only
  repeat' split
  all_goals simp [hk]
@[simp] theorem State.erase_sendCaps (hk : 0 < j) (run : Bool) : (s.sendCaps l run).erase j l = s.erase j l := by
  unfold State.sendCaps
  dsimp only
  repeat' split
  all_goals simp [hk]
@[simp] theorem State.erase_sendCapsNow (hk : 0 < j)  : (s.sendCapsNow l).erase j l = s.erase j l := by unfold State.sendCapsNow; simp [hk]
@[simp] theorem State.erase_amsEnd  : (s.amsEnd l).erase j l = s.erase j l := by unfold State.amsEnd; split <;> simp
@[simp] theorem State.erase_answerRequest (hk : 1 < j) (f : Frame) : (s.answerRequest l f).erase j l = s.erase j l := by
  unfold State.answerRequest
  repeat' split
  all_goals simp [hk, Nat.lt_of_succ_lt hk]
@[simp] theorem State.erase_queuePsRdy (hk : 0 < j)  : (s.queuePsRdy l).erase j l = s.erase j l := by unfold State.queuePsRdy; simp [hk]
@[simp] theorem State.erase_loadMoves (t : Nat) (on : Bool) : (s.loadMoves l t on).erase j l = s.erase j l := by unfold State.loadMoves; simp
@[simp] theorem State.erase_psReady (hk : 0 < j)  : (s.psReady l).erase j l = s.erase j l := by
  unfold State.psReady
  dsimp only
  repeat' split
  all_goals simp [hk]
@[simp] theorem State.erase_releaseReady (hk : 0 < j)  : (s.releaseReady l).erase j l = s.erase j l := by
  unfold State.releaseReady
  dsimp only
  repeat' split
  all_goals simp [hk]
@[simp] theorem State.erase_acceptSent (hk : 0 < j)  : (s.acceptSent l).erase j l = s.erase j l := by
  unfold State.acceptSent
  repeat' split
  all_goals simp [hk]
@[simp] theorem State.erase_contractTakes (t : Nat) : (s.contractTakes l t).erase j l = s.erase j l := by
  unfold State.contractTakes
  dsimp only
  repeat' split
  all_goals simp
@[simp] theorem State.erase_shedRecord (hk : 1 < j) (k : BitVec 3) : (s.shedRecord l k).erase j l = s.erase j l := by
  unfold State.shedRecord; simp [hk, Nat.lt_of_succ_lt hk]
@[simp] theorem State.erase_fallback (hk : 1 < j)  : (s.fallback l).erase j l = s.erase j l := by
  unfold State.fallback
  dsimp only
  repeat' split
  all_goals simp [hk, Nat.lt_of_succ_lt hk]
@[simp] theorem State.erase_requestAsSink (hk : 0 < j) (os : List Word) : (s.requestAsSink l os).erase j l = s.erase j l := by
  unfold State.requestAsSink
  dsimp only
  repeat' split
  all_goals simp [hk]
@[simp] theorem State.erase_onSourceCaps (hk : 0 < j) (f : Frame) : (s.onSourceCaps l f).erase j l = s.erase j l := by
  unfold State.onSourceCaps
  dsimp only
  repeat' split
  all_goals simp [hk]
@[simp] theorem State.erase_sinkContract (hk : 0 < j)  : (s.sinkContract l).erase j l = s.erase j l := by
  unfold State.sinkContract
  repeat' split
  all_goals simp [hk]
@[simp] theorem State.erase_eprDecide (hk : 0 < j)  : (s.eprDecide l).erase j l = s.erase j l := by unfold State.eprDecide; split <;> simp [hk]
@[simp] theorem State.erase_onEprMode (hk : 0 < j) (f : Frame) : (s.onEprMode l f).erase j l = s.erase j l := by
  unfold State.onEprMode
  dsimp only
  repeat' split
  all_goals simp [hk]
@[simp] theorem State.erase_seqSend (hk : 0 < j) (k : UrkaiStep) (f : Frame) : (s.seqSend l k f).erase j l = s.erase j l := by unfold State.seqSend; simp [hk]
@[simp] theorem State.erase_seqStep (hk : 0 < j) (k : UrkaiStep) : (s.seqStep l k).erase j l = s.erase j l := by unfold State.seqStep; simp [hk]
@[simp] theorem State.erase_authSend (hk : 0 < j) (k : UrkaiStep) (bytes : List Byte) : (s.authSend l k bytes).erase j l = s.erase j l := by
  unfold State.authSend; simp [hk]
@[simp] theorem State.erase_recNext (hk : 0 < j)  : (s.recNext l).erase j l = s.erase j l := by
  unfold State.recNext
  dsimp only
  repeat' split
  all_goals simp [hk]
@[simp] theorem State.erase_authEnd (hk : 1 < j) (st : BitVec 4) (root : Bool) : (s.authEnd l st root).erase j l = s.erase j l := by
  unfold State.authEnd
  repeat' split
  all_goals simp [hk, Nat.lt_of_succ_lt hk]
@[simp] theorem State.erase_authBegin (hk : 1 < j)  : (s.authBegin l).erase j l = s.erase j l := by
  unfold State.authBegin; split <;> simp [hk, Nat.lt_of_succ_lt hk]
@[simp] theorem State.erase_seqEnd (hk : 1 < j)  : (s.seqEnd l).erase j l = s.erase j l := by unfold State.seqEnd; split <;> simp [hk, Nat.lt_of_succ_lt hk]
@[simp] theorem State.erase_seqPack (hk : 1 < j)  : (s.seqPack l).erase j l = s.erase j l := by
  unfold State.seqPack; split <;> simp [hk, Nat.lt_of_succ_lt hk]
@[simp] theorem State.erase_seqNext (hk : 1 < j)  : (s.seqNext l).erase j l = s.erase j l := by
  unfold State.seqNext
  dsimp only
  repeat' split
  all_goals simp [hk, Nat.lt_of_succ_lt hk]
@[simp] theorem State.erase_learnModes (m : Word) : (s.learnModes l m).erase j l = s.erase j l := by unfold State.learnModes; simp
@[simp] theorem State.erase_urkaiEntered  : (s.urkaiEntered l).erase j l = s.erase j l := by unfold State.urkaiEntered; simp
@[simp] theorem State.erase_enterUrkai (hk : 1 < j)  : (s.enterUrkai l).erase j l = s.erase j l := by
  unfold State.enterUrkai
  dsimp only
  repeat' split
  all_goals simp [hk, Nat.lt_of_succ_lt hk]
@[simp] theorem State.erase_twinSetUp (hk : 1 < j)  : (s.twinSetUp l).erase j l = s.erase j l := by unfold State.twinSetUp; simp [hk, Nat.lt_of_succ_lt hk]
@[simp] theorem State.erase_exitUrkai (hk : 0 < j)  : (s.exitUrkai l).erase j l = s.erase j l := by unfold State.exitUrkai; simp [hk]
@[simp] theorem State.erase_seqRefused (hk : 1 < j) (f : Frame) : (s.seqRefused l f).erase j l = s.erase j l := by
  unfold State.seqRefused
  dsimp only
  repeat' split
  all_goals simp [hk, Nat.lt_of_succ_lt hk]
@[simp] theorem State.erase_armFrs  : (s.armFrs l).erase j l = s.erase j l := by unfold State.armFrs; split <;> simp
@[simp] theorem State.erase_seqAnswer (hk : 1 < j) (f : Frame) : (s.seqAnswer l f).erase j l = s.erase j l := by
  unfold State.seqAnswer
  dsimp only
  repeat' split
  all_goals simp [hk, Nat.lt_of_succ_lt hk]
@[simp] theorem State.erase_tmFailed  : (s.tmFailed l).erase j l = s.erase j l := by unfold State.tmFailed; simp
@[simp] theorem State.erase_twinTimeout  : (s.twinTimeout l).erase j l = s.erase j l := by
  unfold State.twinTimeout
  dsimp only
  repeat' split
  all_goals simp
@[simp] theorem State.erase_askChain (hk : 0 < j)  : (s.askChain l).erase j l = s.erase j l := by unfold State.askChain; simp [hk]
@[simp] theorem State.erase_answerVdm (hk : 0 < j) (f : Frame) : (s.answerVdm l f).erase j l = s.erase j l := by
  unfold State.answerVdm
  repeat' split
  all_goals simp [hk]
@[simp] theorem State.erase_tmMarkAnswer (f : Frame) : (s.tmMarkAnswer l f).erase j l = s.erase j l := by
  unfold State.tmMarkAnswer
  dsimp only
  repeat' split
  all_goals simp
@[simp] theorem State.erase_tmFollowAnswer (f : Frame) : (s.tmFollowAnswer l f).erase j l = s.erase j l := by
  unfold State.tmFollowAnswer
  dsimp only
  repeat' split
  all_goals simp
@[simp] theorem State.erase_sendTwin (hk : 0 < j) (cmd : BitVec 5) : (s.sendTwin l cmd).erase j l = s.erase j l := by
  unfold State.sendTwin
  repeat' split
  all_goals simp [hk]
@[simp] theorem State.erase_voidBack (hk : 1 < j) (cause : BitVec 2) : (s.voidBack l cause).erase j l = s.erase j l := by
  unfold State.voidBack; split <;> simp [hk, Nat.lt_of_succ_lt hk]
@[simp] theorem State.erase_disarm (hk : 0 < j)  : (s.disarm l).erase j l = s.erase j l := by
  unfold State.disarm
  dsimp only
  repeat' split
  all_goals simp [hk]
@[simp] theorem State.erase_arm (hk : 1 < j) (id : BitVec 4) (target : Bool) : (s.arm l id target).erase j l = s.erase j l := by
  unfold State.arm
  dsimp only
  repeat' split
  all_goals simp [hk, Nat.lt_of_succ_lt hk]
@[simp] theorem State.erase_storeArmed (hk : 1 < j) (v : Word) : (s.storeArmed l v).erase j l = s.erase j l := by
  unfold State.storeArmed
  repeat' split
  all_goals simp [hk, Nat.lt_of_succ_lt hk]
@[simp] theorem State.erase_twinArmAnswer (hk : 1 < j) (f : Frame) : (s.twinArmAnswer l f).erase j l = s.erase j l := by
  unfold State.twinArmAnswer
  dsimp only
  repeat' split
  all_goals simp [hk, Nat.lt_of_succ_lt hk]
@[simp] theorem State.erase_twinDisarmAnswer (hk : 0 < j) (f : Frame) : (s.twinDisarmAnswer l f).erase j l = s.erase j l := by
  unfold State.twinDisarmAnswer
  dsimp only
  repeat' split
  all_goals simp [hk]
@[simp] theorem State.erase_armResume (hk : 1 < j)  : (s.armResume l).erase j l = s.erase j l := by
  unfold State.armResume
  dsimp only
  repeat' split
  all_goals simp [hk, Nat.lt_of_succ_lt hk]
@[simp] theorem State.erase_armLate (hk : 1 < j)  : (s.armLate l).erase j l = s.erase j l := by
  unfold State.armLate
  dsimp only
  repeat' split
  all_goals simp [hk, Nat.lt_of_succ_lt hk]
@[simp] theorem State.erase_capsResume (hk : 0 < j)  : (s.capsResume l).erase j l = s.erase j l := by
  unfold State.capsResume
  dsimp only
  repeat' split
  all_goals simp [hk]
@[simp] theorem State.erase_switchNow (hk : 0 < j) (run : Bool) : (s.switchNow l run).erase j l = s.erase j l := by
  unfold State.switchNow
  dsimp only
  repeat' split
  all_goals simp [hk]
@[simp] theorem State.erase_discoveryEnd (hk : 0 < j)  : (s.discoveryEnd l).erase j l = s.erase j l := by
  unfold State.discoveryEnd
  dsimp only
  repeat' split
  all_goals simp [hk]
@[simp] theorem State.erase_discoveryFails (hk : 0 < j)  : (s.discoveryFails l).erase j l = s.erase j l := by unfold State.discoveryFails; simp [hk]
@[simp] theorem State.erase_discAnswer (hk : 0 < j) (f : Frame) : (s.discAnswer l f).erase j l = s.erase j l := by
  unfold State.discAnswer
  repeat' split
  all_goals simp [hk]
@[simp] theorem State.erase_firstCaps (hk : 0 < j)  : (s.firstCaps l).erase j l = s.erase j l := by
  unfold State.firstCaps
  dsimp only
  repeat' split
  all_goals simp [hk]
@[simp] theorem State.erase_sentAny (hk : 1 < j) (f : Frame) : (s.sentAny l f).erase j l = s.erase j l := by
  unfold State.sentAny
  dsimp only
  repeat' split
  all_goals simp [hk, Nat.lt_of_succ_lt hk]
@[simp] theorem State.erase_startVcs  : (s.startVcs l).erase j l = s.erase j l := by
  unfold State.startVcs
  dsimp only
  repeat' split
  all_goals simp
@[simp] theorem State.erase_frsAfresh (hk : 0 < j)  : (s.frsAfresh l).erase j l = s.erase j l := by
  unfold State.frsAfresh
  dsimp only
  repeat' split
  all_goals simp [hk]
@[simp] theorem State.erase_hwDone (hk : 1 < j) (m : HwMsg) (sent : Bool) : (s.hwDone l m sent).erase j l = s.erase j l := by
  unfold State.hwDone
  dsimp only
  repeat' split
  all_goals simp [hk, Nat.lt_of_succ_lt hk]
@[simp] theorem State.erase_resetMessages (hk : 0 < j)  : (s.resetMessages l).erase j l = s.erase j l := by unfold State.resetMessages; simp [hk]
@[simp] theorem State.erase_attachRoles (hk : 0 < j)  : (s.attachRoles l).erase j l = s.erase j l := by
  unfold State.attachRoles
  dsimp only
  repeat' split
  all_goals simp [hk]
@[simp] theorem State.erase_hardResetEnd (hk : 0 < j)  : (s.hardResetEnd l).erase j l = s.erase j l := by unfold State.hardResetEnd; simp [hk]
@[simp] theorem State.erase_vconnBack  : (s.vconnBack l).erase j l = s.erase j l := by
  unfold State.vconnBack
  dsimp only
  repeat' split
  all_goals simp
@[simp] theorem State.erase_sinkReturn (hk : 0 < j)  : (s.sinkReturn l).erase j l = s.erase j l := by unfold State.sinkReturn; simp [hk]
@[simp] theorem State.erase_tryAttach (hk : 0 < j)  : (s.tryAttach l).erase j l = s.erase j l := by
  unfold State.tryAttach
  dsimp only
  repeat' split
  all_goals simp [hk]
@[simp] theorem State.erase_cutClear  : (s.cutClear l).erase j l = s.erase j l := by unfold State.cutClear; split <;> simp
@[simp] theorem State.erase_watchAttach (hk : 1 < j)  : (s.watchAttach l).erase j l = s.erase j l := by
  unfold State.watchAttach; simp [hk, Nat.lt_of_succ_lt hk]
@[simp] theorem State.erase_watchCut (hk : 1 < j)  : (s.watchCut l).erase j l = s.erase j l := by unfold State.watchCut; simp [hk, Nat.lt_of_succ_lt hk]
@[simp] theorem State.erase_takeServed  : (s.takeServed l).erase j l = s.erase j l := by unfold State.takeServed; split <;> simp
@[simp] theorem State.erase_answerSwap (hk : 0 < j) (ans : SwapAnswer) : (s.answerSwap l ans).erase j l = s.erase j l := by
  unfold State.answerSwap; split <;> simp [hk]
@[simp] theorem State.erase_sendPrSwap (hk : 0 < j)  : (s.sendPrSwap l).erase j l = s.erase j l := by
  unfold State.sendPrSwap
  dsimp only
  repeat' split
  all_goals simp [hk]
@[simp] theorem State.erase_partnerReady (hk : 0 < j)  : (s.partnerReady l).erase j l = s.erase j l := by
  unfold State.partnerReady
  dsimp only
  repeat' split
  all_goals simp [hk]
@[simp] theorem State.erase_onSinkCaps (hk : 1 < j) (f : Frame) : (s.onSinkCaps l f).erase j l = s.erase j l := by
  unfold State.onSinkCaps
  dsimp only
  repeat' split
  all_goals simp [hk, Nat.lt_of_succ_lt hk]
@[simp] theorem State.erase_onHoldSet (hk : 1 < j) (f : Frame) : (s.onHoldSet l f).erase j l = s.erase j l := by
  unfold State.onHoldSet; split <;> simp [hk, Nat.lt_of_succ_lt hk]
@[simp] theorem State.erase_signalFrs (hk : 0 < j)  : (s.signalFrs l).erase j l = s.erase j l := by
  unfold State.signalFrs
  dsimp only
  repeat' split
  all_goals simp [hk]
@[simp] theorem State.erase_prsReq (hk : 0 < j)  : (s.prsReq l).erase j l = s.erase j l := by unfold State.prsReq; split <;> simp [hk]
@[simp] theorem State.erase_packWrite (hk : 0 < j) (v : Nat) : (s.packWrite l v).erase j l = s.erase j l := by
  unfold State.packWrite
  dsimp only
  repeat' split
  all_goals simp [hk]
@[simp] theorem State.erase_tallyClear  : (s.tallyClear l).erase j l = s.erase j l := by unfold State.tallyClear; simp
@[simp] theorem State.erase_onRecCommit (hk : 1 < j) (f : Frame) : (s.onRecCommit l f).erase j l = s.erase j l := by
  unfold State.onRecCommit
  dsimp only
  repeat' split
  all_goals simp [hk, Nat.lt_of_succ_lt hk]
@[simp] theorem State.erase_cancelQueued (hk : 0 < j) (p : TxSlot → Bool) : (s.cancelQueued l p).erase j l = s.erase j l := by
  unfold State.cancelQueued; simp [hk]
@[simp] theorem State.erase_freezePackWrite (hk : 1 < j)  : (s.freezePackWrite l).erase j l = s.erase j l := by
  unfold State.freezePackWrite
  dsimp only
  repeat' split
  all_goals simp [hk, Nat.lt_of_succ_lt hk]

end

end Sys2Proof.Machine

/-! States in which a statement about messages fails (O39, O44). -/
namespace Sys2Proof.Machine

/-- The Accept of a DR_Swap is in flight on lane 0. -/
def acceptInFlight : State :=
  runDevice fun x => { x with swap := { x.swap with swapAccept := true, state := 6 },
                              pd := { x.pd with flight := some { frame := ctl 3 }, queue := [{ data := (stageWords (ctl 3)).toList, begun := true }] } }

/-- Refutes O39: the GoodCRC of the Accept of a DR_Swap writes an event record, which advances EVT_LOG_HEAD. -/
theorem not_transmitQueue : ¬ Obligations.TransmitQueue := by
  unfold Obligations.TransmitQueue
  intro h
  obtain ⟨-, -, -, -, -, hsop, -⟩ := h .host 0 0 0 .sop { frame := ctl 3 } { data := (stageWords (ctl 3)).toList, begun := true } [] acceptInFlight
  have hdev := congrArg (fun s : State => s.dev.logHead)
    (hsop rfl rfl rfl rfl (by decide +kernel) (by decide +kernel) rfl rfl rfl).stateAfter.2.2.2.2.2
  revert hdev
  decide +kernel
end Sys2Proof.Machine

/-! A state in which the statement about the Urkai mode fails (O44). -/
namespace Sys2Proof.Machine

/-- A source served by the base image waits for the answer to Enter Mode, with authentication due (AUTH_MODE 1) and no root fused. -/
def enterModeAsked : State :=
  ((runDevice fun x => { x with cc := { x.cc with st := .attachedSrc }, con := { x.con with seq := .enterMode, seqWait := true, valid := true } }).modSec
    fun x => { x with shadow := x.shadow.set 256 0x1234, authMode := 1 }).modCore 0 fun c => { c with baseImg := true, run := .running }

/-- Refutes O44: behind Enter Mode, an authentication that is due and finds no root ends with an event record, which advances EVT_LOG_HEAD. -/
theorem not_urkaiMode : ¬ Obligations.UrkaiMode := by
  unfold Obligations.UrkaiMode
  intro h
  obtain ⟨-, -, -, -, -, -, -, -, -, -, hmode, -⟩ := h 0 { header := 0x104F, objs := [0x1234A144] } enterModeAsked
  have hdev := congrArg (fun s : State => s.dev.logHead)
    (hmode (by decide +kernel) (by decide +kernel) (by decide +kernel) (by decide +kernel) (by decide +kernel) (by decide +kernel)
      rfl rfl).stateAfter.2.2
  revert hdev
  decide +kernel

end Sys2Proof.Machine

/-! A state in which the statement about the fast role swap fails (O47). -/
namespace Sys2Proof.Machine

/-- A source in the Urkai mode, served by the base image, whose pack record has been read, waits for the answer to HOLD_SET, with authentication due (AUTH_MODE 1) and no root fused. -/
def holdSetAsked : State :=
  ((runDevice fun x => { x with cc := { x.cc with st := .attachedSrc },
                                con := { x.con with seq := .holdSet, seqWait := true, urkai := true, packRead := true, valid := true } }).modSec
    fun x => { x with shadow := x.shadow.set 256 0x1234, authMode := 1 }).modCore 0 fun c => { c with baseImg := true, run := .running }

/-- Refutes O47: behind HOLD_SET with no record owed, an authentication that is due and finds no root ends with an event record, which advances EVT_LOG_HEAD. -/
theorem not_fastRoleSwap : ¬ Obligations.FastRoleSwap := by
  unfold Obligations.FastRoleSwap
  intro h
  obtain ⟨-, -, -, -, hhold, -⟩ := h 0 0 { header := 0x104F, objs := [0x1234A155] } 0 holdSetAsked
  have hdev := congrArg (fun s : State => s.dev.logHead)
    (hhold (by decide +kernel) rfl (by decide +kernel) (by decide +kernel) (by decide +kernel) (by decide +kernel) (by decide +kernel)
      rfl rfl).stateAfter.2.2
  revert hdev
  decide +kernel

end Sys2Proof.Machine

/-! A state in which the statement about the swath engine fails (O54). -/
namespace Sys2Proof.Machine

/-- A state with every interrupt source at its default value, written out as copies of one. -/
def State.quiet (s : State) : State := { s with srcs := Vector.replicate 1024 {} }

/-- The engine runs with a pose and without stagger. Lane 0, a Twin lane that the base image serves, has a section forced on (SECT_CTRL FORCE 2) that its contract switches (SECT_MODE 1), and no Time Mark lock. -/
def forcedSection : State :=
  (((runDevice fun x => { x with cfg := { x.cfg with sectCtrl := 0x201, umodeCtrl := 0 }, con := { x.con with twinOn := true, kind := 3 } }).quiet.modSwath
    fun x => { x with ctrl := 1, poseOk := true, win := (-6, -6) }).modBus fun b => { b with stagger := 0 }).modCore 0 fun c => { c with baseImg := true, run := .running }

/-- Refutes O54: with no applied section, the arm that a section's want asks for is refused, and the fallback of R104 writes an event record into memory. -/
theorem not_swathEngine : ¬ Obligations.SwathEngine := by
  unfold Obligations.SwathEngine
  intro h
  obtain ⟨-, -, -, -, -, -, -, -, -, hmem, -⟩ := h .host 0 0 0 0 0 0 0 0 0 [] forcedSection
  have hbyte := congrArg (fun m : Mem => memRead m 2883602)
    (hmem (by decide +kernel) (by decide +kernel) (by decide +kernel) (by decide +kernel)).stateAfter
  revert hbyte
  decide +kernel

end Sys2Proof.Machine

/-! A state in which the statement about the counters fails (O55). -/
namespace Sys2Proof.Machine

/-- Counter 23 counts the turns of counter 22. A TOP of 10 has been written to it on the tick of its peak and waits for the next up slope; until then its slope ends at 3, below its count of 5. -/
def topWaits : State :=
  (State.reset.quiet.modCounter 22 fun c => { c with ctrl := 1 }).modCounter 23 fun c =>
    { c with ctrl := 0x101, act := 0, val := 5, top := 10, topEff := 3, topWait := true }

/-- Refutes O55: a chained counter below a TOP that waits (R266), and above the end of its present slope, turns down instead of counting up. -/
theorem not_counters : ¬ Obligations.Counters := by
  unfold Obligations.Counters
  intro h
  obtain ⟨-, hchain, -⟩ := h .host 22 23 false false 0 topWaits
  have hval := (hchain (by decide +kernel) (by decide +kernel) (by decide +kernel) (by decide +kernel) (by decide +kernel) (by decide +kernel) (by decide +kernel) (by decide +kernel) (by decide +kernel)
    (by decide +kernel)).stateAfter.2.1
  revert hval
  decide +kernel

end Sys2Proof.Machine

/-! A state in which the statement about the tether stack fails (O58). -/
namespace Sys2Proof.Machine

/-- A device in RUN that follows a hitch and knows a stack of two. -/
def followsHitch : State := (runDevice id).quiet.modTether fun t => { t with heard := true, n := 2, pos := some 1 }

/-- Refutes O58: a downstream frame with N = 0 leaves N as the device knows it (R362). -/
theorem not_tetherStack : ¬ Obligations.TetherStack := by
  unfold Obligations.TetherStack
  intro h
  obtain ⟨-, -, -, -, -, -, -, hdown, -⟩ :=
    h .host .tu { } { crcOk := true, resValid := true, n := 0 } { } 0 (.arrived 0) 0 0 false 0 0 0 0 followsHitch
  have hn := (hdown rfl rfl (.inl rfl) rfl rfl rfl rfl (by decide +kernel) rfl rfl).stateAfter.2.2.2.2.1
  revert hn
  decide +kernel

end Sys2Proof.Machine

/-! A state in which the statement about the host port fails (O59). -/
namespace Sys2Proof.Machine

/-- A memory, not in canonical form, that lists one address of shared RAM twice. -/
def listedTwice : State := { State.reset with mem := [(0x104000, 1), (0x104000, 1)] }

/-- Refutes O59: where the memory lists an address twice, a write of 0 uncovers the second cell, and the word does not read as written. -/
theorem not_hostPort : ¬ Obligations.HostPort := by
  unfold Obligations.HostPort
  intro h
  obtain ⟨-, -, -, -, -, -, -, -, -, -, hram, -⟩ := h (.core 4) .host 0 [] none 0x104000 0 listedTwice
  have hword := (hram rfl rfl (by decide) (by decide)).stateAfter.1
  revert hword
  decide +kernel

end Sys2Proof.Machine

/-! A state in which the statement about mailbox commands fails (O60). -/
namespace Sys2Proof.Machine

/-- READY with an image half written, whose store, not in canonical form, lists the address of the next chunk twice; the chunk of 16 bytes begins with 0xFF, which the store holds as 0. -/
def storedTwice : State :=
  { ((((State.reset.quiet.modDev fun d => { d with state := .ready, vsysOk := true, vioOk := true }).modCore 4 fun c =>
      { c with baseImg := true, run := .running }).modMbx fun m => { m with arg := (m.arg.set 0 512).set 1 16 }).modImage fun x =>
      { x with writing := true, accepted := 512, store := [(512, 1), (512, 1)] }) with mem := [(mbxBuf, 0xFF)] }

/-- Refutes O60: where the image store lists an address twice, a chunk byte of 0xFF uncovers the second cell, and the store does not hold the chunk. -/
theorem not_commandsAndSecurity : ¬ Obligations.CommandsAndSecurity := by
  unfold Obligations.CommandsAndSecurity
  intro h
  obtain ⟨-, -, -, -, -, hchunk, -⟩ := h (.core 4) 0 0 0 false 0 0 storedTwice
  have hbyte := (hchunk rfl (by decide +kernel) rfl rfl rfl rfl (by decide +kernel) (by decide +kernel) (by decide +kernel) (by decide +kernel)
    (by decide +kernel)).stateAfter.2.2.2.2.2.2.2.1 0 (by decide +kernel)
  revert hbyte
  decide +kernel

end Sys2Proof.Machine

/-! SUPPORT. What a valley, slew-bound control and the stores of the loop engine's registers do to a lane's engine, and the levels of its switches (O52). -/
namespace Sys2Proof.Machine

section
variable (s s1 : State) (l : LaneId) (x : Lane) (c : ConvLane) (m : StageSample)

/-- A step of the engine changes nothing more of the lane than when its legs changed over. -/
theorem State.changeLegs_conv : ∃ i o, ((s.changeLegs s1 l).lane l).conv = { (s1.lane l).conv with inAt := i, outAt := o } := by
  simp [State.changeLegs]

@[simp] theorem State.changeLegs_cfg : ((s.changeLegs s1 l).lane l).cfg = (s1.lane l).cfg := by simp [State.changeLegs]

theorem State.valleyOf_conv : ∃ i o, ((s.valleyOf l m).lane l).conv = { valley (s.lane l) m with inAt := i, outAt := o } := by
  simpa [State.valleyOf] using s.changeLegs_conv (s.modConv l fun _ => valley (s.lane l) m) l

theorem State.setLane_self : s.setLane l (s.lane l) = s := by simp [State.setLane, State.lane, Vector.get_eq_getElem]

theorem State.modConv_self {f : ConvLane → ConvLane} (h : f (s.lane l).conv = (s.lane l).conv) : s.modConv l f = s := by
  rw [State.modConv, State.modLane, h]; exact s.setLane_self l

/-- A step that leaves the engine as it is leaves the legs as they are. -/
theorem State.changeLegs_self : s.changeLegs s l = s := by
  unfold State.changeLegs
  exact s.modConv_self l (by simp)

theorem State.valleyOf_off (h : (s.lane l).conv.on = false) : s.valleyOf l m = s := by
  rw [State.valleyOf, s.modConv_self l (by simp [valley, h]), s.changeLegs_self]

-- the loops

theorem ConvLane.openLegs_keeps (cfg : LaneCfg) (r : BitVec 2) : (c.openLegs cfg r m).corr = c.corr ∧ (c.openLegs cfg r m).on = c.on ∧
    (c.openLegs cfg r m).ilAvg = c.ilAvg ∧ (c.openLegs cfg r m).rev = c.rev ∧ (c.openLegs cfg r m).revStart = c.revStart := ⟨rfl, rfl, rfl, rfl, rfl⟩

/-- The first period leaves what is measured, the correction and the direction as they are. -/
theorem ConvLane.begin_keeps (cfg : LaneCfg) : (c.begin cfg m).corr = c.corr ∧ (c.begin cfg m).on = c.on ∧ (c.begin cfg m).ilAvg = c.ilAvg ∧
    (c.begin cfg m).rev = c.rev ∧ (c.begin cfg m).revStart = c.revStart := by
  unfold ConvLane.begin
  split <;> exact ⟨rfl, rfl, rfl, rfl, rfl⟩

/-- What the loops never change: the correction, whether the stage runs, and the measured current. -/
theorem valleyLoops_keeps : (valleyLoops x c m).corr = c.corr ∧ (valleyLoops x c m).on = c.on ∧ (valleyLoops x c m).ilAvg = c.ilAvg := by
  obtain ⟨hc, ho, hi, -, -⟩ := c.begin_keeps m x.cfg
  unfold valleyLoops
  dsimp only
  split
  · split <;> exact ⟨rfl, rfl, rfl⟩
  · split <;> split <;> simp only [currentLoop, voltageLoop, hc, ho, hi, and_self]

/-- Behind the first period the loops leave the ratio mode and the duties in force. -/
theorem valleyLoops_legs (h : c.first = false) : (valleyLoops x c m).ratio = c.ratio ∧ (valleyLoops x c m).d1 = c.d1 ∧ (valleyLoops x c m).d2 = c.d2 := by
  unfold valleyLoops
  simp only [h, Bool.false_eq_true, if_false]
  split
  · split <;> exact ⟨rfl, rfl, rfl⟩
  · split <;> exact ⟨rfl, rfl, rfl⟩

/-- In slew-bound control the loops freeze the ratio mode (R190). -/
theorem valleyLoops_slew (h : c.slew = true) : (valleyLoops x c m).ratio = c.ratio ∧ (valleyLoops x c m).ratioNew = c.ratioNew := by
  unfold valleyLoops
  simp only [h, if_true]
  split <;> exact ⟨rfl, rfl⟩

/-- A running forward stage selects the ratio mode by R181. -/
theorem valleyLoops_ratioNew (hs : c.slew = false) (hf : c.first = false) (hr : c.rev = false) (hv : c.revStart = false) :
    (valleyLoops x c m).ratioNew = ratioNext (fld x.cfg.convCtrl 1 0) c.ratio c.vs.toNat m.vin := by
  simp [valleyLoops, hs, hf, hr, hv, currentLoop, voltageLoop]

/-- The forward limit and the floor never clamp at once: the floor lies below 0. -/
theorem voltageLoop_clamp (cfg : LaneCfg) {lo : Int} (hi vbin : Nat) (h : lo ≤ 0) :
    ((voltageLoop cfg c lo hi vbin).1.fwdClamp && (voltageLoop cfg c lo hi vbin).1.floorClamp) = false := by
  simp only [voltageLoop, ← Bool.decide_and, decide_eq_false_iff_not]
  rintro ⟨h1, h2⟩
  have h3 : lo * 2 ^ 30 ≤ (hi : Int) * 2 ^ 30 := Int.mul_le_mul_of_nonneg_right (by omega) (by decide)
  omega

theorem valleyLoops_clamp (hs : c.slew = false) (hr : c.rev = false) (hv : c.revStart = false) :
    ((valleyLoops x c m).fwdClamp && (valleyLoops x c m).floorClamp) = false := by
  have hclamp (d : ConvLane) : ((voltageLoop x.cfg d (if d.down then -60 else -10) (fwdLimit x) (meanVbin m)).1.fwdClamp &&
      (voltageLoop x.cfg d (if d.down then -60 else -10) (fwdLimit x) (meanVbin m)).1.floorClamp) = false :=
    voltageLoop_clamp d x.cfg (fwdLimit x) (meanVbin m) (by split <;> decide)
  obtain ⟨-, -, -, hr', hv'⟩ := c.begin_keeps m x.cfg
  unfold valleyLoops
  simp only [hs, Bool.false_eq_true, if_false]
  split <;> simp only [hr, hv, hr', hv', Bool.or_self, Bool.false_eq_true, if_false, currentLoop] <;> exact hclamp _

-- the switches

/-- The two switches of a leg are never on together (R172). -/
theorem legLevels_apart (cfg : LaneCfg) (d : Int) (pos : Nat) : (legLevels cfg d pos).1 = false ∨ (legLevels cfg d pos).2 = false := by
  unfold legLevels
  split
  · exact .inl rfl
  · split
    · exact .inr rfl
    · dsimp only
      by_cases h : pos < edgeFine cfg d
      · left; simp; omega
      · simp only [if_neg h, Bool.and_eq_false_iff, decide_eq_false_iff_not]
        omega

theorem legsWanted_apart : ((legsWanted s l).1 = false ∨ (legsWanted s l).2.1 = false) ∧ ((legsWanted s l).2.2.1 = false ∨ (legsWanted s l).2.2.2 = false) := by
  unfold legsWanted
  dsimp only
  split
  · exact ⟨.inl rfl, .inl rfl⟩
  · split
    · constructor <;> simp
    · exact ⟨legLevels_apart _ _ _, (legLevels_apart _ _ _).symm⟩

/-- What the measurements of a period give a running carrier before the loops compute (R174). -/
def valleyStart : ConvLane :=
  { x.conv with
    ilAvg := BitVec.ofInt 16 (ilOf x.cfg m.code), phase := phaseToward x.conv.phase ((fld x.cfg.phaseOffset 11 0 : Nat) : BitVec 12),
    corr := carrierCorr x.conv.slip, slip := x.conv.slip + carrierCorr x.conv.slip, ratio := x.conv.ratioNew, d1 := x.conv.d1Next,
    d2 := x.conv.d2Next }

theorem valley_on (h : x.conv.on = true) :
    valley x m = { valleyLoops x (valleyStart x m) m with vsShown := (valleyLoops x (valleyStart x m) m).vs } := by
  simp [valley, valleyStart, h]

theorem valley_off (h : x.conv.on = false) : valley x m = x.conv := by simp [valley, h]

end

-- writes of the lane's registers

section
variable {s : State} {a : Agent} {l : LaneId} {f : State → State}

theorem State.byLaneWrite_served (ha : hostServed s a = true) (hl : s.fusedOff l = false) : s.byLaneWrite a l f = .next (f s) := by
  simp [State.byLaneWrite, State.byWrite, ha, hl]

theorem State.byWrite_served (ha : hostServed s a = true) : s.byWrite a f = .next (f s) := by simp [State.byWrite, ha]

end

theorem ConvLane.takeRev_keeps (c : ConvLane) (v : BitVec 10) : (c.takeRev v).revEff = v ∧ (c.takeRev v).vsetEff = c.vsetEff := by
  unfold ConvLane.takeRev
  dsimp only
  split <;> exact ⟨rfl, rfl⟩

theorem ConvLane.retarget_vsetEff (c : ConvLane) (v : BitVec 14) : (c.retarget v).vsetEff = v := by
  unfold ConvLane.retarget
  dsimp only
  split <;> rfl

/-- The setpoints in force are those of the registers (R199). -/
theorem State.applySetpoints_conv (s : State) (l : LaneId) :
    ((s.applySetpoints l).lane l).conv.vsetEff = BitVec.ofNat 14 (fld (s.lane l).cfg.convVset 13 0) ∧
    ((s.applySetpoints l).lane l).conv.revEff = BitVec.ofNat 10 (fld (s.lane l).cfg.convIset 25 16) ∧
    ((s.applySetpoints l).lane l).conv.fwdEff = BitVec.ofNat 10 (fld (s.lane l).cfg.convIset 9 0) := by
  simp [State.applySetpoints, ConvLane.takeRev_keeps, ConvLane.retarget_vsetEff]

@[simp] theorem State.applySetpoints_cfg (s : State) (l : LaneId) : ((s.applySetpoints l).lane l).cfg = (s.lane l).cfg := by
  simp [State.applySetpoints]

theorem State.storeConvVset_cfg (s : State) (l : LaneId) (v : Word) :
    ((s.storeConvVset l v).lane l).cfg.convVset = convVsetStored (s.lane l).cfg v := by
  unfold State.storeConvVset
  dsimp only
  split <;> simp

theorem State.storeConvIset_cfg (s : State) (l : LaneId) (v : Word) : ((s.storeConvIset l v).lane l).cfg.convIset = convIsetStored v := by
  unfold State.storeConvIset
  dsimp only
  split <;> simp

theorem convVsetStored_fields (c : LaneCfg) (v : Word) : fld (convVsetStored c v) 13 0 = Min.min (fld v 13 0) (fld c.vconvMax 13 0) ∧
    fld (convVsetStored c v) 23 16 = clampNat 1 250 (fld v 23 16) := by
  have hv : Min.min (fld v 13 0) (fld c.vconvMax 13 0) < 2 ^ 14 := (Nat.min_le_left _ _).trans_lt (fld_lt v 13 0)
  have hr : clampNat 1 250 (fld v 23 16) < 2 ^ 8 := by unfold clampNat; omega
  constructor <;> simp (disch := omega) only [convVsetStored, packFields, fld_or, fld_shifted_above, fld_shifted_below, fld_shifted_at, fld_zero, Nat.zero_or, Nat.or_zero]

theorem convIsetStored_fields (v : Word) : fld (convIsetStored v) 9 0 = Min.min (fld v 9 0) 700 ∧ fld (convIsetStored v) 25 16 = Min.min (fld v 25 16) 700 := by
  constructor <;> simp (disch := omega) only [convIsetStored, packFields, fld_or, fld_shifted_above, fld_shifted_below, fld_shifted_at, fld_zero, Nat.zero_or, Nat.or_zero]

end Sys2Proof.Machine


/-! The loop engines (O52). -/
namespace Sys2Proof.Machine

/-- A sample in slew-bound control does what R191 says of it, and the legs change over. -/
theorem execLeave_on (l : LaneId) (m : SlewSample) (s : State) (h : (s.lane l).conv.slew = true) : execLeave l m s = .next (s.changeLegs
    (s.modConv l fun c => match slewAct (s.lane l) m with
      | .stay => { c with slewHold := c.slewHold && decide (ilMax (s.lane l).cfg * 256 ≤ (ilFine (s.lane l).cfg m.code).natAbs) }
      | .hold => { c with slewHold := true }
      | .turn => { c with slewBack := true, slewHold := false }
      | .leave => c.leaveSlew (s.lane l).cfg s.dev.dtime m) l) := if_neg (by simp [h])

/-- Settles O52: each command is unfolded to its step of the engine, whose outcome the laws of the valley, of slew-bound control and of the stored registers give. -/
theorem loopEngines : Obligations.LoopEngines := by
  unfold Obligations.LoopEngines
  intro a l v k m1 w m s
  have frame {s' : State} (h : s'.erase 0 l = s.erase 0 l) : s.onlyLane s' l := State.onlyLane_of_erase h
  refine ⟨?_, ?_, ?_, ?_, ?_, ?_, ?_, ?_, ?_, ?_, ?_, ?_, ?_, ?_, ?_, ?_, ?_, ?_, ?_, ?_, ?_, ?_, ?_⟩
  · intro hon hs hf hr hv
    obtain ⟨i, o, hc⟩ := s.valleyOf_conv l m
    obtain ⟨hcorr, hon', -⟩ := valleyLoops_keeps (s.lane l) (valleyStart (s.lane l) m) m
    obtain ⟨hratio, h1, h2⟩ := valleyLoops_legs (s.lane l) (valleyStart (s.lane l) m) m hf
    refine ⟨_, rfl, ?_⟩
    simp only [hc, valley_on _ _ hon, hcorr, hon', hratio, h1, h2, valleyLoops_ratioNew _ (valleyStart (s.lane l) m) m hs hf hr hv]
    exact ⟨trivial, fun _ => rfl, rfl, rfl, hon, rfl, rfl, frame (by simp [State.valleyOf])⟩
  · intro h
    obtain ⟨i, o, hc⟩ := s.valleyOf_conv l m
    refine ⟨_, rfl, ?_⟩
    simp only [hc]
    by_cases hon : (s.lane l).conv.on = true
    · obtain ⟨hr, hn⟩ := valleyLoops_slew (s.lane l) (valleyStart (s.lane l) m) m (h.resolve_left (by simp [hon]))
      simp only [valley_on _ _ hon, hr, hn, hon, if_true]
      exact ⟨rfl, rfl, frame (by simp [State.valleyOf])⟩
    · simp only [valley_off _ _ (Bool.eq_false_iff.2 hon), if_neg hon]
      exact ⟨trivial, trivial, frame (by simp [State.valleyOf])⟩
  · intro hon hs hr hv
    obtain ⟨i, o, hc⟩ := s.valleyOf_conv l m
    obtain ⟨hcorr, -, hil⟩ := valleyLoops_keeps (s.lane l) (valleyStart (s.lane l) m) m
    refine ⟨_, rfl, ?_⟩
    simp only [hc, valley_on _ _ hon, hcorr, hil, valleyLoops_clamp _ (valleyStart (s.lane l) m) m hs hr hv]
    exact ⟨trivial, fun _ => rfl, trivial, rfl, frame (by simp [State.valleyOf])⟩
  · exact fun hon => ⟨_, rfl, s.valleyOf_off l m hon⟩
  · intro h
    refine ⟨_, if_pos h, ?_⟩
    obtain ⟨i, o, hc⟩ := s.changeLegs_conv (s.modConv l fun v =>
      { v with slew := true, slewKind := k, slewCnt := v.slewCnt + 1, slewUp := decide (0 < slewError (s.lane l) k w.c), slewBack := false,
               slewHold := false, ratioNew := v.ratio, d1Next := v.d1, d2Next := v.d2 }) l
    simp only [hc, State.lane_modConv]
    exact ⟨trivial, trivial, trivial, trivial, trivial, trivial, frame (by simp)⟩
  · exact fun h => if_neg (by simp [h])
  · intro hs h
    obtain ⟨i, o, hc⟩ := s.changeLegs_conv (s.modConv l fun c => c.leaveSlew (s.lane l).cfg s.dev.dtime m1) l
    refine ⟨_, execLeave_on l m1 s hs, ?_⟩
    simp only [h, hc, State.lane_modConv]
    exact ⟨rfl, rfl, rfl, rfl, rfl, frame (by simp)⟩
  · intro hs h
    obtain ⟨i, o, hc⟩ := s.changeLegs_conv (s.modConv l fun c => { c with slewBack := true, slewHold := false }) l
    refine ⟨_, execLeave_on l m1 s hs, ?_⟩
    simp only [h, hc, State.lane_modConv]
    exact ⟨hs, trivial, trivial, frame (by simp)⟩
  · intro hs h
    obtain ⟨i, o, hc⟩ := s.changeLegs_conv (s.modConv l fun c => { c with slewHold := true }) l
    refine ⟨_, execLeave_on l m1 s hs, ?_⟩
    simp only [h, hc, State.lane_modConv]
    exact ⟨hs, trivial, trivial, frame (by simp)⟩
  · intro hs h
    obtain ⟨i, o, hc⟩ := s.changeLegs_conv (s.modConv l fun c =>
      { c with slewHold := c.slewHold && decide (ilMax (s.lane l).cfg * 256 ≤ (ilFine (s.lane l).cfg m1.code).natAbs) }) l
    refine ⟨_, execLeave_on l m1 s hs, ?_⟩
    simp only [h, hc, State.lane_modConv]
    exact ⟨hs, trivial, frame (by simp)⟩
  · intro hs
    exact if_pos (by simp [hs])
  · intro hs
    obtain ⟨i, o, hc⟩ := s.changeLegs_conv (s.modConv l fun c => { c.leaveSlew (s.lane l).cfg s.dev.dtime m1 with slewTo := true }) l
    refine ⟨_, if_pos hs, ?_⟩
    simp only [State.postLane_lane, State.log_lane, hc, State.lane_modConv]
    exact ⟨rfl, trivial, rfl, State.onlyLaneLogs_of_erase (by simp)⟩
  · intro h
    refine ⟨_, if_pos h, ?_⟩
    simp only [State.lane_modConv]
    exact ⟨trivial, trivial, trivial, frame (by simp)⟩
  · intro h
    exact if_neg (by simp [h])
  · intro ha hl
    refine ⟨_, State.byLaneWrite_served (f := fun st => st.storeConvVset l v) ha hl, ?_⟩
    show fld _ 13 0 = _ ∧ fld _ 23 16 = _ ∧ (_ → _ = fld _ 13 0) ∧ _
    rw [State.storeConvVset_cfg]
    refine ⟨(convVsetStored_fields _ v).1, (convVsetStored_fields _ v).2, fun hd => ?_, frame (by simp)⟩
    simp [State.storeConvVset, hd, State.applySetpoints_conv, (fld_lt _ 13 0).trans_le]
  · intro ha hl hd
    refine ⟨_, State.byLaneWrite_served (f := fun st => st.storeConvVset l v) ha hl, ?_, frame (by simp)⟩
    simp [State.storeConvVset, hd]
  · intro ha hl
    refine ⟨_, State.byLaneWrite_served (f := fun st => st.storeConvIset l v) ha hl, ?_⟩
    show fld _ 9 0 = _ ∧ fld _ 25 16 = _ ∧ _
    rw [State.storeConvIset_cfg]
    refine ⟨(convIsetStored_fields v).1, (convIsetStored_fields v).2, fun hd => ?_, frame (by simp)⟩
    simp [State.storeConvIset, hd, State.applySetpoints_conv, convIsetStored_fields]
  · intro ha hl
    refine ⟨_, State.byLaneWrite_served (f := fun st => st.storePhase l v) ha hl, ?_, ?_, frame (by simp)⟩
    · simp only [State.storePhase]
      split <;> simp
    · simp only [State.storePhase]
      split <;> simp
  · intro h hr
    refine ⟨_, if_pos (by simp [h, hr]), ?_⟩
    simp only [State.lane_modConv]
    exact ⟨trivial, trivial, frame (by simp)⟩
  · intro h
    exact if_neg (by rcases h with h | h <;> simp [h])
  · intro h
    simp [pwmLevels, legsWanted, h]
  · exact (legsWanted_apart s l).1.imp (by simp [pwmLevels, ·]) (by simp [pwmLevels, ·])
  · exact (legsWanted_apart s l).2.imp (by simp [pwmLevels, ·]) (by simp [pwmLevels, ·])

end Sys2Proof.Machine

/-! SUPPORT. What a lane takes from a message that the base image hears, and what the base image's SEND does with a short message of its own (R50–R55, R57, R66). -/
namespace Sys2Proof.Machine

section
variable (s : State) (n k : Nat) (t u : CoreId) (g : GroupId) (l j : LaneId)

-- what a posting leaves of a core and of a group (R17, R278)

@[simp] theorem imageRuns_wakeCore : imageRuns ((s.wakeCore u).core t) = imageRuns (s.core t) := by
  unfold State.wakeCore
  split
  · next h =>
    by_cases hu : t = u
    · subst hu
      simp [imageRuns, h]
    · rw [State.core_modCore_ne _ _ hu]
  · rfl

/-- The wake of a group changes whether its core and loop engine run, and its count, and nothing else of a group. -/
theorem State.wakeGroup_group :
    ∃ a b w, (s.wakeGroup u).group g = { s.group g with coreRun := a, leRun := b, wakes := w } := by
  unfold State.wakeGroup
  split
  · next h =>
    dsimp only
    split
    · exact ⟨_, _, _, rfl⟩
    · split
      · by_cases hg : g = ⟨u.val, h⟩
        · subst hg
          exact ⟨_, _, _, State.group_modGroup ..⟩
        · rw [State.group_modGroup_ne _ _ hg]
          exact ⟨_, _, _, rfl⟩
      · exact ⟨_, _, _, rfl⟩
  · exact ⟨_, _, _, rfl⟩

theorem State.post_group : ∃ a b w, (s.post n).group g = { s.group g with coreRun := a, leRun := b, wakes := w } := by
  unfold State.post
  dsimp only
  split
  · next hn =>
    split
    · split
      · next ht =>
        obtain ⟨a, b, w, h⟩ := (s.modSrc ⟨n, hn⟩ IcSrc.posted).wakeGroup_group ⟨_, ht⟩ g
        refine ⟨a, b, w, ?_⟩
        split <;> simp [h]
      · exact ⟨_, _, _, rfl⟩
    · exact ⟨_, _, _, rfl⟩
  · exact ⟨_, _, _, rfl⟩

@[simp] theorem imageRuns_post : imageRuns ((s.post n).core t) = imageRuns (s.core t) := by
  unfold State.post
  dsimp only
  repeat' split
  all_goals simp

@[simp] theorem State.post_spliced : ((s.post n).group g).spliced = (s.group g).spliced := by
  obtain ⟨a, b, w, h⟩ := s.post_group n g
  rw [h]

@[simp] theorem State.post_linkOk : ((s.post n).group g).linkOk = (s.group g).linkOk := by
  obtain ⟨a, b, w, h⟩ := s.post_group n g
  rw [h]

@[simp] theorem serves_post : serves (s.post n) l = serves s l := by simp [serves, serverOf]
@[simp] theorem serves_postLane : serves (s.postLane j k) l = serves s l := serves_post ..
@[simp] theorem dieUp_post : dieUp (s.post n) l = dieUp s l := by simp [dieUp]
@[simp] theorem dieUp_postLane : dieUp (s.postLane j k) l = dieUp s l := dieUp_post ..

/-- Whether the base image serves a lane does not hang on the lane but for the auto-responder (R4, R66). -/
theorem serves_setLane (x : Lane) (h : x.pd.arActive = (s.lane l).pd.arActive) : serves (s.setLane l x) l = serves s l := by
  simp only [serves, State.lane_setLane, h]
  rfl

theorem State.setLane_wakeCore (x : Lane) : (s.wakeCore t).setLane l x = (s.setLane l x).wakeCore t := by
  unfold State.wakeCore
  by_cases h : (s.core t).run = .waiting
  · rw [if_pos h, if_pos (show ((s.setLane l x).core t).run = .waiting from h)]
    rfl
  · rw [if_neg h, if_neg (show ¬((s.setLane l x).core t).run = .waiting from h)]

theorem State.setLane_wakeGroup (x : Lane) : (s.wakeGroup t).setLane l x = (s.setLane l x).wakeGroup t := by
  unfold State.wakeGroup
  by_cases h : t.val < 4
  · rw [dif_pos h, dif_pos h]
    dsimp only
    by_cases h1 : (s.group ⟨t.val, h⟩).coreRun = true
    · rw [if_pos h1, if_pos (show ((s.setLane l x).group ⟨t.val, h⟩).coreRun = true from h1)]
    · rw [if_neg h1, if_neg (show ¬((s.setLane l x).group ⟨t.val, h⟩).coreRun = true from h1)]
      exact apply_ite (fun u : State => u.setLane l x) _ _ _
  · rw [dif_neg h, dif_neg h]

/-- What a posting does does not hang on a lane, nor does it reach one. -/
theorem State.setLane_post (x : Lane) : (s.post n).setLane l x = (s.setLane l x).post n := by
  unfold State.post
  by_cases h : n < 1024
  · rw [dif_pos h, dif_pos h]
    dsimp only
    by_cases h1 : (s.src ⟨n, h⟩).routeEn = true
    · rw [if_pos h1, if_pos (show ((s.setLane l x).src ⟨n, h⟩).routeEn = true from h1)]
      by_cases h2 : (s.src ⟨n, h⟩).target.toNat < 6
      · rw [dif_pos h2, dif_pos (show ((s.setLane l x).src ⟨n, h⟩).target.toNat < 6 from h2)]
        change _ = if (((s.modSrc ⟨n, h⟩ IcSrc.posted).setLane l x).wakeGroup ⟨_, h2⟩).wakes ⟨_, h2⟩ ⟨n, h⟩ = true then
          (((s.modSrc ⟨n, h⟩ IcSrc.posted).setLane l x).wakeGroup ⟨_, h2⟩).wakeCore ⟨_, h2⟩ else
          ((s.modSrc ⟨n, h⟩ IcSrc.posted).setLane l x).wakeGroup ⟨_, h2⟩
        rw [← State.setLane_wakeGroup, ← State.setLane_wakeCore]
        exact apply_ite (fun u : State => u.setLane l x) _ _ _
      · rw [dif_neg h2, dif_neg (show ¬((s.setLane l x).src ⟨n, h⟩).target.toNat < 6 from h2)]
        rfl
    · rw [if_neg h1, if_neg (show ¬((s.setLane l x).src ⟨n, h⟩).routeEn = true from h1)]
  · rw [dif_neg h, dif_neg h]

theorem State.setLane_postLane (x : Lane) : (s.postLane j k).setLane l x = (s.setLane l x).postLane j k := State.setLane_post ..

end

-- reception

/-- Lane x with frame f acknowledged: the GoodCRC that answers it and the keep-alive time (R51, R85). -/
def Lane.acked (x : Lane) (now : Nat) (f : Frame) : Lane :=
  { x with
    con := { x.con with kaStart := if (x.con.kaKind = 1 && isData f 2) || (x.con.kaKind = 2 && f.sop = .sop) then now else x.con.kaStart },
    pd := { x.pd with ack := some (ackFrame x f) } }

/-- Lane x behind the new message f, with rs in its receive FIFO: f acknowledged and its MessageID stored, the message among those unanswered where the auto-responder would answer it, and a sink's list of capabilities. -/
def Lane.heard (x : Lane) (now : Nat) (f : Frame) (rs : List RxSlot) : Lane :=
  { x.acked now f with
    con := { (x.acked now f).con with rxCaps := if isData f 1 && f.sop = .sop && !x.swap.powerRole then some f else x.con.rxCaps },
    pd := { (x.acked now f).pd with
      fifo := rs, rxId := x.pd.rxId.set (sopIdx f.sop).val (some (msgId f.header)) (sopIdx f.sop).isLt,
      unanswered := if arNamed x f then x.pd.unanswered ++ [f] else x.pd.unanswered } }

/-- The state in which the base image acts on a new message: the lane has heard it, and its receive source is posted (R55, R268). -/
def State.heard (s : State) (l : LaneId) (f : Frame) : State := (s.setLane l ((s.lane l).heard s.dev.dtime f [])).postLane l 1

section
variable {s : State} {l : LaneId} {f : Frame}

@[simp] theorem State.heard_lane : (s.heard l f).lane l = (s.lane l).heard s.dev.dtime f [] := by simp [State.heard]
@[simp] theorem State.heard_dev : (s.heard l f).dev = s.dev := by simp [State.heard]
@[simp] theorem State.heard_sec : (s.heard l f).sec = s.sec := by simp [State.heard]
@[simp] theorem State.erase_heard {k : Nat} (hk : 0 < k) : (s.heard l f).erase k l = s.erase k l := by simp [State.heard, hk]
@[simp] theorem State.serves_heard : serves (s.heard l f) l = serves s l := by
  rw [State.heard, serves_postLane]
  exact serves_setLane s l _ rfl

theorem State.discardHead_nil (h : (s.lane l).pd.queue = []) : s.discardHead l = s := by simp [State.discardHead, State.endHead, h]

theorem State.abandonReasm_none (h : (s.lane l).pd.reasm = none) : s.abandonReasm l = s := by simp [State.abandonReasm, h]

/-- A message that is not extended names no chunk of a reassembly. -/
theorem isChunk0_false (h : isExtended f.header = false) : isChunk0 f = false := by simp [isChunk0, h]

theorem State.setLane_setLane (s : State) (l : LaneId) (x y : Lane) : (s.setLane l x).setLane l y = s.setLane l y := by
  simp [State.setLane]

theorem State.keepAlive_eq : s.keepAlive l f = s.modCon l fun c =>
    { c with kaStart := if (c.kaKind = 1 && isData f 2) || (c.kaKind = 2 && f.sop = .sop) then s.dev.dtime else c.kaStart } := by
  unfold State.keepAlive
  dsimp only
  split
  · next h => simp only [State.modCon, State.modLane, h, if_true]
  · next h => simp only [State.modCon, State.modLane, h]; exact (s.setLane_self l).symm

theorem State.noteCaps_eq : s.noteCaps l f = s.modCon l fun c =>
    { c with rxCaps := if isData f 1 && f.sop = .sop && !(s.lane l).swap.powerRole then some f else c.rxCaps } := by
  unfold State.noteCaps
  split
  · next h => simp only [State.modCon, State.modLane, h, if_true]
  · next h => simp only [State.modCon, State.modLane, h]; exact (s.setLane_self l).symm

/-- A frame is acknowledged before it is stored. -/
theorem State.acked_eq : ((s.keepAlive l f).modPd l fun p => { p with ack := some (ackFrame (s.lane l) f) }) =
    s.setLane l ((s.lane l).acked s.dev.dtime f) := by
  simp only [State.keepAlive_eq, State.modCon, State.modPd, State.modLane, State.lane_setLane, State.setLane_setLane]
  rfl

/-- A new message that is not extended, no Soft_Reset and no BIST message, on a lane with nothing queued and no reassembly, takes a slot of the FIFO. -/
theorem State.receive_stored (hatt : (s.lane l).cc.attached = true) (hb : (s.lane l).pd.bist = .off) (hq : (s.lane l).pd.queue = [])
    (hre : (s.lane l).pd.reasm = none) (hfifo : (s.lane l).pd.fifo.length < 4) (har : ((s.lane l).pd.arActive && arNamed (s.lane l) f) = false)
    (hsop : f.sop = .sop) (hcrc : isCtl f 1 = false) (hid : (s.lane l).pd.rxId.get 0 ≠ some (msgId f.header)) (hext : isExtended f.header = false)
    (hsoft : isCtl f 13 = false) (hbist : isData f 3 = false) :
    s.receive l f = (.stored, (s.setLane l ((s.lane l).heard s.dev.dtime f
      ((s.lane l).pd.fifo ++ [{ marker := false, frame := f, time := BitVec.ofNat 32 s.dev.dtime }]))).postLane l 1) := by
  have hroom : hasRoom ((s.lane l).acked s.dev.dtime f) f = true := by simp [hasRoom, Lane.acked, hfifo, isChunk0_false hext]
  unfold State.receive
  dsimp only
  rw [if_neg (by simp [hatt, hb, hsop, hcrc]), State.discardHead_nil hq, ite_self, State.acked_eq, State.lane_setLane,
    if_neg (by rw [hsop, hsoft, Bool.not_false, Bool.true_and, decide_eq_true_iff]; exact hid), if_neg (by simp [hroom])]
  simp only [hext, hsoft, hbist, Bool.false_and, Bool.false_eq_true, if_false, State.modPd, State.modLane, State.lane_setLane, State.setLane_setLane]
  rw [State.abandonReasm_none (by rw [State.lane_setLane]; exact hre), State.lane_setLane, if_neg (by exact Bool.eq_false_iff.1 har)]
  simp only [State.fillSlot, State.noteCaps_eq, State.modCon, State.modPd, State.modLane, State.setLane_postLane, State.setLane_setLane, State.postLane_lane,
    State.lane_setLane, Lane.heard]
  by_cases hn : arNamed (s.lane l) f = true
  · rw [if_pos (by exact hn), if_pos hn]
    simp only [State.setLane_setLane, State.lane_setLane]
    rfl
  · rw [if_neg (by exact hn), if_neg hn]
    simp only [State.setLane_setLane, State.lane_setLane]
    rfl

/-- What the lane keeps of a message is its own: the base image hears a new message that is not extended, no Soft_Reset and no BIST message with nothing else changed. -/
theorem State.imageReceive_hears (k : State → State) (h : s.hears l f) (hext : isExtended f.header = false) (hsoft : isCtl f 13 = false)
    (hbist : isData f 3 = false) : s.imageReceive l f k = k (s.heard l f) := by
  obtain ⟨hatt, hb, -, -, hq, hfifo, hre, hs, hsop, hcrc, hid⟩ := h
  have har : (s.lane l).pd.arActive = false := by simpa using (Bool.and_eq_true_iff.1 hs).1
  rw [State.imageReceive, State.receive_stored hatt (by simp [hb]) hq hre (by simp [hfifo]) (by simp [har]) hsop hcrc hid hext hsoft hbist]
  dsimp only
  rw [serves_postLane, serves_setLane s l _ (by rfl), if_pos hs]
  simp only [State.takeNewest, State.modPd, State.modLane, State.setLane_postLane, State.setLane_setLane, State.postLane_lane, State.lane_setLane, hfifo]
  rfl

-- the kinds of message

theorem isData_plain {n : Nat} (h : isData f n = true) :
    isExtended f.header = false ∧ (∀ k, isCtl f k = false) ∧ ∀ k, k ≠ n → isData f k = false := by
  simp only [isData, Bool.and_eq_true, Bool.not_eq_true', decide_eq_true_eq] at h
  obtain ⟨⟨hx, hn⟩, ht⟩ := h
  exact ⟨hx, fun k => by simp [isCtl, hn], fun k hk => by simp [isData, ht, Ne.symm hk]⟩

theorem isCtl_plain {n : Nat} (h : isCtl f n = true) :
    isExtended f.header = false ∧ (∀ k, isData f k = false) ∧ ∀ k, k ≠ n → isCtl f k = false := by
  simp only [isCtl, Bool.and_eq_true, Bool.not_eq_true', decide_eq_true_eq] at h
  obtain ⟨⟨hx, hn⟩, ht⟩ := h
  exact ⟨hx, fun k => by simp [isData, hn], fun k hk => by simp [isCtl, ht, Ne.symm hk]⟩

theorem isData_of_isSvdm (h : isSvdm f = true) : isData f 15 = true := (Bool.and_eq_true_iff.1 h).1

/-- The base image acts on a data message that its command hears, but for BIST (R4, R55). -/
theorem State.leads_data {n : Nat} {c : Instr} {k : State → State} {P : State → Prop} (hc : exec c s = .next (s.imageReceive l f k)) (h : s.hears l f)
    (hd : isData f n = true) (hn : n ≠ 3) (hp : P (k (s.heard l f))) : leads c s P := by
  obtain ⟨hx, hctl, hk⟩ := isData_plain hd
  exact ⟨_, hc, (State.imageReceive_hears k h hx (hctl 13) (hk 3 hn.symm)).symm ▸ hp⟩

/-- The base image acts on a control message that its command hears, but for Soft_Reset (R4, R55). -/
theorem State.leads_ctl {n : Nat} {c : Instr} {k : State → State} {P : State → Prop} (hc : exec c s = .next (s.imageReceive l f k)) (h : s.hears l f)
    (hd : isCtl f n = true) (hn : n ≠ 13) (hp : P (k (s.heard l f))) : leads c s P := by
  obtain ⟨hx, hdata, hk⟩ := isCtl_plain hd
  exact ⟨_, hc, (State.imageReceive_hears k h hx (hk 13 hn.symm) (hdata 3)).symm ▸ hp⟩

end

end Sys2Proof.Machine

/-! SUPPORT. What the base image's SEND does with a short message of its own (R57, R111). -/
namespace Sys2Proof.Machine

section
variable (s : State) (l : LaneId) (ams : Bool) (f : Frame)

/-- The first two staged bytes are the header (R57). -/
theorem stageWords_header : (stageWords f)[0].truncate 16 = f.header := by
  obtain ⟨p, h, os⟩ := f
  simp only [stageWords, Vector.getElem_ofFn, frameBytes, wordAt]
  apply BitVec.eq_of_toNat_eq
  have h1 := h.isLt
  simp only [BitVec.truncate_eq_setWidth, BitVec.toNat_setWidth, BitVec.toNat_ofNat, BitVec.toNat_ushiftRight, Nat.shiftRight_eq_div_pow, Nat.mul_zero,
    List.drop_zero, List.cons_append, List.nil_append, List.getElem?_cons_zero, List.getElem?_cons_succ]
  omega

/-- The base image's staging words and control word for message f (R57). -/
def LaneCfg.staged (c : LaneCfg) (ams : Bool) (f : Frame) : LaneCfg :=
  { c with txData := stageWords f, txCtrl := packFields [(b2n ams, 5), (sopCode f.sop, 0)] }

/-- The slot that the base image's SEND of message f takes. -/
def Lane.slotOf (x : Lane) (ams : Bool) (f : Frame) : TxSlot := { tag := x.pd.nextTag, sop := f.sop, ams := ams, data := (stageWords f).toList }

/-- Lane x behind the base image's SEND of message f, marked AMS_START or not: the staging words, the slot and the tag, and a source's ams_hold. -/
def Lane.sends (x : Lane) (ams : Bool) (f : Frame) : Lane :=
  { x with
    cfg := x.cfg.staged ams f, pd := { x.pd with queue := x.pd.queue ++ [x.slotOf ams f], nextTag := x.pd.nextTag + 1 },
    swap := { x.swap with amsHold := if ams && x.swap.powerRole then true else x.swap.amsHold } }

theorem LaneCfg.staged_fields (c : LaneCfg) : fld (c.staged ams f).txCtrl 1 0 = sopCode f.sop ∧ bitOf (c.staged ams f).txCtrl 4 = false ∧
    bitOf (c.staged ams f).txCtrl 5 = ams := by
  simp only [LaneCfg.staged]
  cases ams <;> cases f.sop <;> decide

/-- A message that is no data message of type 15 is no write of the pack record (R136). -/
theorem isPackWrite_staged (h : isData f 15 = false) : isPackWrite (s.modCfg l fun c => c.staged ams f) l = false := by
  have hd : isData f 15 = (!isExtended f.header && decide (msgType f.header = 15) && decide (numObjs f.header ≠ 0)) := by
    simp only [isData, Bool.and_assoc, Bool.and_comm, Bool.and_left_comm]
  rw [hd] at h
  simp only [isPackWrite, State.lane_modCfg, LaneCfg.staged, stageWords_header, h, Bool.false_and]

/-- The header of a queued message of the base image is that of the message. -/
theorem slotFrame_slotOf_header (x : Lane) : (slotFrame (x.slotOf ams f)).header = f.header := by
  rw [← stageWords_header f]
  simp [slotFrame, Lane.slotOf]

theorem slotIs_slotOf (x : Lane) (hsop : f.sop = .sop) (n : Nat) : slotIs (x.slotOf ams f) n = isCtl f n := by
  simp only [slotIs, isCtl, slotFrame_slotOf_header]
  simp [Lane.slotOf, hsop]

/-- What keeps a SEND of the base image on SOP from being refused: a free slot, no hard reset, and no pack write at low VSYS (R58, R136). -/
abbrev State.takes (s : State) (l : LaneId) (f : Frame) : Prop :=
  (s.lane l).pd.queue.length < 2 ∧ (s.lane l).pd.hrBusy = false ∧ f.sop = .sop ∧
    (s.dev.vsysWarn = false ∨ isPackWrite (s.modCfg l fun c => c.staged false f) l = false)

variable {s l f}

theorem State.sendStaged_taken (h : s.takes l f) :
    sendRefused (s.modCfg l fun c => c.staged ams f) l = false := by
  obtain ⟨hq, hhr, hsop, hp⟩ := h
  obtain ⟨h1, h2, h3⟩ := (s.lane l).cfg.staged_fields ams f
  have hpack : isPackWrite (s.modCfg l fun c => c.staged ams f) l = isPackWrite (s.modCfg l fun c => c.staged false f) l := by
    simp [isPackWrite, LaneCfg.staged]
  have hw : (s.dev.vsysWarn && isPackWrite (s.modCfg l fun c => c.staged false f) l) = false := by
    rcases hp with hp | hp <;> simp [hp]
  simp [sendRefused, h1, h2, hq, hhr, hsop, sopCode, hpack, hw]

/-- The slot that SEND takes for a staged message on SOP that is not extended. -/
def Lane.stagedSlot (x : Lane) : TxSlot := { tag := x.pd.nextTag, ams := bitOf x.cfg.txCtrl 5, data := x.cfg.txData.toList }

/-- A SEND on SOP of a message that is not extended, where nothing refuses it (R57, R58, R111). -/
theorem State.sendStaged_sop (hr : sendRefused s l = false) (hk : fld (s.lane l).cfg.txCtrl 1 0 = 0) (hx : bitOf (s.lane l).cfg.txCtrl 4 = false) :
    s.sendStaged l = if bitOf (s.lane l).cfg.txCtrl 5 && (s.lane l).swap.powerRole then
      ((s.modPd l fun p => { p with queue := p.queue ++ [(s.lane l).stagedSlot], nextTag := p.nextTag + 1 }).swapSent l (s.lane l).stagedSlot).modSwap l
        fun w => { w with amsHold := true }
      else (s.modPd l fun p => { p with queue := p.queue ++ [(s.lane l).stagedSlot], nextTag := p.nextTag + 1 }).swapSent l (s.lane l).stagedSlot := by
  unfold State.sendStaged
  simp only [hr, hk, hx, Bool.false_eq_true, if_false]
  rfl

/-- A SEND of the base image that is not refused queues its message, which opens a swap or a contract change where it is an Accept (R57, R83, R114). -/
theorem State.imageSend_taken (h : s.takes l f) : s.imageSend l ams f = if ams && (s.lane l).swap.powerRole then
      ((s.setLane l { (s.lane l).sends ams f with swap := (s.lane l).swap }).swapSent l ((s.lane l).slotOf ams f)).modSwap l
        fun w => { w with amsHold := true }
      else (s.setLane l { (s.lane l).sends ams f with swap := (s.lane l).swap }).swapSent l ((s.lane l).slotOf ams f) := by
  obtain ⟨h1, h2, h3⟩ := (s.lane l).cfg.staged_fields ams f
  have hm : ((s.modCfg l fun c => c.staged ams f).lane l).stagedSlot = (s.lane l).slotOf ams f := by
    rw [State.lane_modCfg, Lane.stagedSlot, h3, Lane.slotOf, h.2.2.1]
    rfl
  change (s.modCfg l fun c => c.staged ams f).sendStaged l = _
  rw [State.sendStaged_sop (State.sendStaged_taken ams h) (by rw [State.lane_modCfg, h1, h.2.2.1]; rfl) (by rw [State.lane_modCfg]; exact h2), hm]
  simp only [State.modPd, State.modCfg, State.modLane, State.setLane_setLane, State.lane_setLane, h3]
  rfl

theorem State.swapSent_other {m : TxSlot} (h : slotIs m 3 = false) : s.swapSent l m = s := by
  unfold State.swapSent
  split
  · rw [if_pos (by simp [h])]
  · rfl

/-- A message that is no Accept goes to the queue and changes nothing else but ams_hold. -/
theorem State.imageSend_queued (h : s.takes l f) (ha : isCtl f 3 = false) : s.imageSend l ams f = s.setLane l ((s.lane l).sends ams f) := by
  rw [State.imageSend_taken ams h, State.swapSent_other (by rw [slotIs_slotOf ams f _ h.2.2.1, ha])]
  by_cases hp : (ams && (s.lane l).swap.powerRole) = true
  · rw [if_pos hp, State.modSwap, State.modLane, State.setLane_setLane, State.lane_setLane, Lane.sends, if_pos hp]
  · rw [if_neg hp, Lane.sends, if_neg hp]

end

-- what a SEND of the base image leaves of the lane, refused or not

section
variable (s : State) (l : LaneId) (m : TxSlot) (ams : Bool) (f : Frame) (tag : BitVec 4) (result : BitVec 3) (n : Nat)

/-- SEND reaches the message layer, the swap bits and the staging registers, and nothing else of the lane. -/
theorem State.swapSent_lane : ∃ p w, (s.swapSent l m).lane l = { s.lane l with pd := p, swap := w } := by
  unfold State.swapSent
  repeat' split
  all_goals simp only [State.modSwap, State.modPd, State.modLane, State.lane_setLane]
  all_goals exact ⟨_, _, rfl⟩

theorem State.sendStaged_lane : ∃ p w, (s.sendStaged l).lane l = { s.lane l with pd := p, swap := w } := by
  unfold State.sendStaged State.endMessage
  dsimp only
  split
  · exact ⟨_, _, by rw [State.postLane_lane]; exact State.lane_modPd ..⟩
  · obtain ⟨p, w, h⟩ := (s.modPd l fun p => { p with queue := p.queue ++ [_], nextTag := p.nextTag + 1 }).swapSent_lane l _
    split
    · rw [State.lane_modSwap, h, State.lane_modPd]; exact ⟨_, _, rfl⟩
    · rw [h, State.lane_modPd]; exact ⟨_, _, rfl⟩

theorem State.imageSend_lane : ∃ c p w, (s.imageSend l ams f).lane l = { s.lane l with cfg := c, pd := p, swap := w } := by
  obtain ⟨p, w, h⟩ := (s.modCfg l fun c => c.staged ams f).sendStaged_lane l
  exact ⟨_, p, w, by rw [State.lane_modCfg] at h; exact h⟩

@[simp] theorem State.imageSend_tally : ((s.imageSend l ams f).lane l).tally = (s.lane l).tally := by
  obtain ⟨c, p, w, h⟩ := s.imageSend_lane l ams f
  rw [h]

@[simp] theorem State.imageSend_con : ((s.imageSend l ams f).lane l).con = (s.lane l).con := by
  obtain ⟨c, p, w, h⟩ := s.imageSend_lane l ams f
  rw [h]

@[simp] theorem State.imageSend_cc : ((s.imageSend l ams f).lane l).cc = (s.lane l).cc := by
  obtain ⟨c, p, w, h⟩ := s.imageSend_lane l ams f
  rw [h]

@[simp] theorem State.imageSend_belay : ((s.imageSend l ams f).lane l).belay = (s.lane l).belay := by
  obtain ⟨c, p, w, h⟩ := s.imageSend_lane l ams f
  rw [h]

@[simp] theorem State.imageSend_conv : ((s.imageSend l ams f).lane l).conv = (s.lane l).conv := by
  obtain ⟨c, p, w, h⟩ := s.imageSend_lane l ams f
  rw [h]

@[simp] theorem State.imageSend_fw : ((s.imageSend l ams f).lane l).fw = (s.lane l).fw := by
  obtain ⟨c, p, w, h⟩ := s.imageSend_lane l ams f
  rw [h]

@[simp] theorem State.imageSend_sect : ((s.imageSend l ams f).lane l).sect = (s.lane l).sect := by
  obtain ⟨c, p, w, h⟩ := s.imageSend_lane l ams f
  rw [h]

@[simp] theorem State.imageSend_budget : ((s.imageSend l ams f).lane l).budget = (s.lane l).budget := by
  obtain ⟨c, p, w, h⟩ := s.imageSend_lane l ams f
  rw [h]

/-- The base image's SEND of an extended message reaches as far as that of a short one. -/
theorem State.imageSendExt_lane (type : Nat) (payload : List Byte) :
    ∃ c p w, (s.imageSendExt l ams type payload).lane l = { s.lane l with cfg := c, pd := p, swap := w } := by
  unfold State.imageSendExt
  dsimp only
  obtain ⟨p, w, h⟩ := ((if (s.lane l).pd.queue.any (·.ext) then s else s.modPd l fun p => { p with txBuf := memWriteList p.txBuf 0 payload }).modCfg l
    fun c => { c with txData := _, txCtrl := _ }).sendStaged_lane l
  rw [h]
  split <;> simp only [State.lane_modCfg, State.lane_modPd] <;> exact ⟨_, _, _, rfl⟩

/-- A capability list changes the ceiling it was made for, and the time of a hold, and nothing else beyond a SEND (R97). -/
theorem State.sendCapsNow_lane :
    ∃ c p w n t, (s.sendCapsNow l).lane l = { s.lane l with cfg := c, pd := p, swap := w, con := { (s.lane l).con with capsCeil := n, holdT := t } } := by
  unfold State.sendCapsNow State.sendCaps
  dsimp only
  split
  · rw [State.lane_modCon]
    exact ⟨_, _, _, _, _, rfl⟩
  · split
    · obtain ⟨c, p, w, h⟩ := (s.modCon l fun c => { c with capsCeil := (s.lane l).budget.ceil, holdT := none }).imageSendExt_lane l true 17 _
      rw [h, State.lane_modCon]
      exact ⟨_, _, _, _, _, rfl⟩
    · obtain ⟨c, p, w, h⟩ := (s.modCon l fun c => { c with capsCeil := (s.lane l).budget.ceil, holdT := none }).imageSend_lane l _ _
      rw [h, State.lane_modCon]
      exact ⟨_, _, _, _, _, rfl⟩

end
end Sys2Proof.Machine

/-! The charge tally (O48). -/
namespace Sys2Proof.Machine

section
variable (s : State) (l : LaneId) (kind : BitVec 2)

@[simp] theorem State.seqStep_tally (k : UrkaiStep) : ((s.seqStep l k).lane l).tally = (s.lane l).tally := by simp [State.seqStep, State.seqSend]

@[simp] theorem State.packWrite_tally (v : Nat) : ((s.packWrite l v).lane l).tally = (s.lane l).tally := by
  unfold State.packWrite
  dsimp only
  repeat' split
  all_goals simp

@[simp] theorem State.stopStage_tally : ((s.stopStage l).lane l).tally = (s.lane l).tally := by simp [State.stopStage]

/-- Drawing a free value changes no lane. -/
theorem State.free_lane (c : Prop) [Decidable c] (v : BitVec 128) (s0 : State) (h : (if c then s.free else (0, s)) = (v, s0)) :
    s0.lane l = s.lane l ∧ s0.dev.dtime = s.dev.dtime ∧ ∀ {j : Nat}, 1 < j → s0.erase j l = s.erase j l := by
  split at h <;> obtain ⟨-, rfl⟩ := Prod.mk.inj h
  · exact ⟨rfl, rfl, fun hj => State.erase_modDev hj _⟩
  · exact ⟨rfl, rfl, fun _ => rfl⟩

/-- The tally behind an anchor (R131–R133). -/
theorem State.anchor_tally : ∃ j n, ((s.anchor l kind).lane l).tally =
    { (s.lane l).tally with
      q := 0, qFrac := 0, thru := 0, thruFrac := 0, age := 0, ageStart := s.dev.dtime, sat := false, lastAnchor := kind, anchorEvt := true,
      jump := j, cvDone := (s.lane l).tally.cvDone || decide (kind = 1), emptyDone := (s.lane l).tally.emptyDone || decide (kind = 3),
      cap := (learned (s.lane l).tally kind).elim (s.lane l).tally.cap (BitVec.ofNat 32), capNew := n } := by
  unfold State.anchor
  dsimp only
  rcases h0 : (if socValue (s.lane l).tally = 0xFFFF then s.free else (0, s)) with ⟨v, s0⟩
  obtain ⟨hlane, -, -⟩ := s.free_lane l _ v s0 h0
  dsimp only
  cases hl : learned (s.lane l).tally kind with
  | none =>
    dsimp only
    repeat' split
    all_goals simp [hlane]
  | some c =>
    dsimp only
    repeat' split
    all_goals simp [hlane]

theorem State.erase_anchor {j : Nat} (hk : 1 < j) : (s.anchor l kind).erase j l = s.erase j l := by
  have hk0 : 0 < j := by omega
  unfold State.anchor
  dsimp only
  rcases h0 : (if socValue (s.lane l).tally = 0xFFFF then s.free else (0, s)) with ⟨v, s0⟩
  obtain ⟨-, -, he⟩ := s.free_lane l _ v s0 h0
  dsimp only
  cases hl : learned (s.lane l).tally kind with
  | none =>
    dsimp only
    repeat' split
    all_goals simp [hk, hk0, he hk]
  | some c =>
    dsimp only
    repeat' split
    all_goals simp [hk, hk0, he hk]

/-- What an anchor of a lane that was as in s leaves of its tally, and how far it reaches (R131–R133). -/
theorem State.anchor_shows (u : State) (ht : (u.lane l).tally = (s.lane l).tally) (hd : u.dev.dtime = s.dev.dtime) (he : u.erase 2 l = s.erase 2 l) :
    let t := ((u.anchor l kind).lane l).tally
    t.q = 0 ∧ t.thru = 0 ∧ t.lastAnchor = kind ∧ t.anchorEvt = true ∧ t.ageStart = s.dev.dtime ∧
      t.cap = (learned (s.lane l).tally kind).elim (s.lane l).tally.cap (BitVec.ofNat 32) ∧ (kind = 1 → t.cvDone = true) ∧ (kind = 3 → t.emptyDone = true) ∧
      s.onlyLaneLogs (u.anchor l kind) l := by
  obtain ⟨j, n, h⟩ := u.anchor_tally l kind
  rw [ht] at h
  simp only [h, hd]
  exact ⟨trivial, trivial, trivial, trivial, trivial, trivial, fun hk => by simp [hk], fun hk => by simp [hk],
    State.onlyLaneLogs_of_erase ((u.erase_anchor l kind (by decide)).trans he)⟩

@[simp] theorem State.amsEnd_con : ((s.amsEnd l).lane l).con = (s.lane l).con := by
  unfold State.amsEnd State.amsFail
  dsimp only
  repeat' split
  all_goals simp

theorem State.recNext_idle (h : (s.lane l).con.recRetry = false) : s.recNext l = s := by simp [State.recNext, h]

/-- The end of the base image's sequence where neither an authentication nor a pack write waits for it. -/
theorem State.seqEnd_plain (ha : s.sec.authMode = 0) (hr : (s.lane l).con.recRetry = false) :
    s.seqEnd l = (s.amsEnd l).modCon l fun c => { c with seq := .done, seqWait := false } := by
  unfold State.seqEnd
  rw [if_neg (by simp [authDue, ha]), State.recNext_idle _ _ (by simp [hr])]

end

/-- Settles O48: each anchor's tally is that of R131–R133, and the lane's postings and records reach nothing else. -/
theorem tallyAnchors : Obligations.TallyAnchors := by
  unfold Obligations.TallyAnchors
  intro a l f s
  refine ⟨?_, ?_, ?_, ?_, ?_, ?_, ?_, ?_, ?_, ?_⟩
  · intro hcv hdone hfull
    obtain ⟨hq, hthru, hlast, hevt, hage, hcap, hcvd, -, hlogs⟩ := s.anchor_shows l 1 s rfl rfl rfl
    refine ⟨_, if_pos (by simpa [hcv, hdone] using hfull), hq, hthru, hlast, hevt, hage, hcap.trans ?_, hcvd rfl, hlogs⟩
    cases learned (s.lane l).tally 1 <;> rfl
  · intro h
    exact if_neg (by rcases h with h | h | h <;> simp [h])
  · intro hrole hatt hv hdone
    obtain ⟨hq, hthru, hlast, hevt, hage, hcap, -, hempty, hlogs⟩ := s.anchor_shows l 3 s rfl rfl rfl
    refine ⟨_, if_pos (by simpa [hrole, hatt, hdone] using hv), hq, hthru, hlast, hevt, hage, hcap.trans ?_, hempty rfl, hlogs⟩
    cases learned (s.lane l).tally 3 <;> rfl
  · intro h
    exact if_neg (by rcases h with h | h | h <;> simp [h])
  · intro h
    exact if_neg (by simp [h])
  · intro ha hl
    obtain ⟨hq, hthru, hlast, hevt, hage, hcap, -, -, hlogs⟩ := s.anchor_shows l 2 s rfl rfl rfl
    refine ⟨_, State.byLaneWrite_served (f := fun st => st.anchor l 2) ha hl, hq, hthru, hlast, hevt, hage, hcap.trans ?_, hlogs⟩
    cases learned (s.lane l).tally 2 <;> rfl
  · intro ha hl
    refine ⟨_, State.byLaneWrite_served (f := fun st => st.tallyClear l) ha hl, ?_⟩
    simp only [State.tallyClear, State.lane_modTally]
    exact ⟨trivial, trivial, trivial, trivial, trivial, trivial, State.onlyLane_of_erase (by simp)⟩
  · intro h hd hcap hbit
    obtain ⟨hq, hthru, hlast, hevt, hage, hcap', -, -, hlogs⟩ := s.anchor_shows l 2 (s.heard l f) (by rw [State.heard_lane]; rfl) (by simp) (by simp)
    refine State.leads_data rfl h hd (by decide) ?_
    rw [State.onBattery, if_pos (by simp [hd, hbit, hcap])]
    refine ⟨hq, hthru, hlast, hevt, hage, hcap'.trans ?_, hlogs⟩
    cases learned (s.lane l).tally 2 <;> rfl
  · intro h hd hno
    refine State.leads_data rfl h hd (by decide) ?_
    rw [State.onBattery, if_neg (by rcases hno with hno | hno <;> simp [hno])]
    simp only [State.heard_lane]
    exact ⟨rfl, rfl, State.onlyLanePosts_of_erase (by simp)⟩
  · intro h hsv hid hvid hty hcmd hw hseq hau hre
    have hsop : f.sop = .sop := h.2.2.2.2.2.2.2.2.1
    have hans : urkaiAnswer (s.heard l f) f 24 = true := by
      simp only [urkaiAnswer, pdSvid, State.heard_sec] at *
      simp [*]
    refine State.leads_data rfl h (isData_of_isSvdm hsv) (by decide) ?_
    have hlane : ((s.heard l f).lane l).con.seqWait = true ∧ ((s.heard l f).lane l).con.seq = .recCommit ∧ ((s.heard l f).lane l).con.recRetry = false := by
      rw [State.heard_lane]
      exact ⟨hw, hseq, hre⟩
    obtain ⟨hwait, hstep, hretry⟩ := hlane
    rw [State.onRecCommit, if_pos (by rw [hans, hwait, hstep]; rfl), State.seqEnd_plain _ _ (by simpa using hau) (by rw [State.logSw_lane, hretry])]
    simp only [State.lane_modCon]
    exact ⟨trivial, trivial, State.onlyLaneLogs_of_erase (by simp)⟩

end Sys2Proof.Machine

/-! The self-test, the latch and the limits of the belay (O51). -/
namespace Sys2Proof.Machine

section
variable (s : State) (l : LaneId) (a b : Bool) (r : TestResult) (v : Word)

theorem State.setFails_belay : ((s.setFails l a b).lane l).belay = { (s.lane l).belay with failA := a, failB := b } := by
  unfold State.setFails
  dsimp only
  split <;> simp

/-- A test without two failures marks them and trips nothing (R160). -/
theorem State.testFails_belay (h : (a && b) = false) : ((s.testFails l a b).lane l).belay = { (s.lane l).belay with failA := a, failB := b } := by
  unfold State.testFails
  simp only [h, Bool.false_eq_true, if_false]
  split <;> simp [State.setFails_belay]

/-- A failure that is not new writes no record. -/
theorem State.testFails_known (h : (a && b) = false) (ha : a = false) (hb : (s.lane l).belay.failB = true) : s.testFails l a b = s.setFails l a b := by
  unfold State.testFails
  simp [ha, hb]

/-- A new failure asserts HIRQ# (R160, R385). -/
theorem State.testFails_irq (h : (a && b) = false) (hn : ((a && !(s.lane l).belay.failA) || (b && !(s.lane l).belay.failB)) = true) :
    (s.testFails l a b).dev.hostIrq.getLsbD 6 = true := by
  unfold State.testFails
  simp only [h, hn, Bool.false_eq_true, if_false, if_true]
  simp [State.irq, State.modDev]

/-- The test of OCP A, where OCP B has not failed (R158). -/
theorem State.selfTestRun_a (hsw : (s.lane l).belay.sw = 2) (ht : (s.lane l).belay.stest = 0) (hb : (s.lane l).belay.failB = false) :
    s.selfTestRun l r = (s.modBelay l fun b => { b with stest := 1, settling := true, test := r }).testFails l (!passA (s.lane l) r) false := by
  simp [State.selfTestRun, hsw, ht, hb]

/-- The test of OCP B alone, where it has failed (R160, R166). -/
theorem State.selfTestRun_b (hsw : (s.lane l).belay.sw = 2) (ht : (s.lane l).belay.stest = 0) (hb : (s.lane l).belay.failB = true) :
    s.selfTestRun l r = (s.modBelay l fun b => { b with stest := 2, settling := true, test := r }).testFails l false (!passB (s.lane l) r) := by
  simp [State.selfTestRun, hsw, ht, hb]

theorem State.storeIlim_shows (ceil : Nat) (hc : ceil < 256) (h : (if s.locked then fld (s.lane l).cfg.ilimSet 23 16 else fld v 23 16) = ceil) :
    fld ((s.storeIlim l v).lane l).cfg.ilimSet 7 0 = ilimStored ceil (fld v 7 0) ∧ fld ((s.storeIlim l v).lane l).cfg.ilimSet 23 16 = ceil := by
  have hi : ilimStored ceil (fld v 7 0) < 256 := by
    unfold ilimStored clampNat
    split <;> omega
  simp only [State.storeIlim, h, State.lane_modCfg]
  constructor <;> simp (disch := omega) only [packFields, fld_or, fld_shifted_above, fld_shifted_below, fld_shifted_at, fld_zero, Nat.zero_or, Nat.or_zero]

/-- A write of BELAY_CTRL without STEST_NOW and LATCH_CLR writes STEST_PERIOD, where it may, and SHED_ILIM (R163). -/
theorem State.storeBelayWord_plain (h2 : bitOf v 2 = false) (h3 : bitOf v 3 = false) : s.storeBelayWord l v =
    State.storeShed (if s.locked then s else s.modCfg l fun c => { c with belayCtrl := setFld c.belayCtrl 11 8 (fld v 11 8) }) l (fld v 23 16) := by
  simp [State.storeBelayWord, State.storeBelayCtrl, h2, h3]

/-- A write of SHED_ILIM: what the register then shows, and the limit that the comparators take at once or later (R144, R163). -/
theorem State.storeShed_shows (n : Nat) (hn : n < 256) : fld ((s.storeShed l n).lane l).cfg.belayCtrl 23 16 = n ∧
    ((s.storeShed l n).lane l).belay = if n = 0 ∨ fld (s.lane l).cfg.ilimSet 7 0 ≤ Max.max 10 n
      then { (s.lane l).belay with shedApplied := BitVec.ofNat 8 (if n = 0 then 0 else Max.max 10 n), shedPending := false }
      else { (s.lane l).belay with shedPending := true } := by
  have hf (w : Word) : fld (setFld w 23 16 n) 23 16 = n := by
    rw [fld_setFld_same (by decide) (by decide)]
    exact Nat.mod_eq_of_lt hn
  unfold State.storeShed
  simp only [State.lane_modCfg, shedField, hf]
  by_cases h0 : n = 0
  · subst h0
    simp [hf]
  · simp only [h0, if_false, false_or, decide_false, Bool.false_or, decide_eq_true_eq]
    have hm : Max.max 10 n ≠ 0 := by omega
    simp only [hm, decide_false, Bool.false_or, decide_eq_true_eq]
    split <;> simp [hf]

/-- The write of BELAY_CTRL that R144 speaks of, as SHED_ILIM shows it. -/
theorem State.storeBelayWord_shows (h2 : bitOf v 2 = false) (h3 : bitOf v 3 = false) :
    fld ((s.storeBelayWord l v).lane l).cfg.belayCtrl 23 16 = fld v 23 16 ∧
    ((s.storeBelayWord l v).lane l).belay = (if fld v 23 16 = 0 ∨ fld (s.lane l).cfg.ilimSet 7 0 ≤ Max.max 10 (fld v 23 16)
      then { (s.lane l).belay with shedApplied := BitVec.ofNat 8 (if fld v 23 16 = 0 then 0 else Max.max 10 (fld v 23 16)), shedPending := false }
      else { (s.lane l).belay with shedPending := true }) ∧ s.onlyLane (s.storeBelayWord l v) l := by
  rw [State.storeBelayWord_plain s l v h2 h3]
  obtain ⟨hc, hb⟩ := (if s.locked then s else s.modCfg l fun c => { c with belayCtrl := setFld c.belayCtrl 11 8 (fld v 11 8) }).storeShed_shows l
    (fld v 23 16) (fld_lt v 23 16)
  refine ⟨hc, hb.trans ?_, State.onlyLane_of_erase ?_⟩
  · split <;> simp
  · simp only [State.erase_storeShed]
    split <;> simp

theorem unattachedState_modCc (f : CcLane → CcLane) (h : (f (s.lane l).cc).cut = (s.lane l).cc.cut) :
    unattachedState (s.modCc l f) l = unattachedState s l := by
  simp only [unattachedState, liveBit, laneLive, State.lane_modCc, h]
  rfl

end

/-- Settles O51: the outcome of a test, the clearing of the latch and what the limit registers store are those of the laws above. -/
theorem selfTestAndLimits : Obligations.SelfTestAndLimits := by
  unfold Obligations.SelfTestAndLimits
  intro a l v r s
  refine ⟨?_, ?_, ?_, ?_, ?_, ?_, ?_, ?_, ?_, ?_, ?_, ?_, ?_, ?_, ?_⟩
  · intro hp hsw ht ha hb
    refine ⟨_, if_pos hp, ?_⟩
    simp only [State.selfTestRun_b s l r hsw ht hb, State.testFails_belay _ l false _ rfl, State.lane_modBelay]
    refine ⟨trivial, ha.symm, trivial, hsw, State.onlyLanePosts_of_erase ?_⟩
    rw [State.testFails_known _ l false _ rfl rfl (by simpa using hb)]
    simp
  · intro hp hsw ht hb
    refine ⟨_, if_pos hp, ?_⟩
    simp only [State.selfTestRun_a s l r hsw ht hb, State.testFails_belay _ l _ false (Bool.and_false _), State.lane_modBelay]
    exact ⟨trivial, trivial, trivial, trivial, hb.symm, hsw, State.onlyLaneLogs_of_erase (by simp)⟩
  · rintro (h | h)
    · exact if_neg (by simp [h])
    · have hidle : s.selfTestRun l r = s := if_neg (by simpa using fun h1 => h.resolve_left (fun h2 => h2 h1))
      show (if _ then _ else _) = _
      rw [hidle, ite_self]
  · intro ha hl hsw ht hb
    refine ⟨_, State.byLaneWrite_served (f := fun st => st.selfTestRun l r) ha hl, ?_⟩
    simp only [State.selfTestRun_a s l r hsw ht hb, State.testFails_belay _ l _ false (Bool.and_false _), State.lane_modBelay]
    refine ⟨trivial, trivial, hb.symm, hsw, fun hpass hfail => ?_, State.onlyLaneLogs_of_erase (by simp)⟩
    exact State.testFails_irq _ l _ false (Bool.and_false _) (by simp [hpass, hfail])
  · intro ha hl hsw ht hfa hb
    refine ⟨_, State.byLaneWrite_served (f := fun st => st.selfTestRun l r) ha hl, ?_⟩
    simp only [State.selfTestRun_b s l r hsw ht hb, State.testFails_belay _ l false _ rfl, State.lane_modBelay]
    refine ⟨trivial, trivial, trivial, hsw, State.onlyLanePosts_of_erase ?_⟩
    rw [State.testFails_known _ l false _ rfl rfl (by simpa using hb)]
    simp
  · intro ha hl hlat
    refine ⟨_, State.byLaneWrite_served (f := fun st => st.latchClear l) ha hl, ?_⟩
    simp only [State.latchClear, hlat, if_true]
    split
    · next hd =>
      simp only [State.enterUnattached, State.lane_modCc]
      refine ⟨by simp, by simp, fun _ => ?_, State.onlyLanePosts_of_erase (by simp)⟩
      exact (unattachedState_modCc _ l _ rfl).symm
    · next hd => exact ⟨by simp, by simp, fun h => absurd h hd, State.onlyLanePosts_of_erase (by simp)⟩
  · intro ha hl hlat
    refine ⟨_, State.byLaneWrite_served (f := fun st => st.latchClear l) ha hl, ?_⟩
    simp [State.latchClear, hlat]
  · intro ha hl hlock
    obtain ⟨h1, h2⟩ := s.storeIlim_shows l v (fld (s.lane l).cfg.ilimSet 23 16) (fld_lt _ 23 16) (by simp [hlock])
    exact ⟨_, State.byLaneWrite_served (f := fun st => st.storeIlim l v) ha hl, h1, h2, State.onlyLane_of_erase (by simp [State.storeIlim])⟩
  · intro ha hl hlock
    obtain ⟨h1, h2⟩ := s.storeIlim_shows l v (fld v 23 16) (fld_lt _ 23 16) (by simp [hlock])
    exact ⟨_, State.byLaneWrite_served (f := fun st => st.storeIlim l v) ha hl, h1, h2, State.onlyLane_of_erase (by simp [State.storeIlim])⟩
  · intro ha hl h0 h2 h3
    obtain ⟨hc, hb, hf⟩ := s.storeBelayWord_shows l v h2 h3
    refine ⟨_, State.byLaneWrite_served (f := fun st => st.storeBelayWord l v) ha hl, ?_⟩
    simp only [hb, hc, h0, true_or, if_true]
    exact ⟨rfl, trivial, trivial, hf⟩
  · intro ha hl h10 hlt h2 h3
    obtain ⟨hc, hb, hf⟩ := s.storeBelayWord_shows l v h2 h3
    refine ⟨_, State.byLaneWrite_served (f := fun st => st.storeBelayWord l v) ha hl, ?_⟩
    simp only [hb, hc]
    rw [if_neg (by omega)]
    exact ⟨rfl, rfl, trivial, hf⟩
  · intro ha hl h1 h9 hlt h2 h3
    obtain ⟨hc, hb, hf⟩ := s.storeBelayWord_shows l v h2 h3
    refine ⟨_, State.byLaneWrite_served (f := fun st => st.storeBelayWord l v) ha hl, ?_⟩
    simp only [hb, hc, shedField]
    rw [if_neg (by omega)]
    exact ⟨rfl, rfl, by rw [if_neg (by omega)]; omega, hf⟩
  · intro ha hl h0 hle h2 h3
    obtain ⟨hc, hb, hf⟩ := s.storeBelayWord_shows l v h2 h3
    have hv := fld_lt v 23 16
    refine ⟨_, State.byLaneWrite_served (f := fun st => st.storeBelayWord l v) ha hl, ?_⟩
    simp only [hb, hc, h0, hle, false_or, if_true, if_false, BitVec.toNat_ofNat]
    exact ⟨by omega, trivial, trivial, hf⟩
  · intro h
    refine ⟨_, if_pos h, ?_⟩
    simp only [State.lane_modBelay]
    exact ⟨trivial, trivial, State.onlyLane_of_erase (by simp)⟩
  · intro h
    exact if_neg (by simp [h])

end Sys2Proof.Machine

/-! A refused SEND (O40). -/
namespace Sys2Proof.Machine

theorem fld_and (a b : Word) (hi lo : Nat) : fld (a &&& b) hi lo = fld a hi lo &&& fld b hi lo := by
  simp only [fld, BitVec.toNat_and, Nat.and_div_two_pow, Nat.and_mod_two_pow]

/-- The fields of PD_TX_CTRL that a SEND acts by, as they are stored (R57, R61). -/
theorem txCtrl_stored (v : Word) : fld (v &&& 0x33) 1 0 = fld v 1 0 ∧ bitOf (v &&& 0x33) 4 = bitOf v 4 ∧ bitOf (v &&& 0x33) 5 = bitOf v 5 := by
  have hm : fld (0x33 : Word) 1 0 = 2 ^ 2 - 1 := by decide
  refine ⟨?_, ?_, ?_⟩
  · rw [fld_and, hm, Nat.and_two_pow_sub_one_eq_mod]
    exact Nat.mod_eq_of_lt (fld_lt v 1 0)
  · simp [bitOf]
  · simp [bitOf]

/-- Settles O40: each case of R58 refuses the SEND, which then ends with result 5 and takes neither slot nor tag. -/
theorem sendRefused_all : Obligations.SendRefused := by
  unfold Obligations.SendRefused
  intro a l v s
  dsimp only
  intro ha hl h8 h9 h10 hcase
  obtain ⟨hk, hx, -⟩ := txCtrl_stored v
  have href : Sys2Proof.Machine.sendRefused (s.modCfg l fun c => { c with txCtrl := v &&& 0x33 }) l = true := by
    simp only [Sys2Proof.Machine.sendRefused, State.lane_modCfg, hk, hx]
    rcases hcase with h | h | ⟨h, hv⟩ | h | ⟨h, hs⟩
    · simp [h]
    · simp [h]
    · rcases h with h | h <;> simp [h, hv]
    · simp [h]
    · simp [h, hs]
  refine ⟨_, State.byLaneWrite_served (f := fun st => st.storeTxCtrl l v) ha hl, ?_⟩
  simp only [State.storeTxCtrl, h8, h9, h10, Bool.false_eq_true, if_false, if_true, State.sendStaged, href, State.endMessage, State.postLane_lane,
    State.lane_modPd, State.lane_modCfg]
  exact ⟨trivial, trivial, trivial, trivial, State.onlyLanePosts_of_erase (by simp)⟩

end Sys2Proof.Machine

/-! SUPPORT. What the end of an attach leaves of a lane (R35, R40, R60, R84). -/
namespace Sys2Proof.Machine

section
variable (s : State) (l : LaneId)

theorem State.leaveAttached_belay : ((s.leaveAttached l).lane l).belay.sw = 0 ∧ ((s.leaveAttached l).lane l).belay.want = .none := by
  simp [State.leaveAttached, State.openPath, State.stopStage]

theorem State.leaveAttached_conv : ((s.leaveAttached l).lane l).conv.on = false := by
  simp [State.leaveAttached, State.stopStage, ConvLane.stop]

theorem State.leaveAttached_con : ((s.leaveAttached l).lane l).con.valid = false := by
  simp [State.leaveAttached, State.openPath, State.stopStage, ContractLane.clearContract]

theorem State.leaveAttached_cc : ((s.leaveAttached l).lane l).cc.vconnOn = false := by
  simp [State.leaveAttached]

theorem State.leaveAttached_pd : ((s.leaveAttached l).lane l).pd.fifo = [] ∧ ((s.leaveAttached l).lane l).pd.queue = [] ∧
    ((s.leaveAttached l).lane l).pd.hrPhase = .idle ∧ ((s.leaveAttached l).lane l).pd.flight = none ∧ ((s.leaveAttached l).lane l).pd.hwq = [] := by
  simp [State.leaveAttached, State.openPath, State.stopStage, State.flushRx, State.abortQueue, PdLane.clearIds]

/-- What an attach leaves where it ends, whatever state of CC the lane goes to from there. -/
theorem State.leaveAttached_modCc (f : CcLane → CcLane) (hf : ∀ c, (f c).vconnOn = c.vconnOn) :
    let x := ((s.leaveAttached l).modCc l f).lane l
    x.belay.sw = 0 ∧ x.conv.on = false ∧ x.con.valid = false ∧ x.cc.vconnOn = false ∧ x.pd.fifo = [] ∧ x.pd.queue = [] ∧ x.pd.hrPhase = .idle := by
  obtain ⟨hfifo, hq, hhr, -, -⟩ := s.leaveAttached_pd l
  have hsw := (s.leaveAttached_belay l).1
  have hon := s.leaveAttached_conv l
  have hcon := s.leaveAttached_con l
  have hv := s.leaveAttached_cc l
  generalize s.leaveAttached l = u at *
  simp only [State.lane_modCc, hf]
  exact ⟨hsw, hon, hcon, hv, hfifo, hq, hhr⟩

end

end Sys2Proof.Machine

/-! Detach, cut, VCONN and cable discovery (O38). -/
namespace Sys2Proof.Machine

section
variable (s : State) (l : LaneId)

theorem State.settle_none (h : s.dev.trans = .none) : s.settle = s := by simp [State.settle, h]

@[simp] theorem State.amsEnd_cc : ((s.amsEnd l).lane l).cc = (s.lane l).cc := by
  unfold State.amsEnd State.amsFail
  dsimp only
  repeat' split
  all_goals simp

@[simp] theorem State.amsEnd_fw : ((s.amsEnd l).lane l).fw = (s.lane l).fw := by
  unfold State.amsEnd State.amsFail
  dsimp only
  repeat' split
  all_goals simp

@[simp] theorem State.sendCapsNow_cc : ((s.sendCapsNow l).lane l).cc = (s.lane l).cc := by
  obtain ⟨c, p, w, n, t, h⟩ := s.sendCapsNow_lane l
  rw [h]

@[simp] theorem State.sendCapsNow_fw : ((s.sendCapsNow l).lane l).fw = (s.lane l).fw := by
  obtain ⟨c, p, w, n, t, h⟩ := s.sendCapsNow_lane l
  rw [h]

/-- The end of discovery leaves the lane's CC state but for discovery's own marks (R36). -/
theorem State.discoveryEnd_cc : ((s.discoveryEnd l).lane l).cc = { (s.lane l).cc with discRun := false, discTries := 0, discRepeat := false, discEpr := false } := by
  unfold State.discoveryEnd State.eprDecide
  dsimp only
  repeat' split
  all_goals simp

theorem State.discoveryEnd_fw : ((s.discoveryEnd l).lane l).fw = (s.lane l).fw := by
  unfold State.discoveryEnd State.eprDecide
  dsimp only
  repeat' split
  all_goals simp

/-- A VCONN overcurrent counts against its window, which says whether it is the last (R35, R338). -/
theorem State.countFault_lane (k : FaultClass) : ∃ f, ((s.countFault l k).2.lane l) = { s.lane l with fw := f } ∧
    ((s.countFault l k).1 = true → k = .vconn → f.vconnLast = true) := by
  unfold State.countFault
  dsimp only
  split
  · rw [State.logFlags_lane, State.lane_modFw, State.lane_modFw]
    exact ⟨_, rfl, fun _ hk => by simp [hk]⟩
  · rw [State.lane_modFw]
    exact ⟨_, rfl, fun h => by simp at h⟩

theorem unattachedState_modBelay (f : BelayLane → BelayLane) (h : (f (s.lane l).belay).latched = (s.lane l).belay.latched) :
    unattachedState (s.modBelay l f) l = unattachedState s l := by
  simp only [unattachedState, liveBit, laneLive, State.lane_modBelay, h]
  rfl

end

/-- Settles O38: what the end of an attach leaves of the lane, the window of VCONN overcurrent, and the marks of discovery and of the probes. -/
theorem detachAndCable : Obligations.DetachAndCable := by
  unfold Obligations.DetachAndCable
  intro a l cc1 cc2 level s
  have frame {s' : State} (h : s'.erase 1 l = s.erase 1 l) : s.onlyLanePosts s' l := State.onlyLanePosts_of_erase h
  have logs {s' : State} (h : s'.erase 2 l = s.erase 2 l) : s.onlyLaneLogs s' l := State.onlyLaneLogs_of_erase h
  refine ⟨?_, ?_, ?_, ?_, ?_, ?_, ?_, ?_, ?_, ?_, ?_, ?_, ?_⟩
  · intro h
    obtain ⟨hsw, hon, hv, hvc, hfifo, hq, hhr⟩ := s.leaveAttached_modCc l (fun c => { c with detachEvt := true, st := .unattachedWait }) fun _ => rfl
    refine ⟨_, if_pos h, ?_⟩
    simp only [State.detachLane, State.postLane_lane]
    exact ⟨by simp, by simp, hsw, hon, hv, hvc, hfifo, hq, hhr, frame (by simp)⟩
  · exact fun h => if_neg (by simp [h])
  · intro h ht
    refine ⟨_, if_pos h, ?_⟩
    rw [State.settle_none _ (by simpa [State.enterUnattached] using ht)]
    simp only [State.enterUnattached, State.lane_modCc, State.lane_modBelay, unattachedState_modBelay s l (fun b => { b with dischOut := false }) rfl]
    exact ⟨trivial, trivial, frame (by simp)⟩
  · intro hatt hh
    obtain ⟨hsw, hon, hv, hvc, hfifo, hq, hhr⟩ := s.leaveAttached_modCc l (fun c => { c with cut := true, st := .cutState }) fun _ => rfl
    refine ⟨_, if_pos (by simp [hatt, hh]), ?_⟩
    simp only [State.cutLane, State.irq_lane, State.log_lane, State.postLane_lane]
    exact ⟨by simp, by simp, hsw, hon, hv, by simp [State.irq, State.modDev], logs (by simp)⟩
  · intro ha hl hh hst
    refine ⟨_, State.byLaneWrite_served (f := fun st => if a = .host then st.cutClear l else st) ha hl, ?_⟩
    simp only [hh, if_true, State.cutClear, hst, State.enterUnattached, State.lane_modCc]
    exact ⟨trivial, (unattachedState_modCc _ l _ rfl).symm, frame (by simp)⟩
  · intro ha hl hh hst
    refine ⟨_, State.byLaneWrite_served (f := fun st => if a = .host then st.cutClear l else st) ha hl, ?_⟩
    simp only [hh, if_true, State.cutClear, hst, if_false, State.lane_modCc]
    exact ⟨trivial, trivial, frame (by simp)⟩
  · intro h
    show ∃ s', execVconnOc l s = .next s' ∧ _
    unfold execVconnOc
    dsimp only
    rw [if_pos (by simp [h])]
    obtain ⟨f, hlane, hlast⟩ := State.countFault_lane ((s.modCc l fun c => { c with vconnOn := false, vconnOc := true, supLowAt := none }).postLane l 0) l .vconn
    have herase := State.erase_countFault (s := (s.modCc l fun c => { c with vconnOn := false, vconnOc := true, supLowAt := none }).postLane l 0) (l := l)
      (j := 2) (by decide) .vconn
    generalize State.countFault _ l .vconn = r at hlane hlast herase ⊢
    obtain ⟨last, s2⟩ := r
    dsimp only at hlane hlast herase ⊢
    have hf := fun h => hlast h rfl
    simp only [State.postLane_lane, State.lane_modCc] at hlane
    have herase : s2.erase 2 l = s.erase 2 l := by simpa using herase
    clear hlast
    cases hd : (s.lane l).cc.discRun <;> cases last <;> simp only [Bool.false_eq_true, if_false, if_true]
    · refine ⟨_, rfl, ?_⟩
      simp only [State.lane_modCc, hlane]
      exact ⟨trivial, trivial, hd, .inl trivial, logs (by simp [herase])⟩
    · refine ⟨_, rfl, ?_⟩
      simp only [State.lane_modCc, State.lane_modSwap, hlane]
      exact ⟨trivial, trivial, hd, .inr (hf rfl), logs (by simp [herase])⟩
    · split
      · refine ⟨_, rfl, ?_⟩
        simp only [State.discoveryEnd_cc, State.discoveryEnd_fw, State.lane_modCc, hlane]
        exact ⟨trivial, trivial, trivial, .inl trivial, logs (by simp [herase])⟩
      · refine ⟨_, rfl, ?_⟩
        simp only [State.lane_modCc, hlane]
        exact ⟨trivial, trivial, trivial, .inl trivial, logs (by simp [herase])⟩
    · split
      · refine ⟨_, rfl, ?_⟩
        simp only [State.discoveryEnd_cc, State.discoveryEnd_fw, State.lane_modCc, State.lane_modSwap, hlane]
        exact ⟨trivial, trivial, trivial, .inr (hf rfl), logs (by simp [herase])⟩
      · refine ⟨_, rfl, ?_⟩
        simp only [State.lane_modCc, State.lane_modSwap, hlane]
        exact ⟨trivial, trivial, trivial, .inr (hf rfl), logs (by simp [herase])⟩
  · intro h hhr hrole hsup hlast hatt hdie
    refine ⟨_, if_pos (by simp [h, hhr]), ?_⟩
    have hdie' : dieUp (s.modCc l fun c => { c with vconnRetry := false }) l = true := hdie
    rw [State.vconnBack, if_pos (by simp [hrole, hsup, hlast, hdie', CcLane.attached] at hatt ⊢; exact hatt)]
    simp only [State.lane_modCc]
    exact ⟨trivial, trivial, frame (by simp)⟩
  · intro hst hmode hcyc hpl hrun hcc
    have hh : (s.lane l).cfg.harness = false := by simp [LaneCfg.harness, hmode]
    refine ⟨_, (if_neg (by simp [hst])).trans ((if_neg ?_).trans ((if_neg ?_).trans (if_pos ?_))), ?_⟩
    · simp [hh, hmode, hcyc, hpl, hrun, hcc, isRd]
    · simp [hcyc]
    · simp [hh, hmode, hcc, isRd]
    · simp only [State.watchAttach, State.irq_lane, State.log_lane, State.postLane_lane]
      exact ⟨by simp, by simp [State.irq, State.modDev], logs (by simp)⟩
  · intro hst hcyc
    refine ⟨_, (if_neg (by simp [hst])).trans (if_pos (by simp [hcyc])), ?_⟩
    simp only [State.lane_modCc, hcyc]
    exact ⟨trivial, by simp, by simp, frame (by simp)⟩
  · intro hrun hs ht hv
    refine ⟨_, (if_pos (by simp [hrun, hs])).trans (if_pos (by simp [ht, hv])), ?_⟩
    simp only [State.imageSend_cc, State.lane_modCc]
    exact ⟨trivial, hrun, frame (by simp)⟩
  · intro hrun hs ht he
    refine ⟨_, (if_pos (by simp [hrun, hs])).trans (if_neg (by simp; omega)), ?_⟩
    simp only [State.discoveryFails, State.discoveryEnd_cc]
    exact ⟨trivial, trivial, frame (by simp)⟩
  · intro hatt hrp
    refine ⟨_, if_pos (by simp [hatt, hrp]), ?_⟩
    simp only [State.lane_modCc]
    exact ⟨trivial, frame (by simp)⟩

end Sys2Proof.Machine

/-! From the unattached states to an attach (O37). -/
namespace Sys2Proof.Machine

section
variable (s : State) (l : LaneId)

@[simp] theorem State.askClose_cc (w : CloseWant) : ((s.askClose l w).lane l).cc = (s.lane l).cc := by
  unfold State.askClose State.startClose
  dsimp only
  repeat' split
  all_goals simp

@[simp] theorem State.askClose_swap (w : CloseWant) : ((s.askClose l w).lane l).swap = (s.lane l).swap := by
  unfold State.askClose State.startClose
  dsimp only
  repeat' split
  all_goals simp

@[simp] theorem State.baseLimits_cc : ((s.baseLimits l).lane l).cc = (s.lane l).cc := by
  unfold State.baseLimits
  dsimp only
  repeat' split
  all_goals simp [State.writeIlim, State.setFwd, State.setRev, State.setVset]

@[simp] theorem State.baseLimits_swap : ((s.baseLimits l).lane l).swap = (s.lane l).swap := by
  unfold State.baseLimits
  dsimp only
  repeat' split
  all_goals simp [State.writeIlim, State.setFwd, State.setRev, State.setVset]

/-- The cable of a harness changes the cable fields alone (R37). -/
theorem harnessCable_keeps (c : LaneCfg) (x : CcLane) : (harnessCable c x).st = x.st ∧ (harnessCable c x).attachEvt = x.attachEvt ∧
    (harnessCable c x).raSeen = x.raSeen ∧ (harnessCable c x).partnerRp = x.partnerRp := by
  unfold harnessCable
  split <;> exact ⟨rfl, rfl, rfl, rfl⟩

/-- VCONN changes neither what was seen at the attach nor the roles but for its own (R34). -/
theorem State.applyVconn_keeps (u : State) : ((u.applyVconn l).lane l).cc.st = (u.lane l).cc.st ∧
    ((u.applyVconn l).lane l).cc.attachEvt = (u.lane l).cc.attachEvt ∧ ((u.applyVconn l).lane l).cc.raSeen = (u.lane l).cc.raSeen ∧
    ((u.applyVconn l).lane l).cc.partnerRp = (u.lane l).cc.partnerRp ∧ ((u.applyVconn l).lane l).swap.powerRole = (u.lane l).swap.powerRole ∧
    ((u.applyVconn l).lane l).swap.dataRole = (u.lane l).swap.dataRole := by
  unfold State.applyVconn
  split <;> simp

/-- What an attach shows (R30, R32, R33, R41): the state, the event, the roles, whether Ra was seen, and the partner's Rp. -/
theorem State.attachAs_shows (src : Bool) (pin : CcPin) (ra : Bool) (rp : BitVec 2) :
    ((s.attachAs l src pin ra rp).lane l).cc.st = (if src then .attachedSrc else .attachedSnk) ∧
    ((s.attachAs l src pin ra rp).lane l).cc.attachEvt = true ∧ ((s.attachAs l src pin ra rp).lane l).swap.powerRole = src ∧
    ((s.attachAs l src pin ra rp).lane l).swap.dataRole = src ∧
    ((s.attachAs l src pin ra rp).lane l).cc.raSeen = (ra && !(s.lane l).cfg.harness) ∧
    ((s.attachAs l src pin ra rp).lane l).cc.partnerRp = if src then 0 else rp := by
  unfold State.attachAs
  simp only [State.askClose_cc, State.askClose_swap, State.baseLimits_cc, State.baseLimits_swap]
  cases src <;> cases hh : (s.lane l).cfg.harness <;>
    simp [State.applyVconn_keeps, harnessCable_keeps]

/-- A debounce held to its end attaches the lane as source in RUN (R30, R32, R46). -/
theorem State.tryAttach_source {pin : CcPin} (hrun : s.dev.state = .run) (hp : (s.lane l).cc.debPin = some pin) (hh : (s.lane l).cc.held = true)
    (hst : (s.lane l).cc.st = .attachWaitSrc ∨ (s.lane l).cc.st = .trySrc) : s.tryAttach l = s.attachAs l true pin (s.lane l).cc.debRa 0 := by
  unfold State.tryAttach
  simp only [hp]
  rw [if_neg (by simp [hh, hrun]), if_pos (by rcases hst with h | h <;> simp [h])]

/-- A debounce held to its end attaches the lane as sink in RUN where VBUS stands (R32, R46). -/
theorem State.tryAttach_sink {pin : CcPin} (hrun : s.dev.state = .run) (hp : (s.lane l).cc.debPin = some pin) (hh : (s.lane l).cc.held = true)
    (hst : (s.lane l).cc.st = .attachWaitSnk ∨ (s.lane l).cc.st = .tryWaitSnk) (hv : (s.lane l).cc.debVbus = true) :
    s.tryAttach l = s.attachAs l false pin false (s.lane l).cc.debRp := by
  unfold State.tryAttach
  simp only [hp]
  rw [if_neg (by simp [hh, hrun]), if_neg (by rcases hst with h | h <;> simp [h]), if_pos (by rcases hst with h | h <;> simp [h, hv])]

/-- Outside RUN a debounce held to its end waits (R46). -/
theorem State.tryAttach_waits (hrun : s.dev.state ≠ .run) : s.tryAttach l = s := by
  unfold State.tryAttach
  dsimp only
  split
  · rw [if_pos (by simp [hrun])]
  · rfl

/-- A sink's debounce held to its end waits for VBUS (R32). -/
theorem State.tryAttach_noVbus (hst : (s.lane l).cc.st = .attachWaitSnk) (hv : (s.lane l).cc.debVbus = false) : s.tryAttach l = s := by
  unfold State.tryAttach
  dsimp only
  split
  · simp [hst, hv]
  · rfl

/-- The debounce of AttachWait.SRC has run with the termination held (R30). -/
theorem execCcDebounce_src (cc1 cc2 : CcTerm) (mv : Nat) (s : State) {p : CcPin} (hst : (s.lane l).cc.st = .attachWaitSrc)
    (hp : onePin (s.lane l).cfg isRd cc1 cc2 = some p) (hd : (s.lane l).cc.debPin = some p) : execCcDebounce l cc1 cc2 mv s =
      .next ((s.modCc l fun c => { c with held := true, debRa := decide (onPin (otherPin p) cc1 cc2 = .ra) }).tryAttach l) := by
  simp only [execCcDebounce, hst, hp, hd, if_true]

/-- The debounce of AttachWait.SNK has run with the termination held, outside Try.SRC (R32). -/
theorem execCcDebounce_snk (cc1 cc2 : CcTerm) (mv : Nat) (s : State) {p : CcPin} (hst : (s.lane l).cc.st = .attachWaitSnk)
    (hp : onePin (s.lane l).cfg isRp cc1 cc2 = some p) (hd : (s.lane l).cc.debPin = some p) (hm : (s.lane l).cfg.mode ≠ 4) : execCcDebounce l cc1 cc2 mv s =
      .next ((s.modCc l fun c => { c with held := true, debRp := rpOf (onPin p cc1 cc2), debVbus := decide (4000 ≤ mv) }).tryAttach l) := by
  simp [execCcDebounce, hst, hp, hd, hm]

end

/-- Settles O37: the debounce and the Try timers lead where R29–R32 say, and an attach shows what R33 gives it. -/
theorem attachDetection : Obligations.AttachDetection := by
  unfold Obligations.AttachDetection
  intro l cc1 cc2 p mv s
  have frame {s' : State} (h : s'.erase 1 l = s.erase 1 l) : s.onlyLanePosts s' l := State.onlyLanePosts_of_erase h
  refine ⟨?_, ?_, ?_, ?_, ?_, ?_, ?_, ?_, ?_, ?_, ?_, ?_, ?_, ?_, ?_, ?_, ?_, ?_, ?_, ?_, ?_, ?_, ?_, ?_⟩
  · intro hm hst
    refine ⟨s.modCc l fun c => { c with st := .unattachedSnk }, ?_, by rw [State.lane_modCc], frame (by simp)⟩
    show execDrpToggle l s = _
    simp [execDrpToggle, hm, hst]
  · intro hm hst
    refine ⟨s.modCc l fun c => { c with st := .unattachedSrc }, ?_, by rw [State.lane_modCc], frame (by simp)⟩
    show execDrpToggle l s = _
    simp [execDrpToggle, hm, hst]
  · intro hst hh h2 h1
    have hp : onePin (s.lane l).cfg isRd cc1 cc2 = some .cc2 := by simp [onePin, hh, isRd, h1, h2]
    refine ⟨_, if_pos (by simp [hst, hp]), by rw [State.lane_modCc], by rw [State.lane_modCc, hp], frame (by simp)⟩
  · intro hst hh h1 h2
    have hp : onePin (s.lane l).cfg isRd cc1 cc2 = some .cc1 := by simp [onePin, hh, isRd, h1, h2]
    refine ⟨_, if_pos (by simp [hst, hp]), by rw [State.lane_modCc], by rw [State.lane_modCc, hp], frame (by simp)⟩
  · intro hst hh he hr
    have hp : onePin (s.lane l).cfg isRd cc1 cc2 = none := by simp [onePin, hh, he]
    have ha : isAccessory (s.lane l).cfg cc1 cc2 = true := by rcases hr with h | h <;> simp [isAccessory, hh, ← he, h]
    refine ⟨_, if_pos (by simp [hst, ha]), by rw [State.lane_modCc], by rw [State.lane_modCc, hp], frame (by simp)⟩
  · intro hst hh h1 h2
    have hp : onePin (s.lane l).cfg isRp cc1 cc2 = some .cc1 := by simp [onePin, hh, h1, h2]
    refine ⟨_, if_pos (by simp [hst, hp]), by rw [State.lane_modCc], by rw [State.lane_modCc, hp], frame (by simp)⟩
  · intro hst hh h2 h1
    have hp : onePin (s.lane l).cfg isRp cc1 cc2 = some .cc2 := by simp [onePin, hh, h1, h2]
    refine ⟨_, if_pos (by simp [hst, hp]), by rw [State.lane_modCc], by rw [State.lane_modCc, hp], frame (by simp)⟩
  · intro hrun hst hp hd
    refine ⟨_, execCcDebounce_src l cc1 cc2 mv s hst hp hd, ?_⟩
    rw [State.tryAttach_source _ l (by exact hrun) (pin := p) (by simp [hd]) (by simp) (by simp [hst])]
    obtain ⟨h1, h2, h3, h4, h5, h6⟩ := (s.modCc l fun c => { c with held := true, debRa := decide (onPin (otherPin p) cc1 cc2 = .ra) }).attachAs_shows
      l true p (decide (onPin (otherPin p) cc1 cc2 = .ra)) 0
    simp only [State.lane_modCc] at h5 ⊢
    exact ⟨h1, h2, h3, h4, h5.trans (by simp), frame (by simp)⟩
  · intro hrun hst hp hd
    refine ⟨_, execCcDebounce_src l cc1 cc2 mv s hst hp hd, ?_⟩
    rw [State.tryAttach_waits _ l (by exact hrun)]
    simp only [State.lane_modCc]
    exact ⟨hst, trivial, frame (by simp)⟩
  · intro hrun hst hm hp hd hmv
    refine ⟨_, execCcDebounce_snk l cc1 cc2 mv s hst hp hd hm, ?_⟩
    rw [State.tryAttach_sink _ l (by exact hrun) (pin := p) (by simp [hd]) (by simp) (by simp [hst]) (by simp [hmv])]
    obtain ⟨h1, h2, h3, h4, h5, h6⟩ := (s.modCc l fun c =>
      { c with held := true, debRp := rpOf (onPin p cc1 cc2), debVbus := decide (4000 ≤ mv) }).attachAs_shows l false p false (rpOf (onPin p cc1 cc2))
    simp only [State.lane_modCc]
    exact ⟨h1, h2, h3, h4, h6, frame (by simp)⟩
  · intro hrun hst hm hp hd hmv
    refine ⟨_, execCcDebounce_snk l cc1 cc2 mv s hst hp hd hm, ?_⟩
    rw [State.tryAttach_noVbus _ l (by simp [hst]) (by simp [hmv])]
    simp only [State.lane_modCc]
    exact ⟨hst, trivial, frame (by simp)⟩
  · intro hrun hst hm hp hd
    refine ⟨s.modCc l fun c => { c with st := .trySrc }, ?_, by rw [State.lane_modCc], frame (by simp)⟩
    show execCcDebounce l cc1 cc2 mv s = _
    simp [execCcDebounce, hst, hp, hd, hm, hrun]
  · intro hst
    refine ⟨s.modCc l fun c => { c with st := .unattachedSrc, debPin := none, held := false }, ?_, by rw [State.lane_modCc], by rw [State.lane_modCc],
      frame (by simp)⟩
    show execTerminationLost l s = _
    simp [execTerminationLost, hst]
  · intro hst
    refine ⟨s.modCc l fun c => { c with st := .unattachedSnk, debPin := none, held := false }, ?_, by rw [State.lane_modCc], by rw [State.lane_modCc],
      frame (by simp)⟩
    show execTerminationLost l s = _
    simp [execTerminationLost, hst]
  · intro hrun hst hp
    obtain ⟨q, hq⟩ := Option.isSome_iff_exists.1 hp
    refine ⟨(s.modCc l fun c => { c with debPin := some q, held := true, debRa := decide (onPin (otherPin q) cc1 cc2 = .ra) }).tryAttach l, ?_, ?_⟩
    · show execTryCcDebounce l cc1 cc2 s = _
      simp [execTryCcDebounce, hq, hst]
    · rw [State.tryAttach_source _ l (by exact hrun) (pin := q) (by simp) (by simp) (by simp [hst])]
      obtain ⟨h1, h2, h3, h4, -, -⟩ := (s.modCc l fun c =>
        { c with debPin := some q, held := true, debRa := decide (onPin (otherPin q) cc1 cc2 = .ra) }).attachAs_shows l true q
          (decide (onPin (otherPin q) cc1 cc2 = .ra)) 0
      simp only [State.lane_modCc]
      exact ⟨h1, h2, h3, h4, frame (by simp)⟩
  · intro hst hh
    refine ⟨_, if_pos (by simp [hst, hh]), by rw [State.lane_modCc], frame (by simp)⟩
  · intro hrun hst hp hmv
    obtain ⟨q, hq⟩ := Option.isSome_iff_exists.1 hp
    refine ⟨(s.modCc l fun c =>
      { c with debPin := some q, held := true, debRp := rpOf (onPin q cc1 cc2), debVbus := decide (4000 ≤ mv) }).tryAttach l, ?_, ?_⟩
    · show execTrywaitDebounce l cc1 cc2 mv s = _
      simp [execTrywaitDebounce, hq, hst]
    · rw [State.tryAttach_sink _ l (by exact hrun) (pin := q) (by simp) (by simp) (by simp [hst]) (by simp [hmv])]
      obtain ⟨h1, h2, h3, h4, -, -⟩ := (s.modCc l fun c =>
        { c with debPin := some q, held := true, debRp := rpOf (onPin q cc1 cc2), debVbus := decide (4000 ≤ mv) }).attachAs_shows l false q false
          (rpOf (onPin q cc1 cc2))
      simp only [State.lane_modCc]
      exact ⟨h1, h2, h3, h4, frame (by simp)⟩
  · intro hst
    refine ⟨_, if_pos (by simp [hst]), by rw [State.lane_modCc], by rw [State.lane_modCc], frame (by simp)⟩
  · intro hrun hst hh hd hmv
    refine ⟨_, (if_neg (by omega)).trans (if_pos (by simp [hst])), ?_⟩
    rw [State.tryAttach_sink _ l (by exact hrun) (pin := p) (by simp [hd]) (by simp [hh]) (by simp [hst]) (by simp)]
    obtain ⟨h1, h2, h3, h4, -, -⟩ := (s.modCc l fun c => { c with debVbus := true }).attachAs_shows l false p false (s.lane l).cc.debRp
    simp only [State.lane_modCc]
    exact ⟨h1, h2, h3, h4, frame (by simp)⟩
  · exact fun hmv => if_pos hmv
  · rintro (h | h | h) hh <;> simp [pinDrive, h, hh]
  · rintro (h | h | h) hh <;> simp [pinDrive, h, hh]
  · intro hh hp hatt
    unfold pinDrive
    cases hst : (s.lane l).cc.st <;> simp [CcLane.attached, hst] at hatt <;> simp [hh, hp]
  · rintro (h | h | h | h) <;> simp [pinDrive, h]

end Sys2Proof.Machine

/-! SUPPORT. What a trip of the belay leaves of a lane, whatever becomes of its attach behind it (R155). -/
namespace Sys2Proof.Machine

/-- Lane y keeps what a trip has done to lane x: the path and the stage it stopped, the discharge, CAUSE, TRIP_EVT and the marks of the OCP comparators, no arm and no VCONN. -/
structure Lane.KeepsTrip (x y : Lane) : Prop where
  sw : x.belay.sw = 0 → y.belay.sw = 0
  dischIn : x.belay.dischIn = true → y.belay.dischIn = true
  cause : y.belay.cause = x.belay.cause
  tripEvt : y.belay.tripEvt = x.belay.tripEvt
  failA : y.belay.failA = x.belay.failA
  failB : y.belay.failB = x.belay.failB
  thermWarn : y.belay.thermWarn = x.belay.thermWarn
  on : x.conv.on = false → y.conv.on = false
  arm : armInForce x = false → armInForce y = false
  vconn : x.cc.vconnOn = false → y.cc.vconnOn = false

namespace Lane.KeepsTrip

variable {x y z : Lane}

theorem refl (x : Lane) : x.KeepsTrip x := ⟨id, id, rfl, rfl, rfl, rfl, rfl, id, id, id⟩

theorem trans (h : x.KeepsTrip y) (g : y.KeepsTrip z) : x.KeepsTrip z :=
  ⟨g.sw ∘ h.sw, g.dischIn ∘ h.dischIn, g.cause.trans h.cause, g.tripEvt.trans h.tripEvt, g.failA.trans h.failA, g.failB.trans h.failB,
    g.thermWarn.trans h.thermWarn, g.on ∘ h.on, g.arm ∘ h.arm, g.vconn ∘ h.vconn⟩

/-- A lane with the same belay, stage, contract and CC state keeps a trip. -/
theorem of_eq (hb : y.belay = x.belay) (hc : y.conv = x.conv) (hn : y.con = x.con) (hv : y.cc = x.cc) : x.KeepsTrip y := by
  constructor <;> simp only [hb, hc, hn, hv, armInForce, imp_self]

end Lane.KeepsTrip

/-- What a trip has done to lane l of r stands in s, and no die has another temperature or thermal state (R152, R155). -/
structure State.KeepsTrip (r : State) (l : LaneId) (s : State) : Prop where
  lane : (r.lane l).KeepsTrip (s.lane l)
  dieTemp : ∀ g, (s.group g).dieTemp = (r.group g).dieTemp
  thermShut : ∀ g, (s.group g).thermShut = (r.group g).thermShut

namespace State.KeepsTrip

variable {r s : State} {l : LaneId}

theorem refl (s : State) (l : LaneId) : s.KeepsTrip l s := ⟨Lane.KeepsTrip.refl _, fun _ => rfl, fun _ => rfl⟩

theorem of_lane {u : State} (h : r.KeepsTrip l s) (hu : u.lane l = s.lane l) (hg : u.groups = s.groups) : r.KeepsTrip l u := by
  have hgroup (g : GroupId) : u.group g = s.group g := by simp only [State.group, hg]
  exact ⟨hu ▸ h.lane, fun g => hgroup g ▸ h.dieTemp g, fun g => hgroup g ▸ h.thermShut g⟩

/-- What keeps the lane as it was after a trip keeps the trip. -/
theorem after {u : State} (h : r.KeepsTrip l s) (hu : (s.lane l).KeepsTrip (u.lane l)) (hg : u.groups = s.groups) : r.KeepsTrip l u := by
  have hgroup (g : GroupId) : u.group g = s.group g := by simp only [State.group, hg]
  exact ⟨h.lane.trans hu, fun g => hgroup g ▸ h.dieTemp g, fun g => hgroup g ▸ h.thermShut g⟩

theorem post (h : r.KeepsTrip l s) (n : Nat) : r.KeepsTrip l (s.post n) := by
  refine ⟨(s.post_lane n l).symm ▸ h.lane, fun g => ?_, fun g => ?_⟩ <;> obtain ⟨a, b, w, hg⟩ := s.post_group n g <;> rw [hg]
  · exact h.dieTemp g
  · exact h.thermShut g
theorem postLane (h : r.KeepsTrip l s) (k : LaneId) (n : Nat) : r.KeepsTrip l (s.postLane k n) := h.post _
theorem irq (h : r.KeepsTrip l s) (n : Fin 11) : r.KeepsTrip l (s.irq n) := h.of_lane (s.irq_lane n l) rfl
theorem modDev (h : r.KeepsTrip l s) (f : Dev → Dev) : r.KeepsTrip l (s.modDev f) := h.of_lane rfl rfl
theorem withMem (h : r.KeepsTrip l s) (m : Mem) : r.KeepsTrip l { s with mem := m } := h.of_lane rfl rfl
theorem logAdvance (h : r.KeepsTrip l s) : r.KeepsTrip l s.logAdvance := by
  unfold State.logAdvance
  dsimp only
  split
  · exact (h.modDev _).post _
  · exact h.modDev _
theorem logFlags (h : r.KeepsTrip l s) (fl c : Nat) (k : LogKind) (i : Nat) (a b d : Word) : r.KeepsTrip l (s.logFlags fl c k i a b d) := by
  unfold State.logFlags
  extract_lets _ m0 m1 m2 m3 m4 m5 m6 m7 m8
  exact (h.withMem m8).logAdvance
theorem log (h : r.KeepsTrip l s) (c : Nat) (k : LogKind) (i : Nat) (a b d : Word) : r.KeepsTrip l (s.log c k i a b d) := h.logFlags ..

theorem modPd (h : r.KeepsTrip l s) (f : PdLane → PdLane) : r.KeepsTrip l (s.modPd l f) :=
  h.after (.of_eq (by simp) (by simp) (by simp) (by simp)) rfl
theorem modSwap (h : r.KeepsTrip l s) (f : SwapLane → SwapLane) : r.KeepsTrip l (s.modSwap l f) :=
  h.after (.of_eq (by simp) (by simp) (by simp) (by simp)) rfl
theorem modFw (h : r.KeepsTrip l s) (f : FwLane → FwLane) : r.KeepsTrip l (s.modFw l f) :=
  h.after (.of_eq (by simp) (by simp) (by simp) (by simp)) rfl
theorem modBudget (h : r.KeepsTrip l s) (f : BudgetLane → BudgetLane) : r.KeepsTrip l (s.modBudget l f) :=
  h.after (.of_eq (by simp) (by simp) (by simp) (by simp)) rfl
theorem modSect (h : r.KeepsTrip l s) (f : SectLane → SectLane) : r.KeepsTrip l (s.modSect l f) :=
  h.after (.of_eq (by simp) (by simp) (by simp) (by simp)) rfl

theorem modCon (h : r.KeepsTrip l s) {f : ContractLane → ContractLane}
    (hf : ∀ c : ContractLane, ((f c).armState = 1 ∨ (f c).armState = 2) → (c.armState = 1 ∨ c.armState = 2)) : r.KeepsTrip l (s.modCon l f) := by
  refine h.after ?_ rfl
  have := hf (s.lane l).con
  rw [State.lane_modCon]
  constructor <;> simp only [armInForce, imp_self]
  simpa using fun h1 h2 => by tauto

theorem modCc (h : r.KeepsTrip l s) {f : CcLane → CcLane} (hf : ∀ c : CcLane, c.vconnOn = false → (f c).vconnOn = false) : r.KeepsTrip l (s.modCc l f) := by
  refine h.after ?_ rfl
  have := hf (s.lane l).cc
  rw [State.lane_modCc]
  constructor <;> simp only [armInForce, imp_self]
  exact this

theorem modConv (h : r.KeepsTrip l s) {f : ConvLane → ConvLane} (hf : ∀ c : ConvLane, c.on = false → (f c).on = false) : r.KeepsTrip l (s.modConv l f) := by
  refine h.after ?_ rfl
  have := hf (s.lane l).conv
  rw [State.lane_modConv]
  constructor <;> simp only [armInForce, imp_self]
  exact this

theorem modBelay (h : r.KeepsTrip l s) {f : BelayLane → BelayLane} (hsw : ∀ b : BelayLane, b.sw = 0 → (f b).sw = 0)
    (hin : ∀ b : BelayLane, b.dischIn = true → (f b).dischIn = true)
    (hk : ∀ b : BelayLane, (f b).cause = b.cause ∧ (f b).tripEvt = b.tripEvt ∧ (f b).failA = b.failA ∧ (f b).failB = b.failB ∧
      (f b).thermWarn = b.thermWarn) : r.KeepsTrip l (s.modBelay l f) := by
  refine h.after ?_ rfl
  obtain ⟨h1, h2, h3, h4, h5⟩ := hk (s.lane l).belay
  rw [State.lane_modBelay]
  exact ⟨hsw _, hin _, h1, h2, h3, h4, h5, id, id, id⟩

theorem forEach (h : r.KeepsTrip l s) {α : Type} {f : State → α → State} (hf : ∀ u x, r.KeepsTrip l u → r.KeepsTrip l (f u x)) (xs : List α) :
    r.KeepsTrip l (s.forEach xs f) := by
  induction xs generalizing s with
  | nil => exact h
  | cons x t ih => exact ih (hf s x h)

theorem ite {c : Prop} [Decidable c] {a b : State} (ha : r.KeepsTrip l a) (hb : r.KeepsTrip l b) : r.KeepsTrip l (if c then a else b) := by
  split <;> assumption

theorem endMessage (h : r.KeepsTrip l s) (tag : BitVec 4) (e : BitVec 3) (n : Nat) : r.KeepsTrip l (s.endMessage l tag e n) := (h.modPd _).postLane ..

theorem abortQueue (h : r.KeepsTrip l s) : r.KeepsTrip l (s.abortQueue l) := by
  unfold State.abortQueue
  dsimp only
  refine KeepsTrip.modPd ?_ _
  split
  · exact h
  · exact h.forEach (fun u m hu => hu.endMessage ..) _

theorem loadOff (h : r.KeepsTrip l s) : r.KeepsTrip l (s.loadOff l) := by
  unfold State.loadOff
  split
  · unfold State.loadChanges
    exact h.modSect _
  · exact h

theorem voidArm (h : r.KeepsTrip l s) (cause : BitVec 2) : r.KeepsTrip l (s.voidArm l cause) := by
  unfold State.voidArm
  split
  · exact (h.modCon (fun c hc => by simp at hc)).postLane ..
  · exact h

theorem endUrkai (h : r.KeepsTrip l s) : r.KeepsTrip l (s.endUrkai l) := by
  unfold State.endUrkai
  exact KeepsTrip.modSwap (KeepsTrip.modCon (h.voidArm 2) (by exact fun c hc => hc)) _

theorem openPath (h : r.KeepsTrip l s) : r.KeepsTrip l (s.openPath l) := by
  unfold State.openPath
  exact KeepsTrip.modBelay h (by exact fun _ _ => rfl) (by exact fun b hb => by simp [hb]) (by exact fun _ => ⟨rfl, rfl, rfl, rfl, rfl⟩)

theorem stopStage (h : r.KeepsTrip l s) : r.KeepsTrip l (s.stopStage l) := h.modConv fun _ _ => rfl

/-- The end of an attach keeps what a trip has done. -/
theorem leaveAttached (h : r.KeepsTrip l s) : r.KeepsTrip l (s.leaveAttached l) := by
  unfold State.leaveAttached
  refine KeepsTrip.modBelay ?_ (by exact fun _ hb => hb) (by exact fun _ hb => hb) (by exact fun _ => ⟨rfl, rfl, rfl, rfl, rfl⟩)
  refine KeepsTrip.modBudget (KeepsTrip.modFw (KeepsTrip.modCc (KeepsTrip.modSwap ?_ _) fun _ _ => rfl) _) _
  refine KeepsTrip.stopStage (KeepsTrip.openPath (KeepsTrip.modCon ?_ (by exact fun c hc => hc)))
  exact KeepsTrip.modPd (KeepsTrip.modPd h.loadOff.endUrkai.abortQueue _) _

theorem disableLane (h : r.KeepsTrip l s) : r.KeepsTrip l (s.disableLane l) := by
  unfold State.disableLane
  exact KeepsTrip.modCc h.leaveAttached (by exact fun _ hv => hv)

theorem detachLane (h : r.KeepsTrip l s) : r.KeepsTrip l (s.detachLane l) := by
  unfold State.detachLane
  exact KeepsTrip.postLane (KeepsTrip.modCc h.leaveAttached (by exact fun _ hv => hv)) l 0

theorem endSwap (h : r.KeepsTrip l s) (o : BitVec 4) : r.KeepsTrip l (s.endSwap l o) := by
  unfold State.endSwap
  exact KeepsTrip.postLane (h.modSwap _) l 6

theorem packHold (h : r.KeepsTrip l s) : r.KeepsTrip l (s.packHold l) := by
  unfold State.packHold
  split
  · exact h.modSwap _
  · exact h

theorem countFault (h : r.KeepsTrip l s) (k : FaultClass) : r.KeepsTrip l (s.countFault l k).2 := by
  unfold State.countFault
  dsimp only
  split <;> dsimp only
  · exact ((h.modFw _).modFw _).logFlags ..
  · exact h.modFw _

theorem errorRecovery (h : r.KeepsTrip l s) : r.KeepsTrip l (s.errorRecovery l) := by
  unfold State.errorRecovery
  have hlog := h.log 0x0104 .lane l.val (txStatus (s.lane l).pd) 0 0
  have hswap : r.KeepsTrip l (if (s.lane l).swap.state ≠ 0 then
      (s.log 0x0104 .lane l.val (txStatus (s.lane l).pd) 0 0).endSwap l 8 else s.log 0x0104 .lane l.val (txStatus (s.lane l).pd) 0 0) := by
    split
    · exact hlog.endSwap 8
    · exact hlog
  have hd := (hswap.packHold.countFault .proto).detachLane
  exact KeepsTrip.ite (KeepsTrip.irq (KeepsTrip.modCc hd (by exact fun _ hv => hv)) 6) hd

theorem hardReset (h : r.KeepsTrip l s) : r.KeepsTrip l (s.hardReset l) := by
  unfold State.hardReset
  dsimp only
  split
  · exact h
  · split
    · exact h.errorRecovery
    · exact h.modPd _

/-- The record of a trip, its count and the hard reset that follows it keep what it has done, but for TRIP_EVT, which they set. -/
theorem tripRecord (s : State) (l : LaneId) : (s.modBelay l fun b => { b with tripEvt := true }).KeepsTrip l (s.tripRecord l) := by
  generalize hr : s.modBelay l (fun b => { b with tripEvt := true }) = r
  have h := KeepsTrip.refl r l
  unfold State.tripRecord
  extract_lets was s1 x s2
  have h2 : r.KeepsTrip l s2 := by
    simp only [s2, s1, hr]
    exact (h.postLane l 4).log ..
  have h3 := h2.countFault .power
  generalize s2.countFault l .power = c at h3 ⊢
  obtain ⟨last, s3⟩ := c
  dsimp -zeta only at h3 ⊢
  have h4 : r.KeepsTrip l (s3.modBelay l fun b => { b with latched := true }) :=
    KeepsTrip.modBelay h3 (by exact fun _ hb => hb) (by exact fun _ hb => hb) (by exact fun _ => ⟨rfl, rfl, rfl, rfl, rfl⟩)
  extract_lets s5 y5 s4 s6 y done
  have h5 : r.KeepsTrip l s5 := h4.postLane l 4
  clear_value s5
  have h4' : r.KeepsTrip l s4 := KeepsTrip.ite ((h5.logFlags _ _ _ _ _ _ _).irq 5) h3
  clear_value s4
  have h6 : r.KeepsTrip l s6 := h4'.hardReset
  clear_value s6
  exact KeepsTrip.ite h6.disableLane h6

end State.KeepsTrip

section
variable (s : State) (l : LaneId) (cause : BitVec 4) (a b : Bool)

theorem State.loadOff_belay : ((s.loadOff l).lane l).belay = (s.lane l).belay := by
  unfold State.loadOff
  split <;> simp [State.loadChanges]

/-- What a trip leaves at once: the path open, the stage stopped and the VBIN discharge running (R155). -/
theorem State.tripPath_shows : ((s.tripPath l cause a b).lane l).belay.sw = 0 ∧ ((s.tripPath l cause a b).lane l).conv.on = false ∧
    ((s.tripPath l cause a b).lane l).belay.dischIn = true := by
  simp only [State.tripPath, State.openPath, State.stopStage, State.lane_modBelay, State.lane_modConv, BelayLane.record]
  refine ⟨?_, rfl, trivial⟩
  split
  · split <;> rfl
  · rfl

/-- The cause of a trip of a path that no trip had opened (R156). -/
theorem State.tripPath_cause (h : (s.lane l).belay.tripOpen = false) : ((s.tripPath l cause a b).lane l).belay.cause = cause := by
  simp [State.tripPath, State.openPath, State.stopStage, BelayLane.record, State.loadOff_belay, h]

theorem State.tripPath_fails : ((s.tripPath l cause a b).lane l).belay.failA = (s.lane l).belay.failA ∧
    ((s.tripPath l cause a b).lane l).belay.failB = (s.lane l).belay.failB ∧
    ((s.tripPath l cause a b).lane l).belay.thermWarn = (s.lane l).belay.thermWarn := by
  simp only [State.tripPath, State.openPath, State.stopStage, State.lane_modBelay, State.lane_modConv, BelayLane.record, State.loadOff_belay]
  split
  · split <;> exact ⟨rfl, rfl, rfl⟩
  · exact ⟨rfl, rfl, rfl⟩

theorem State.voidArm_belay (c : BitVec 2) : ((s.voidArm l c).lane l).belay = (s.lane l).belay := by
  unfold State.voidArm
  split <;> simp

theorem State.voidArm_arm (c : BitVec 2) : armInForce ((s.voidArm l c).lane l) = false := by
  unfold State.voidArm
  split
  · simp [armInForce]
  · exact Bool.eq_false_iff.2 ‹_›

theorem armInForce_eq_false {x : Lane} : armInForce x = false ↔ x.con.armState ≠ 1 ∧ x.con.armState ≠ 2 := by
  simp [armInForce]

/-- What a trip leaves of its lane in the record, the arm and the marks (R155, R156). -/
theorem State.trip_shows (h : (s.lane l).belay.tripOpen = false) : ((s.trip l cause a b).lane l).belay.sw = 0 ∧
    ((s.trip l cause a b).lane l).conv.on = false ∧ ((s.trip l cause a b).lane l).belay.tripEvt = true ∧
    ((s.trip l cause a b).lane l).belay.dischIn = true ∧ ((s.trip l cause a b).lane l).con.armState ≠ 1 ∧
    ((s.trip l cause a b).lane l).con.armState ≠ 2 ∧ ((s.trip l cause a b).lane l).belay.cause = cause := by
  obtain ⟨hsw, hon, hin⟩ := s.tripPath_shows l cause a b
  have hv : (s.tripPath l cause a b).KeepsTrip l ((s.tripPath l cause a b).voidArm l 2) := (State.KeepsTrip.refl ..).voidArm 2
  have hk := State.KeepsTrip.tripRecord ((s.tripPath l cause a b).voidArm l 2) l
  have harm := (s.tripPath l cause a b).voidArm_arm l 2
  have hcause := s.tripPath_cause l cause a b h
  unfold State.trip
  generalize s.tripPath l cause a b = u at *
  generalize u.voidArm l 2 = v at *
  generalize v.tripRecord l = w at *
  have hk := hk.lane
  rw [State.lane_modBelay] at hk
  obtain ⟨harm1, harm2⟩ := armInForce_eq_false.1 (hk.arm harm)
  exact ⟨hk.sw (hv.lane.sw hsw), hk.on (hv.lane.on hon), hk.tripEvt, hk.dischIn (hv.lane.dischIn hin), harm1, harm2, hk.cause.trans (hv.lane.cause.trans hcause)⟩

/-- A trip of any lane opens its path and keeps the marks of its comparators, the warning of its die and its VCONN off (R155). -/
theorem State.trip_keeps : ((s.trip l cause a b).lane l).belay.sw = 0 ∧ ((s.trip l cause a b).lane l).belay.failA = (s.lane l).belay.failA ∧
    ((s.trip l cause a b).lane l).belay.failB = (s.lane l).belay.failB ∧
    ((s.trip l cause a b).lane l).belay.thermWarn = (s.lane l).belay.thermWarn ∧
    ((s.lane l).cc.vconnOn = false → ((s.trip l cause a b).lane l).cc.vconnOn = false) := by
  obtain ⟨hsw, -, -⟩ := s.tripPath_shows l cause a b
  obtain ⟨hA, hB, hW⟩ := s.tripPath_fails l cause a b
  have hv : (s.tripPath l cause a b).KeepsTrip l ((s.tripPath l cause a b).voidArm l 2) := (State.KeepsTrip.refl ..).voidArm 2
  have hk := State.KeepsTrip.tripRecord ((s.tripPath l cause a b).voidArm l 2) l
  have hcc : ((s.tripPath l cause a b).lane l).cc = (s.lane l).cc := by
    simp only [State.tripPath, State.openPath, State.stopStage, State.lane_modBelay, State.lane_modConv, State.loadOff]
    split <;> simp [State.loadChanges]
  unfold State.trip
  generalize s.tripPath l cause a b = u at *
  generalize u.voidArm l 2 = v at *
  generalize v.tripRecord l = w at *
  have hk := hk.lane
  rw [State.lane_modBelay] at hk
  exact ⟨hk.sw (hv.lane.sw hsw), hk.failA.trans (hv.lane.failA.trans hA), hk.failB.trans (hv.lane.failB.trans hB), hk.thermWarn.trans (hv.lane.thermWarn.trans hW),
    fun h => hk.vconn (hv.lane.vconn (by rwa [hcc]))⟩

/-- A trip changes no die's temperature and thermal state. -/
theorem State.trip_dies (g : GroupId) : ((s.trip l cause a b).group g).dieTemp = (s.group g).dieTemp ∧
    ((s.trip l cause a b).group g).thermShut = (s.group g).thermShut := by
  have hg : (s.tripPath l cause a b).groups = s.groups := by
    unfold State.tripPath State.loadOff
    split <;> rfl
  have hv : (s.tripPath l cause a b).KeepsTrip l ((s.tripPath l cause a b).voidArm l 2) := (State.KeepsTrip.refl ..).voidArm 2
  have hk := State.KeepsTrip.tripRecord ((s.tripPath l cause a b).voidArm l 2) l
  unfold State.trip
  have hs : (s.tripPath l cause a b).group g = s.group g := by simp only [State.group, hg]
  exact ⟨(hk.dieTemp g).trans ((hv.dieTemp g).trans (congrArg _ hs)), (hk.thermShut g).trans ((hv.thermShut g).trans (congrArg _ hs))⟩

end

end Sys2Proof.Machine

/-! Trips of the belay and die temperature (O50). -/
namespace Sys2Proof.Machine

section
variable (s : State) (l : LaneId) (cause : BitVec 4) (a b : Bool)

theorem State.crossing_closed (h : (s.lane l).belay.sw ≠ 0) : s.crossing l cause a b = s.trip l cause a b := if_pos h

/-- A crossing on a path that no trip has opened and that has not been left just now does nothing. -/
theorem State.crossing_open (h : (s.lane l).belay.sw = 0) (ht : (s.lane l).belay.tripOpen = false) (hl : (s.lane l).belay.leftAt = none) :
    s.crossing l cause a b = s := by
  simp [State.crossing, h, ht, hl]

theorem State.sampleCause_none (h : (s.lane l).belay.sw ≠ 0 ∨ (s.lane l).belay.tripOpen = false) : s.sampleCause l cause = s :=
  if_neg (by rw [Bool.and_eq_true, decide_eq_true_eq]; rintro ⟨ht, hsw⟩; simp_all)

/-- What every trip command leaves of its lane, and how far it reaches (R155). -/
theorem State.trip_leaves (h : (s.lane l).belay.tripOpen = false) : ((s.trip l cause a b).lane l).belay.sw = 0 ∧
    ((s.trip l cause a b).lane l).conv.on = false ∧ ((s.trip l cause a b).lane l).belay.tripEvt = true ∧
    ((s.trip l cause a b).lane l).belay.dischIn = true ∧ ((s.trip l cause a b).lane l).con.armState ≠ 1 ∧
    ((s.trip l cause a b).lane l).con.armState ≠ 2 ∧ ((s.trip l cause a b).lane l).belay.cause = cause ∧ s.onlyLaneLogs (s.trip l cause a b) l := by
  obtain ⟨h1, h2, h3, h4, h5, h6, h7⟩ := s.trip_shows l cause a b h
  exact ⟨h1, h2, h3, h4, h5, h6, h7, State.onlyLaneLogs_of_erase (by simp)⟩

/-- A crossing of a closed path trips it, whether or not it marks DISAGREE before (R142, R155). -/
theorem State.crossing_leaves {u : State} (hsw : (s.lane l).belay.sw ≠ 0) (h : (s.lane l).belay.tripOpen = false)
    (hu : u = (s.modBelay l fun y => { y with disagree := true }) ∨ u = s) :
    ((u.crossing l cause a b).lane l).belay.sw = 0 ∧ ((u.crossing l cause a b).lane l).conv.on = false ∧
    ((u.crossing l cause a b).lane l).belay.tripEvt = true ∧ ((u.crossing l cause a b).lane l).belay.dischIn = true ∧
    ((u.crossing l cause a b).lane l).con.armState ≠ 1 ∧ ((u.crossing l cause a b).lane l).con.armState ≠ 2 ∧
    ((u.crossing l cause a b).lane l).belay.cause = cause ∧ s.onlyLaneLogs (u.crossing l cause a b) l := by
  have hlane : (u.lane l).belay.sw = (s.lane l).belay.sw ∧ (u.lane l).belay.tripOpen = (s.lane l).belay.tripOpen := by
    rcases hu with rfl | rfl <;> simp
  have herase : u.erase 2 l = s.erase 2 l := by rcases hu with rfl | rfl <;> simp
  rw [State.crossing_closed _ _ _ _ _ (hlane.1 ▸ hsw)]
  obtain ⟨h1, h2, h3, h4, h5, h6, h7⟩ := u.trip_shows l cause a b (hlane.2.trans h)
  exact ⟨h1, h2, h3, h4, h5, h6, h7, State.onlyLaneLogs_of_erase (by simpa using herase)⟩

-- lanes of a die, one after the other

variable {f : State → LaneId → State} {xs : List LaneId} {m : LaneId} {s}

/-- A lane that is not among those of a list stays where each change reaches its own lane alone. -/
theorem State.forEach_lane_other (hf : ∀ u k m, m ≠ k → (f u k).lane m = u.lane m) (hm : m ∉ xs) : (s.forEach xs f).lane m = s.lane m := by
  induction xs generalizing s with
  | nil => rfl
  | cons k t ih =>
    rw [List.mem_cons, not_or] at hm
    exact (ih hm.2).trans (hf s k m hm.1)

/-- A lane of a list is as its own change leaves it, from a state that has the lane and what all changes keep as before. -/
theorem State.forEach_lane_at {Q : State → Prop} (hf : ∀ u k m, m ≠ k → (f u k).lane m = u.lane m) (hQ : ∀ u k, Q u → Q (f u k)) (hs : Q s)
    (hn : xs.Nodup) (hm : m ∈ xs) : ∃ u, Q u ∧ u.lane m = s.lane m ∧ (s.forEach xs f).lane m = (f u m).lane m := by
  induction xs generalizing s with
  | nil => exact absurd hm List.not_mem_nil
  | cons k t ih =>
    obtain ⟨hk, ht⟩ := List.nodup_cons.1 hn
    by_cases h : m = k
    · subst h
      exact ⟨s, hs, rfl, State.forEach_lane_other hf hk⟩
    · obtain ⟨u, hu, hl, he⟩ := ih (hQ s k hs) ht (List.mem_of_ne_of_mem h hm)
      exact ⟨u, hu, hl.trans (hf s k m h), he⟩

theorem lanesOf_nodup (g : GroupId) : (lanesOf g).Nodup := by revert g; decide
theorem mem_lanesOf {g : GroupId} : m ∈ lanesOf g ↔ groupOf m = g := by
  revert m g; decide

/-- What an operation that erases lane k and the records alone leaves of another lane. -/
theorem State.lane_of_erase {j : Nat} {u v : State} {k : LaneId} (h : v.erase j k = u.erase j k) (hm : m ≠ k) : v.lane m = u.lane m := by
  calc v.lane m = (v.erase j k).lane m := (State.lane_setLane_ne v {} hm).symm
    _ = (u.erase j k).lane m := congrArg (fun w : State => w.lane m) h
    _ = u.lane m := State.lane_setLane_ne u {} hm

end

section
variable (s : State) (l : LaneId) (v : Bool) (g : GroupId)

/-- THERM_WARN of a lane and the posting of its change leave everything else of the lane (R152). -/
theorem State.setThermWarn_lane :
    (s.setThermWarn v l).lane l = { s.lane l with belay := { (s.lane l).belay with thermWarn := v } } := by
  unfold State.setThermWarn
  split
  · next h => subst h; rfl
  · simp

theorem State.setThermWarn_other {k m : LaneId} (h : m ≠ k) : (s.setThermWarn v k).lane m = s.lane m :=
  State.lane_of_erase (State.erase_setThermWarn (j := 1) (by decide) v) h

/-- The device, its fuses and its dies stand in u as in r, but for what postings reach. -/
structure State.SameDies (r u : State) : Prop where
  dev : u.dev = r.dev
  sec : u.sec = r.sec
  dieTemp : ∀ g, (u.group g).dieTemp = (r.group g).dieTemp
  thermShut : ∀ g, (u.group g).thermShut = (r.group g).thermShut
  linkOk : ∀ g, (u.group g).linkOk = (r.group g).linkOk

theorem State.SameDies.refl : s.SameDies s := ⟨rfl, rfl, fun _ => rfl, fun _ => rfl, fun _ => rfl⟩

section
variable {s} {r : State}

theorem State.SameDies.post (h : r.SameDies s) (n : Nat) : r.SameDies (s.post n) := by
  refine ⟨(s.post_dev n).trans h.dev, (s.post_sec n).trans h.sec, fun g => ?_, fun g => ?_, fun g => (s.post_linkOk n g).trans (h.linkOk g)⟩ <;>
    obtain ⟨a, b, w, hg⟩ := s.post_group n g <;> rw [hg]
  · exact h.dieTemp g
  · exact h.thermShut g

theorem State.SameDies.modBelay (h : r.SameDies s) (f : BelayLane → BelayLane) : r.SameDies (s.modBelay l f) :=
  ⟨h.dev, h.sec, h.dieTemp, h.thermShut, h.linkOk⟩

theorem State.SameDies.setThermWarn (h : r.SameDies s) : r.SameDies (s.setThermWarn v l) := by
  unfold State.setThermWarn
  split
  · exact h
  · exact (h.modBelay l _).post _

theorem State.SameDies.startClose (h : r.SameDies s) : r.SameDies (s.startClose l) := by
  unfold State.startClose
  dsimp only
  split
  · exact h.modBelay l _
  · exact h

/-- Whether a path may close hangs on its lane, the device and the dies alone (R139). -/
theorem State.SameDies.closeAllowed (h : r.SameDies s) (he : (s.lane l).enabled = (r.lane l).enabled)
    (hc : (s.lane l).cfg = (r.lane l).cfg) (hb : (s.lane l).belay.latched = (r.lane l).belay.latched) :
    Machine.closeAllowed s l = Machine.closeAllowed r l := by
  simp only [Machine.closeAllowed, liveBit, laneLive, State.live, State.fusedOff, dieUp, he, hc, hb, h.dev, h.sec, h.linkOk]

end

theorem BelayLane.record_keeps (y : BelayLane) (now : Nat) (c : BitVec 4) (a b : Bool) :
    (y.record now c a b).sw = y.sw ∧ (y.record now c a b).thermWarn = y.thermWarn := by
  unfold BelayLane.record
  split
  · split <;> exact ⟨rfl, rfl⟩
  · exact ⟨rfl, rfl⟩

theorem State.sampleCause_keeps (c : BitVec 4) : ((s.sampleCause l c).lane l).belay.sw = (s.lane l).belay.sw ∧
    ((s.sampleCause l c).lane l).belay.thermWarn = (s.lane l).belay.thermWarn ∧ ((s.sampleCause l c).lane l).cc = (s.lane l).cc := by
  unfold State.sampleCause
  split
  · simp [BelayLane.record_keeps]
  · exact ⟨rfl, rfl, rfl⟩

/-- What a die at 150 °C does to each of its lanes (R152, R155). -/
theorem State.thermTrip_shows : ((s.thermTrip l).lane l).belay.sw = 0 ∧ ((s.thermTrip l).lane l).cc.vconnOn = false ∧
    ((s.thermTrip l).lane l).belay.thermWarn = (s.lane l).belay.thermWarn ∧
    ((s.lane l).belay.tripOpen = false → (s.lane l).belay.sw ≠ 0 ∨ (s.lane l).cc.vconnOn = true →
      ((s.thermTrip l).lane l).belay.cause = 7 ∧ ((s.thermTrip l).lane l).belay.tripEvt = true) := by
  by_cases h : (s.lane l).belay.sw ≠ 0 ∨ (s.lane l).cc.vconnOn = true
  · have htrip : s.thermTrip l = (s.modCc l fun c => { c with vconnOn := false }).trip l 7 false false := if_pos (by simpa using h)
    obtain ⟨hsw, -, -, hw, hv⟩ := (s.modCc l fun c => { c with vconnOn := false }).trip_keeps l 7 false false
    simp only [State.lane_modCc] at hsw hw hv
    rw [htrip]
    refine ⟨hsw, hv trivial, hw, fun ho _ => ?_⟩
    obtain ⟨-, -, he, -, -, -, hc⟩ := (s.modCc l fun c => { c with vconnOn := false }).trip_shows l 7 false false (by simpa using ho)
    exact ⟨hc, he⟩
  · rw [not_or, ne_eq, not_not, Bool.not_eq_true] at h
    obtain ⟨hsw, hv⟩ := h
    have hsample : s.thermTrip l = s.sampleCause l 7 := if_neg (by simp [hsw, hv])
    rw [hsample]
    obtain ⟨ks, kw, kv⟩ := s.sampleCause_keeps l 7
    exact ⟨ks.trans hsw, kv ▸ hv, kw, fun _ h => absurd h (by simp [hsw, hv])⟩

theorem State.thermTrip_dies (k : LaneId) : ((s.thermTrip k).group g).dieTemp = (s.group g).dieTemp ∧
    ((s.thermTrip k).group g).thermShut = (s.group g).thermShut := by
  unfold State.thermTrip
  dsimp only
  split
  · exact State.trip_dies _ k 7 false false g
  · unfold State.sampleCause
    split <;> exact ⟨rfl, rfl⟩

/-- A close that is held begins its test once the die is no longer shut (R140, R152). -/
theorem State.startClose_stest (hw : (s.lane l).belay.want ≠ .none) (hsw : (s.lane l).belay.sw = 0) (ha : closeAllowed s l = true)
    (ht : (s.group (groupOf l)).thermShut = false) : ((s.startClose l).lane l).belay.stest = 3 := by
  unfold State.startClose
  simp [hw, hsw, ha, ht]

theorem State.startClose_thermWarn : ((s.startClose l).lane l).belay.thermWarn = (s.lane l).belay.thermWarn := by
  unfold State.startClose
  dsimp only
  split <;> simp

/-- The dies of s with the temperature and the thermal state that R152 gives die g. -/
def State.tempTaken (s : State) (g : GroupId) (temp : Byte) : State :=
  s.modGroup g fun x => { x with dieTemp := temp, thermShut := decide (214 ≤ temp.toNat) || (x.thermShut && decide (189 ≤ temp.toNat)) }

theorem State.tempTaken_group (temp : Byte) : (s.tempTaken g temp).group g =
    { s.group g with dieTemp := temp, thermShut := decide (214 ≤ temp.toNat) || ((s.group g).thermShut && decide (189 ≤ temp.toNat)) } :=
  State.group_modGroup ..

@[simp] theorem State.tempTaken_lane (temp : Byte) (m : LaneId) : (s.tempTaken g temp).lane m = s.lane m := rfl

theorem State.tempTaken_closeAllowed (temp : Byte) (m : LaneId) : closeAllowed (s.tempTaken g temp) m = closeAllowed s m := by
  have hlink : ((s.tempTaken g temp).group (groupOf m)).linkOk = (s.group (groupOf m)).linkOk := by
    by_cases h : g = groupOf m
    · subst h
      rw [State.tempTaken_group]
    · rw [State.tempTaken, State.group_modGroup_ne _ _ (Ne.symm h)]
  simp only [closeAllowed, dieUp, hlink]
  rfl

/-- THERM_WARN of every lane of a die, and what is as before. -/
theorem State.warnAll_shows (v : Bool) : s.SameDies (s.forEach (lanesOf g) fun u l => u.setThermWarn v l) ∧ ∀ m, 
    (groupOf m = g → (s.forEach (lanesOf g) fun u l => u.setThermWarn v l).lane m =
      { s.lane m with belay := { (s.lane m).belay with thermWarn := v } }) ∧
    (groupOf m ≠ g → (s.forEach (lanesOf g) fun u l => u.setThermWarn v l).lane m = s.lane m) := by
  have hother : ∀ (u : State) (k m : LaneId), m ≠ k → (u.setThermWarn v k).lane m = u.lane m := fun u k m h => u.setThermWarn_other v h
  refine ⟨State.forEach_keeps (P := s.SameDies) (fun u k hu => hu.setThermWarn k v) _ _ (.refl s), fun m => ⟨fun hm => ?_, fun hm => ?_⟩⟩
  · obtain ⟨u, -, hl, he⟩ := State.forEach_lane_at (Q := fun _ => True) hother (fun _ _ h => h) trivial (lanesOf_nodup g) (mem_lanesOf.2 hm)
    rw [he, State.setThermWarn_lane, hl]
  · exact State.forEach_lane_other hother (mt mem_lanesOf.1 hm)

/-- The warning of a die in the band of its temperature (R152). -/
def State.tempWarned (s : State) (g : GroupId) (temp : Byte) : State :=
  if 199 ≤ temp.toNat then ((s.tempTaken g temp).forEach (lanesOf g) fun st l => st.setThermWarn true l).post (0x200 + 4 * g.val + 2)
  else if temp.toNat < 194 then (s.tempTaken g temp).forEach (lanesOf g) fun st l => st.setThermWarn false l
  else s.tempTaken g temp

theorem State.tempWarned_shows (temp : Byte) : (s.tempTaken g temp).SameDies (s.tempWarned g temp) ∧ ∀ m, 
    (groupOf m = g → (s.tempWarned g temp).lane m = { s.lane m with belay := { (s.lane m).belay with
      thermWarn := decide (199 ≤ temp.toNat) || (!decide (temp.toNat < 194) && (s.lane m).belay.thermWarn) } }) ∧
    (groupOf m ≠ g → (s.tempWarned g temp).lane m = s.lane m) := by
  unfold State.tempWarned
  split
  · next h =>
    obtain ⟨hd, hl⟩ := (s.tempTaken g temp).warnAll_shows g true
    simpa [h] using And.intro (hd.post _) hl
  · next h =>
    split
    · next hlow => 
      obtain ⟨hd, hl⟩ := (s.tempTaken g temp).warnAll_shows g false
      simpa [h, hlow] using And.intro hd hl
    · next hlow =>
      exact ⟨.refl _, fun m => ⟨fun _ => by simp [h, hlow, State.tempTaken], fun _ => rfl⟩⟩

theorem State.dieTemp_eq (temp : Byte) : s.dieTemp g temp =
    if 214 ≤ temp.toNat then (s.tempWarned g temp).forEach (lanesOf g) fun st l => st.thermTrip l
    else if (s.group g).thermShut && temp.toNat < 189 then (s.tempWarned g temp).forEach (lanesOf g) fun st l => st.startClose l
    else s.tempWarned g temp := rfl

end

section
variable (s : State) (g : GroupId) (temp : Byte)

/-- What a temperature below 150 °C leaves of the lanes of its die and of the others: their warnings, and the tests of closes that were held (R152). -/
theorem State.dieTemp_cool (h : temp.toNat < 214) : ((s.dieTemp g temp).group g).dieTemp = temp ∧
    ((s.dieTemp g temp).group g).thermShut = ((s.group g).thermShut && decide (189 ≤ temp.toNat)) ∧ ∀ m,
    (groupOf m = g → ((s.dieTemp g temp).lane m).belay.thermWarn =
        (decide (199 ≤ temp.toNat) || (!decide (temp.toNat < 194) && (s.lane m).belay.thermWarn)) ∧
      ((s.group g).thermShut = true → temp.toNat < 189 → (s.lane m).belay.want ≠ .none → (s.lane m).belay.sw = 0 → closeAllowed s m = true →
        ((s.dieTemp g temp).lane m).belay.stest = 3)) ∧
    (groupOf m ≠ g → (s.dieTemp g temp).lane m = s.lane m) := by
  obtain ⟨hd, hl⟩ := s.tempWarned_shows g temp
  rw [State.dieTemp_eq, if_neg (by omega)]
  split
  · next hc =>
    rw [Bool.and_eq_true, decide_eq_true_eq] at hc
    obtain ⟨hshut, hlow⟩ := hc
    have hother : ∀ (u : State) (k m : LaneId), m ≠ k → (u.startClose k).lane m = u.lane m := fun u k m h => State.lane_of_erase (State.erase_startClose (j := 0)) h
    have hkeep : ∀ (u : State) (k : LaneId), (s.tempTaken g temp).SameDies u → (s.tempTaken g temp).SameDies (u.startClose k) := fun u k hu => hu.startClose k
    have hall := State.forEach_keeps (P := (s.tempTaken g temp).SameDies) hkeep (lanesOf g) _ hd
    refine ⟨?_, ?_, fun m => ⟨fun hm => ?_, fun hm => ?_⟩⟩
    · rw [hall.dieTemp, State.tempTaken_group]
    · rw [hall.thermShut, State.tempTaken_group]
      simp; omega
    · obtain ⟨u, hu, hul, he⟩ := State.forEach_lane_at hother hkeep hd (lanesOf_nodup g) (mem_lanesOf.2 hm)
      rw [(hl m).1 hm] at hul
      rw [he]
      refine ⟨by rw [State.startClose_thermWarn, hul], fun _ _ hw hsw ha => State.startClose_stest u m ?_ ?_ ?_ ?_⟩
      · rwa [hul]
      · rwa [hul]
      · rw [hu.closeAllowed m (by rw [hul, State.tempTaken_lane]) (by rw [hul, State.tempTaken_lane]) (by rw [hul, State.tempTaken_lane])]
        rwa [State.tempTaken_closeAllowed]
      · rw [hu.thermShut, hm, State.tempTaken_group]
        simp; omega
    · rw [State.forEach_lane_other hother (mt mem_lanesOf.1 hm), (hl m).2 hm]
  · next hc =>
    refine ⟨by rw [hd.dieTemp, State.tempTaken_group], ?_, fun m => ⟨fun hm => ⟨?_, fun h1 h2 => absurd ?_ hc⟩, (hl m).2⟩⟩
    · rw [hd.thermShut, State.tempTaken_group]
      simp; omega
    · rw [(hl m).1 hm]
    · simp [h1, h2]

/-- What a temperature of 150 °C and more leaves of the lanes of its die and of the others (R152, R155). -/
theorem State.dieTemp_hot (h : 214 ≤ temp.toNat) : ((s.dieTemp g temp).group g).dieTemp = temp ∧ ((s.dieTemp g temp).group g).thermShut = true ∧
    (∀ m, groupOf m = g → ((s.dieTemp g temp).lane m).belay.sw = 0 ∧ ((s.dieTemp g temp).lane m).cc.vconnOn = false ∧
      ((s.dieTemp g temp).lane m).belay.thermWarn = true ∧
      ((s.lane m).belay.tripOpen = false → (s.lane m).belay.sw ≠ 0 ∨ (s.lane m).cc.vconnOn = true →
        ((s.dieTemp g temp).lane m).belay.cause = 7 ∧ ((s.dieTemp g temp).lane m).belay.tripEvt = true)) ∧
    ∀ m, groupOf m ≠ g → (s.dieTemp g temp).lane m = s.lane m := by
  obtain ⟨hd, hl⟩ := s.tempWarned_shows g temp
  have hother : ∀ (u : State) (k m : LaneId), m ≠ k → (u.thermTrip k).lane m = u.lane m :=
    fun u k m h => State.lane_of_erase (State.erase_thermTrip (j := 2) (by decide)) h
  rw [State.dieTemp_eq, if_pos h]
  refine ⟨?_, ?_, fun m hm => ?_, fun m hm => ?_⟩
  · rw [State.forEach_same (fun u => (u.group g).dieTemp) _ (fun u k => (u.thermTrip_dies g k).1), hd.dieTemp, State.tempTaken_group]
  · rw [State.forEach_same (fun u => (u.group g).thermShut) _ (fun u k => (u.thermTrip_dies g k).2), hd.thermShut, State.tempTaken_group]
    simp [h]
  · obtain ⟨u, -, hul, he⟩ := State.forEach_lane_at (Q := fun _ => True) hother (fun _ _ h => h) trivial (lanesOf_nodup g) (mem_lanesOf.2 hm)
    rw [(hl m).1 hm] at hul
    obtain ⟨h1, h2, h3, h4⟩ := u.thermTrip_shows m
    rw [hul] at h3 h4
    rw [he]
    exact ⟨h1, h2, h3.trans (by simp; omega), h4⟩
  · rw [State.forEach_lane_other hother (mt mem_lanesOf.1 hm), (hl m).2 hm]

end

/-- Settles O50: a crossing beyond its limit is a trip, and the lanes of a die take its temperature one after the other. -/
theorem belayTrips : Obligations.BelayTrips := by
  unfold Obligations.BelayTrips
  intro l g qa qb qs ma mv temp s
  refine ⟨?_, ?_, ?_, ?_, ?_, ?_, ?_, ?_, ?_, ?_, ?_, ?_, ?_, ?_, ?_, ?_, ?_, ?_, ?_⟩
  · intro hsw hcross ho
    refine ⟨_, (if_pos ?_).trans (congrArg (fun k => Host.Outcome.next (State.crossing _ l k _ _)) (if_congr decide_eq_true_iff rfl rfl)),
      State.crossing_leaves s l _ _ _ hsw ho (ite_eq_or_eq ..)⟩
    rcases hcross with ⟨h1, h2, h3⟩ | ⟨h1, h2, h3⟩ | h
    · simp only [h1, h2, h3, decide_true, Bool.not_false, Bool.and_true, Bool.true_or, ne_eq, not_false_eq_true]
    · simp only [h1, h2, h3, decide_true, Bool.not_false, Bool.and_true, Bool.true_or, Bool.or_true, ne_eq, not_false_eq_true]
    · simp only [h, decide_true, Bool.or_true]
  · intro ha hb hs
    refine if_neg ?_
    simp only [Bool.or_eq_true, Bool.and_eq_true, decide_eq_true_eq, Bool.not_eq_true', not_or, not_and]
    refine ⟨⟨?_, ?_⟩, hs⟩
    · rintro ⟨h1, h2⟩ h3
      rcases ha with h | h | h <;> simp_all
    · rintro ⟨h1, h2⟩ h3
      rcases hb with h | h | h <;> simp_all
  · rintro ⟨hsw, ho, hl⟩
    have hs (c : Bool) (u : State) : (if decide ((s.lane l).belay.sw ≠ 0) && c then u else s) = s := if_neg (by simp [hsw])
    refine (ite_eq_right_iff.2 fun _ => ?_)
    simp only [hs, Bool.and_assoc]
    exact congrArg Host.Outcome.next (State.crossing_open _ _ _ _ _ hsw ho hl)
  · intro hsw hv ho
    exact ⟨_, if_pos hv, by rw [State.crossing_closed _ _ _ _ _ hsw]; exact s.trip_leaves l 3 false false ho⟩
  · rintro (h | ⟨hsw, ho, hl⟩)
    · exact if_neg (by simpa using h)
    · show (if _ then Host.Outcome.next (State.crossing s l ..) else _) = _
      rw [State.crossing_open _ _ _ _ _ hsw ho hl, ite_self]
  · intro hsw hr hh hk hv hrise ho
    refine ⟨s.trip l 4 false false, ?_, s.trip_leaves l 4 false false ho⟩
    have hu : uvpApplies (s.lane l) = true := by
      simp only [uvpApplies, hsw, hr, hh, hk, decide_true, decide_false, Bool.true_or, Bool.not_false, Bool.and_true, Bool.false_and]
    exact (if_neg (by simp [hu])).trans ((if_neg (by simpa using hv)).trans (if_pos (by simp [hrise])))
  · intro hu hv
    refine ⟨_, (if_neg (by simp [hu])).trans (if_pos hv), ?_⟩
    simp only [uvpApplies, Bool.and_eq_true, decide_eq_true_eq] at hu
    simp only [State.lane_modBelay]
    exact ⟨trivial, hu.1.1.1, State.onlyLane_of_erase (by simp)⟩
  · intro hn hs
    have hu : uvpApplies (s.lane l) = false := by
      rcases hn with h | h | ⟨h, h'⟩ <;> simp only [uvpApplies, decide_false, *, Bool.not_true, Bool.false_and, Bool.and_false, Bool.or_false]
    refine (if_pos (by simp [hu])).trans ?_
    dsimp only
    split
    · rfl
    · next hlow => rw [State.sampleCause_none s l 4 (hs.resolve_left hlow)]
  · intro hsw hh hc ho
    refine ⟨s.trip l 5 false false, ?_, s.trip_leaves l 5 false false ho⟩
    rw [← State.crossing_closed _ _ _ _ _ hsw]
    refine if_pos ?_
    rw [Bool.and_eq_true, decide_eq_true_eq]
    exact ⟨by rcases hh with h | h <;> simp [h], hc⟩
  · rintro (⟨h1, h2⟩ | h)
    · exact if_neg (by simp [h1, h2])
    · refine if_neg ?_
      rw [Bool.and_eq_true, decide_eq_true_eq, not_and, not_lt]
      exact fun _ => h
  · intro hsw ho
    refine ⟨s.trip l 6 false false, ?_, s.trip_leaves l 6 false false ho⟩
    rw [← State.crossing_closed _ _ _ _ _ (by rw [hsw]; decide)]
    exact if_pos hsw
  · intro hsw hs
    exact (if_neg hsw).trans (by rw [State.sampleCause_none s l 6 hs])
  · intro hlo hhi
    obtain ⟨hd, hl⟩ := s.tempWarned_shows g temp
    have he : s.dieTemp g temp = s.tempWarned g temp := (if_neg (by omega)).trans (if_neg (by simp; omega))
    refine ⟨_, congrArg Host.Outcome.next he, by rw [hd.dieTemp, State.tempTaken_group], fun m => ⟨fun hm => ?_, (hl m).2⟩⟩
    rw [(hl m).1 hm]
    exact ⟨by simp [hlo], rfl⟩
  · intro hlow
    obtain ⟨ht, -, hl⟩ := s.dieTemp_cool g temp (Nat.lt_trans hlow (by decide))
    refine ⟨_, rfl, ht, fun m => ⟨fun hm => ?_, (hl m).2⟩⟩
    rw [((hl m).1 hm).1]
    simp [hlow]; omega
  · intro hlo hhi
    have he : s.dieTemp g temp = s.tempTaken g temp := by
      rw [State.dieTemp_eq, if_neg (by omega), if_neg (by simp; omega)]
      exact (if_neg (by omega)).trans (if_neg (by omega))
    exact ⟨_, congrArg Host.Outcome.next he, by rw [State.tempTaken_group], rfl⟩
  · intro hhot
    exact ⟨_, rfl, s.dieTemp_hot g temp hhot⟩
  · intro hlo hhi
    obtain ⟨hd, hl⟩ := s.tempWarned_shows g temp
    have he : s.dieTemp g temp = s.tempWarned g temp := (if_neg (by omega)).trans (if_neg (by simp; omega))
    refine ⟨_, congrArg Host.Outcome.next he, ?_, fun m => ?_⟩
    · rw [hd.thermShut, State.tempTaken_group]
      cases (s.group g).thermShut <;> simp <;> omega
    · by_cases hm : groupOf m = g
      · rw [(hl m).1 hm]
      · rw [(hl m).2 hm]
  · intro hlow
    obtain ⟨ht, hshut, hl⟩ := s.dieTemp_cool g temp (Nat.lt_trans hlow (by decide))
    refine ⟨_, rfl, ht, ?_, fun m => ⟨fun hm => ?_, (hl m).2⟩⟩
    · rw [hshut]
      simp; omega
    · obtain ⟨hw, hs⟩ := (hl m).1 hm
      refine ⟨?_, fun hshut => hs hshut hlow⟩
      rw [hw]
      simp; omega
  · intro hlo hhi hshut
    obtain ⟨hd, hl⟩ := s.tempWarned_shows g temp
    have he : s.dieTemp g temp = s.tempWarned g temp := (if_neg (by omega)).trans (if_neg (by simp; omega))
    refine ⟨_, congrArg Host.Outcome.next he, ?_, fun m => ?_⟩
    · rw [hd.thermShut, State.tempTaken_group]
      simp [hshut]; omega
    · by_cases hm : groupOf m = g
      · rw [(hl m).1 hm]
      · rw [(hl m).2 hm]

end Sys2Proof.Machine

/-! The close of a path and what ends it (O49). -/
namespace Sys2Proof.Machine

section
variable (s : State) (l : LaneId)

/-- A detach reports itself and waits for Rp to be presented again (R40). -/
theorem State.detachLane_cc : ((s.detachLane l).lane l).cc.detachEvt = true ∧ ((s.detachLane l).lane l).cc.st = .unattachedWait := by
  simp [State.detachLane]

/-- Error recovery detaches, and at its limit of faults disables (R43, R336). -/
theorem State.errorRecovery_cc : ((s.errorRecovery l).lane l).cc.detachEvt = true ∧
    (((s.errorRecovery l).lane l).cc.st = .unattachedWait ∨ ((s.errorRecovery l).lane l).cc.st = .disabled) := by
  unfold State.errorRecovery
  dsimp only
  generalize State.countFault _ l .proto = c
  obtain ⟨last, u⟩ := c
  obtain ⟨hd, hs⟩ := u.detachLane_cc l
  generalize u.detachLane l = v at *
  dsimp only
  split
  · simp [hd]
  · exact ⟨hd, .inl hs⟩

theorem closeAllowed_modBelay (f : BelayLane → BelayLane) (h : (f (s.lane l).belay).latched = (s.lane l).belay.latched) :
    closeAllowed (s.modBelay l f) l = closeAllowed s l := by
  simp only [closeAllowed, liveBit, laneLive, State.lane_modBelay, h]
  rfl

/-- A close whose conditions of R139 are met begins its gate ramp. -/
theorem State.tryRamp_ramps (hl : levelsOk (s.lane l).belay = true) (hp : (s.lane l).belay.testPassed = true)
    (hn : (s.lane l).belay.settling = false) (hsw : (s.lane l).belay.sw = 0) (ha : closeAllowed s l = true)
    (hA : (s.lane l).belay.failA = false) (hB : (s.lane l).belay.failB = false) (ht : (s.group (groupOf l)).thermShut = false) :
    s.tryRamp l = s.modBelay l fun b => { b with sw := 1 } :=
  if_pos (by simp [hl, hp, hn, hsw, ha, hA, hB, ht])

theorem State.tryRamp_waits (h : levelsOk (s.lane l).belay = false) : s.tryRamp l = s := if_neg (by simp [h])

theorem State.askClose_asks (w : CloseWant) (ha : closeAllowed s l = true) (hsw : (s.lane l).belay.sw = 0) :
    ((s.askClose l w).lane l).belay.want = w ∧ ((s.askClose l w).lane l).belay.closeRetry = (s.lane l).belay.closeRetry := by
  rw [State.askClose, if_pos (by simp [ha, hsw])]
  unfold State.startClose
  dsimp only
  split <;> simp

/-- The belay of a lane whose gate ramp has ended (R140). -/
def BelayLane.closed (now : Nat) (b : BelayLane) : BelayLane :=
  { b with sw := 2, want := .none, testPassed := false, backfeedTries := 0, closeRetry := false, risen := false, closedAt := now }

/-- The belay of a lane behind the acceptance of levels in a close (R139, R153). -/
def BelayLane.accepted (x : Lane) (mv mi : Nat) (b : BelayLane) : BelayLane :=
  let b := { b.levels x mv mi with settling := false }
  if b.want = .asSource then { b with dischIn := b.dischIn || b.vinHigh, backfeed := b.backfeed || b.voutHigh } else b

theorem State.closeAt_eq (mv mi : Nat) : s.closeAt l mv mi = (s.modBelay l (BelayLane.accepted (s.lane l) mv mi)).tryRamp l := rfl

/-- What the acceptance of levels leaves of the belay but for the comparators, the discharge and BACKFEED. -/
theorem BelayLane.accepted_keeps (x : Lane) (mv mi : Nat) (b : BelayLane) : (b.accepted x mv mi).settling = false ∧
    (b.accepted x mv mi).testPassed = b.testPassed ∧ (b.accepted x mv mi).sw = b.sw ∧ (b.accepted x mv mi).failA = b.failA ∧
    (b.accepted x mv mi).failB = b.failB ∧ (b.accepted x mv mi).latched = b.latched := by
  unfold BelayLane.accepted
  dsimp only
  split <;> exact ⟨rfl, rfl, rfl, rfl, rfl, rfl⟩

/-- A close at levels within R139 begins its gate ramp. -/
theorem State.closeAt_ramps (mv mi : Nat) (hl : levelsOk ((s.lane l).belay.accepted (s.lane l) mv mi) = true)
    (hp : (s.lane l).belay.testPassed = true) (hsw : (s.lane l).belay.sw = 0) (ha : closeAllowed s l = true)
    (hA : (s.lane l).belay.failA = false) (hB : (s.lane l).belay.failB = false) (ht : (s.group (groupOf l)).thermShut = false) :
    ((s.closeAt l mv mi).lane l).belay.settling = false ∧ ((s.closeAt l mv mi).lane l).belay.sw = 1 := by
  obtain ⟨k1, k2, k3, k4, k5, k6⟩ := (s.lane l).belay.accepted_keeps (s.lane l) mv mi
  rw [State.closeAt_eq, State.tryRamp_ramps]
  · simp [k1]
  · simpa using hl
  · simpa [k2] using hp
  · simpa using k1
  · simpa [k3] using hsw
  · rwa [closeAllowed_modBelay s l _ k6]
  · simpa [k4] using hA
  · simpa [k5] using hB
  · simpa using ht

/-- A close at levels beyond R139 waits. -/
theorem State.closeAt_waits (mv mi : Nat) (hl : levelsOk ((s.lane l).belay.accepted (s.lane l) mv mi) = false) :
    (s.closeAt l mv mi).lane l = { s.lane l with belay := (s.lane l).belay.accepted (s.lane l) mv mi } := by
  rw [State.closeAt_eq, State.tryRamp_waits _ _ (by simpa using hl), State.lane_modBelay]

@[simp] theorem ConvLane.retarget_on (c : ConvLane) (v : BitVec 14) : (c.retarget v).on = c.on := by
  unfold ConvLane.retarget
  dsimp only
  split <;> rfl
@[simp] theorem ConvLane.retarget_soft (c : ConvLane) (v : BitVec 14) : (c.retarget v).soft = c.soft := by
  unfold ConvLane.retarget
  dsimp only
  split <;> rfl

/-- The stage on a die that is up starts softly at the current that Rp offers (R140, R184). -/
theorem State.softStart_shows (h : dieUp s l = true) : ((s.softStart l).lane l).conv.on = true ∧ ((s.softStart l).lane l).conv.soft = true ∧
    ((s.softStart l).lane l).belay = (s.lane l).belay ∧ fld ((s.softStart l).lane l).cfg.convIset 9 0 = Min.min (s.lane l).cfg.rpCurrent 700 ∧
    ((s.softStart l).group (groupOf l)).leRun = true := by
  have hmin : Min.min (s.lane l).cfg.rpCurrent 700 < 1024 := by omega
  rw [State.softStart, if_neg (by simp [h])]
  refine ⟨?_, ?_, ?_, ?_, ?_⟩
  · simp [State.setFwd, State.setVset, State.runEngine, ConvLane.cleared]
  · simp [State.setFwd, State.setVset, State.runEngine]
  · simp [State.setFwd, State.setVset, State.runEngine]
  · simp only [State.setFwd, State.setVset, State.lane_modConv, State.lane_modCfg]
    rw [fld_setFld_same (by decide) (by decide)]
    exact Nat.mod_eq_of_lt hmin
  · simp [State.setFwd, State.setVset, State.runEngine]

/-- The stage on a die that is up starts in reverse where a limit stands (R189). -/
theorem State.reverseStart_shows (h : dieUp s l = true) (hr : (s.lane l).conv.revEff ≠ 0) : ((s.reverseStart l).lane l).conv.on = true ∧
    ((s.reverseStart l).lane l).conv.revStart = true ∧ ((s.reverseStart l).lane l).belay = (s.lane l).belay ∧
    ((s.reverseStart l).group (groupOf l)).leRun = true := by
  rw [State.reverseStart, if_neg hr, if_neg (by simp [h])]
  simp [State.runEngine, ConvLane.cleared]

end

/-- Settles O49: a close goes on where its test and its levels allow it, and its ends are those of the laws above. -/
theorem belayCloses : Obligations.BelayCloses := by
  unfold Obligations.BelayCloses
  intro l r mv mi s
  refine ⟨?_, ?_, ?_, ?_, ?_, ?_, ?_, ?_, ?_, ?_, ?_, ?_, ?_, ?_, ?_, ?_, ?_, ?_, ?_⟩
  · intro ht hw ha hb ho
    refine ⟨_, (if_neg (by simp [ht, hw])).trans (if_pos (by rw [ha, hb, ho]; rfl)), ?_⟩
    simp only [State.lane_modBelay, State.setFails_belay, ha, hb]
    exact ⟨trivial, trivial, trivial, rfl, rfl, trivial, State.onlyLanePosts_of_erase (by simp)⟩
  · intro ht hw hf ho
    have hn : ¬((r.aRef && r.aPol && (r.bRef && r.bPol) && r.othersPass) = true) := by
      rcases hf with h | h | h <;> simp [h]
    refine ⟨_, (if_neg (by simp [ht, hw])).trans (if_neg hn), ?_⟩
    obtain ⟨h1, h2, h3, h4, h5, h6, h7⟩ := (s.setFails l (!(r.aRef && r.aPol)) (!(r.bRef && r.bPol))).trip_shows l 10 false false
      (by rw [State.setFails_belay]; exact ho)
    obtain ⟨-, hA, hB, -, -⟩ := (s.setFails l (!(r.aRef && r.aPol)) (!(r.bRef && r.bPol))).trip_keeps l 10 false false
    simp only [State.setFails_belay] at hA hB
    have he : State.erase ((s.setFails l (!(r.aRef && r.aPol)) (!(r.bRef && r.bPol))).trip l 10 false false) 2 l = s.erase 2 l := by simp
    generalize (s.setFails l (!(r.aRef && r.aPol)) (!(r.bRef && r.bPol))).trip l 10 false false = u at *
    simp only [State.lane_modBelay]
    exact ⟨h1, h2, h3, h4, h5, h6, h7, hA, hB, trivial, State.onlyLaneLogs_of_erase (by simpa using he)⟩
  · intro h
    exact if_pos (by simpa using h)
  · intro hw hv hlo hhi hp hsw ha hA hB ht
    refine ⟨_, if_pos (by simp [hsw, hp]), ?_⟩
    obtain ⟨h1, h2⟩ := s.closeAt_ramps l mv mi (by simp [levelsOk, BelayLane.accepted, BelayLane.levels, hw, hv, hlo, hhi]) hp hsw ha hA hB ht
    exact ⟨h1, h2, State.onlyLane_of_erase (by simp)⟩
  · intro hw hd hv hi hp hsw ha hA hB ht
    refine ⟨_, if_pos (by simp [hsw, hp]), ?_⟩
    obtain ⟨h1, h2⟩ := s.closeAt_ramps l mv mi (by simp [levelsOk, BelayLane.accepted, BelayLane.levels, hw, hd]; omega) hp hsw ha hA hB ht
    exact ⟨h1, h2, State.onlyLane_of_erase (by simp)⟩
  · intro hw hv hp hsw
    refine ⟨_, if_pos (by simp [hsw, hp]), ?_⟩
    have hb := s.closeAt_waits l mv mi (by
      have : 800 < mv ∨ 5500 < mi := hv
      simp only [levelsOk, BelayLane.accepted, BelayLane.levels, hw, if_true]
      rcases hv with h | h <;> simp [h])
    dsimp only
    rw [hb]
    simp only [BelayLane.accepted, BelayLane.levels, hw, if_true]
    exact ⟨trivial, hsw, trivial, trivial, State.onlyLane_of_erase (by simp)⟩
  · intro hsw ht hA
    have hrun : s.testB l = (s.modBelay l fun b => { b with stest := 2, settling := true }).testFails l false (!passB (s.lane l) (s.lane l).belay.test) :=
      if_neg (by simp [hA])
    refine ⟨_, (if_neg (by simp [hsw])).trans (if_pos (by simp [hsw, ht])), ?_⟩
    rw [hrun]
    simp only [State.testFails_belay _ l false _ rfl, State.lane_modBelay]
    exact ⟨trivial, trivial, hsw, hA.symm, trivial, State.onlyLaneLogs_of_erase (by simp)⟩
  · intro hsw ht hA
    have hrun : s.testB l = s.modBelay l fun b => { b with stest := 0, settling := false } := if_pos hA
    refine ⟨_, (if_neg (by simp [hsw])).trans (if_pos (by simp [hsw, ht])), ?_⟩
    rw [hrun]
    simp only [State.lane_modBelay]
    exact ⟨trivial, trivial, hsw, hA, trivial, State.onlyLane_of_erase (by simp)⟩
  · intro hsw ht
    refine ⟨_, (if_neg (by simp [hsw])).trans ((if_neg (by simp [ht])).trans (if_pos (by simp [hsw, ht]))), ?_⟩
    simp only [State.lane_modBelay]
    exact ⟨trivial, trivial, hsw, State.onlyLane_of_erase (by simp)⟩
  · intro h1 h2
    refine (if_neg ?_).trans ((if_neg ?_).trans (if_neg ?_)) <;> rw [Bool.and_eq_true, decide_eq_true_eq]
    · rintro ⟨hsw, hp⟩
      exact h1.elim (fun h => h hsw) fun h => by simp [h] at hp
    · rintro ⟨hsw, ht⟩
      exact h2.elim (fun h => h hsw) fun h => h.1 (of_decide_eq_true ht)
    · rintro ⟨hsw, ht⟩
      exact h2.elim (fun h => h hsw) fun h => h.2 (of_decide_eq_true ht)
  · intro hsw hw hup
    refine ⟨_, (if_pos hsw).trans (by rw [hw]), ?_⟩
    obtain ⟨hon, hsoft, hb, hi, hrun⟩ := (s.modBelay l (BelayLane.closed s.dev.dtime)).softStart_shows l hup
    refine ⟨?_, hon, hsoft, ?_, hi.trans (by simp), hrun, State.onlyLanePosts_of_erase (by simp)⟩ <;>
      exact (congrArg _ hb).trans (by simp [BelayLane.closed])
  · intro hsw hw hc hr hup
    refine ⟨_, (if_pos hsw).trans (by rw [hw]; exact if_pos hc), ?_⟩
    obtain ⟨hon, hrev, hb, hrun⟩ := (s.modBelay l (BelayLane.closed s.dev.dtime)).reverseStart_shows l hup (by simpa using hr)
    refine ⟨?_, hon, hrev, ?_, hrun, State.onlyLanePosts_of_erase (by simp)⟩ <;> exact (congrArg _ hb).trans (by simp [BelayLane.closed])
  · intro h
    exact if_neg h
  · intro hw hsw hp hn hv ht
    refine ⟨_, (if_pos (by simp [hw, hsw, hp, hn])).trans ((if_pos hv).trans (if_neg (by omega))), ?_⟩
    simp only [State.lane_modBelay]
    exact ⟨trivial, trivial, hsw, State.onlyLane_of_erase (by simp)⟩
  · intro hw hsw hp hn hv ht
    refine ⟨_, (if_pos (by simp [hw, hsw, hp, hn])).trans ((if_pos hv).trans (if_pos (by omega))), ?_⟩
    obtain ⟨h1, h2⟩ := State.errorRecovery_cc (s.modBelay l fun b => { b with backfeed := true, voutHigh := true, backfeedTries := b.backfeedTries + 1 }) l
    exact ⟨h1, h2, State.onlyLaneLogs_of_erase (by simp)⟩
  · intro hw hsw hp hn hv hi hd ha hA hB ht
    refine ⟨_, (if_pos (by simp [hw, hsw, hp, hn])).trans (if_neg (by omega)), ?_⟩
    have hr := (s.modBelay l fun b => { b with voutHigh := false }).tryRamp_ramps l (by simp [levelsOk, hw, hi, hd]) (by simpa using hp) (by simpa using hn)
      (by simpa using hsw) (by rwa [closeAllowed_modBelay s l _ rfl]) (by simpa using hA) (by simpa using hB) ht
    rw [hr]
    exact ⟨by simp, State.onlyLane_of_erase (by simp)⟩
  · intro h
    refine if_neg ?_
    simp only [Bool.and_eq_true, decide_eq_true_eq, Bool.not_eq_true', not_and]
    rintro ⟨⟨hw, hsw⟩, hp⟩
    simpa [hw, hsw, hp] using h
  · intro hr hb ha hsw
    have hl : (s.lane l).belay.latched = false := by
      simp only [closeAllowed, Bool.and_eq_true, Bool.not_eq_true'] at ha
      exact ha.1.2
    refine ⟨_, if_pos (by simp [hr, hb, hl]), ?_⟩
    obtain ⟨hw, hc⟩ := (s.modBelay l fun b => { b with closeRetry := false }).askClose_asks l (if (s.lane l).cc.attachSrc then .asSource else .asSink)
      (by rwa [closeAllowed_modBelay s l _ rfl]) (by simpa using hsw)
    exact ⟨hc.trans (by simp), hw, State.onlyLane_of_erase (by simp)⟩
  · intro h
    exact if_neg (by rcases h with h | h | h <;> simp [h])

end Sys2Proof.Machine

/-! SUPPORT. What the base image's answers leave of the swap bits, and what PS_RDY and a refusal bring (R108, R113, R124). -/
namespace Sys2Proof.Machine

section
variable {s : State} {l : LaneId} {f : Frame}

/-- The lane behind a message that lane hardware acts on and the base image takes out of the FIFO. -/
theorem State.receive_hears (h : s.hears l f) (hext : isExtended f.header = false) (hsoft : isCtl f 13 = false) (hbist : isData f 3 = false) :
    ∃ u, s.receive l f = (.stored, u) ∧ u.takeServed l = s.heard l f ∧ (u.lane l).swap = (s.lane l).swap := by
  obtain ⟨hatt, hb, -, -, hq, hfifo, hre, hs, hsop, hcrc, hid⟩ := h
  have har : (s.lane l).pd.arActive = false := by simpa using (Bool.and_eq_true_iff.1 hs).1
  refine ⟨_, State.receive_stored hatt (by simp [hb]) hq hre (by simp [hfifo]) (by simp [har]) hsop hcrc hid hext hsoft hbist, ?_, by simp [Lane.heard, Lane.acked]⟩
  rw [State.takeServed, serves_postLane, serves_setLane s l _ (by rfl), if_pos hs]
  simp only [State.takeNewest, State.modPd, State.modLane, State.setLane_postLane, State.setLane_setLane, State.postLane_lane, State.lane_setLane, hfifo]
  rfl

/-- A control message that lane hardware acts on, and that the base image takes out of the FIFO. -/
theorem State.receive_ctl {n : Nat} (h : s.hears l f) (hd : isCtl f n = true) (hn : n ≠ 13) :
    ∃ u, s.receive l f = (.stored, u) ∧ u.takeServed l = s.heard l f ∧ (u.lane l).swap = (s.lane l).swap := by
  obtain ⟨hx, hdata, hk⟩ := isCtl_plain hd
  exact State.receive_hears h hx (hk 13 hn.symm) (hdata 3)

/-- A lane that hears a message has room for an answer of the base image that is no write of the pack record (R57, R58). -/
theorem State.takes_heard (h : s.hears l f) {g : Frame} (hg : g.sop = .sop) (hd : isData g 15 = false) : (s.heard l f).takes l g := by
  obtain ⟨-, -, hhr, -, hq, -⟩ := h
  exact ⟨by simp [Lane.heard, Lane.acked, hq], by simp [Lane.heard, Lane.acked, PdLane.hrBusy, hhr], hg, .inr (isPackWrite_staged _ l false g hd)⟩

end

section
variable (s : State) (l : LaneId) (m : TxSlot) (ams : Bool) (f : Frame)

theorem State.swapSent_queue : ((s.swapSent l m).lane l).pd.queue = (s.lane l).pd.queue := by
  unfold State.swapSent
  repeat' split
  all_goals simp

variable {s l f}

/-- A message that the base image queues on a lane with nothing queued stands alone in the queue (R57). -/
theorem State.imageSend_says (h : s.takes l f) (hq : (s.lane l).pd.queue = []) : ((s.imageSend l ams f).lane l).says [f] := by
  rw [State.imageSend_taken ams h]
  split
  · rw [State.lane_modSwap, Lane.says, State.swapSent_queue, State.lane_setLane, Lane.sends, hq]
    rfl
  · rw [Lane.says, State.swapSent_queue, State.lane_setLane, Lane.sends, hq]
    rfl

theorem State.imageSend_queue (h : s.takes l f) (hq : (s.lane l).pd.queue = []) :
    ((s.imageSend l ams f).lane l).pd.queue = [(s.lane l).slotOf ams f] := by
  rw [State.imageSend_taken ams h]
  split
  · rw [State.lane_modSwap, State.swapSent_queue, State.lane_setLane, Lane.sends, hq]
    rfl
  · rw [State.swapSent_queue, State.lane_setLane, Lane.sends, hq]
    rfl

/-- The Accept that the base image queues is to the last message that waits for its answer (R66). -/
theorem State.imageSend_accept {g : Frame} (h : s.takes l (ctl 3)) (hg : ((s.lane l).pd.unanswered.filter fun f => f.sop = .sop).getLast? = some g)
    (hreq : (isData g 2 || isData g 9) = false) :
    ((s.imageSend l false (ctl 3)).lane l).swap = if isCtl g 10 then { (s.lane l).swap with prAccept := true }
      else if isCtl g 9 && (s.lane l).swap.state = 0 then { (s.lane l).swap with swapAccept := true, state := 6, frsArm := false }
      else if isCtl g 11 then { (s.lane l).swap with swapAccept := true } else (s.lane l).swap := by
  rw [State.imageSend_taken false h]
  have hm : slotIs ((s.lane l).slotOf false (ctl 3)) 3 = true := by
    rw [slotIs_slotOf _ _ _ rfl]
    decide
  simp only [State.swapSent, State.lane_setLane, Lane.sends, Bool.false_and, Bool.false_eq_true, if_false, hg, hm, hreq, Bool.not_true]
  split
  · simp
  · split
    · simp
    · split <;> simp

/-- The last of the messages that wait for an answer is one just heard, where the auto-responder would answer it. -/
theorem Lane.heard_last (x : Lane) (now : Nat) (rs : List RxSlot) (hn : arNamed x f = true) (hsop : f.sop = .sop) :
    ((x.heard now f rs).pd.unanswered.filter fun f => f.sop = .sop).getLast? = some f := by
  simp [Lane.heard, hn, List.filter_append, hsop]

end

section
variable (s : State) (l : LaneId) (ams : Bool) (f : Frame)

/-- SEND of a message that is no Accept reaches ams_hold alone of the swap bits. -/
theorem State.sendStaged_swap (h : isCtl { header := (s.lane l).cfg.txData[0].truncate 16 } 3 = false) :
    ∃ b, ((s.sendStaged l).lane l).swap = { (s.lane l).swap with amsHold := b } := by
  have hm (k : Sop) (e a : Bool) : slotIs { tag := (s.lane l).pd.nextTag, sop := k, ext := e, ams := a, data := (s.lane l).cfg.txData.toList } 3 = false := by
    have hh : isCtl (slotFrame { tag := (s.lane l).pd.nextTag, sop := k, ext := e, ams := a, data := (s.lane l).cfg.txData.toList }) 3 = false := by
      simpa [isCtl, slotFrame] using h
    rw [slotIs, hh, Bool.and_false]
  unfold State.sendStaged
  dsimp only
  rw [State.swapSent_other (hm _ _ _)]
  split
  · exact ⟨(s.lane l).swap.amsHold, by simp [State.endMessage]⟩
  · split
    · exact ⟨true, by simp⟩
    · exact ⟨(s.lane l).swap.amsHold, by simp⟩

theorem State.imageSend_swap (h : isCtl f 3 = false) : ∃ b, ((s.imageSend l ams f).lane l).swap = { (s.lane l).swap with amsHold := b } := by
  obtain ⟨b, hb⟩ := (s.modCfg l fun c => c.staged ams f).sendStaged_swap l (by
    rw [State.lane_modCfg, LaneCfg.staged, stageWords_header]
    exact h)
  exact ⟨b, hb.trans (by rw [State.lane_modCfg])⟩

/-- An extended message of the base image is no Accept. -/
theorem State.imageSendExt_swap (type : Nat) (payload : List Byte) (ht : type < 32) :
    ∃ b, ((s.imageSendExt l ams type payload).lane l).swap = { (s.lane l).swap with amsHold := b } := by
  unfold State.imageSendExt
  dsimp only
  generalize hu : (if (s.lane l).pd.queue.any (·.ext) then s else s.modPd l fun p => { p with txBuf := memWriteList p.txBuf 0 payload }) = u
  have hswap : (u.lane l).swap = (s.lane l).swap := by
    rw [← hu]
    split <;> simp
  have hx : isExtended (BitVec.truncate 16 (BitVec.ofNat 32 ((mkHeader type 0).toNat + 0x8000 + 65536 * (0x8000 + payload.length)))) = true := by
    have hm : (mkHeader type 0).toNat = 0x80 + type := by
      rw [mkHeader, BitVec.toNat_ofNat]
      omega
    rw [hm, isExtended, BitVec.getLsbD_eq_getElem (by decide), BitVec.getElem_eq_testBit_toNat]
    simp only [BitVec.truncate_eq_setWidth, BitVec.toNat_setWidth, BitVec.toNat_ofNat, Nat.testBit_eq_decide_div_mod_eq, decide_eq_true_eq]
    omega
  obtain ⟨b, hb⟩ := (u.modCfg l fun c => { c with
    txData := (Vector.replicate 8 0).set 0 (BitVec.ofNat 32 ((mkHeader type 0).toNat + 0x8000 + 65536 * (0x8000 + payload.length))),
    txCtrl := packFields [(b2n ams, 5), (1, 4)] }).sendStaged_swap l (by rw [State.lane_modCfg, isCtl]; exact (congrArg (fun b => !b && _ && _) hx).trans rfl)
  exact ⟨b, hb.trans (by rw [State.lane_modCfg, hswap])⟩

theorem isCtl_dataMsg (os : List Word) : isCtl (dataMsg 1 os) 3 = false := by
  have h : msgType (mkHeader 1 os.length) = 1 := by
    simp only [msgType, mkHeader, BitVec.toNat_ofNat]
    omega
  simp [isCtl, dataMsg, h]

theorem State.sendCapsNow_swap : ∃ b, ((s.sendCapsNow l).lane l).swap = { (s.lane l).swap with amsHold := b } := by
  unfold State.sendCapsNow State.sendCaps
  dsimp only
  split
  · exact ⟨(s.lane l).swap.amsHold, by simp⟩
  · split
    · obtain ⟨b, hb⟩ := (s.modCon l fun c => { c with capsCeil := (s.lane l).budget.ceil, holdT := none }).imageSendExt_swap l true 17 _ (by decide)
      exact ⟨b, hb.trans (by simp)⟩
    · obtain ⟨b, hb⟩ := (s.modCon l fun c => { c with capsCeil := (s.lane l).budget.ceil, holdT := none }).imageSend_swap l (s.lane l).con.valid _ (isCtl_dataMsg _)
      exact ⟨b, hb.trans (by simp)⟩

theorem State.startDiscovery_swap (e : Bool) : ∃ b, ((s.startDiscovery l e).lane l).swap = { (s.lane l).swap with amsHold := b } := by
  obtain ⟨b, hb⟩ := (s.modCc l fun c => { c with discRun := true, discTries := 1, discEpr := e }).imageSend_swap l false cableIdentity (by decide)
  exact ⟨b, hb.trans (by simp)⟩

/-- What follows an own VCONN_Swap leaves the swap bits but for ams_hold and the note that one was tried (R124). -/
theorem State.firstCaps_swap : ∃ b t, ((s.firstCaps l).lane l).swap = { (s.lane l).swap with amsHold := b, vcsTried := t } := by
  unfold State.firstCaps
  dsimp only
  split
  · exact ⟨(s.lane l).swap.amsHold, (s.lane l).swap.vcsTried, rfl⟩
  · split
    · obtain ⟨b, hb⟩ := (s.modSwap l fun w => { w with vcsTried := true }).imageSend_swap l true (ctl 11) (by decide)
      exact ⟨b, true, hb.trans (by simp)⟩
    · split
      · obtain ⟨b, hb⟩ := s.startDiscovery_swap l false
        exact ⟨b, _, hb⟩
      · obtain ⟨b, hb⟩ := s.sendCapsNow_swap l
        exact ⟨b, _, hb⟩

theorem State.amsEnd_swap : ∃ b, ((s.amsEnd l).lane l).swap = { (s.lane l).swap with amsHold := b } := by
  unfold State.amsEnd State.amsFail
  dsimp only
  split
  · split
    · exact ⟨_, rfl⟩
    · exact ⟨false, by simp⟩
  · exact ⟨_, rfl⟩

theorem State.baseLimits_con : ∃ b, ((s.baseLimits l).lane l).con = { (s.lane l).con with ilimOwed := b } := by
  unfold State.baseLimits
  dsimp only
  split
  · exact ⟨_, by rw [State.lane_modCon]⟩
  · split
    · exact ⟨_, by rw [State.writeIlim, State.lane_modCfg, State.lane_modCon]⟩
    · split
      · exact ⟨_, by rw [State.writeIlim, State.lane_modCfg, State.lane_modCon]⟩
      · exact ⟨_, by rw [State.setRev, State.lane_modConv, State.lane_modCfg, State.writeIlim, State.lane_modCfg, State.lane_modCon]⟩

/-- The end of an attach leaves the last outcome of a swap, and ends the swap itself (R106). -/
theorem State.leaveAttached_swap : ((s.leaveAttached l).lane l).swap.last = (s.lane l).swap.last ∧ ((s.leaveAttached l).lane l).swap.state = 0 := by
  have h1 : ((s.loadOff l).lane l).swap = (s.lane l).swap := by
    unfold State.loadOff
    split <;> simp [State.loadChanges]
  have h2 : (((s.loadOff l).endUrkai l).lane l).swap.last = (s.lane l).swap.last := by
    rw [State.endUrkai, State.lane_modSwap, State.lane_modCon]
    unfold State.voidArm
    split <;> simp [h1]
  have h3 : ((((s.loadOff l).endUrkai l).abortQueue l).lane l).swap = (((s.loadOff l).endUrkai l).lane l).swap := by
    unfold State.abortQueue
    dsimp only
    rw [State.lane_modPd]
    split
    · rfl
    · exact State.forEach_same (fun u => (u.lane l).swap) _ (fun u m => by simp [State.endMessage]) _ _
  unfold State.leaveAttached
  simp [State.openPath, State.stopStage, State.flushRx, h3, h2]

/-- Error recovery during a swap ends it with outcome 8 and opens the path (R43, R106). -/
theorem State.errorRecovery_swap (h : (s.lane l).swap.state ≠ 0) : ((s.errorRecovery l).lane l).swap.last = 8 ∧
    ((s.errorRecovery l).lane l).swap.state = 0 ∧ ((s.errorRecovery l).lane l).belay.sw = 0 := by
  unfold State.errorRecovery
  dsimp only
  rw [if_pos h]
  have h1 : (((((s.log 0x0104 .lane l.val (txStatus (s.lane l).pd) 0 0).endSwap l 8).packHold l).countFault l .proto).2.lane l).swap.last = 8 := by
    obtain ⟨f, hf, -⟩ := (((s.log 0x0104 .lane l.val (txStatus (s.lane l).pd) 0 0).endSwap l 8).packHold l).countFault_lane l .proto
    rw [hf]
    unfold State.packHold
    split <;> simp [State.endSwap]
  generalize State.countFault _ l .proto = c at h1 ⊢
  obtain ⟨last, u⟩ := c
  dsimp only at h1 ⊢
  obtain ⟨k1, k2⟩ := u.leaveAttached_swap l
  have k3 := (u.leaveAttached_belay l).1
  unfold State.detachLane
  generalize u.leaveAttached l = v at *
  split <;> simp [k1, k2, k3, h1]

end

end Sys2Proof.Machine

/-! Role swaps (O46). -/
namespace Sys2Proof.Machine

section
variable {s : State} {l : LaneId} {f : Frame}

theorem judgePrSwap_heard (now : Nat) (rs : List RxSlot) (x : Lane) : judgePrSwap (x.heard now f rs) = judgePrSwap x := rfl
theorem judgeDrSwap_heard (now : Nat) (rs : List RxSlot) (x : Lane) : judgeDrSwap (x.heard now f rs) = judgeDrSwap x := rfl

/-- R113: Wait. -/
theorem judgePrSwap_wait {x : Lane} (h : x.swap.state ≠ 0 ∨ x.con.armState = 1 ∨ x.con.armState = 2) : judgePrSwap x = .wait := if_pos (by simp; tauto)

theorem judgePrSwap_accept_idle {x : Lane} (h : judgePrSwap x = .accept) : x.swap.state = 0 ∧ x.pd.hrBusy = false := by
  unfold judgePrSwap at h
  split at h
  · cases h
  · next hn =>
    simp only [Bool.or_eq_true, decide_eq_true_eq, not_or, ne_eq, not_not, Bool.not_eq_true] at hn
    obtain ⟨⟨⟨hs, -⟩, -⟩, hb⟩ := hn
    exact ⟨hs, hb⟩

@[simp] theorem Lane.heard_queue (x : Lane) (now : Nat) (rs : List RxSlot) : (x.heard now f rs).pd.queue = x.pd.queue := rfl
@[simp] theorem Lane.heard_hrPhase (x : Lane) (now : Nat) (rs : List RxSlot) : (x.heard now f rs).pd.hrPhase = x.pd.hrPhase := rfl
@[simp] theorem Lane.heard_hwq (x : Lane) (now : Nat) (rs : List RxSlot) : (x.heard now f rs).pd.hwq = x.pd.hwq := rfl
@[simp] theorem Lane.heard_swap (x : Lane) (now : Nat) (rs : List RxSlot) : (x.heard now f rs).swap = x.swap := rfl

/-- A lane with nothing queued and no hard reset has room for a message that is no write of the pack record (R57, R58). -/
theorem State.takes_idle {g : Frame} (hq : (s.lane l).pd.queue = []) (hh : (s.lane l).pd.hrPhase = .idle) (hg : g.sop = .sop)
    (hd : isData g 15 = false) : s.takes l g :=
  ⟨by simp [hq], by simp [PdLane.hrBusy, hh], hg, .inr (isPackWrite_staged s l false g hd)⟩

/-- An answer of the base image that is no Accept stands alone in the queue and leaves the swap bits. -/
theorem State.imageSend_answers {g : Frame} (hq : (s.lane l).pd.queue = []) (hh : (s.lane l).pd.hrPhase = .idle) (hg : g.sop = .sop)
    (hd : isData g 15 = false) (ha : isCtl g 3 = false) :
    ((s.imageSend l false g).lane l).says [g] ∧ ((s.imageSend l false g).lane l).swap = (s.lane l).swap := by
  have ht := State.takes_idle hq hh hg hd
  refine ⟨State.imageSend_says false ht hq, ?_⟩
  rw [State.imageSend_queued false ht ha, State.lane_setLane, Lane.sends]
  simp

/-- The base image's Accept of a swap request just heard stands alone in the queue, and opens the swap in the swap bits (R113, R123, R124). -/
theorem State.imageSend_accepts (h : s.hears l f) (hn : isCtl f 10 = true ∨ isCtl f 9 = true ∨ isCtl f 11 = true) (g : SwapLane → SwapLane) :
    ((((s.heard l f).modSwap l g).imageSend l false (ctl 3)).lane l).says [ctl 3] ∧
    ((((s.heard l f).modSwap l g).imageSend l false (ctl 3)).lane l).swap = if isCtl f 10 then { g (s.lane l).swap with prAccept := true }
      else if isCtl f 9 && (g (s.lane l).swap).state = 0 then { g (s.lane l).swap with swapAccept := true, state := 6, frsArm := false }
      else if isCtl f 11 then { g (s.lane l).swap with swapAccept := true } else g (s.lane l).swap := by
  obtain ⟨-, -, hh, -, hq, -, -, -, hsop, -, -⟩ := h
  have ht : ((s.heard l f).modSwap l g).takes l (ctl 3) := State.takes_idle (by simpa using hq) (by simpa using hh) rfl (by decide)
  have har : arNamed (s.lane l) f = true := by
    rcases hn with h | h | h <;> simp [arNamed, hsop, h]
  have hdata : (isData f 2 || isData f 9) = false := by
    rcases hn with h | h | h <;> simp [(isCtl_plain h).2.1]
  refine ⟨State.imageSend_says false ht (by simpa using hq), ?_⟩
  rw [State.imageSend_accept ht (g := f) (by simpa using Lane.heard_last (s.lane l) s.dev.dtime [] har hsop) hdata]
  simp

/-- The lane's own request gives way to the partner's PR_Swap (R112). -/
def SwapLane.prAsked (r : SwapAnswer) (w : SwapLane) : SwapLane :=
  { w with prDropped := w.prDropped || w.ownPending, ownPending := false, prAccept := w.prAccept || decide (r = .accept) }

theorem execPrSwap_hears (h : s.hears l f) (hd : isCtl f 10 = true) {r : SwapAnswer} (hj : judgePrSwap (s.lane l) = r) :
    exec (.prSwap l f) s = .next (((s.heard l f).modSwap l (SwapLane.prAsked r)).answerSwap l r) := by
  obtain ⟨hx, hdata, hk⟩ := isCtl_plain hd
  refine congrArg Host.Outcome.next ((State.imageReceive_hears _ h hx (hk 13 (by decide)) (hdata 3)).trans ?_)
  rw [if_neg (by simp [hd])]
  dsimp only
  rw [State.heard_lane, judgePrSwap_heard, hj]
  rfl

/-- A PR_Swap that is not accepted draws its answer and ends a request of the lane's own (R112, R113). -/
theorem State.prSwap_answers (h : s.hears l f) {g : Frame} {r : SwapAnswer} (hg : g.sop = .sop) (hd : isData g 15 = false) (ha : isCtl g 3 = false)
    (hr : ∀ t : State, t.answerSwap l r = t.imageSend l false g) :
    ((((s.heard l f).modSwap l (SwapLane.prAsked r)).answerSwap l r).lane l).says [g] ∧
    ((((s.heard l f).modSwap l (SwapLane.prAsked r)).answerSwap l r).lane l).swap.ownPending = false ∧
    s.onlyLanePosts (((s.heard l f).modSwap l (SwapLane.prAsked r)).answerSwap l r) l := by
  obtain ⟨hs, hw⟩ := State.imageSend_answers (s := (s.heard l f).modSwap l (SwapLane.prAsked r)) (l := l) (by simpa using h.2.2.2.2.1)
    (by simpa using h.2.2.1) hg hd ha
  rw [hr]
  refine ⟨hs, ?_, State.onlyLanePosts_of_erase (by simp)⟩
  rw [hw, State.lane_modSwap]
  rfl

/-- R113: Reject. -/
theorem judgePrSwap_reject {x : Lane} (hs : x.swap.state = 0) (ha : x.con.armState = 0) (hh : x.pd.hrPhase = .idle)
    (h : bitOf x.cfg.swapCtrl 1 = false ∨ x.cfg.mode = 1 ∨ x.cfg.mode = 2 ∨ isPack x = false) : judgePrSwap x = .reject := by
  refine (if_neg (by simp [hs, ha, PdLane.hrBusy, hh])).trans (if_pos ?_)
  rcases h with h | h | h | h <;> simp [h]

/-- R113: Accept. -/
theorem judgePrSwap_accept {x : Lane} (hs : x.swap.state = 0) (ha : x.con.armState = 0) (hh : x.pd.hrPhase = .idle)
    (h1 : bitOf x.cfg.swapCtrl 1 = true) (h2 : x.cfg.mode ≠ 1) (h3 : x.cfg.mode ≠ 2) (h4 : isPack x = true) (h5 : x.swap.packHold = false)
    (h6 : x.swap.powerRole = false ∨ revIlim x.cfg ≠ 0) : judgePrSwap x = .accept := by
  refine (if_neg (by simp [hs, ha, PdLane.hrBusy, hh])).trans ((if_neg ?_).trans ((if_neg ?_).trans (if_neg (by simp [h5]))))
  · simp [h1, h2, h3, h4]
  · rcases h6 with h | h <;> simp [h]

theorem State.SameDies.setLane {r t : State} (h : r.SameDies t) (l : LaneId) (x : Lane) : r.SameDies (t.setLane l x) :=
  ⟨h.dev, h.sec, h.dieTemp, h.thermShut, h.linkOk⟩

theorem State.serves_modSwap (t : State) (l : LaneId) (g : SwapLane → SwapLane) : serves (t.modSwap l g) l = serves t l := serves_setLane t l _ rfl

/-- The end of a message sequence of the base image releases ams_hold where none of its messages opens another (R111). -/
theorem State.amsEnd_clears (t : State) (l : LaneId) (hs : serves t l = true) (hq : (t.lane l).pd.queue = [])
    (hh : (t.lane l).pd.hwq.any (·.ams) = false) : t.amsEnd l = t.modSwap l fun w => { w with amsHold := false } := by
  rw [State.amsEnd, if_pos hs]
  exact if_neg (by simp [hq, hh])

/-- The partner's PS_RDY in a swap to sink (R114 step 5, R116). -/
theorem State.partnerReady_source (t : State) (l : LaneId) (hs : (t.lane l).swap.state = 1) (hr : (t.lane l).swap.presentsRp = false) :
    (∃ b, ((t.partnerReady l).lane l).swap =
      { (t.lane l).swap with powerRole := false, frsArm := false, state := 0, last := 1, evt := true, amsHold := b }) ∧
    ∃ b, ((t.partnerReady l).lane l).con =
      { (t.lane l).con.clearContract with kaKind := 0, eprMode := false, eprEntry := 0, offer := [], ilimOwed := b } := by
  unfold State.partnerReady
  dsimp only
  rw [if_pos (by simp [hs, hr])]
  generalize hu : State.endSwap _ l 1 = u
  obtain ⟨b, hb⟩ := (u.baseLimits l).amsEnd_swap l
  obtain ⟨c, hc⟩ := u.baseLimits_con l
  refine ⟨⟨b, ?_⟩, c, ?_⟩
  · rw [hb, State.baseLimits_swap, ← hu]
    simp [State.endSwap]
  · rw [State.amsEnd_con, hc, ← hu]
    simp [State.endSwap]

/-- An own request that Reject or Wait has ended, with its outcome (R108, R115, R124). -/
def State.requestEnds (t : State) (l : LaneId) (o : BitVec 4) : State :=
  ((t.modSwap l fun w => { w with ownPending := false, ownVcs := false }).endSwap l o).amsEnd l

theorem execSwapRefused_hears (h : s.hears l f) (hd : isCtl f 4 = true ∨ isCtl f 12 = true)
    (ho : (s.lane l).swap.ownPending = true ∨ (s.lane l).swap.ownVcs = true) :
    exec (.swapRefused l f) s = .next (if (s.lane l).swap.ownVcs then ((s.heard l f).requestEnds l (if isCtl f 4 then 5 else 6)).firstCaps l
      else (s.heard l f).requestEnds l (if isCtl f 4 then 5 else 6)) := by
  obtain ⟨u, hu, ht, hw⟩ : ∃ u, s.receive l f = (.stored, u) ∧ u.takeServed l = s.heard l f ∧ (u.lane l).swap = (s.lane l).swap :=
    hd.elim (fun hd => State.receive_ctl h hd (by decide)) fun hd => State.receive_ctl h hd (by decide)
  show execSwapRefused l f s = _
  rw [execSwapRefused, hu]
  dsimp only
  rw [hw, ht, if_pos (by rcases hd with h1 | h1 <;> rcases ho with h2 | h2 <;> simp [h1, h2])]
  rfl

theorem State.requestEnds_swap (t : State) (o : BitVec 4) : ∃ b, ((t.requestEnds l o).lane l).swap =
    { (t.lane l).swap with ownPending := false, ownVcs := false, state := 0, last := o, evt := true, amsHold := b } := by
  obtain ⟨b, hb⟩ := ((t.modSwap l fun w => { w with ownPending := false, ownVcs := false }).endSwap l o).amsEnd_swap l
  exact ⟨b, hb.trans (by simp [State.endSwap])⟩

theorem execPsRdy_hears (h : s.hears l f) (hd : isCtl f 6 = true) : exec (.psRdy l f) s = .next ((s.heard l f).partnerReady l) := by
  obtain ⟨u, hu, ht, -⟩ := State.receive_ctl h hd (by decide)
  show execPsRdy l f s = _
  rw [execPsRdy, hu]
  dsimp only
  rw [if_pos hd, ht]

end

/-- Settles O46: each request draws the answer that its table names, and the sequences go on as R114, R115 and R124 say. -/
theorem roleSwaps : Obligations.RoleSwaps := by
  unfold Obligations.RoleSwaps
  intro a l f s
  refine ⟨?_, ?_, ?_, ?_, ?_, ?_, ?_, ?_, ?_, ?_, ?_, ?_, ?_, ?_, ?_, ?_, ?_, ?_, ?_, ?_, ?_, ?_, ?_, ?_⟩
  · intro ha hl hs
    exact ⟨_, State.byLaneWrite_served (f := fun st => st.prsReq l) ha hl, if_pos hs⟩
  · intro ha hl hj hsv hatt ho hp hd hq
    obtain ⟨hs, hb⟩ := judgePrSwap_accept_idle hj
    refine ⟨_, State.byLaneWrite_served (f := fun st => st.prsReq l) ha hl, ?_⟩
    have hsend : s.prsReq l = (s.modSwap l fun w => { w with prDropped := false }).imageSend l true (ctl 10) := by
      refine (if_neg (by simpa using hs)).trans (if_pos ?_)
      rcases hd with h | h <;> simp [hsv, hatt, hj, ho, hp, hq, h]
    have ht : (s.modSwap l fun w => { w with prDropped := false }).takes l (ctl 10) :=
      ⟨by simp [hq], by simpa using hb, rfl, .inr (isPackWrite_staged _ l false _ (by decide))⟩
    dsimp only
    rw [hsend]
    refine ⟨State.imageSend_says true ht (by simpa using hq), ?_, State.onlyLane_of_erase ?_⟩
    · rw [State.imageSend_queued true ht (by decide), State.lane_setLane, Lane.sends, State.lane_modSwap]
      cases (s.lane l).swap.powerRole <;> simp
    · rw [State.imageSend_queued true ht (by decide)]
      simp
  · intro ha hl hs hd hb
    refine (State.byLaneWrite_served (f := fun st => st.prsReq l) ha hl).trans (congrArg _ ?_)
    exact (if_neg (by simp [hs])).trans (if_neg (by simp [hd, hb]))
  · intro h hd hw
    exact ⟨_, execPrSwap_hears h hd (judgePrSwap_wait hw), State.prSwap_answers h (g := ctl 12) rfl (by decide) (by decide) fun _ => rfl⟩
  · intro h hd hs ha hn
    have hpk : bitOf (s.lane l).cfg.swapCtrl 1 = false ∨ (s.lane l).cfg.mode = 1 ∨ (s.lane l).cfg.mode = 2 ∨ isPack (s.lane l) = false :=
      hn.imp_right (Or.imp_right (Or.imp_right fun h => by simp [isPack, ContractLane.vdo, h]))
    exact ⟨_, execPrSwap_hears h hd (judgePrSwap_reject hs ha h.2.2.1 hpk), State.prSwap_answers h (g := ctl 4) rfl (by decide) (by decide) fun _ => rfl⟩
  · intro h hd hs ha hc h1 h2 hpk hph hr
    refine ⟨_, execPrSwap_hears h hd (judgePrSwap_accept hs ha h.2.2.1 hc h1 h2 hpk hph hr), ?_⟩
    obtain ⟨hsays, hw⟩ := State.imageSend_accepts h (.inl hd) (SwapLane.prAsked .accept)
    dsimp only [State.answerSwap]
    refine ⟨hsays, ?_, ?_, State.onlyLanePosts_of_erase (by simp)⟩ <;> rw [hw, if_pos hd]
    rfl
  · intro hp hatt hs hh
    have hgo : ((((s.lane l).swap.prAccept || (s.lane l).swap.ownPending) && (s.lane l).cc.attached && (s.lane l).swap.state = 0 && !(s.lane l).pd.hrBusy) : Bool) = true := by
      rcases hp with h | h <;> simp [h, hatt, hs, PdLane.hrBusy, hh]
    by_cases hr : (s.lane l).swap.powerRole = true
    · refine ⟨_, (if_pos hgo).trans (if_pos hr), ?_⟩
      simp only [State.lane_modSwap, State.lane_modTally, hr]
      exact ⟨rfl, trivial, fun h => absurd h (by decide), State.onlyLane_of_erase (by simp)⟩
    · refine ⟨_, (if_pos hgo).trans (if_neg hr), ?_⟩
      simp only [State.stopStage, State.lane_modConv, State.lane_modSwap, State.lane_modTally, hr]
      exact ⟨rfl, trivial, fun _ => rfl, State.onlyLane_of_erase (by simp)⟩
  · intro h hd ho hv hw
    refine ⟨_, execSwapRefused_hears h (.inl hd) (.inl ho), ?_⟩
    have hcl := (((s.heard l f).modSwap l fun w => { w with ownPending := false, ownVcs := false }).endSwap l 5).amsEnd_clears l
      (by simpa [State.endSwap, State.serves_modSwap] using h.2.2.2.2.2.2.2.1) (by simp [State.endSwap, h.2.2.2.2.1]) (by simpa [State.endSwap] using hw)
    simp only [hv, hd, if_true, Bool.false_eq_true, if_false, State.requestEnds, hcl]
    simp [State.endSwap, State.onlyLanePosts_of_erase]
  · intro h hd ho
    have h4 : isCtl f 4 = false := (isCtl_plain hd).2.2 4 (by decide)
    refine ⟨_, execSwapRefused_hears h (.inr hd) (.inl ho), ?_⟩
    obtain ⟨b, hb⟩ := (s.heard l f).requestEnds_swap (l := l) 6
    simp only [h4, Bool.false_eq_true, if_false]
    split
    · obtain ⟨b', t, hb'⟩ := ((s.heard l f).requestEnds l 6).firstCaps_swap l
      simp only [hb', hb]
      exact ⟨trivial, trivial, trivial, trivial, State.onlyLanePosts_of_erase (by simp [State.requestEnds])⟩
    · simp only [hb]
      exact ⟨trivial, trivial, trivial, trivial, State.onlyLanePosts_of_erase (by simp [State.requestEnds])⟩
  · intro hs hr
    refine ⟨_, if_pos (by simp [hs, hr]), ?_⟩
    simp only [State.openPath, State.stopStage, State.lane_modConv, State.lane_modBelay]
    exact ⟨trivial, trivial, rfl, hr, State.onlyLane_of_erase (by simp)⟩
  · intro hs hr hsw
    refine ⟨_, if_pos (by simp [hs, hr, hsw]), ?_⟩
    simp [State.hwSend, State.onlyLane_of_erase]
  · intro h hd hs hr
    refine ⟨_, execPsRdy_hears h hd, ?_⟩
    obtain ⟨hw, hcon⟩ := (s.heard l f).partnerReady_source l (by simpa using hs) (by simpa using hr)
    obtain ⟨b, hb⟩ := hw
    obtain ⟨c, hc⟩ := hcon
    simp only [hb, hc, ContractLane.clearContract]
    exact ⟨trivial, trivial, trivial, trivial, trivial, State.onlyLanePosts_of_erase (by simp)⟩
  · intro h hd hs hr hlive hsw hup hlat
    refine ⟨_, execPsRdy_hears h hd, ?_⟩
    have hgo : (s.heard l f).partnerReady l =
        ((((s.heard l f).openPath l).modSwap l fun w => { w with presentsRp := true, rpHigh := true }).postLane l 6).askClose l .asSource :=
      (if_neg (by simp [hs])).trans (if_pos (by simp [hs, hr]))
    rw [hgo]
    have hallow : closeAllowed ((((s.heard l f).openPath l).modSwap l fun w => { w with presentsRp := true, rpHigh := true }).postLane l 6) l = true := by
      have hdies : s.SameDies ((((s.heard l f).openPath l).modSwap l fun w => { w with presentsRp := true, rpHigh := true }).postLane l 6) :=
        .post (.setLane (.setLane (.post (.setLane (.refl s) l _) _) l _) l _) _
      rw [hdies.closeAllowed l (by simp [State.openPath, Lane.heard, Lane.acked]) (by simp [State.openPath, Lane.heard, Lane.acked])
        (by simp [State.openPath, Lane.heard, Lane.acked])]
      simp [closeAllowed, hlive, hlat, hup]
    have hask := State.askClose_asks _ l .asSource hallow (by simp [State.openPath])
    refine ⟨?_, ?_, hask.1, State.onlyLanePosts_of_erase (by simp)⟩ <;> dsimp only <;> rw [State.askClose_swap] <;>
      simp [State.openPath, hs]
  · intro hs hr
    obtain ⟨hl, hz, hsw⟩ := s.errorRecovery_swap l (by rw [hs]; decide)
    exact ⟨_, if_pos (by simp [hs, hr]), hl, hz, (s.errorRecovery_cc l).1, hsw, State.onlyLaneLogs_of_erase (by simp)⟩
  · rintro (h | h)
    · exact if_neg fun hc => h (of_decide_eq_true (Bool.and_eq_true_iff.1 hc).1)
    · exact if_neg (by simp [h])
  · intro hs hr
    obtain ⟨hl, hz, hsw⟩ := s.errorRecovery_swap l (by rw [hs]; decide)
    exact ⟨_, if_pos (by simp [hs, hr]), hl, hz, (s.errorRecovery_cc l).1, hsw, State.onlyLaneLogs_of_erase (by simp)⟩
  · intro h hd hs hu hc
    refine State.leads_ctl rfl h hd (by decide) ?_
    have hj : judgeDrSwap ((s.heard l f).lane l) = .accept := by
      rw [State.heard_lane, judgeDrSwap_heard]
      exact (if_neg (by simp [hs])).trans (if_neg (by simp [hu, hc]))
    obtain ⟨hsays, hw⟩ := State.imageSend_accepts h (.inr (.inl hd)) fun w => { w with swapAccept := true, state := 6, frsArm := false }
    simp only [hd, hj, Bool.not_true, Bool.false_eq_true, if_false, if_true, State.answerSwap]
    have hk := (isCtl_plain hd).2.2
    refine ⟨hsays, ?_, ?_, State.onlyLanePosts_of_erase (by simp)⟩ <;> rw [hw, hk 10 (by decide), hk 11 (by decide), hd] <;> rfl
  · intro h hd hs hu
    refine State.leads_ctl rfl h hd (by decide) ?_
    have hj : judgeDrSwap ((s.heard l f).lane l) = .reject := by
      rw [State.heard_lane, judgeDrSwap_heard]
      exact (if_neg (by simp [hs])).trans (if_pos (by rcases hu with h | h <;> simp [h]))
    obtain ⟨hsays, hw⟩ := State.imageSend_answers (s := s.heard l f) (l := l) (g := ctl 4) (by simpa using h.2.2.2.2.1) (by simpa using h.2.2.1) rfl
      (by decide) (by decide)
    simp only [hd, hj, Bool.not_true, Bool.false_eq_true, if_false, State.answerSwap, reduceCtorEq]
    exact ⟨hsays, by rw [hw, State.heard_lane, Lane.heard_swap, hs], State.onlyLanePosts_of_erase (by simp)⟩
  · intro h hd hs hc
    refine State.leads_ctl rfl h hd (by decide) ?_
    have hj : judgeVconnSwap (s.heard l f) l = .reject := by
      rw [judgeVconnSwap, State.heard_lane]
      exact (if_neg (by simp [hs])).trans (if_pos (by simp [Lane.heard, Lane.acked, hc]))
    obtain ⟨hsays, hw⟩ := State.imageSend_answers (s := s.heard l f) (l := l) (g := ctl 4) (by simpa using h.2.2.2.2.1) (by simpa using h.2.2.1) rfl
      (by decide) (by decide)
    simp only [hd, hj, Bool.not_true, Bool.false_eq_true, if_false, State.answerSwap, reduceCtorEq]
    exact ⟨hsays, by rw [hw, State.heard_lane, Lane.heard_swap], State.onlyLanePosts_of_erase (by simp)⟩
  · intro h hd hs hc hv
    refine State.leads_ctl rfl h hd (by decide) ?_
    have hj : judgeVconnSwap (s.heard l f) l = .accept := by
      rw [judgeVconnSwap, State.heard_lane]
      exact (if_neg (by simp [hs])).trans ((if_neg (by simp [Lane.heard, Lane.acked, hc])).trans (if_neg (by simp [hv])))
    obtain ⟨hsays, hw⟩ := State.imageSend_accepts h (.inr (.inr hd)) fun w => { w with swapAccept := true }
    simp only [hd, hj, Bool.not_true, Bool.false_eq_true, if_false, if_true, State.answerSwap]
    have hk := (isCtl_plain hd).2.2
    refine ⟨hsays, ?_, ?_, State.onlyLanePosts_of_erase (by simp)⟩ <;> rw [hw, hk 10 (by decide), hk 9 (by decide), hd]
    · rfl
    · exact hv
  · intro hs ht hv hn
    refine ⟨_, (if_pos (by simp [hs, ht, hv])).trans (congrArg _ (if_neg (by simp [hn]))), ?_⟩
    simp [State.hwSend, State.endSwap, State.onlyLanePosts_of_erase]
  · intro hs ht hp hatt hh hc
    have hr : s.hardReset l = s.modPd l fun p => p.signal .normal := (if_neg (by simp [hatt, PdLane.hrBusy, hh])).trans (if_neg (by omega))
    refine ⟨_, (if_pos (by simp [hs, ht, hp])).trans (congrArg _ hr), ?_⟩
    simp [PdLane.signal, State.onlyLane_of_erase]
  · intro hs ht hp
    refine ⟨_, if_pos (by simp [hs, ht, hp]), ?_⟩
    obtain ⟨b, hb⟩ := ((((s.modCc l fun c => { c with vconnOn := false }).modSwap l fun w => { w with vconnRole := false }).endSwap l 4)).amsEnd_swap l
    refine ⟨?_, ?_, ?_, ?_, State.onlyLanePosts_of_erase (by simp)⟩
    · rw [State.amsEnd_cc]
      simp [State.endSwap]
    · exact (congrArg SwapLane.vconnRole hb).trans (by simp [State.endSwap])
    · exact (congrArg SwapLane.state hb).trans (by simp [State.endSwap])
    · exact (congrArg SwapLane.last hb).trans (by simp [State.endSwap])
  · exact ⟨_, rfl, by simp, State.onlyLane_of_erase (by simp)⟩

end Sys2Proof.Machine

/-! SUPPORT. What the base image's acts of a budget frame leave of a lane's account: its tally, its ceiling and what its credit rests on (R129, R208, R212). -/
namespace Sys2Proof.Machine

/-- Lane y has the account of lane x: its tally, its ceiling, its stage and contract voltage and its reverse limit. -/
structure Lane.Accounts (x y : Lane) : Prop where
  q : y.tally.q = x.tally.q
  qFrac : y.tally.qFrac = x.tally.qFrac
  ceil : y.budget.ceil = x.budget.ceil
  packHold : y.swap.packHold = x.swap.packHold
  convIset : y.cfg.convIset = x.cfg.convIset
  kind : y.con.kind = x.con.kind
  volt : y.con.volt = x.con.volt
  conv : y.conv = x.conv

theorem Lane.Accounts.refl (x : Lane) : x.Accounts x := ⟨rfl, rfl, rfl, rfl, rfl, rfl, rfl, rfl⟩
theorem Lane.Accounts.trans {x y z : Lane} (h : x.Accounts y) (g : y.Accounts z) : x.Accounts z :=
  ⟨g.q.trans h.q, g.qFrac.trans h.qFrac, g.ceil.trans h.ceil, g.packHold.trans h.packHold, g.convIset.trans h.convIset, g.kind.trans h.kind,
    g.volt.trans h.volt, g.conv.trans h.conv⟩

/-- Every lane of s has the account that it has in r, and the bus but for the switches placed, the tether and VSYS stand as in r. -/
structure State.Accounts (r s : State) : Prop where
  lane : ∀ m, (r.lane m).Accounts (s.lane m)
  bus : { s.bus with placed := r.bus.placed } = r.bus
  tether : s.tether = r.tether
  vsysV : s.dev.vsysV = r.dev.vsysV

namespace State.Accounts

variable {r s : State}

theorem refl (s : State) : s.Accounts s := ⟨fun _ => .refl _, rfl, rfl, rfl⟩

theorem setLane (h : r.Accounts s) (l : LaneId) {x : Lane} (hx : (s.lane l).Accounts x) : r.Accounts (s.setLane l x) := by
  refine ⟨fun m => ?_, h.bus, h.tether, h.vsysV⟩
  by_cases hm : m = l
  · subst hm
    rw [State.lane_setLane]
    exact (h.lane m).trans hx
  · rw [State.lane_setLane_ne _ _ hm]
    exact h.lane m

theorem post (h : r.Accounts s) (n : Nat) : r.Accounts (s.post n) :=
  ⟨fun m => by rw [State.post_lane]; exact h.lane m, by rw [State.post_bus]; exact h.bus, by rw [State.post_tether]; exact h.tether,
    by rw [State.post_dev]; exact h.vsysV⟩
theorem postLane (h : r.Accounts s) (l : LaneId) (n : Nat) : r.Accounts (s.postLane l n) := h.post _

/-- What keeps the lanes, the bus, the tether and VSYS keeps the accounts. -/
theorem of_eq {u : State} (h : r.Accounts s) (hl : u.lanes = s.lanes) (hb : u.bus = s.bus) (ht : u.tether = s.tether)
    (hv : u.dev.vsysV = s.dev.vsysV) : r.Accounts u :=
  ⟨fun m => by rw [show u.lane m = s.lane m by simp only [State.lane, hl]]; exact h.lane m, hb ▸ h.bus, ht.trans h.tether, hv.trans h.vsysV⟩

section
variable (l : LaneId)

theorem modPd (h : r.Accounts s) (f : PdLane → PdLane) : r.Accounts (s.modPd l f) := h.setLane l ⟨rfl, rfl, rfl, rfl, rfl, rfl, rfl, rfl⟩
theorem modSect (h : r.Accounts s) (f : SectLane → SectLane) : r.Accounts (s.modSect l f) := h.setLane l ⟨rfl, rfl, rfl, rfl, rfl, rfl, rfl, rfl⟩
theorem modFw (h : r.Accounts s) (f : FwLane → FwLane) : r.Accounts (s.modFw l f) := h.setLane l ⟨rfl, rfl, rfl, rfl, rfl, rfl, rfl, rfl⟩
theorem modCc (h : r.Accounts s) (f : CcLane → CcLane) : r.Accounts (s.modCc l f) := h.setLane l ⟨rfl, rfl, rfl, rfl, rfl, rfl, rfl, rfl⟩
theorem modBelay (h : r.Accounts s) (f : BelayLane → BelayLane) : r.Accounts (s.modBelay l f) :=
  h.setLane l ⟨rfl, rfl, rfl, rfl, rfl, rfl, rfl, rfl⟩
theorem modSwap (h : r.Accounts s) {f : SwapLane → SwapLane} (hf : ∀ w, (f w).packHold = w.packHold := by exact fun _ => rfl) : r.Accounts (s.modSwap l f) :=
  h.setLane l ⟨rfl, rfl, rfl, hf _, rfl, rfl, rfl, rfl⟩
theorem modCfg (h : r.Accounts s) {f : LaneCfg → LaneCfg} (hf : ∀ c, (f c).convIset = c.convIset := by exact fun _ => rfl) : r.Accounts (s.modCfg l f) :=
  h.setLane l ⟨rfl, rfl, rfl, rfl, hf _, rfl, rfl, rfl⟩
theorem modCon (h : r.Accounts s) {f : ContractLane → ContractLane} (hk : ∀ c, (f c).kind = c.kind := by exact fun _ => rfl)
    (hv : ∀ c, (f c).volt = c.volt := by exact fun _ => rfl) :
    r.Accounts (s.modCon l f) := h.setLane l ⟨rfl, rfl, rfl, rfl, rfl, hk _, hv _, rfl⟩
theorem modBudget (h : r.Accounts s) {f : BudgetLane → BudgetLane} (hf : ∀ b, (f b).ceil = b.ceil := by exact fun _ => rfl) : r.Accounts (s.modBudget l f) :=
  h.setLane l ⟨rfl, rfl, hf _, rfl, rfl, rfl, rfl, rfl⟩

end

theorem modCounter (h : r.Accounts s) (n : CounterId) (f : Counter → Counter) : r.Accounts (s.modCounter n f) := h.of_eq rfl rfl rfl rfl

theorem forEach (h : r.Accounts s) {α : Type} {f : State → α → State} (hf : ∀ u x, r.Accounts u → r.Accounts (f u x)) (xs : List α) :
    r.Accounts (s.forEach xs f) :=
  State.forEach_keeps (P := r.Accounts) (fun u x hu => hf u x hu) xs s h

theorem logFlags (h : r.Accounts s) (fl c : Nat) (k : LogKind) (i : Nat) (a b d : Word) : r.Accounts (s.logFlags fl c k i a b d) := by
  unfold State.logFlags State.logAdvance
  extract_lets _ m0 m1 m2 m3 m4 m5 m6 m7 m8 h1 s1
  have hs : r.Accounts s1 := h.of_eq rfl rfl rfl rfl
  split
  · exact hs.post _
  · exact hs
theorem logSw (h : r.Accounts s) (c : Nat) (k : LogKind) (i : Nat) (a b d : Word) : r.Accounts (s.logSw c k i a b d) := h.logFlags ..

theorem ite {c : Prop} [Decidable c] {a b : State} (ha : r.Accounts a) (hb : r.Accounts b) : r.Accounts (if c then a else b) := by
  split <;> assumption

variable {l : LaneId}

theorem endMessage (h : r.Accounts s) (tag : BitVec 4) (e : BitVec 3) (n : Nat) : r.Accounts (s.endMessage l tag e n) := by
  unfold State.endMessage
  exact (h.modPd l _).postLane ..

theorem swapSent (h : r.Accounts s) (m : TxSlot) : r.Accounts (s.swapSent l m) := by
  unfold State.swapSent
  split
  · exact .ite h (.ite (h.modSwap l) (.ite (h.modSwap l) (.ite (h.modSwap l) (.ite (h.modPd l _) h))))
  · exact h

theorem sendStaged (h : r.Accounts s) : r.Accounts (s.sendStaged l) := by
  unfold State.sendStaged
  extract_lets x ams m s1
  have hs : r.Accounts s1 := (h.modPd l _).swapSent _
  clear_value s1
  exact .ite (h.endMessage ..) (.ite (hs.modSwap l) hs)

theorem imageSend (h : r.Accounts s) (ams : Bool) (f : Frame) : r.Accounts (s.imageSend l ams f) := by
  unfold State.imageSend
  exact (h.modCfg l).sendStaged

theorem imageSendExt (h : r.Accounts s) (ams : Bool) (type : Nat) (payload : List Byte) : r.Accounts (s.imageSendExt l ams type payload) := by
  unfold State.imageSendExt
  exact ((Accounts.ite h (h.modPd l _)).modCfg l).sendStaged

theorem sendCaps (h : r.Accounts s) (run : Bool) : r.Accounts (s.sendCaps l run) := by
  unfold State.sendCaps
  extract_lets x os s1
  have hs : r.Accounts s1 := h.modCon l
  clear_value s1
  exact .ite hs (.ite (hs.imageSendExt ..) (hs.imageSend ..))

theorem sendCapsNow (h : r.Accounts s) : r.Accounts (s.sendCapsNow l) := h.sendCaps _

theorem sendTwin (h : r.Accounts s) (cmd : BitVec 5) : r.Accounts (s.sendTwin l cmd) := by
  unfold State.sendTwin
  have hs : r.Accounts (s.modCon l fun c => { c with armCmd := some cmd }) := h.modCon l
  exact .ite (.ite (hs.imageSend ..) (hs.imageSend ..)) (h.modCon l)

theorem disarm (h : r.Accounts s) : r.Accounts (s.disarm l) := by
  unfold State.disarm
  exact .ite ((h.postLane ..).sendTwin _) h

theorem shedRecord (h : r.Accounts s) (k : BitVec 3) : r.Accounts (s.shedRecord l k) := by
  unfold State.shedRecord
  exact (h.modBudget l).logSw ..

theorem armMissed (h : r.Accounts s) : r.Accounts (s.armMissed l) := by
  unfold State.armMissed
  exact .ite h ((h.modSect l _).postLane ..)

theorem fallback (h : r.Accounts s) : r.Accounts (s.fallback l) := by
  unfold State.fallback
  extract_lets x s0 s1
  have h0 : r.Accounts s0 := h.modCon l
  have h1 : r.Accounts s1 := h0.logSw ..
  clear_value s0 s1
  refine .ite h (.ite (h.modCon l) (.ite ?_ (.ite ?_ h1.armMissed)))
  · exact ((h0.sendCaps _).shedRecord _).modBudget l
  · exact (h0.sendCaps _).modCon l

theorem armLate (h : r.Accounts s) : r.Accounts (s.armLate l) := by
  unfold State.armLate
  exact .ite h.disarm.fallback h

theorem queuePsRdy (h : r.Accounts s) : r.Accounts (s.queuePsRdy l) := by
  unfold State.queuePsRdy
  exact (h.modCon l).imageSend ..

theorem releaseReady (h : r.Accounts s) : r.Accounts (s.releaseReady l) := by
  unfold State.releaseReady
  exact .ite h.queuePsRdy h

theorem capsResume (h : r.Accounts s) : r.Accounts (s.capsResume l) := by
  unfold State.capsResume
  exact .ite ((h.modCon l).sendCaps _) h

theorem recNext (h : r.Accounts s) : r.Accounts (s.recNext l) := by
  unfold State.recNext State.seqStep State.seqSend
  exact .ite (((h.modCon l).modCon l).imageSend ..) h

theorem capsRefresh (h : r.Accounts s) : r.Accounts (s.capsRefresh l) := by
  unfold State.capsRefresh
  exact .ite h.sendCapsNow h

theorem laneClock (h : r.Accounts s) : r.Accounts (s.laneClock l) := h.armLate.releaseReady.capsResume.recNext.capsRefresh

theorem storeShed (h : r.Accounts s) (v : Nat) : r.Accounts (s.storeShed l v) := by
  unfold State.storeShed
  extract_lets s1 cfg
  have hs : r.Accounts s1 := h.modCfg l
  clear_value s1
  exact .ite (hs.modBelay l _) (hs.modBelay l _)

theorem arm (h : r.Accounts s) (id : BitVec 4) (target : Bool) : r.Accounts (s.arm l id target) := by
  unfold State.arm
  extract_lets c bad s1 s2
  have h1 : r.Accounts s1 := h.modCon l
  have h2 : r.Accounts s2 := h1.modCon l
  clear_value s1 s2
  exact .ite h (.ite (Accounts.ite h2 (h2.postLane ..)).fallback (((h1.modCon l).postLane ..).sendTwin _))

theorem storeArmed (h : r.Accounts s) (v : Word) : r.Accounts (s.storeArmed l v) := by
  unfold State.storeArmed
  extract_lets s0 s1
  have h0 : r.Accounts s0 := h.modCon l
  have h1 : r.Accounts s1 := .ite h0.disarm h0
  clear_value s1
  exact .ite (h1.arm ..) h1

theorem armFor (h : r.Accounts s) (run : Bool) (t : Nat) : r.Accounts (s.armFor l run t) := by
  unfold State.armFor
  exact .ite ((h.modCfg l).storeArmed _) h

theorem attachSlot (h : r.Accounts s) (k t : Nat) (v : Bool) : r.Accounts (s.attachSlot k t l v) := by
  unfold State.attachSlot State.loadSlot
  split
  · split
    · exact h.modCounter ..
    · exact .ite ((h.modCounter ..).modCounter ..) (h.modCounter ..)
  · exact h

theorem switchOn (h : r.Accounts s) (t slot : Nat) : r.Accounts (s.switchOn l t slot) := by
  unfold State.switchOn
  extract_lets x arms short s1 s2
  have h1 : r.Accounts s1 := (h.modSect l _).modBudget l
  have h2 : r.Accounts s2 := .ite (h1.armFor ..) h1
  clear_value s2
  exact .ite (h2.attachSlot ..) h2

theorem requestOn (h : r.Accounts s) (t : Nat) : r.Accounts (s.requestOn l t) := by
  unfold State.requestOn
  exact .ite (h.switchOn ..) (h.modBudget l)

theorem giveSlot (h : r.Accounts s) (slot : Nat) : r.Accounts (s.giveSlot l slot) := by
  unfold State.giveSlot
  split
  · exact (h.modBudget l).switchOn ..
  · exact h

theorem unstagger (h : r.Accounts s) : r.Accounts (s.unstagger l) := by
  unfold State.unstagger
  split
  · exact (h.modBudget l).switchOn ..
  · exact h

theorem unshed (h : r.Accounts s) : r.Accounts (s.unshed l) := by
  unfold State.unshed
  extract_lets x s1
  have h1 : r.Accounts s1 := (h.storeShed 0).modBudget l
  clear_value s1
  exact .ite (.ite ((h1.modBudget l).requestOn _) h1) h

theorem lateArm (h : r.Accounts s) : r.Accounts (s.lateArm l) := by
  unfold State.lateArm
  extract_lets x s1
  have h1 : r.Accounts s1 := h.modSect l _
  clear_value s1
  exact .ite (.ite (h1.armFor ..) (h1.modCon l).fallback) h

end State.Accounts

/-- A lane takes its ceiling, and every lane keeps its account but for it (R213, R214). -/
theorem State.takeCeil_accounts (s : State) (l : LaneId) (v : BitVec 12) : (s.modBudget l fun b => { b with ceil := v }).Accounts (s.takeCeil l v) := by
  have h := State.Accounts.refl (s.modBudget l fun b => { b with ceil := v })
  unfold State.takeCeil
  split
  · next hv =>
    have hs : (s.modBudget l fun b => { b with ceil := v }).Accounts s := by
      refine h.of_eq ?_ rfl rfl rfl
      subst hv
      exact congrArg State.lanes (s.setLane_self l).symm
    exact hs.unshed.capsRefresh
  · exact (h.postLane l 8).unshed.lateArm.capsRefresh

end Sys2Proof.Machine

/-! The power budget (O53). -/
namespace Sys2Proof.Machine

section
variable (s : State) (m : LaneId)

/-- A change of every lane by itself. -/
theorem State.forEach_modLane (g : LaneId → Lane → Lane) : (s.forEach allLanes fun st l => st.modLane l (g l)).lane m = g m (s.lane m) := by
  obtain ⟨u, -, hl, he⟩ := State.forEach_lane_at (f := fun st l => st.modLane l (g l)) (xs := allLanes) (s := s) (m := m) (Q := fun _ => True)
    (fun u k m h => State.lane_setLane_ne _ _ h) (fun _ _ h => h) trivial (List.nodup_finRange 32) (List.mem_finRange m)
  rw [he, State.modLane, State.lane_setLane, hl]

/-- What a budget frame measures of a lane (R129, R208). -/
theorem State.measure_lane (b : BusSample) : ∃ a, (s.measure b).lane m = { measureLane s.dev.dtime (s.lane m) (b.lanes.getD m.val {}) with
    budget := { (measureLane s.dev.dtime (s.lane m) (b.lanes.getD m.val {})).budget with alloc := a } } := by
  unfold State.measure
  extract_lets s1 s2
  have h2 : s2.lane m = measureLane s.dev.dtime (s.lane m) (b.lanes.getD m.val {}) :=
    s1.forEach_modLane m fun l x => measureLane s.dev.dtime x (b.lanes.getD l.val {})
  clear_value s2
  refine ⟨BitVec.ofNat 12 (Min.min 4095 (countedAlloc s2 m)), ?_⟩
  have h := s2.forEach_modLane m fun l x => { x with budget := { x.budget with alloc := BitVec.ofNat 12 (Min.min 4095 (countedAlloc s2 l)) } }
  rw [h2] at h
  exact h

theorem State.forEach_modLane_keeps (g : LaneId → Lane → Lane) : (s.forEach allLanes fun st l => st.modLane l (g l)).bus = s.bus ∧
    (s.forEach allLanes fun st l => st.modLane l (g l)).dev = s.dev ∧ (s.forEach allLanes fun st l => st.modLane l (g l)).tether = s.tether :=
  ⟨State.forEach_same State.bus _ (fun u l => u.modLane_bus l (g l)) _ _, State.forEach_same State.dev _ (fun u l => u.modLane_dev l (g l)) _ _,
    State.forEach_same State.tether _ (fun u l => u.modLane_tether l (g l)) _ _⟩

theorem State.measure_keeps (b : BusSample) : (s.measure b).bus = { s.bus with busV := b.busV } ∧ (s.measure b).dev = { s.dev with vsysV := b.vsysV } ∧
    (s.measure b).tether = s.tether := by
  unfold State.measure
  extract_lets s1 s2
  obtain ⟨h1, h2, h3⟩ := s1.forEach_modLane_keeps fun l x => measureLane s.dev.dtime x (b.lanes.getD l.val {})
  obtain ⟨k1, k2, k3⟩ := s2.forEach_modLane_keeps fun l x => { x with budget := { x.budget with alloc := BitVec.ofNat 12 (Min.min 4095 (countedAlloc s2 l)) } }
  exact ⟨k1.trans h1, k2.trans h2, k3.trans h3⟩

/-- What a frame measures of a lane hangs on its account alone (R129, R208). -/
theorem State.measure_accounts {r : State} (h : r.Accounts s) (b : BusSample) :
    ((s.measure b).lane m).tally.q = ((r.lane m).tally.charge (b.lanes.getD m.val {}).charge).q ∧
    ((s.measure b).lane m).budget.credit = laneCredit (r.lane m) (b.lanes.getD m.val {}).power ∧
    ((s.measure b).lane m).budget.ceil = (r.lane m).budget.ceil := by
  obtain ⟨a, ha⟩ := s.measure_lane m b
  obtain ⟨hq, hf, hc, hp, hi, hk, hv, hconv⟩ := h.lane m
  rw [ha]
  simp only [measureLane, TallyLane.charge, laneCredit, ContractLane.vc, hq, hf, hc, hp, hi, hk, hv, hconv]
  trivial

/-- FROZEN ends without a change of a lane (R221). -/
theorem State.setFrozen_false : (s.setFrozen false).bus = { s.bus with frozen := false } ∧ (s.setFrozen false).lanes = s.lanes ∧
    (s.setFrozen false).dev = s.dev ∧ (s.setFrozen false).tether = s.tether := by
  unfold State.setFrozen
  split
  · next h => exact ⟨by rw [← h], rfl, rfl, rfl⟩
  · simp [State.modBus]

end

-- arbitration results

/-- The place of a claim in the stack. -/
def LaneClaim.place (c : LaneClaim) : Nat × Nat := (c.pos, c.lane)

theorem grantFloors_places (b : Int) (cs : List LaneClaim) : (grantFloors b cs).2.map LaneClaim.place = cs.map LaneClaim.place := by
  induction cs generalizing b with
  | nil => rfl
  | cons c r ih => simp [grantFloors, ih, LaneClaim.place]

theorem grantWants_places (b : Int) (cs : List LaneClaim) : (grantWants b cs).map LaneClaim.place = cs.map LaneClaim.place := by
  induction cs generalizing b with
  | nil => rfl
  | cons c r ih => simp [grantWants, ih, LaneClaim.place]

theorem mem_inOrder {cs : List LaneClaim} {c : LaneClaim} (h : c ∈ cs) (hp : c.prio < 8) : c ∈ inOrder cs := by
  refine List.mem_flatMap.2 ⟨7 - c.prio, List.mem_range.2 (by omega), List.mem_filter.2 ⟨h, ?_⟩⟩
  simp
  omega

/-- Every claim of a priority has its ceiling. -/
theorem arbitrate_place {b : Int} {cs : List LaneClaim} {c : LaneClaim} (h : c ∈ cs) (hp : c.prio < 8) :
    ∃ d ∈ arbitrate b cs, d.pos = c.pos ∧ d.lane = c.lane := by
  have hm : c.place ∈ (arbitrate b cs).map LaneClaim.place := by
    rw [arbitrate, grantWants_places, grantFloors_places]
    exact List.mem_map_of_mem (mem_inOrder h hp)
  obtain ⟨d, hd, he⟩ := List.mem_map.1 hm
  exact ⟨d, hd, congrArg Prod.fst he, congrArg Prod.snd he⟩

/-- Every own lane has its claim in the stack. -/
theorem own_claim (s : State) (l : LaneId) : ∃ c ∈ stackClaims s, c.pos = ownPos s ∧ c.lane = l.val ∧ c.prio < 8 := by
  refine ⟨_, List.mem_append_left _ (List.mem_append_right _ (List.mem_map_of_mem (List.mem_finRange l))), rfl, rfl, ?_⟩
  exact fld_lt _ 26 24

/-- A deficit gives every lane a ceiling of 0 or less (R212). -/
theorem grantFloors_deficit {b : Int} (hb : b ≤ 0) (cs : List LaneClaim) : (grantFloors b cs).1 = b ∧ ∀ c ∈ (grantFloors b cs).2, c.ceil = 0 := by
  induction cs with
  | nil => exact ⟨rfl, by simp [grantFloors]⟩
  | cons c r ih =>
    have hg : Min.min (c.floor : Int) (Max.max b 0) = 0 := by omega
    simp only [grantFloors, hg, Int.sub_zero, List.mem_cons, forall_eq_or_imp]
    exact ⟨ih.1, trivial, ih.2⟩

theorem grantWants_deficit {b : Int} (hb : b ≤ 0) (cs : List LaneClaim) (hc : ∀ c ∈ cs, c.ceil = 0) : ∀ c ∈ grantWants b cs, c.ceil ≤ 0 := by
  induction cs generalizing b with
  | nil => simp [grantWants]
  | cons c r ih =>
    obtain ⟨h0, hr⟩ := List.forall_mem_cons.1 hc
    simp only [grantWants, h0, Int.sub_zero, Int.zero_add, List.mem_cons, forall_eq_or_imp]
    refine ⟨?_, ih ?_ hr⟩
    · split
      · split <;> omega
      · omega
    · split
      · split <;> omega
      · omega

/-- The ceilings of a stack together never exceed the budget that is left of it, and none is below 0 where they count (R212). -/
theorem arbitrate_sum (b : Int) (cs : List LaneClaim) : ((((arbitrate b cs).map fun c => c.ceil.toNat).sum : Nat) : Int) ≤ Max.max 0 b := by
  by_cases hb : 0 ≤ b
  · obtain ⟨hs, -, hk⟩ := ceilingsWithinBudget b cs hb
    have hsum : ∀ ds : List LaneClaim, (∀ d ∈ ds, 0 ≤ d.ceil) → (((ds.map fun c => c.ceil.toNat).sum : Nat) : Int) = (ds.map fun c => c.ceil).sum := by
      intro ds h
      induction ds with
      | nil => rfl
      | cons d r ih =>
        obtain ⟨h0, hr⟩ := List.forall_mem_cons.1 h
        have := ih hr
        simp only [List.map_cons, List.sum_cons]
        omega
    rw [hsum _ fun d hd => (hk d hd).1]
    omega
  · obtain ⟨hleft, hz⟩ := grantFloors_deficit (by omega : b ≤ 0) (inOrder cs)
    have hle := grantWants_deficit (b := (grantFloors b (inOrder cs)).1) (by omega) _ hz
    have hzero : ((arbitrate b cs).map fun c => c.ceil.toNat).sum = 0 :=
      List.sum_eq_zero fun n hn => by
        obtain ⟨c, hc, rfl⟩ := List.mem_map.1 hn
        have := hle c hc
        omega
    omega

-- what the arbiter's results leave

/-- The tallies of all lanes, the bus but for the switches placed, the tether and VSYS stand in s as in r. -/
structure State.Tallies (r s : State) : Prop where
  q : ∀ m, (s.lane m).tally.q = (r.lane m).tally.q
  bus : { s.bus with placed := r.bus.placed } = r.bus
  tether : s.tether = r.tether
  vsysV : s.dev.vsysV = r.dev.vsysV

theorem State.Accounts.tallies {r s : State} (h : r.Accounts s) : r.Tallies s := ⟨fun m => (h.lane m).q, h.bus, h.tether, h.vsysV⟩

theorem State.Tallies.trans {r s u : State} (h : r.Tallies s) (g : s.Tallies u) : r.Tallies u :=
  ⟨fun m => (g.q m).trans (h.q m), by rw [← h.bus, ← g.bus], g.tether.trans h.tether, g.vsysV.trans h.vsysV⟩

/-- An own lane takes the ceiling that the arbiter has computed for it. -/
def State.takeResult (own : Nat) (st : State) (c : LaneClaim) : State :=
  if c.pos ≠ own then st
  else if h : c.lane < 32 then
    (st.modBudget ⟨c.lane, h⟩ fun b => { b with held := c.held }).takeCeil ⟨c.lane, h⟩ (BitVec.ofNat 12 (Min.min 4095 c.ceil.toNat))
  else st

/-- What an arbiter's result for other positions goes out as (R212, R222). -/
def LaneClaim.sent (c : LaneClaim) : Nat × Nat × Nat × Nat := (c.pos, c.lane, c.ceil.toNat, c.held)

theorem State.applyResults_eq (s : State) (cs : List LaneClaim) : s.applyResults cs =
    (s.modBus fun b => { b with prev := (cs.filter fun c => c.pos ≠ ownPos s).map LaneClaim.sent }).forEach cs (State.takeResult (ownPos s)) := rfl

section
variable (s : State) (own : Nat) (c : LaneClaim) (m : LaneId)

theorem State.takeResult_tallies : s.Tallies (s.takeResult own c) := by
  unfold State.takeResult
  split
  · exact (State.Accounts.refl s).tallies
  · split
    · next h =>
      have h1 := ((s.modBudget ⟨c.lane, h⟩ fun b => { b with held := c.held }).takeCeil_accounts ⟨c.lane, h⟩
        (BitVec.ofNat 12 (Min.min 4095 c.ceil.toNat))).tallies
      generalize State.takeCeil _ _ _ = u at h1 ⊢
      refine State.Tallies.trans ?_ h1
      refine ⟨fun m => ?_, rfl, rfl, rfl⟩
      by_cases hm : m = ⟨c.lane, h⟩
      · subst hm
        simp
      · simp [State.modBudget, State.modLane, State.lane_setLane_ne _ _ hm]
    · exact (State.Accounts.refl s).tallies

theorem State.takeResult_ceil : ((s.takeResult own c).lane m).budget.ceil =
    if c.pos = own ∧ c.lane = m.val then BitVec.ofNat 12 (Min.min 4095 c.ceil.toNat) else (s.lane m).budget.ceil := by
  unfold State.takeResult
  by_cases hp : c.pos = own
  · rw [if_neg (by simpa using hp)]
    split
    · next h =>
      rw [(((s.modBudget ⟨c.lane, h⟩ fun b => { b with held := c.held }).takeCeil_accounts ⟨c.lane, h⟩ _).lane m).ceil]
      by_cases hm : c.lane = m.val
      · have : m = ⟨c.lane, h⟩ := Fin.ext hm.symm
        subst this
        simp [hp]
      · have hne : m ≠ ⟨c.lane, h⟩ := fun e => hm (congrArg Fin.val e).symm
        rw [if_neg (by simp [hm])]
        simp only [State.modBudget, State.modLane, State.lane_setLane_ne _ _ hne]
    · next h => rw [if_neg (by have := m.isLt; omega)]
  · rw [if_pos hp, if_neg (by simp [hp])]

/-- What the arbiter's results give own lane m together. -/
def laneShare (own : Nat) (m : LaneId) (cs : List LaneClaim) : Nat :=
  ((cs.filter fun c => c.pos = own ∧ c.lane = m.val).map fun c => c.ceil.toNat).sum

/-- A lane's ceiling behind the results is one of those that they give it. -/
theorem State.takeResults_ceil (cs : List LaneClaim) : ((s.forEach cs (State.takeResult own)).lane m).budget.ceil.toNat ≤
    (if ∃ c ∈ cs, c.pos = own ∧ c.lane = m.val then 0 else (s.lane m).budget.ceil.toNat) + laneShare own m cs := by
  induction cs generalizing s with
  | nil => simp [State.forEach, laneShare]
  | cons c r ih =>
    have h := ih (s.takeResult own c)
    have hs : s.forEach (c :: r) (State.takeResult own) = (s.takeResult own c).forEach r (State.takeResult own) := rfl
    rw [hs]
    rw [State.takeResult_ceil] at h
    by_cases hc : c.pos = own ∧ c.lane = m.val
    · have hv : (BitVec.ofNat 12 (Min.min 4095 c.ceil.toNat)).toNat ≤ c.ceil.toNat := by
        rw [BitVec.toNat_ofNat]
        omega
      rw [if_pos hc] at h
      have hshare : laneShare own m (c :: r) = c.ceil.toNat + laneShare own m r := by simp [laneShare, hc]
      rw [if_pos ⟨c, List.mem_cons_self, hc⟩, hshare]
      split at h <;> omega
    · rw [if_neg hc] at h
      have hshare : laneShare own m (c :: r) = laneShare own m r := by simp [laneShare, hc]
      simp only [List.mem_cons, exists_eq_or_imp, hc, false_or, hshare]
      exact h

end

theorem sum_single (k x : Nat) (ls : List LaneId) (h : ls.Nodup) : (ls.map fun m => if k = m.val then x else 0).sum ≤ x := by
  induction ls with
  | nil => simp
  | cons l r ih =>
    obtain ⟨hl, hr⟩ := List.nodup_cons.1 h
    rw [List.map_cons, List.sum_cons]
    by_cases hk : k = l.val
    · have hz : (r.map fun m => if k = m.val then x else 0).sum = 0 := by
        refine List.sum_eq_zero fun n hn => ?_
        obtain ⟨m, hm, rfl⟩ := List.mem_map.1 hn
        exact if_neg fun e => hl (by rwa [Fin.ext (hk.symm.trans e)])
      rw [if_pos hk, hz]
      omega
    · rw [if_neg hk, Nat.zero_add]
      exact ih hr

/-- The shares of the own lanes and what goes out to others are no more than all results. -/
theorem laneShares_sum (own : Nat) (cs : List LaneClaim) : (allLanes.map fun m => laneShare own m cs).sum +
    ((cs.filter fun c => c.pos ≠ own).map fun c => c.ceil.toNat).sum ≤ (cs.map fun c => c.ceil.toNat).sum := by
  induction cs with
  | nil => simp [laneShare]
  | cons c r ih =>
    have hshare : ∀ m : LaneId, laneShare own m (c :: r) = (if c.pos = own then (if c.lane = m.val then c.ceil.toNat else 0) else 0) + laneShare own m r := by
      intro m
      by_cases h1 : c.pos = own <;> by_cases h2 : c.lane = m.val <;> simp [laneShare, h1, h2]
    simp only [hshare, List.sum_map_add, List.map_cons, List.sum_cons]
    by_cases h1 : c.pos = own
    · have hone := sum_single c.lane c.ceil.toNat allLanes (List.nodup_finRange 32)
      rw [List.filter_cons_of_neg (by simp [h1])]
      simp only [h1, if_true]
      omega
    · have hnone : (allLanes.map fun _ : LaneId => 0).sum = 0 := rfl
      rw [List.filter_cons_of_pos (by simp [h1]), List.map_cons, List.sum_cons]
      simp only [h1, if_false, hnone]
      omega

-- switches placed, and the frame as a whole

section
variable (s : State)

theorem State.placeSwitch_accounts (p n t : Nat) : s.Accounts (s.placeSwitch p n t).2 := by
  unfold State.placeSwitch
  split
  · exact .refl s
  · exact ⟨fun _ => .refl _, rfl, rfl, rfl⟩

theorem State.Accounts.trans {r s u : State} (h : r.Accounts s) (g : s.Accounts u) : r.Accounts u :=
  ⟨fun m => (h.lane m).trans (g.lane m), by rw [← h.bus, ← g.bus], g.tether.trans h.tether, g.vsysV.trans h.vsysV⟩

/-- The switches of a frame are placed with every account as before, and none waits any more (R219). -/
theorem State.placeAll_shows (cs : List LaneClaim) : ∃ u, s.Accounts u ∧ s.placeAll cs = u.modBus fun b => { b with asked := [] } := by
  unfold State.placeAll
  refine ⟨_, State.Accounts.forEach (.refl s) (fun st c h => ?_) cs, rfl⟩
  split
  · dsimp only
    split
    · exact (h.trans (st.placeSwitch_accounts ..)).giveSlot _
    · exact h
  · exact State.Accounts.forEach h (fun u e hu => hu.trans (u.placeSwitch_accounts ..)) _

end

section
variable (s : State) (b : BusSample)

/-- The frame of a device that is not a hitch in RUN (R212). -/
theorem execBudgetFrame_rests (h : s.tether.hitch = false ∨ s.dev.state ≠ .run) :
    execBudgetFrame b s = .next ((s.forEach allLanes State.laneClock).measure b) := by
  have hgo : (s.tether.hitch && decide (s.dev.state = .run)) = false := by rcases h with h | h <;> simp [h]
  simp [execBudgetFrame, arbiterRuns, hgo]

/-- The frame of a hitch in RUN that does not arbitrate yet, or whose arbiter runs no base image (R348, R371). -/
theorem execBudgetFrame_waits (hh : s.tether.hitch = true) (hs : s.dev.state = .run) (h : imageRuns (s.core (arbiterCore s)) = false ∨ 2 ≤ s.tether.settling) :
    execBudgetFrame b s = .next ((((s.forEach allLanes State.laneClock).measure b).modTether fun t =>
      { t with settling := if 2 ≤ t.settling then t.settling - 1 else t.settling }).post 0x21B) := by
  have hgo : (arbiterRuns s && decide (s.tether.settling < 2)) = false := by
    rcases h with h | h
    · simp [arbiterRuns, h]
    · simp; omega
  unfold execBudgetFrame
  simp only [hgo, hh, hs, Bool.not_false, decide_true, Bool.and_true, Bool.false_eq_true, if_false, if_true]

/-- The measured state of a frame in which the hitch arbitrates (R212, R221). -/
def State.framed : State := ((s.forEach allLanes State.laneClock).setFrozen false).measure b

/-- What the measured state shows of the frame (R129, R205, R209, R221). -/
theorem State.framed_shows (hclock : s.Accounts (s.forEach allLanes State.laneClock)) : (s.framed b).bus.busV = b.busV ∧
    (s.framed b).dev.vsysV = b.vsysV ∧ (s.framed b).bus.frozen = false ∧
    (∀ m, ((s.framed b).lane m).tally.q = ((s.lane m).tally.charge (b.lanes.getD m.val {}).charge).q) ∧ stackSag (s.framed b) = stackSag s := by
  unfold State.framed
  generalize s.forEach allLanes State.laneClock = u at *
  obtain ⟨kbus, klanes, kdev, ktether⟩ := u.setFrozen_false
  have hlane : ∀ m, (u.setFrozen false).lane m = u.lane m := fun m => by simp only [State.lane, klanes]
  generalize u.setFrozen false = v at *
  obtain ⟨hbus, hdev, htether⟩ := v.measure_keeps b
  refine ⟨by rw [hbus], by rw [hdev], by rw [hbus, kbus], fun m => ?_, ?_⟩
  · obtain ⟨a, ha⟩ := v.measure_lane m b
    obtain ⟨hq, hf, -⟩ := hclock.lane m
    rw [ha, hlane]
    simp only [measureLane, TallyLane.charge, hq, hf]
  · have hsag : (v.measure b).bus.sag = s.bus.sag := by
      rw [hbus, kbus]
      exact (congrArg Bus.sag hclock.bus :)
    have ht : (v.measure b).tether = s.tether := htether.trans (ktether.trans hclock.tether)
    unfold stackSag otherSlots ownPos
    rw [hsag, ht]

/-- The results of the frame (R212). -/
def frameResults (m : State) : List LaneClaim := arbitrate ((effBudget m (stackClaims m) : Int) - idleAlloc m) (stackClaims m)

/-- The frame in which the hitch arbitrates, before its results are taken. -/
def State.arbitrated (m : State) : State :=
  ((m.modBus fun y =>
    { y with effW := BitVec.ofNat 24 (effBudget m (stackClaims m) / 10), effSag := stackSag m, effCredit := (stackClaims m).any fun c => c.credit ≠ 0,
             allocSum := BitVec.ofNat 24 (((stackClaims m).map (·.alloc)).sum + idleAlloc m) }).modTether fun t => { t with settling := 0 }).post 0x21B

theorem execBudgetFrame_runs (hr : arbiterRuns s = true) (hs : s.tether.settling ≤ 1) :
    execBudgetFrame b s = .next (((s.framed b).arbitrated.applyResults (frameResults (s.framed b))).placeAll (inOrder (stackClaims (s.framed b)))) := by
  have hgo : (arbiterRuns s && decide (s.tether.settling < 2)) = true := by simp [hr]; omega
  unfold execBudgetFrame
  simp only [hgo, if_true, Bool.not_true, Bool.and_false, Bool.false_eq_true, if_false]
  rfl

theorem State.arbitrated_shows (m : State) : m.arbitrated.bus = { m.bus with
      effW := BitVec.ofNat 24 (effBudget m (stackClaims m) / 10), effSag := stackSag m, effCredit := (stackClaims m).any fun c => c.credit ≠ 0,
      allocSum := BitVec.ofNat 24 (((stackClaims m).map (·.alloc)).sum + idleAlloc m) } ∧
    m.arbitrated.dev = m.dev ∧ ∀ l, m.arbitrated.lane l = m.lane l := by
  refine ⟨?_, ?_, fun l => ?_⟩ <;> rw [State.arbitrated]
  · rw [State.post_bus]
    rfl
  · rw [State.post_dev]
    rfl
  · rw [State.post_lane]
    rfl

theorem State.arbitrated_ownPos (m : State) : ownPos m.arbitrated = ownPos m := by
  rw [ownPos, State.arbitrated, State.post_tether]
  rfl

/-- What the frame leaves where the hitch arbitrates: the bus it measured and computed, its tallies, and ceilings within the results (R209, R212, R221). -/
theorem State.frame_shows {m s' : State} (hs' : s' = (m.arbitrated.applyResults (frameResults m)).placeAll (inOrder (stackClaims m))) :
    s'.bus.busV = m.bus.busV ∧ s'.bus.frozen = m.bus.frozen ∧ s'.bus.asked = [] ∧ s'.bus.effSag = stackSag m ∧
    s'.bus.effW = BitVec.ofNat 24 (effBudget m (stackClaims m) / 10) ∧ s'.dev.vsysV = m.dev.vsysV ∧
    (∀ l, (s'.lane l).tally.q = (m.lane l).tally.q) ∧
    s'.bus.prev = ((frameResults m).filter fun c => c.pos ≠ ownPos m).map LaneClaim.sent ∧
    ∀ l, (s'.lane l).budget.ceil.toNat ≤ laneShare (ownPos m) l (frameResults m) := by
  obtain ⟨u, hu, he⟩ := (m.arbitrated.applyResults (frameResults m)).placeAll_shows (inOrder (stackClaims m))
  rw [hs', he]
  rw [State.applyResults_eq, m.arbitrated_ownPos] at hu
  have ht : (m.arbitrated.modBus fun b => { b with prev := ((frameResults m).filter fun c => c.pos ≠ ownPos m).map LaneClaim.sent }).Tallies u :=
    (State.forEach_keeps (P := State.Tallies (m.arbitrated.modBus _)) (fun v c hv => hv.trans (v.takeResult_tallies _ c)) _ _
      (State.Accounts.refl _).tallies).trans hu.tallies
  obtain ⟨hbus, hdev, hlane⟩ := m.arbitrated_shows
  have hb := ht.bus
  simp only [State.modBus_bus, hbus] at hb ⊢
  refine ⟨(congrArg Bus.busV hb :), (congrArg Bus.frozen hb :), trivial, (congrArg Bus.effSag hb :), (congrArg Bus.effW hb :),
    ht.vsysV.trans (congrArg Dev.vsysV hdev), fun l => (ht.q l).trans ?_, (congrArg Bus.prev hb :), fun l => ?_⟩
  · rw [State.modBus_lane, hlane]
  · have hc := State.takeResults_ceil (m.arbitrated.modBus fun b => { b with prev := ((frameResults m).filter fun c => c.pos ≠ ownPos m).map LaneClaim.sent })
      (ownPos m) l (frameResults m)
    obtain ⟨c, hmem, hp, hl, hprio⟩ := own_claim m l
    obtain ⟨d, hd, hdp, hdl⟩ := arbitrate_place (b := (effBudget m (stackClaims m) : Int) - idleAlloc m) hmem hprio
    rw [if_pos ⟨d, hd, hdp.trans hp, hdl.trans hl⟩, Nat.zero_add] at hc
    rw [State.modBus_lane, (hu.lane l).ceil]
    exact hc

end

-- how far a lane's ceiling and slot reach

/-- Every lane but l is in s as in r. -/
def State.Others (l : LaneId) (r s : State) : Prop := ∀ m, m ≠ l → s.lane m = r.lane m

section
variable {r s : State} {l : LaneId}

theorem State.Others.of_erase {u : State} {j : Nat} (h : State.Others l r s) (he : u.erase j l = s.erase j l) : State.Others l r u :=
  fun m hm => (State.lane_of_erase he hm).trans (h m hm)

theorem State.Others.of_lanes {u : State} (h : State.Others l r s) (he : u.lanes = s.lanes) : State.Others l r u :=
  fun m hm => (show u.lane m = s.lane m by simp only [State.lane, he]).trans (h m hm)

theorem State.Others.setLane (h : State.Others l r s) (x : Lane) : State.Others l r (s.setLane l x) :=
  fun m hm => (State.lane_setLane_ne _ _ hm).trans (h m hm)

theorem State.Others.ite {c : Prop} [Decidable c] {a b : State} (ha : State.Others l r a) (hb : State.Others l r b) :
    State.Others l r (if c then a else b) := by
  split <;> assumption

theorem State.Others.armFor (h : State.Others l r s) (run : Bool) (t : Nat) : State.Others l r (s.armFor l run t) := by
  unfold State.armFor
  exact .ite (h.of_erase (j := 2) (by simp)) h

theorem State.Others.attachSlot (h : State.Others l r s) (k t : Nat) (j : LaneId) (v : Bool) : State.Others l r (s.attachSlot k t j v) := by
  unfold State.attachSlot State.loadSlot
  split
  · split
    · exact h.of_lanes rfl
    · exact .ite (h.of_lanes rfl) (h.of_lanes rfl)
  · exact h

theorem State.Others.switchOn (h : State.Others l r s) (t slot : Nat) : State.Others l r (s.switchOn l t slot) := by
  unfold State.switchOn
  extract_lets x arms short s1 s2
  have h1 : State.Others l r s1 := h.of_erase (j := 2) (by simp [s1])
  have h2 : State.Others l r s2 := .ite (h1.armFor _ _) h1
  clear_value s2
  exact .ite (h2.attachSlot _ _ _ _) h2

theorem State.Others.requestOn (h : State.Others l r s) (t : Nat) : State.Others l r (s.requestOn l t) := by
  unfold State.requestOn
  exact .ite (h.switchOn _ _) (h.of_erase (j := 2) (by simp))

theorem State.Others.giveSlot (h : State.Others l r s) (slot : Nat) : State.Others l r (s.giveSlot l slot) := by
  unfold State.giveSlot
  split
  · exact (h.setLane _).switchOn _ _
  · exact h

theorem State.Others.unstagger (h : State.Others l r s) : State.Others l r (s.unstagger l) := by
  unfold State.unstagger
  split
  · exact (h.setLane _).switchOn _ _
  · exact h

theorem State.Others.unshed (h : State.Others l r s) : State.Others l r (s.unshed l) := by
  unfold State.unshed
  extract_lets x s1
  have h1 : State.Others l r s1 := h.of_erase (j := 2) (by simp [s1])
  clear_value s1
  exact .ite (.ite (State.Others.requestOn (h1.of_erase (j := 2) (by simp)) _) h1) h

theorem State.Others.lateArm (h : State.Others l r s) : State.Others l r (s.lateArm l) := by
  unfold State.lateArm
  extract_lets x s1
  have h1 : State.Others l r s1 := h.of_erase (j := 2) (by simp [s1])
  clear_value s1
  exact .ite (.ite (h1.armFor _ _) (h1.of_erase (j := 2) (by simp))) h

theorem State.Others.capsRefresh (h : State.Others l r s) : State.Others l r (s.capsRefresh l) := by
  unfold State.capsRefresh
  exact .ite (h.of_erase (j := 2) (by simp)) h

theorem State.Others.takeCeil (h : State.Others l r s) (v : BitVec 12) : State.Others l r (s.takeCeil l v) := by
  unfold State.takeCeil
  exact .ite h.unshed.capsRefresh (State.Others.unshed (h.of_erase (j := 2) (by simp))).lateArm.capsRefresh

/-- What a result does to one lane (R214, R219). -/
def State.takeEntry (r : List (BitVec 12 × BitVec 4)) (st : State) (l : LaneId) : State :=
  match r[l.val]? with
  | some e => (st.followCeil l e.1).giveSlot l e.2.toNat
  | none => st

theorem State.takeEntry_other (r : List (BitVec 12 × BitVec 4)) (u : State) (k m : LaneId) (hm : m ≠ k) : (u.takeEntry r k).lane m = u.lane m := by
  unfold State.takeEntry
  split
  · refine State.Others.giveSlot (State.Others.takeCeil (State.Others.of_erase (j := 2) (s := u) (fun _ _ => rfl) ?_) _) _ m hm
    simp
  · rfl

/-- A result gives its lane its ceiling, and no other account changes (R214). -/
theorem State.takeEntry_accounts (r : List (BitVec 12 × BitVec 4)) (u : State) (k : LaneId) (e : BitVec 12 × BitVec 4) (h : r[k.val]? = some e) :
    ∃ v : State, v.bus = u.bus ∧ v.tether = u.tether ∧ (v.lane k).budget.ceil = e.1 ∧ v.Accounts (u.takeEntry r k) := by
  unfold State.takeEntry
  rw [h]
  unfold State.followCeil
  dsimp only
  refine ⟨_, ?_, ?_, ?_, (State.takeCeil_accounts _ k e.1).giveSlot _⟩
  · rfl
  · rfl
  · simp

theorem State.takeEntry_keeps (r : List (BitVec 12 × BitVec 4)) (u : State) (k : LaneId) :
    (u.takeEntry r k).bus.frozen = u.bus.frozen ∧ (u.takeEntry r k).tether = u.tether := by
  cases h : r[k.val]? with
  | none => simp [State.takeEntry, h]
  | some e =>
    obtain ⟨v, hb, ht, -, ha⟩ := State.takeEntry_accounts r u k e h
    exact ⟨(congrArg Bus.frozen ha.bus :).trans (congrArg Bus.frozen hb), ha.tether.trans ht⟩

end

/-- Settles O53: a frame measures every lane, the arbiter's results are within the budget, and each other command acts as its rule says. -/
theorem busAndBudget : Obligations.BusAndBudget := by
  unfold Obligations.BusAndBudget
  intro a l v b r p t s
  have hclock : s.Accounts (s.forEach allLanes State.laneClock) := State.Accounts.forEach (.refl s) (fun u k h => h.laneClock) _
  refine ⟨?_, ?_, ?_, ?_, ?_, ?_, ?_, ?_, ?_, ?_, ?_, ?_, ?_, ?_, ?_, ?_, ?_, ?_, ?_, ?_⟩
  · intro h
    refine ⟨_, execBudgetFrame_rests s b h, ?_⟩
    obtain ⟨hbus, hdev, -⟩ := (s.forEach allLanes State.laneClock).measure_keeps b
    rw [hbus, hdev]
    exact ⟨rfl, rfl, fun m => State.measure_accounts _ m hclock b⟩
  · intro hr hs
    refine ⟨_, execBudgetFrame_runs s b hr hs, ?_⟩
    obtain ⟨h1, h2, h3, h4, -, h5, h6, -, -⟩ := State.frame_shows (m := s.framed b) rfl
    obtain ⟨k1, k2, k3, k4, k5⟩ := s.framed_shows b hclock
    exact ⟨h1.trans k1, h5.trans k2, h2.trans k3, h3, fun m => (h6 m).trans (k4 m), h4.trans k5⟩
  · intro hh hs hn
    refine ⟨_, execBudgetFrame_waits s b hh hs hn, ?_⟩
    obtain ⟨hbus, hdev, -⟩ := (s.forEach allLanes State.laneClock).measure_keeps b
    have hm := fun m => (State.measure_accounts _ m hclock b).2.2
    have hb := hclock.bus
    generalize s.forEach allLanes State.laneClock = u at *
    simp only [State.post_bus, State.modTether_bus, State.post_lane, State.modTether_lane, hbus]
    exact ⟨trivial, (congrArg Bus.frozen hb :), (congrArg Bus.asked hb :), hm⟩
  · intro hr hs
    refine ⟨_, execBudgetFrame_runs s b hr hs, ?_⟩
    obtain ⟨-, -, -, -, hw, -, -, hp, hc⟩ := State.frame_shows (m := s.framed b) rfl
    refine ⟨?_, hw⟩
    rw [hp]
    have hown : (allLanes.map fun m => ((((s.framed b).arbitrated.applyResults (frameResults (s.framed b))).placeAll (inOrder (stackClaims (s.framed b)))).lane m).budget.ceil.toNat).sum ≤
        (allLanes.map fun m => laneShare (ownPos (s.framed b)) m (frameResults (s.framed b))).sum := List.sum_le_sum fun m _ => hc m
    have hsum := laneShares_sum (ownPos (s.framed b)) (frameResults (s.framed b))
    have harb := arbitrate_sum ((effBudget (s.framed b) (stackClaims (s.framed b)) : Int) - idleAlloc (s.framed b)) (stackClaims (s.framed b))
    rw [List.map_map]
    refine Int.le_trans ?_ harb
    refine Int.ofNat_le.2 (Nat.le_trans ?_ hsum)
    exact Nat.add_le_add_right hown _
  · intro hh he hs hb
    refine ⟨_, if_neg (by simp [hh, he, hs, hb]), ?_⟩
    obtain ⟨kbus, klanes, -, ktether⟩ := (s.modTether fun t => { t with noResult := 0 }).setFrozen_false
    have hlane : ∀ m, (((s.modTether fun t => { t with noResult := 0 }).setFrozen false).post 0x21C).lane m = s.lane m := fun m => by
      rw [State.post_lane]
      simp only [State.lane, klanes]
      rfl
    have hbus : (((s.modTether fun t => { t with noResult := 0 }).setFrozen false).post 0x21C).bus.frozen = false := by rw [State.post_bus, kbus]
    have hno : (((s.modTether fun t => { t with noResult := 0 }).setFrozen false).post 0x21C).tether.noResult = 0 := by
      rw [State.post_tether, ktether]
      rfl
    show ((State.forEach _ allLanes (State.takeEntry r)).bus.frozen = false) ∧ (State.forEach _ allLanes (State.takeEntry r)).tether.noResult = 0 ∧
      ∀ m, (∀ e, r[m.val]? = some e → ((State.forEach _ allLanes (State.takeEntry r)).lane m).budget.ceil = e.1) ∧
        (r[m.val]? = none → (State.forEach _ allLanes (State.takeEntry r)).lane m = s.lane m)
    generalize State.post _ 0x21C = u at *
    refine ⟨?_, ?_, fun m => ?_⟩
    · exact (State.forEach_same (fun v => v.bus.frozen) _ (fun v k => (State.takeEntry_keeps r v k).1) _ u).trans hbus
    · exact (State.forEach_same (fun v => v.tether.noResult) _ (fun v k => congrArg Tether.noResult (State.takeEntry_keeps r v k).2) _ u).trans hno
    · obtain ⟨v, -, hl, hv⟩ := State.forEach_lane_at (f := State.takeEntry r) (xs := allLanes) (s := u) (m := m) (Q := fun _ => True)
        (State.takeEntry_other r) (fun _ _ h => h) trivial (List.nodup_finRange 32) (List.mem_finRange m)
      refine ⟨fun e he => ?_, fun hn => ?_⟩
      · obtain ⟨w, -, -, hc, ha⟩ := State.takeEntry_accounts r v m e he
        rw [hv, (ha.lane m).ceil, hc]
      · rw [hv, State.takeEntry, hn]
        exact hl.trans (hlane m)
  · intro h
    exact if_pos (by rcases h with h | h | h | h <;> simp [h])
  · intro h
    refine ⟨_, if_neg (by simp [h]), ?_⟩
    unfold State.setFrozen
    split
    · next hf => exact ⟨hf, fun _ _ => rfl⟩
    · dsimp only
      rw [if_pos rfl]
      have hfz : ((s.modBus fun b => { b with frozen := true }).post 0x21D).bus.frozen = true := by
        rw [State.post_bus]
        rfl
      have hlane : ∀ m, ((s.modBus fun b => { b with frozen := true }).post 0x21D).lane m = s.lane m := fun m => State.post_lane ..
      generalize State.post _ 0x21D = u at *
      refine ⟨?_, fun m hm => ?_⟩
      · exact (State.forEach_same (fun v => v.bus.frozen) _ (fun v k => (congrArg Bus.frozen (State.Accounts.unstagger (l := k) (.refl v)).bus :)) _ u).trans hfz
      · obtain ⟨v, -, hl, hv⟩ := State.forEach_lane_at (f := State.unstagger) (xs := allLanes) (s := u) (m := m) (Q := fun _ => True)
          (fun w k m hm => State.Others.unstagger (fun _ _ => rfl) m hm) (fun _ _ h => h) trivial (List.nodup_finRange 32) (List.mem_finRange m)
        have hl' : v.lane m = s.lane m := hl.trans (hlane m)
        rw [hv, State.unstagger, hl', hm]
        exact hl'
  · intro h
    exact if_pos h
  · intro h
    refine ⟨_, if_neg h, ?_⟩
    unfold State.setSag
    split
    · next hs => exact ⟨hs, rfl⟩
    · simp
  · intro h
    exact if_pos h
  · refine ⟨_, rfl, ?_⟩
    unfold State.setSag
    split
    · next hs => exact ⟨hs, rfl⟩
    · simp
  · intro h
    refine if_neg ?_
    rw [Bool.and_eq_true, Bool.and_eq_true]
    rintro ⟨⟨hsv, hf⟩, hn⟩
    rcases h with h | h | h | ⟨h, h'⟩
    · simp [serves, h] at hsv
    · simp [h] at hf
    · simp [shedNeeded, h] at hn
    · have : ¬(s.lane l).budget.ceil.toNat < allocation s l := by omega
      simp [shedNeeded, h', this] at hn
  · intro hsv hf hsrc htw harm htgt hlow hfl
    have hneed : shedNeeded s l = true := by simp [shedNeeded, hsrc, htw, harm, htgt, hlow]
    have hd : s.disarm l = ((s.postLane l 3).modCon l fun c => { c with armCmd := some 20 }).imageSend l true
        (vdmReq (pdSvid (s.postLane l 3)) 20 1 [packFields [((s.lane l).con.armId.toNat, 0)]]) := by
      have hgo : ((s.lane l).con.armState = 1 || (s.lane l).con.armState = 2) = true := harm
      have hsv' : serves (s.postLane l 3) l = true := by simpa using hsv
      simp only [State.disarm, hgo, State.sendTwin, hsv', if_true, State.postLane_lane, if_neg (show ¬(20 : BitVec 5) = 19 by decide)]
    have hstep : s.shedStep l = (s.disarm l).shedRecord l 1 := if_pos (by simp [htw, harm, htgt])
    refine ⟨_, (if_pos (by simp [hsv, hf, hneed])).trans (if_neg (by omega)), ?_⟩
    rw [hstep]
    have he : State.erase ((s.disarm l).shedRecord l 1) 2 l = s.erase 2 l := by simp
    have hcon : ((s.disarm l).lane l).con = { (s.lane l).con with armCmd := some 20 } := by
      rw [hd, State.imageSend_con, State.lane_modCon, State.postLane_lane]
    refine ⟨?_, ?_, ?_, State.onlyLaneLogs_of_erase he⟩ <;>
      simp only [State.shedRecord, State.logSw, State.logFlags_lane, State.lane_modBudget, hcon]
  · intro hd hsv hf hlow
    have hv : shedValue (s.lane l) < 256 := by
      unfold shedValue clampNat
      omega
    refine ⟨_, (if_pos hd).trans (if_pos (by simp [hsv, hf, hlow])), ?_⟩
    have hfld := ((s.modBudget l fun b => { b with deadline := false }).storeShed_shows l _ hv).1
    have hdl : (((s.modBudget l fun b => { b with deadline := false }).storeShed l (shedValue (s.lane l))).lane l).budget.deadline = false := by
      unfold State.storeShed
      dsimp only
      split <;> simp
    simp only [State.lane_modBudget]
    exact ⟨hdl, trivial, hfld, State.onlyLane_of_erase (by simp)⟩
  · intro h
    exact if_neg (by simp [h])
  · intro ha hv
    refine ⟨_, State.byWrite_served (f := fun st => st.storeBudget a v) ha, ?_⟩
    have hgo : ¬((v.truncate 24 : BitVec 24) = 0 && decide (s.dev.state = .run)) = true := by
      rcases hv with h | h <;> simp_all
    unfold State.storeBudget
    dsimp only
    rw [if_neg hgo]
    split
    · exact ⟨rfl, rfl, fun _ => ⟨rfl, rfl⟩⟩
    · next h => exact ⟨rfl, rfl, fun e => absurd e h⟩
  · intro ha hv hs
    refine ⟨_, State.byWrite_served (f := fun st => st.storeBudget a v) ha, ?_⟩
    have hsame : s.storeBudget a v = s := if_pos (by rw [Bool.and_eq_true, decide_eq_true_eq, decide_eq_true_eq]; exact ⟨hv, hs⟩)
    dsimp only
    rw [hsame]
    exact ⟨rfl, rfl⟩
  · intro hh hst hp
    refine ⟨_, (if_pos (by simp [hh, hst])).trans (if_neg hp), ?_⟩
    unfold State.askSwitch
    split
    · next h =>
      rw [Bool.or_eq_true] at h
      exact ⟨rfl, rfl, by simpa [hst] using h⟩
    · exact ⟨rfl, rfl, by simp⟩
  · intro hh hst hp
    refine ⟨_, (if_pos (by simp [hh, hst])).trans (if_pos hp), ?_⟩
    simp [State.onlyLane_of_erase]
  · intro h
    exact if_neg (by rcases h with h | h <;> simp [h])

end Sys2Proof.Machine

/-! Requests, contract changes and their messages (O43). -/
namespace Sys2Proof.Machine

section
variable (x : Lane) (now : Nat) (f : Frame) (rs : List RxSlot)

@[simp] theorem Lane.heard_cfg : (x.heard now f rs).cfg = x.cfg := rfl
@[simp] theorem Lane.heard_cc : (x.heard now f rs).cc = x.cc := rfl
@[simp] theorem Lane.heard_conv : (x.heard now f rs).conv = x.conv := rfl
@[simp] theorem Lane.heard_belay : (x.heard now f rs).belay = x.belay := rfl
@[simp] theorem Lane.heard_budget : (x.heard now f rs).budget = x.budget := rfl
@[simp] theorem Lane.heard_sect : (x.heard now f rs).sect = x.sect := rfl
@[simp] theorem Lane.heard_eprMode : (x.heard now f rs).con.eprMode = x.con.eprMode := rfl

end

section
variable (s : State) (l : LaneId) (m : TxSlot) (ams : Bool) (f : Frame)

-- the registers behind a SEND of the base image

theorem State.swapSent_cfg : ((s.swapSent l m).lane l).cfg = (s.lane l).cfg := by
  obtain ⟨p, w, h⟩ := s.swapSent_lane l m
  rw [h]

theorem State.sendStaged_cfg : ((s.sendStaged l).lane l).cfg = (s.lane l).cfg := by
  obtain ⟨p, w, h⟩ := s.sendStaged_lane l
  rw [h]

theorem State.imageSend_cfg : ((s.imageSend l ams f).lane l).cfg = (s.lane l).cfg.staged ams f := by
  refine ((s.modCfg l fun c => c.staged ams f).sendStaged_cfg l).trans ?_
  rw [State.lane_modCfg]

variable {s l f}

/-- The base image's Accept of a Request just heard (R82, R83). -/
theorem State.imageSend_acceptRequest {g : Frame} (h : s.takes l (ctl 3)) (hg : ((s.lane l).pd.unanswered.filter fun f => f.sop = .sop).getLast? = some g)
    (hd : isData g 2 = true) : ((s.imageSend l false (ctl 3)).lane l).pd.acceptPending = (s.lane l).pd.acceptPending ∧
    ((s.imageSend l false (ctl 3)).lane l).con = (s.lane l).con := by
  have hm : slotIs ((s.lane l).slotOf false (ctl 3)) 3 = true := by
    rw [slotIs_slotOf _ _ _ rfl]
    decide
  have hctl := (isData_plain hd).2.1
  refine ⟨?_, State.imageSend_con ..⟩
  rw [State.imageSend_taken false h]
  simp [State.swapSent, Lane.sends, hg, hm, hctl, hd]

/-- A lane that hears a data message answers it without an Accept. -/
theorem State.heard_answers (h : s.hears l f) {g : Frame} (hg : g.sop = .sop) (hd : isData g 15 = false) (ha : isCtl g 3 = false) :
    (((s.heard l f).imageSend l false g).lane l).says [g] ∧ (((s.heard l f).imageSend l false g).lane l).con.change = (s.lane l).con.change ∧
    s.onlyLanePosts ((s.heard l f).imageSend l false g) l := by
  obtain ⟨hs, -⟩ := State.imageSend_answers (s := s.heard l f) (l := l) (by simpa using h.2.2.2.2.1) (by simpa using h.2.2.1) hg hd ha
  exact ⟨hs, by rw [State.imageSend_con, State.heard_lane]; rfl, State.onlyLanePosts_of_erase (by simp)⟩

end

theorem ilimStored_lt (c v : Nat) (h : c < 256) : ilimStored c v < 256 := by
  unfold ilimStored clampNat
  split <;> omega

theorem isData_dataMsg (os : List Word) : isData (dataMsg 1 os) 15 = false := by
  have h : msgType (mkHeader 1 os.length) = 1 := by
    simp only [msgType, mkHeader, BitVec.toNat_ofNat]
    omega
  simp [isData, dataMsg, h]

-- the judgement of R82

section
variable {s : State} {l : LaneId} {f : Frame}

theorem judgeRequest_softReset (h : isData f 9 ≠ (s.lane l).con.eprMode) : judgeRequest s l f = .softReset := if_pos (by simpa using h)

theorem judgeRequest_reject (he : isData f 9 = (s.lane l).con.eprMode)
    (h : fld (obj f 0) 31 28 = 0 ∨ (s.lane l).con.offer.getD (fld (obj f 0) 31 28 - 1) 0 = 0) : judgeRequest s l f = .reject :=
  (if_neg (by simpa using he)).trans (if_pos (by rw [Bool.or_eq_true, decide_eq_true_eq, decide_eq_true_eq]; exact h))

/-- A Request of an offered Fixed object within its current is answered by the rows of R82 behind those that reject. -/
theorem judgeRequest_fixed {v i : Nat} (he : isData f 9 = (s.lane l).con.eprMode) (hn : isData f 9 = false) (hpos : fld (obj f 0) 31 28 ≠ 0)
    (ho : (s.lane l).con.offer.getD (fld (obj f 0) 31 28 - 1) 0 ≠ 0) (hr : readPdo ((s.lane l).con.offer.getD (fld (obj f 0) 31 28 - 1) 0) = .fixed v i)
    (hi : fld (obj f 0) 19 10 ≤ i) : judgeRequest s l f =
      if (s.lane l).cc.discRepeat && (decide (300 < fld (obj f 0) 19 10) || decide (4000 < v)) then .wait
      else if (s.lane l).con.armState = 1 || (s.lane l).con.armState = 2 then .wait
      else if (s.lane l).budget.ceil.toNat * 2000 < v * fld (obj f 0) 19 10 &&
        (s.lane l).con.vc * (if (s.lane l).con.kind = 3 then (s.lane l).cfg.rpCurrent else (s.lane l).con.curr.toNat) < v * fld (obj f 0) 19 10
      then .waitAndList else .accept := by
  have hle : ¬(pdoMaxI (.fixed v i) < fld (obj f 0) 19 10) := by
    simp only [pdoMaxI]
    omega
  unfold judgeRequest
  simp only [hr, readRdo]
  rw [if_neg (by simpa using he), if_neg (by rw [Bool.or_eq_true, decide_eq_true_eq, decide_eq_true_eq]; exact fun h => h.elim hpos ho), if_neg (by simp [hn]), if_neg (by simpa using hle), if_neg (by decide)]

end

section
variable {s : State} {l : LaneId} {f : Frame}

theorem judgeRequest_heard : judgeRequest (s.heard l f) l f = judgeRequest s l f := by
  unfold judgeRequest
  rw [State.heard_lane]
  rfl

/-- The contract change that an accepted Request opens, with the count of its power (R82, R83). -/
def State.opens (t : State) (l : LaneId) (f : Frame) : State :=
  (((t.modCon l fun y => { y with change := some (changeOf (t.lane l) f), rdo := obj f 0 }).modBudget l fun b =>
    { b with counted := Max.max (allocation t l) (Max.max 5 (deciWatt (changeOf (t.lane l) f).volt.toNat (changeOf (t.lane l) f).curr.toNat)) }).modPd l
      fun p => { p with acceptPending := true })

theorem State.answerRequest_accepts {t : State} (hj : judgeRequest t l f = .accept) (hb : bitOf (obj f 0) 26 = false) :
    t.answerRequest l f = (t.opens l f).imageSend l false (ctl 3) := by
  rw [State.answerRequest, hj]
  simp only [hb, Bool.false_eq_true, if_false]
  rfl

/-- A Request that a source hears is judged by R82. -/
theorem execRequest_hears (h : s.hears l f) (hd : isData f 2 = true ∨ isData f 9 = true) (hp : (s.lane l).swap.powerRole = true) :
    exec (.request l f) s = .next ((s.heard l f).answerRequest l f) := by
  have hheard : s.imageReceive l f (fun t => if (isData f 2 || isData f 9) && (t.lane l).swap.powerRole then t.answerRequest l f else t) =
      if (isData f 2 || isData f 9) && ((s.heard l f).lane l).swap.powerRole then (s.heard l f).answerRequest l f else s.heard l f := by
    rcases hd with hd | hd
    · obtain ⟨hx, hctl, hk⟩ := isData_plain hd
      exact State.imageReceive_hears _ h hx (hctl 13) (hk 3 (by decide))
    · obtain ⟨hx, hctl, hk⟩ := isData_plain hd
      exact State.imageReceive_hears _ h hx (hctl 13) (hk 3 (by decide))
  refine congrArg Host.Outcome.next (hheard.trans (if_pos ?_))
  rw [State.heard_lane, Lane.heard_swap, hp]
  rcases hd with hd | hd <;> simp [hd]

/-- A capability list on a lane outside EPR mode with nothing queued (R81). -/
theorem State.sendCapsNow_says {t : State} (hdr : (t.lane l).cc.discRepeat = false) (he : (t.lane l).con.eprMode = false)
    (hq : (t.lane l).pd.queue = []) (hh : (t.lane l).pd.hrPhase = .idle) :
    ((t.sendCapsNow l).lane l).says [dataMsg 1 (buildList t l false (twinCap (t.lane l) (t.lane l).sect.want))] ∧
    ((t.sendCapsNow l).lane l).con = { (t.lane l).con with capsCeil := (t.lane l).budget.ceil, holdT := none } := by
  have hs : t.sendCapsNow l = (t.modCon l fun c => { c with capsCeil := (t.lane l).budget.ceil, holdT := none }).imageSend l (t.lane l).con.valid
      (dataMsg 1 (buildList t l false (twinCap (t.lane l) (t.lane l).sect.want))) := by
    unfold State.sendCapsNow State.sendCaps
    simp [hdr, he]
  rw [hs]
  refine ⟨State.imageSend_says _ (State.takes_idle (by simpa using hq) (by simpa using hh) rfl (isData_dataMsg _)) (by simpa using hq), ?_⟩
  rw [State.imageSend_con, State.lane_modCon]

end

section
variable {s t : State} {l : LaneId} {f : Frame}

theorem buildList_heard (e : Bool) (c : Option Nat) : buildList (s.heard l f) l e c = buildList s l e c := by
  unfold buildList authRestricted
  rw [State.heard_lane, State.heard_sec]
  rfl

theorem isData_dataMsg2 (os : List Word) : isData (dataMsg 2 os) 15 = false := by
  have h : msgType (mkHeader 2 os.length) = 2 := by
    simp only [msgType, mkHeader, BitVec.toNat_ofNat]
    omega
  simp [isData, dataMsg, h]

/-- The one Fixed object of a list that lies within VCONV_MAX is the best of it (R116). -/
theorem bestFixed_one {vmax v i : Nat} {w : Word} (hr : readPdo w = .fixed v i) (hv : v ≤ vmax) : bestFixed vmax [w] = some (1, w) := by
  simp [bestFixed, List.range, List.range.loop, hr, Nat.not_lt.2 hv]

/-- A sink requests the one Fixed object that it is offered within VCONV_MAX, at REV_ILIM or the offered current (R116). -/
theorem State.requestAsSink_fixed {v i : Nat} {w : Word} (hr : readPdo w = .fixed v i) (hv : v ≤ fld (t.lane l).cfg.vconvMax 13 0)
    (he : (t.lane l).con.eprMode = false) (hq : (t.lane l).pd.queue = []) (hh : (t.lane l).pd.hrPhase = .idle) :
    ((t.requestAsSink l [w]).lane l).says [dataMsg 2 [packFields [(1, 28), (Min.min (revIlim (t.lane l).cfg) i, 10), (Min.min (revIlim (t.lane l).cfg) i, 0)]]] ∧
    ((t.requestAsSink l [w]).lane l).con = { (t.lane l).con with
      change := some { kind := 0, objPos := 1, volt := BitVec.ofNat 14 v, curr := BitVec.ofNat 10 (Min.min (revIlim (t.lane l).cfg) i), asSink := true },
      rdo := packFields [(1, 28), (Min.min (revIlim (t.lane l).cfg) i, 10), (Min.min (revIlim (t.lane l).cfg) i, 0)] } := by
  have hs : t.requestAsSink l [w] = (t.modCon l fun c => { c with
      change := some { kind := 0, objPos := 1, volt := BitVec.ofNat 14 v, curr := BitVec.ofNat 10 (Min.min (revIlim (t.lane l).cfg) i), asSink := true },
      rdo := packFields [(1, 28), (Min.min (revIlim (t.lane l).cfg) i, 10), (Min.min (revIlim (t.lane l).cfg) i, 0)] }).imageSend l false
      (dataMsg 2 [packFields [(1, 28), (Min.min (revIlim (t.lane l).cfg) i, 10), (Min.min (revIlim (t.lane l).cfg) i, 0)]]) := by
    unfold State.requestAsSink
    dsimp only
    rw [bestFixed_one hr hv]
    dsimp only
    rw [hr, he, if_neg (by decide)]
    rfl
  rw [hs]
  refine ⟨State.imageSend_says _ (State.takes_idle (by simpa using hq) (by simpa using hh) rfl (isData_dataMsg2 _)) (by simpa using hq), ?_⟩
  rw [State.imageSend_con, State.lane_modCon]

end

section
variable {s t : State} {l : LaneId} {f : Frame}

theorem State.swapSent_pd (u : State) (m : TxSlot) : ∃ b, ((u.swapSent l m).lane l).pd = { (u.lane l).pd with reqAccept := b } := by
  unfold State.swapSent
  split
  · split
    · exact ⟨_, rfl⟩
    · split
      · exact ⟨_, by rw [State.lane_modSwap]⟩
      · split
        · exact ⟨_, by rw [State.lane_modSwap]⟩
        · split
          · exact ⟨_, by rw [State.lane_modSwap]⟩
          · split
            · exact ⟨_, by rw [State.lane_modPd]⟩
            · exact ⟨_, rfl⟩
  · exact ⟨_, rfl⟩

/-- What a SEND of the base image that is not refused leaves of the message layer (R57). -/
theorem State.imageSend_pd {t : State} {f : Frame} (ams : Bool) (h : t.takes l f) : ∃ b, ((t.imageSend l ams f).lane l).pd =
    { (t.lane l).pd with queue := (t.lane l).pd.queue ++ [(t.lane l).slotOf ams f], nextTag := (t.lane l).pd.nextTag + 1, reqAccept := b } := by
  obtain ⟨b, hb⟩ := State.swapSent_pd (l := l) (t.setLane l { (t.lane l).sends ams f with swap := (t.lane l).swap }) ((t.lane l).slotOf ams f)
  rw [State.lane_setLane] at hb
  refine ⟨b, ?_⟩
  rw [State.imageSend_taken ams h]
  split
  · rw [State.lane_modSwap, hb]
    rfl
  · rw [hb]
    rfl

/-- A Soft_Reset voids an arm, notes a fallback owed, and leaves the rest of the lane (R101). -/
theorem State.softVoid_lane : ∃ c, (t.softVoid l).lane l = { t.lane l with con := c } ∧ c.change = (t.lane l).con.change ∧
    c.eprMode = (t.lane l).con.eprMode := by
  unfold State.softVoid State.voidArm
  dsimp only
  rw [State.lane_modCon]
  split
  · exact ⟨_, by rw [State.postLane_lane, State.lane_modCon], by simp, by simp⟩
  · exact ⟨_, rfl, rfl, rfl⟩

/-- A capability list on a lane outside EPR mode with a free slot (R81). -/
theorem State.sendCapsNow_pd (hdr : (t.lane l).cc.discRepeat = false) (he : (t.lane l).con.eprMode = false)
    (hq : (t.lane l).pd.queue.length < 2) (hh : (t.lane l).pd.hrPhase = .idle) : ∃ b, ((t.sendCapsNow l).lane l).pd =
    { (t.lane l).pd with
      queue := (t.lane l).pd.queue ++
        [(t.lane l).slotOf (t.lane l).con.valid (dataMsg 1 (buildList t l false (twinCap (t.lane l) (t.lane l).sect.want)))]
      nextTag := (t.lane l).pd.nextTag + 1, reqAccept := b } := by
  have hs : t.sendCapsNow l = (t.modCon l fun c => { c with capsCeil := (t.lane l).budget.ceil, holdT := none }).imageSend l (t.lane l).con.valid
      (dataMsg 1 (buildList t l false (twinCap (t.lane l) (t.lane l).sect.want))) := by
    unfold State.sendCapsNow State.sendCaps
    simp [hdr, he]
  obtain ⟨b, hb⟩ := (t.modCon l fun c => { c with capsCeil := (t.lane l).budget.ceil, holdT := none }).imageSend_pd (l := l)
    (f := dataMsg 1 (buildList t l false (twinCap (t.lane l) (t.lane l).sect.want))) (t.lane l).con.valid
    ⟨by simpa using hq, by simp [PdLane.hrBusy, hh], rfl, .inr (isPackWrite_staged _ l false _ (isData_dataMsg _))⟩
  exact ⟨b, by rw [hs, hb, State.lane_modCon]; rfl⟩

theorem serves_modCon (u : State) (g : ContractLane → ContractLane) : serves (u.modCon l g) l = serves u l := serves_setLane u l _ rfl

theorem serves_modPd (u : State) {g : PdLane → PdLane} (hg : ∀ p, (g p).arActive = p.arActive) : serves (u.modPd l g) l = serves u l :=
  serves_setLane u l _ (hg _)

theorem State.softVoid_serves : serves (t.softVoid l) l = serves t l := by
  unfold State.softVoid State.voidArm
  dsimp only
  rw [serves_modCon]
  split
  · rw [serves_postLane, serves_modCon]
  · rfl

/-- The lane behind a Soft_Reset that the base image has taken out of the FIFO (R54, R83, R101). -/
theorem State.receive_soft (h : s.hears l f) (hd : isCtl f 13 = true) : ∃ u, s.receive l f = (.stored, u) ∧ serves u l = true ∧
    u.erase 1 l = s.erase 1 l ∧ ∃ c a r, (u.takeNewest l).lane l =
      { s.lane l with
        con := c
        pd := { (s.lane l).pd with ack := a, rxId := (s.lane l).pd.rxId.set 0 none, txId := (s.lane l).pd.txId.set 0 0, unanswered := r } } ∧
      c.change = (s.lane l).con.change ∧ c.eprMode = (s.lane l).con.eprMode := by
  obtain ⟨hatt, hb, hh, -, hq, hfifo, hre, hs, hsop, hcrc, hid⟩ := h
  obtain ⟨hext, hdata, -⟩ := isCtl_plain hd
  have har : (s.lane l).pd.arActive = false := by simpa using (Bool.and_eq_true_iff.1 hs).1
  have hroom : hasRoom ((s.lane l).acked s.dev.dtime f) f = true := by simp [hasRoom, Lane.acked, hfifo, isChunk0_false hext]
  have hserv : serves (s.setLane l ((s.lane l).acked s.dev.dtime f)) l = true := (serves_setLane s l _ (by rfl)).trans hs
  obtain ⟨c, hw, hch, hep⟩ := State.softVoid_lane (t := s.setLane l ((s.lane l).acked s.dev.dtime f)) (l := l)
  have hvs := (State.softVoid_serves (t := s.setLane l ((s.lane l).acked s.dev.dtime f)) (l := l)).trans hserv
  have he : ((s.setLane l ((s.lane l).acked s.dev.dtime f)).softVoid l).erase 1 l = s.erase 1 l := by simp
  rw [State.lane_setLane] at hw hch hep
  unfold State.receive
  dsimp only
  rw [if_neg (by simp [hatt, hb, hsop, hcrc]), State.discardHead_nil hq, ite_self, State.acked_eq, State.lane_setLane,
    if_neg (by simp [hd]), if_neg (by simp [hroom])]
  generalize (s.setLane l ((s.lane l).acked s.dev.dtime f)).softVoid l = v at *
  simp only [hd, hsop, hext, hdata, Bool.false_and, Bool.and_false, Bool.false_eq_true, if_false, Bool.true_and, decide_true, if_true]
  generalize hz : v.modPd l _ = z
  have hzl : z.lane l = { s.lane l with con := c, pd := { ((s.lane l).acked s.dev.dtime f).pd with
      rxId := (s.lane l).pd.rxId.set 0 none, txId := (s.lane l).pd.txId.set 0 0 } } := by
    rw [← hz, State.lane_modPd, hw]
    rfl
  have hzs : serves z l = true := by rw [← hz, serves_modPd _ (by exact fun _ => rfl), hvs]
  have hze : z.erase 1 l = s.erase 1 l := by rw [← hz, State.erase_modPd, he]
  rw [State.abandonReasm_none (by rw [hzl]; exact hre), if_neg (by rw [hzl]; simp [Lane.acked, har])]
  have hn (u : State) : u.noteCaps l f = u := if_neg (by simp [hdata])
  rw [hn]
  generalize hy : (if arNamed (z.lane l) f = true then _ else z) = y
  have hyl : ∃ r, y.lane l = { z.lane l with pd := { (z.lane l).pd with unanswered := r } } := by
    rw [← hy]
    split
    · exact ⟨_, State.lane_modPd ..⟩
    · exact ⟨_, rfl⟩
  have hys : serves y l = true := by
    rw [← hy]
    split
    · rw [serves_modPd _ (by exact fun _ => rfl), hzs]
    · exact hzs
  have hye : y.erase 1 l = s.erase 1 l := by
    rw [← hy, ← hze]
    split <;> simp
  obtain ⟨r, hyl⟩ := hyl
  refine ⟨_, rfl, ?_, by rw [State.erase_fillSlot (hk := by decide), hye], c, some (ackFrame (s.lane l) f), r, ?_, hch, hep⟩
  · rw [State.fillSlot, serves_postLane, serves_modPd _ (by exact fun _ => rfl), hys]
  · rw [State.takeNewest, State.lane_modPd, State.fillSlot, State.postLane_lane, State.lane_modPd, hyl, hzl]
    simp [Lane.acked, hfifo]

/-- The base image acts on a Soft_Reset with the queue as it stood and both IDs of SOP clear (R54, R83). -/
theorem State.leads_softReset {P : State → Prop} (h : s.hears l f) (hd : isCtl f 13 = true)
    (hp : ∀ u : State, u.erase 1 l = s.erase 1 l → (∃ c a r, u.lane l =
      { s.lane l with
        con := c
        pd := { (s.lane l).pd with ack := a, rxId := (s.lane l).pd.rxId.set 0 none, txId := (s.lane l).pd.txId.set 0 0, unanswered := r } } ∧
      c.change = (s.lane l).con.change ∧ c.eprMode = (s.lane l).con.eprMode) →
      P (if changeRuns (u.lane l) then u.hardReset l
        else if (u.lane l).swap.powerRole then
          if armInForce (s.lane l) then
            if fld (u.lane l).cfg.umodeCtrl 23 16 ≠ 0 then (u.imageSend l false (ctl 3)).fallback l else ((u.imageSend l false (ctl 3)).sendCapsNow l).fallback l
          else (u.imageSend l false (ctl 3)).sendCapsNow l
        else u.imageSend l false (ctl 3))) : leads (.softReset l f) s P := by
  obtain ⟨u, hu, hs, he, hl⟩ := State.receive_soft h hd
  have hsop : f.sop = .sop := h.2.2.2.2.2.2.2.2.1
  refine ⟨_, rfl, ?_⟩
  unfold State.imageReceive
  rw [hu]
  dsimp only
  rw [if_pos hs, if_pos hd, hsop]
  simp only [decide_true, Bool.and_true]
  exact hp (u.takeNewest l) (by simpa using he) hl

end

section
variable {s t : State} {l : LaneId} {f : Frame}

/-- PS_RDY, queued or held, reaches none of the lane's limits (R83, R104). -/
theorem State.psReady_limits : ((s.psReady l).lane l).cfg.ilimSet = (s.lane l).cfg.ilimSet ∧ ((s.psReady l).lane l).cfg.convVset = (s.lane l).cfg.convVset := by
  unfold State.psReady
  dsimp only
  split
  · split
    · rw [State.lane_modCon]
      exact ⟨rfl, rfl⟩
    · rw [State.queuePsRdy, State.imageSend_cfg, State.lane_modCon]
      exact ⟨rfl, rfl⟩
  · exact ⟨rfl, rfl⟩

/-- Behind tSrcTransition a contract of more current has its limit and its voltage (R83, R143, R182). -/
theorem srcTransition_rises {d : Change} (hch : (s.lane l).con.change = some d) (hst : d.started = true) (hmv : d.moving = false) (hrd : d.ready = false)
    (hsk : d.asSink = false) (hsv : serves s l = true) (htw : (s.lane l).con.twinOn = false) (hval : (s.lane l).con.valid = true)
    (hlt : (s.lane l).con.curr.toNat < d.curr.toNat) : leads (.srcTransition l) s fun s' =>
      fld (s'.lane l).cfg.ilimSet 7 0 = ilimStored (fld (s.lane l).cfg.ilimSet 23 16) (ilimFor d.curr.toNat) ∧
      fld (s'.lane l).cfg.convVset 13 0 = Min.min d.volt.toNat (fld (s.lane l).cfg.vconvMax 13 0) ∧ s.onlyLanePosts s' l := by
  have hcur : contractIlim (s.lane l) d.kind d.curr.toNat = ilimFor d.curr.toNat := by simp [contractIlim, htw]
  have hi : ilimStored (fld (s.lane l).cfg.ilimSet 23 16) (ilimFor d.curr.toNat) < 2 ^ (7 + 1 - 0) := ilimStored_lt _ _ (fld_lt _ 23 16)
  have hv : Min.min d.volt.toNat (fld (s.lane l).cfg.vconvMax 13 0) < 2 ^ (13 + 1 - 0) := (Nat.min_le_right ..).trans_lt (fld_lt _ 13 0)
  obtain ⟨u, hu, h1, h2, he⟩ : ∃ u : State, exec (.srcTransition l) s = .next (if (u.lane l).conv.ramp then u else u.psReady l) ∧
      fld (u.lane l).cfg.ilimSet 7 0 = ilimStored (fld (s.lane l).cfg.ilimSet 23 16) (ilimFor d.curr.toNat) ∧
      fld (u.lane l).cfg.convVset 13 0 = Min.min d.volt.toNat (fld (s.lane l).cfg.vconvMax 13 0) ∧ u.erase 1 l = s.erase 1 l := by
    refine ⟨((((s.modCon l fun c => { c with change := some { d with moving := true } }).writeIlim l (ilimFor d.curr.toNat)).setFwd l d.curr.toNat).setVset
      l d.volt.toNat), ?_, ?_, ?_, by simp⟩
    · show execSrcTransition l s = _
      unfold execSrcTransition
      simp only [hch, hst, hmv, hrd, hsk, hsv, Bool.not_false, Bool.and_self, if_true, presentI, hval, hlt, hcur]
      exact (apply_ite Host.Outcome.next _ _ _).symm
    · simp only [State.setVset, State.setFwd, State.writeIlim, State.lane_modConv, State.lane_modCfg, State.lane_modCon]
      rw [fld_setFld_same (by decide) (by decide)]
      exact Nat.mod_eq_of_lt hi
    · simp only [State.setVset, State.setFwd, State.writeIlim, State.lane_modConv, State.lane_modCfg, State.lane_modCon]
      rw [fld_setFld_same (by decide) (by decide)]
      exact Nat.mod_eq_of_lt hv
  refine ⟨_, hu, ?_⟩
  split
  · exact ⟨h1, h2, State.onlyLanePosts_of_erase he⟩
  · obtain ⟨k1, k2⟩ := State.psReady_limits (s := u) (l := l)
    rw [k1, k2]
    exact ⟨h1, h2, State.onlyLanePosts_of_erase (by simpa using he)⟩

-- an extended message in one chunk

/-- The lane behind an extended message of one chunk that the base image has taken out of the FIFO (R62, R64). -/
theorem State.receive_chunk (h : s.hears l f) (hd : isChunk0 f = true) (hsize : exSize (extHeader f) ≤ 26) : ∃ u, s.receive l f = (.stored, u) ∧
    serves u l = true ∧ u.erase 1 l = s.erase 1 l ∧ (u.takeNewest l).erase 1 l = s.erase 1 l ∧ ∃ p, (u.takeNewest l).lane l =
      { s.lane l with con := ((s.lane l).acked s.dev.dtime f).con, pd := p } ∧ p.queue = [] ∧ p.hrPhase = .idle := by
  obtain ⟨hatt, hb, hh, -, hq, hfifo, hre, hs, hsop, hcrc, hid⟩ := h
  have har : (s.lane l).pd.arActive = false := by simpa using (Bool.and_eq_true_iff.1 hs).1
  obtain ⟨⟨⟨hx, hc⟩, hr⟩, h0⟩ : ((isExtended f.header = true ∧ exChunked (extHeader f) = true) ∧ exRequest (extHeader f) = false) ∧ exChunk (extHeader f) = 0 := by
    simpa [isChunk0] using hd
  have hctl (n : Nat) : isCtl f n = false := by simp [isCtl, hx]
  have hdata (n : Nat) : isData f n = false := by simp [isData, hx]
  have hroom : hasRoom ((s.lane l).acked s.dev.dtime f) f = true := by simp [hasRoom, Lane.acked, hfifo]
  have hserv : serves (s.setLane l ((s.lane l).acked s.dev.dtime f)) l = true := (serves_setLane s l _ (by rfl)).trans hs
  unfold State.receive
  dsimp only
  rw [if_neg (by simp [hatt, hb, hsop, hcrc]), State.discardHead_nil hq, ite_self, State.acked_eq, State.lane_setLane,
    if_neg (by rw [hsop, hctl, Bool.not_false, Bool.true_and, decide_eq_true_iff]; exact hid), if_neg (by simp [hroom])]
  simp only [hx, hc, hr, hctl, hdata, Bool.and_self, Bool.and_false, Bool.true_and, Bool.false_and, Bool.false_eq_true, if_false, if_true]
  generalize hz : (s.setLane l ((s.lane l).acked s.dev.dtime f)).modPd l _ = z
  have hzl : ∃ r, z.lane l = { s.lane l with con := ((s.lane l).acked s.dev.dtime f).con, pd := { ((s.lane l).acked s.dev.dtime f).pd with rxId := r } } := by
    rw [← hz, State.lane_modPd, State.lane_setLane]
    exact ⟨_, rfl⟩
  have hzs : serves z l = true := by rw [← hz, serves_modPd _ (by exact fun _ => rfl), hserv]
  have hze : z.erase 1 l = s.erase 1 l := by rw [← hz]; simp
  obtain ⟨r, hzl⟩ := hzl
  rw [if_neg (by rw [hzl]; simp [Lane.acked, hre]), State.abandonReasm_none (by rw [hzl]; exact hre), if_neg (by rw [hzl]; simp [Lane.acked, har])]
  generalize hy : (if arNamed (z.lane l) f = true then _ else z) = y
  have hyl : ∃ r, y.lane l = { z.lane l with pd := { (z.lane l).pd with unanswered := r } } := by
    rw [← hy]
    split
    · exact ⟨_, State.lane_modPd ..⟩
    · exact ⟨_, rfl⟩
  have hys : serves y l = true := by
    rw [← hy]
    split
    · rw [serves_modPd _ (by exact fun _ => rfl), hzs]
    · exact hzs
  have hye : y.erase 1 l = s.erase 1 l := by
    rw [← hy, ← hze]
    split <;> simp
  obtain ⟨q, hyl⟩ := hyl
  have hf : y.firstChunk l f = (y.modPd l fun p => { p with rxBuf := putChunk p.rxBuf 0 (exSize (extHeader f)) f }).fillSlot l true
      { f with objs := [(extHeader f).zeroExtend 32] } := by
    unfold State.firstChunk
    dsimp only
    rw [if_neg (by simp [hc]), if_neg (by simp [h0]), if_neg (by omega), if_pos hsize]
  have hlen : (y.lane l).pd.fifo.length < ((y.firstChunk l f).lane l).pd.fifo.length := by
    rw [hf, State.fillSlot, State.postLane_lane, State.lane_modPd, State.lane_modPd]
    simp
  rw [if_pos hlen, hf]
  refine ⟨_, rfl, ?_, by simpa using hye, by simpa using hye, ?_⟩
  · rw [State.fillSlot, serves_postLane, serves_modPd _ (by exact fun _ => rfl), serves_modPd _ (by exact fun _ => rfl), hys]
  · rw [State.takeNewest, State.lane_modPd, State.fillSlot, State.postLane_lane, State.lane_modPd, State.lane_modPd, hyl, hzl]
    exact ⟨_, rfl, hq, hh⟩

/-- EPR_KeepAlive_Ack takes a free slot of an empty queue (R65, R85). -/
theorem State.keepAliveAck_queue (hq : (t.lane l).pd.queue = []) (hh : (t.lane l).pd.hrPhase = .idle) :
    ((t.imageSendExt l false 16 [4, 0]).lane l).pd.queue.map (fun m => m.ext) = [true] := by
  unfold State.imageSendExt
  simp only [hq, List.any_nil, Bool.false_eq_true, if_false]
  generalize hu : (t.modPd l fun p => { p with txBuf := memWriteList p.txBuf 0 [4, 0] }) = u
  have hul : (u.lane l).pd.queue = [] ∧ (u.lane l).pd.hrPhase = .idle := by
    rw [← hu, State.lane_modPd]
    exact ⟨hq, hh⟩
  obtain ⟨huq, huh⟩ := hul
  generalize hw : (BitVec.ofNat 32 ((mkHeader 16 0).toNat + 0x8000 + 65536 * (0x8000 + [(4 : Byte), 0].length)) : Word) = w
  have hd : fld w 24 16 = 2 ∧ isExtended (w.truncate 16) = true := by
    rw [← hw]
    decide
  obtain ⟨hw1, hw2⟩ := hd
  have hc : fld (packFields [(b2n false, 5), (1, 4)]) 1 0 = 0 ∧ bitOf (packFields [(b2n false, 5), (1, 4)]) 4 = true ∧
      bitOf (packFields [(b2n false, 5), (1, 4)]) 5 = false := by decide
  obtain ⟨hc1, hc2, hc3⟩ := hc
  generalize packFields [(b2n false, 5), (1, 4)] = k at *
  unfold State.sendStaged
  dsimp only
  rw [State.lane_modCfg]
  have hr : sendRefused (u.modCfg l fun c => { c with txData := (Vector.replicate 8 0).set 0 w, txCtrl := k }) l = false := by
    have hp : isPackWrite (u.modCfg l fun c => { c with txData := (Vector.replicate 8 0).set 0 w, txCtrl := k }) l = false := by
      simp [isPackWrite, hw2]
    simp [sendRefused, hw1, hc1, hc2, huq, huh, PdLane.hrBusy]
    exact fun _ => hp
  rw [hr, hc3, Bool.false_and, if_neg (by decide), if_neg (by decide), State.swapSent_queue, State.lane_modPd, State.lane_modCfg, huq]
  simp [hc2]

/-- A lane that hears EPR_KeepAlive in one chunk answers with an extended message, and its deadline starts again (R85). -/
theorem eprKeepalive_hears (h : s.hears l f) (hd : isExtCtl f 3 = true) (hsize : exSize (extHeader f) = 2) : leads (.eprKeepalive l f) s fun s' =>
    (s'.lane l).pd.queue.map (fun m => m.ext) = [true] ∧ ((s.lane l).con.kaKind = 2 → (s'.lane l).con.kaStart = s.dev.dtime) ∧ s.onlyLanePosts s' l := by
  have hsop : f.sop = .sop := h.2.2.2.2.2.2.2.2.1
  have hd0 : isChunk0 f = true := by simp only [isExtCtl, Bool.and_eq_true] at hd; exact hd.1.1
  obtain ⟨u, hu, hs, -, he, p, hl, hq, hh⟩ := State.receive_chunk h hd0 (by omega)
  refine ⟨(u.takeNewest l).imageSendExt l false 16 [4, 0], ?_, ?_⟩
  · show Host.Outcome.next _ = Host.Outcome.next _
    unfold State.imageReceive
    rw [hu]
    dsimp only
    rw [if_pos hs, if_pos hd]
  · generalize u.takeNewest l = v at *
    have hc := State.imageSendExt_lane v l false 16 [4, 0]
    obtain ⟨c, p', w, hc⟩ := hc
    refine ⟨?_, ?_, State.onlyLanePosts_of_erase (by simpa using he)⟩
    · exact State.keepAliveAck_queue (by rw [hl]; exact hq) (by rw [hl]; exact hh)
    · intro hk
      rw [hc, hl]
      simp [Lane.acked, hk, hsop]

end

/-- Settles O43: a Request by the rows of R82 in their order, the other messages by what the base image does with them once heard. -/
theorem contracts : Obligations.Contracts := by
  unfold Obligations.Contracts
  intro l f v i d s
  refine ⟨?_, ?_, ?_, ?_, ?_, ?_, ?_, ?_, ?_, ?_, ?_, ?_, ?_, ?_, ?_, ?_, ?_⟩
  · intro h hd hp he
    refine ⟨_, execRequest_hears h hd hp, ?_⟩
    rw [State.answerRequest, judgeRequest_heard, judgeRequest_softReset he]
    exact State.heard_answers h rfl (by decide) (by decide)
  · intro h hd hp he ho
    have h9 : isData f 9 = false := (isData_plain hd).2.2 9 (by decide)
    refine ⟨_, execRequest_hears h (.inl hd) hp, ?_⟩
    rw [State.answerRequest, judgeRequest_heard, judgeRequest_reject (h9.trans he.symm) ho]
    exact State.heard_answers h rfl (by decide) (by decide)
  · intro h hd hp he hpos ho hr hi ha
    have h9 : isData f 9 = false := (isData_plain hd).2.2 9 (by decide)
    refine ⟨_, execRequest_hears h (.inl hd) hp, ?_⟩
    have hj : judgeRequest s l f = .wait := by
      rw [judgeRequest_fixed (h9.trans he.symm) h9 hpos ho hr hi]
      split
      · rfl
      · exact if_pos (by rcases ha with h | h <;> simp [h])
    rw [State.answerRequest, judgeRequest_heard, hj]
    exact State.heard_answers h rfl (by decide) (by decide)
  · intro h hd hp he hpos ho hr hi ha hdr hc hb
    have h9 : isData f 9 = false := (isData_plain hd).2.2 9 (by decide)
    refine ⟨_, execRequest_hears h (.inl hd) hp, ?_⟩
    have hj : judgeRequest s l f = .accept := by
      rw [judgeRequest_fixed (h9.trans he.symm) h9 hpos ho hr hi, hdr]
      exact (if_neg (by simp)).trans ((if_neg (by simp [ha])).trans (if_neg (by simp; omega)))
    have hc : changeOf ((s.heard l f).lane l) f =
        { kind := 0, objPos := BitVec.ofNat 4 (fld (obj f 0) 31 28), volt := BitVec.ofNat 14 v, curr := BitVec.ofNat 10 (fld (obj f 0) 19 10) } := by
      rw [State.heard_lane]
      unfold changeOf
      have hr' : readPdo (((s.lane l).heard s.dev.dtime f []).con.offer.getD (fld (obj f 0) 31 28 - 1) 0) = .fixed v i := hr
      simp only [hr', readRdo, pdoKind, Lane.heard_eprMode, he]
    have hlast := Lane.heard_last (s.lane l) s.dev.dtime [] (f := f) (by simp [arNamed, h.2.2.2.2.2.2.2.2.1, hd]) h.2.2.2.2.2.2.2.2.1
    have ho' : ((s.heard l f).opens l f).takes l (ctl 3) :=
      State.takes_idle (by simpa [State.opens] using h.2.2.2.2.1) (by simpa [State.opens] using h.2.2.1) rfl (by decide)
    obtain ⟨hpend, hcon⟩ := State.imageSend_acceptRequest ho' (by simpa [State.opens] using hlast) hd
    rw [State.answerRequest_accepts (judgeRequest_heard.trans hj) hb]
    refine ⟨State.imageSend_says false ho' (by simpa [State.opens] using h.2.2.2.2.1), ?_, ?_, ?_, State.onlyLanePosts_of_erase (by simp [State.opens])⟩
    · rw [hpend]
      simp [State.opens]
    · rw [hcon]
      simp [State.opens]
    · rw [hcon, State.opens, hc]
      simp
  · intro hch hst hmv hrd hsk hsv htw hval hlt
    exact srcTransition_rises hch hst hmv hrd hsk hsv htw hval hlt
  · rintro (h | h)
    · show execSrcTransition l s = _
      rw [execSrcTransition, h]
    · show execSrcTransition l s = _
      unfold execSrcTransition
      dsimp only
      split
      · exact if_neg (by simp [serves, h])
      · rfl
  · intro hf h5 hsv
    refine ⟨_, (if_pos (by simp [h5, hsv])).trans (by rw [hf]), ?_⟩
    have hi : ilimStored (fld (s.lane l).cfg.ilimSet 23 16) 20 < 256 := ilimStored_lt _ _ (fld_lt _ 23 16)
    simp only [State.setFwd, State.writeIlim, State.lane_modConv, State.lane_modCfg, State.lane_modBudget, State.lane_modCon]
    rw [fld_setFld_same (by decide) (by decide), fld_setFld_same (by decide) (by decide)]
    exact ⟨Nat.mod_eq_of_lt hi, Nat.mod_eq_of_lt (by omega), trivial, trivial, State.onlyLane_of_erase (by simp)⟩
  · intro h hd hch hp he ha hdr
    refine State.leads_softReset h hd fun u hu ⟨c, a, r, hl, hc, hm⟩ => ?_
    have ht : u.takes l (ctl 3) := State.takes_idle (by rw [hl]; exact h.2.2.2.2.1) (by rw [hl]; exact h.2.2.1) rfl (by decide)
    rw [if_neg (by rw [hl, changeRuns, hc]; exact Bool.eq_false_iff.1 hch), if_pos (by rw [hl]; exact hp), if_neg (by simp [armInForce, ha])]
    obtain ⟨b, hb⟩ := State.imageSend_pd false ht
    obtain ⟨b', hb'⟩ := State.sendCapsNow_pd (t := u.imageSend l false (ctl 3)) (l := l) (by rw [State.imageSend_cc, hl]; exact hdr)
      (by rw [State.imageSend_con, hl]; exact hm.trans he) (by rw [hb, hl]; simp [h.2.2.2.2.1]) (by rw [hb, hl]; exact h.2.2.1)
    rw [hb', hb, hl]
    refine ⟨by simp [h.2.2.2.2.1], by simp [h.2.2.2.2.1, Lane.slotOf], ?_, ?_, State.onlyLanePosts_of_erase (by simpa using hu)⟩
    · exact (Vector.get_eq_getElem _ _).trans (Vector.getElem_set_self ..)
    · exact (Vector.get_eq_getElem _ _).trans (Vector.getElem_set_self ..)
  · intro h hd hch hc
    refine State.leads_softReset h hd fun u hu ⟨c, a, r, hl, hc', hm⟩ => ?_
    rw [if_pos (by rw [hl, changeRuns, hc']; exact hch)]
    have hr : u.hardReset l = u.modPd l fun p => p.signal .normal :=
      (if_neg (by simp [hl, h.1, PdLane.hrBusy, h.2.2.1])).trans (if_neg (by rw [hl]; exact Nat.not_le.2 hc))
    rw [hr]
    simp [PdLane.signal, hl, h.2.2.2.2.1, State.onlyLanePosts_of_erase, hu]
  · intro h hd hp he hdr
    refine State.leads_ctl rfl h hd (by decide) ?_
    rw [if_pos (by rw [State.heard_lane, Lane.heard_swap, hp, hd]; rfl)]
    obtain ⟨hs, hcon⟩ := State.sendCapsNow_says (t := s.heard l f) (l := l) (by simpa using hdr) (by simpa using he) (by simpa using h.2.2.2.2.1) (by simpa using h.2.2.1)
    refine ⟨?_, by rw [hcon, State.heard_lane]; rfl, State.onlyLanePosts_of_erase (by simp)⟩
    rw [buildList_heard, State.heard_lane] at hs
    exact hs
  · intro h hd hp hh he hb hobjs hr hv
    refine State.leads_data rfl h hd (by decide) ?_
    obtain ⟨hs, hcon⟩ := State.requestAsSink_fixed (t := s.heard l f) (l := l) (w := obj f 0) (by simpa using hr) (by simpa using hv) (by simpa using he)
      (by simpa using h.2.2.2.2.1) (by simpa using h.2.2.1)
    have hq : (s.heard l f).onSourceCaps l f = (s.heard l f).requestAsSink l [obj f 0] := by
      unfold State.onSourceCaps
      simp only [State.heard_lane, Lane.heard_swap, hp, hh, hd, hb, Bool.or_false, Bool.false_eq_true, if_false, if_true, Bool.false_and, ← hobjs]
    rw [hq]
    rw [State.heard_lane] at hs hcon
    refine ⟨hs, ?_, ?_, State.onlyLanePosts_of_erase (by simp)⟩
    · rw [hcon]
      simp [Lane.heard, Lane.acked, hd, h.2.2.2.2.2.2.2.2.1, hp]
    · rw [hcon]
      rfl
  · intro h hd hx
    exact eprKeepalive_hears h hd hx.2.2
  · intro hk hp hh hatt hhr hc
    refine ⟨_, if_pos (by simp only [hp, hh, hk, ne_eq, not_false_eq_true, decide_true, Bool.true_and, Bool.not_false]), ?_⟩
    have hr : (s.postLane l 3).hardReset l = (s.postLane l 3).modPd l fun p => p.signal .normal :=
      (if_neg (by simp [hatt, PdLane.hrBusy, hhr])).trans (if_neg (by rw [State.postLane_lane]; omega))
    rw [hr]
    simp [PdLane.signal, State.onlyLanePosts_of_erase]
  · intro h
    exact if_neg (by rcases h with h | h <;> simp [h])
  · intro hp hval hh hk
    refine ⟨_, (if_neg (by simp [hp, hval, hh])).trans (if_pos hk), ?_⟩
    simp [State.hwSend, State.onlyLane_of_erase]
  · intro h hd ha hp hval
    refine State.leads_data rfl h hd (by decide) ?_
    have hr : eprRefusal (s.heard l f) l = some 3 := if_pos (by simp [Lane.heard, Lane.acked, hval])
    unfold State.onEprMode
    simp only [hd, ha, State.heard_lane, Lane.heard_swap, hp, hr, Bool.not_true, Bool.false_eq_true, if_false]
    obtain ⟨hs, -⟩ := State.imageSend_answers (s := s.heard l f) (l := l) (g := eprModeMsg 4 3) (by simpa using h.2.2.2.2.1) (by simpa using h.2.2.1) rfl (by decide) (by decide)
    refine ⟨hs, ?_, State.onlyLanePosts_of_erase (by simp)⟩
    rw [State.imageSend_con, State.heard_lane]
    rfl
  · intro h hd ha hp hdr
    refine State.leads_data rfl h hd (by decide) ?_
    unfold State.onEprMode
    simp only [hd, ha, State.heard_lane, Lane.heard_swap, hp, Bool.not_true, Bool.false_eq_true, if_false, if_true]
    obtain ⟨hs, hcon⟩ := State.sendCapsNow_says (t := (s.heard l f).modCon l fun c => { c with eprMode := false, eprEntry := 0, kaKind := if c.kind = 1 then 1 else 0 }) (l := l) (by simpa using hdr) (by simp) (by simpa using h.2.2.2.2.1) (by simpa using h.2.2.1)
    rw [hcon]
    refine ⟨by simp, by simp, ?_, State.onlyLanePosts_of_erase (by simp)⟩
    have hlen := congrArg List.length hs
    rw [List.length_map, List.length_map] at hlen
    exact hlen

end Sys2Proof.Machine

/-! The Twin arm, its answers and the switch (O45). -/
namespace Sys2Proof.Machine

section
variable (x : Lane) (now : Nat) (f : Frame) (rs : List RxSlot)

@[simp] theorem Lane.heard_armState : (x.heard now f rs).con.armState = x.con.armState := rfl
@[simp] theorem Lane.heard_armedId : (x.heard now f rs).con.armedId = x.con.armedId := rfl
@[simp] theorem Lane.heard_armT : (x.heard now f rs).con.armT = x.con.armT := rfl

end

section
variable (s : State) (l : LaneId)

-- what the parts of a Twin switch leave of the contract and of the load

@[simp] theorem State.amsEnd_dtime : (s.amsEnd l).dev.dtime = s.dev.dtime := by
  unfold State.amsEnd State.amsFail
  dsimp only
  repeat' split
  all_goals simp

/-- A capability list changes the ceiling it was made for, and the time of a hold, and nothing else beyond a SEND (R97). -/
theorem State.sendCaps_lane (run : Bool) :
    ∃ c p w n t, (s.sendCaps l run).lane l = { s.lane l with cfg := c, pd := p, swap := w, con := { (s.lane l).con with capsCeil := n, holdT := t } } := by
  unfold State.sendCaps
  dsimp only
  split
  · rw [State.lane_modCon]
    exact ⟨_, _, _, _, _, rfl⟩
  · split
    · obtain ⟨c, p, w, h⟩ := (s.modCon l fun c => { c with capsCeil := (s.lane l).budget.ceil, holdT := none }).imageSendExt_lane l true 17 _
      rw [h, State.lane_modCon]
      exact ⟨_, _, _, _, _, rfl⟩
    · obtain ⟨c, p, w, h⟩ := (s.modCon l fun c => { c with capsCeil := (s.lane l).budget.ceil, holdT := none }).imageSend_lane l _ _
      rw [h, State.lane_modCon]
      exact ⟨_, _, _, _, _, rfl⟩

/-- The fallback notes itself and what its list needs, and leaves the rest of the contract (R104). -/
theorem State.fallback_con : ∃ b d n t, ((s.fallback l).lane l).con = { (s.lane l).con with fellBack := b, fallDue := d, capsCeil := n, holdT := t } := by
  unfold State.fallback
  dsimp only
  split
  · exact ⟨_, _, _, _, rfl⟩
  · split
    · rw [State.lane_modCon]
      exact ⟨_, _, _, _, rfl⟩
    · generalize hu : (s.modCon l fun c => { c with fellBack := true, fallDue := false }) = u
      have hul : (u.lane l).con = { (s.lane l).con with fellBack := true, fallDue := false } := by
        rw [← hu, State.lane_modCon]
      split
      · obtain ⟨c, p, w, n, t, h⟩ := u.sendCaps_lane l false
        rw [State.lane_modBudget]
        unfold State.shedRecord
        dsimp only
        rw [State.logSw_lane, State.lane_modBudget, h]
        dsimp only
        rw [hul]
        exact ⟨_, _, _, _, rfl⟩
      · split
        · obtain ⟨c, p, w, n, t, h⟩ := u.sendCaps_lane l (s.lane l).con.armedTarget
          rw [State.lane_modCon, h]
          dsimp only
          rw [hul]
          exact ⟨_, _, _, _, rfl⟩
        · unfold State.armMissed
          split
          · rw [State.logSw_lane, hul]
            exact ⟨_, _, _, _, rfl⟩
          · rw [State.postLane_lane, State.lane_modSect, State.logSw_lane]
            dsimp only
            rw [hul]
            exact ⟨_, _, _, _, rfl⟩

/-- TWIN_ARM or TWIN_DISARM marks the command that waits for its answer, or is owed, and leaves the rest of the contract (R98, R100). -/
theorem State.sendTwin_con (k : BitVec 5) : ∃ c o, ((s.sendTwin l k).lane l).con = { (s.lane l).con with armCmd := c, twinOwed := o } := by
  unfold State.sendTwin
  dsimp only
  split
  · split
    · rw [State.imageSend_con, State.lane_modCon]
      exact ⟨_, _, rfl⟩
    · rw [State.imageSend_con, State.lane_modCon]
      exact ⟨_, _, rfl⟩
  · rw [State.lane_modCon]
    exact ⟨_, _, rfl⟩

/-- The limits of a Twin contract, written by lane hardware (R103, R141, R199). -/
theorem State.limits_shows (i c : Nat) :
    fld (((s.writeIlim l i).setFwd l c).lane l).cfg.ilimSet 7 0 = ilimStored (fld (s.lane l).cfg.ilimSet 23 16) i ∧
    fld (((s.writeIlim l i).setFwd l c).lane l).cfg.convIset 9 0 = Min.min c 700 := by
  have hi := ilimStored_lt (fld (s.lane l).cfg.ilimSet 23 16) i (fld_lt _ 23 16)
  simp only [State.setFwd, State.writeIlim, State.lane_modConv, State.lane_modCfg]
  rw [fld_setFld_same (by decide) (by decide), fld_setFld_same (by decide) (by decide)]
  exact ⟨Nat.mod_eq_of_lt hi, Nat.mod_eq_of_lt (by omega)⟩

@[simp] theorem State.feedForward_con (b : Bool) : ((s.feedForward l b).lane l).con = (s.lane l).con := by
  unfold State.feedForward
  dsimp only
  split <;> simp

theorem State.loadMoves_sect (t : Nat) (on : Bool) : ((s.loadMoves l t on).lane l).sect.loads.getLast?.map (·.2) = some on := by
  simp [State.loadMoves, State.loadChanges]

@[simp] theorem State.loadMoves_con (t : Nat) (on : Bool) : ((s.loadMoves l t on).lane l).con = (s.lane l).con := by
  simp [State.loadMoves, State.loadChanges]

/-- What the switch leaves of the contract, and the load that it moves (R103, R241). -/
theorem State.switchNow_shows (run : Bool) :
    let y := (s.switchNow l run).lane l
    y.con.armState = 3 ∧ y.con.curr = BitVec.ofNat 10 (if run then fld (s.lane l).cfg.twinRun 9 0 else fld (s.lane l).cfg.twinStandby 9 0) ∧
      y.con.switchCnt = (s.lane l).con.switchCnt + 1 ∧ y.con.standbyWait = !run ∧ y.sect.loads.getLast?.map (·.2) = some run ∧
      s.onlyLanePosts (s.switchNow l run) l := by
  have he : (s.switchNow l run).erase 1 l = s.erase 1 l := by simp
  intro y
  obtain ⟨u, hc, hsect, hu⟩ : ∃ u : State, (u.lane l).con = { (s.lane l).con with
      curr := BitVec.ofNat 10 (if run then fld (s.lane l).cfg.twinRun 9 0 else fld (s.lane l).cfg.twinStandby 9 0), armState := 3
      switchCnt := (s.lane l).con.switchCnt + 1, runStep := false, standbyWait := !run, armCmd := none } ∧
      (u.lane l).sect.loads.getLast?.map (·.2) = some run ∧
      s.switchNow l run = if serves u l then u.sendCaps l run else u.modCon l fun c => { c with capsDue := true } := by
    refine ⟨_, ?_, ?_, rfl⟩
    · split <;> simp
    · split
      · rw [State.lane_modTally]
        exact State.loadMoves_sect ..
      · rw [State.lane_modBudget, State.lane_modTally]
        exact State.loadMoves_sect ..
  have hy : ∃ n t d, y.con = { (u.lane l).con with capsCeil := n, holdT := t, capsDue := d } ∧ y.sect = (u.lane l).sect := by
    show ∃ n t d, ((s.switchNow l run).lane l).con = _ ∧ ((s.switchNow l run).lane l).sect = _
    rw [hu]
    split
    · obtain ⟨c, p, w, n, t, h⟩ := u.sendCaps_lane l run
      rw [h]
      exact ⟨n, t, _, rfl, rfl⟩
    · rw [State.lane_modCon]
      exact ⟨_, _, true, rfl, rfl⟩
  obtain ⟨n, t, d, hy, hys⟩ := hy
  rw [hy, hys, hc]
  exact ⟨rfl, rfl, rfl, rfl, hsect, State.onlyLanePosts_of_erase he⟩

variable {s l}

/-- An arm in force that is voided leaves ARM_STATE 4 with its cause, behind the fallback too (R101, R104). -/
theorem State.voidBack_con {k : BitVec 2} (h : (s.lane l).con.armState = 1 ∨ (s.lane l).con.armState = 2) :
    ((s.voidBack l k).lane l).con.armState = 4 ∧ ((s.voidBack l k).lane l).con.voidCause = k ∧ ((s.voidBack l k).lane l).con.armCmd = none := by
  have hf : armInForce (s.lane l) = true := by rcases h with h | h <;> simp [armInForce, h]
  unfold State.voidBack
  rw [if_pos hf]
  obtain ⟨b, d, n, t, hb⟩ := (s.voidArm l k).fallback_con l
  rw [hb]
  unfold State.voidArm
  rw [if_pos hf, State.postLane_lane, State.lane_modCon]
  exact ⟨rfl, rfl, rfl⟩

/-- A lane that has fallen back, or whose core does not serve it, makes no message of a void (R104). -/
theorem State.erase_voidBack_quiet {k : BitVec 2} (h : (s.lane l).con.fellBack = true ∨ serves s l = false) : (s.voidBack l k).erase 1 l = s.erase 1 l := by
  unfold State.voidBack
  split
  · next hf =>
    have hv : (s.voidArm l k).erase 1 l = s.erase 1 l := by simp
    refine Eq.trans ?_ hv
    unfold State.fallback
    dsimp only
    split
    · rfl
    · next hn =>
      rw [if_pos]
      · simp
      · rcases h with h | h
        · refine absurd ?_ hn
          have : ((s.voidArm l k).lane l).con.fellBack = true := by
            unfold State.voidArm
            rw [if_pos hf, State.postLane_lane, State.lane_modCon]
            exact h
          simp [this]
        · have : serves (s.voidArm l k) l = serves s l := by
            unfold State.voidArm
            rw [if_pos hf, serves_postLane, serves_modCon]
          simp [this, h]
  · rfl

-- a TWIN_DISARM is no write of the pack record

theorem stagedVdm_stageWords {f : Frame} {w : Word} {os : List Word} (h : f.objs = w :: os) : stagedVdm (stageWords f) = w := by
  obtain ⟨p, hd, fs⟩ := f
  subst h
  have h0 : ((stageWords { sop := p, header := hd, objs := w :: os })[0] >>> 16).toNat = w.toNat % 2 ^ 16 := by
    have hw := w.isLt
    have hh := hd.isLt
    simp only [stageWords, Vector.getElem_ofFn, frameBytes, wordAt, BitVec.truncate_eq_setWidth, BitVec.toNat_setWidth, BitVec.toNat_ofNat,
      BitVec.toNat_ushiftRight, Nat.shiftRight_eq_div_pow, Nat.mul_zero, List.drop_zero, List.cons_append, List.nil_append, List.flatMap_cons,
      List.getElem?_cons_zero, List.getElem?_cons_succ]
    omega
  have h1 : ((stageWords { sop := p, header := hd, objs := w :: os })[1] <<< 16).toNat = (w.toNat / 2 ^ 16) <<< 16 := by
    have hw := w.isLt
    simp only [stageWords, Vector.getElem_ofFn, frameBytes, wordAt, BitVec.truncate_eq_setWidth, BitVec.toNat_setWidth, BitVec.toNat_ofNat,
      BitVec.toNat_ushiftRight, BitVec.toNat_shiftLeft, Nat.shiftRight_eq_div_pow, Nat.shiftLeft_eq, Nat.mul_one, List.drop_succ_cons, List.drop_zero,
      List.cons_append, List.nil_append, List.flatMap_cons, List.getElem?_cons_zero, List.getElem?_cons_succ]
    omega
  apply BitVec.eq_of_toNat_eq
  rw [stagedVdm, BitVec.toNat_or, h0, h1, Nat.or_comm, ← Nat.shiftLeft_add_eq_or_of_lt (Nat.mod_lt _ (Nat.two_pow_pos 16)), Nat.shiftLeft_eq]
  omega

theorem vdmReq_cmd {svid : Nat} : fld (packFields [(svid, 16), (1, 15), (1, 13), (1, 8), (20, 0)]) 4 0 = 20 := by
  simp (disch := omega) only [packFields, fld_or, fld_shifted_above, fld_shifted_at, fld_zero, Nat.zero_or, Nat.or_zero]

/-- A TWIN_DISARM is not refused for a low VSYS (R91, R136). -/
theorem State.takes_twinDisarm {t : State} {svid : Nat} {os : List Word} (hq : (t.lane l).pd.queue = []) (hh : (t.lane l).pd.hrPhase = .idle) :
    t.takes l (vdmReq svid 20 1 os) := by
  refine ⟨by simp [hq], by simp [PdLane.hrBusy, hh], rfl, .inr ?_⟩
  simp only [isPackWrite, State.lane_modCfg, LaneCfg.staged]
  rw [stagedVdm_stageWords (f := vdmReq svid 20 1 os) rfl, vdmReq_cmd]
  simp

-- the answers to TWIN_ARM and TWIN_DISARM

/-- An answer of PD_SVID that lane hardware acts on and the base image takes out of the FIFO (R98). -/
theorem State.receive_answer {f : Frame} {cmd : Nat} (h : s.hears l f) (hsv : isSvdm f = true) (hp : pdSvid s ≠ 0)
    (hsvid : vdmSvid f = pdSvid s) (hty : vdmType f = 1) (hcmd : vdmCmd f = cmd) :
    ∃ u, s.receive l f = (.stored, u) ∧ urkaiAnswer u f cmd = true ∧ serves u l = true ∧ u.takeNewest l = s.heard l f := by
  obtain ⟨hx, hctl, hk⟩ := isData_plain (isData_of_isSvdm hsv)
  obtain ⟨hatt, hb, -, -, hq, hfifo, hre, hs, hsop, hcrc, hid⟩ := h
  have har : (s.lane l).pd.arActive = false := by simpa using (Bool.and_eq_true_iff.1 hs).1
  refine ⟨_, State.receive_stored hatt (by simp [hb]) hq hre (by simp [hfifo]) (by simp [har]) hsop hcrc hid hx (hctl 13) (hk 3 (by decide)), ?_, ?_, ?_⟩
  · have hpd (x : Lane) : pdSvid ((s.setLane l x).postLane l 1) = pdSvid s := by simp [pdSvid]
    simp [urkaiAnswer, hsv, hsop, hpd, hp, hsvid, hcmd, hty]
  · rw [serves_postLane, serves_setLane s l _ (by rfl), hs]
  · simp only [State.takeNewest, State.modPd, State.modLane, State.setLane_postLane, State.setLane_setLane, State.postLane_lane, State.lane_setLane, hfifo]
    rfl

/-- The base image's part of an answer to TWIN_ARM ends its sequence, and lane hardware acts on it (R100, R111). -/
theorem exec_twinArmAck_hears {f : Frame} (h : s.hears l f) (hsv : isSvdm f = true) (hp : pdSvid s ≠ 0)
    (hsvid : vdmSvid f = pdSvid s) (hty : vdmType f = 1) (hcmd : vdmCmd f = 19) :
    exec (.twinArmAck l f) s = .next (((s.heard l f).amsEnd l).twinArmAnswer l f) := by
  obtain ⟨u, hu, ha, hs, ht⟩ := State.receive_answer h hsv hp hsvid hty hcmd
  show execTwinArmAck l f s = _
  unfold execTwinArmAck
  rw [hu]
  dsimp only
  rw [if_pos ha, if_pos hs, ht]

theorem exec_twinDisarmAck_hears {f : Frame} (h : s.hears l f) (hsv : isSvdm f = true) (hp : pdSvid s ≠ 0)
    (hsvid : vdmSvid f = pdSvid s) (hty : vdmType f = 1) (hcmd : vdmCmd f = 20) :
    exec (.twinDisarmAck l f) s = .next (((s.heard l f).amsEnd l).twinDisarmAnswer l f) := by
  obtain ⟨u, hu, ha, hs, ht⟩ := State.receive_answer h hsv hp hsvid hty hcmd
  show execTwinDisarmAck l f s = _
  unfold execTwinDisarmAck
  rw [hu]
  dsimp only
  rw [if_pos ha, if_pos hs, ht]

theorem exec_arm_served {a : Agent} {v : Word} (ha : hostServed s a = true) (hl : s.fusedOff l = false) : exec (.arm a l v) s = .next (s.storeArmed l v) :=
  State.byLaneWrite_served (f := fun st => st.storeArmed l v) ha hl

theorem exec_disarm_served {a : Agent} {v : Word} (ha : hostServed s a = true) (hl : s.fusedOff l = false) :
    exec (.disarm a l v) s = .next (s.storeArmed l v) := State.byLaneWrite_served (f := fun st => st.storeArmed l v) ha hl

/-- ARM = 1 with no arm in force, by the conditions of R99. -/
theorem State.storeArmed_arm {v : Word} (h16 : bitOf v 16 = true) (h17 : bitOf v 17 = false) (h1 : (s.lane l).con.armState ≠ 1)
    (h2 : (s.lane l).con.armState ≠ 2) : ∃ u : State, u.erase 1 l = s.erase 1 l ∧
      (u.lane l).con = { (s.lane l).con with
        armId := BitVec.ofNat 4 (fld v 27 24), target := bitOf v 23, armedId := BitVec.ofNat 4 (fld v 27 24), armedTarget := bitOf v 23
        armT := armTime (s.lane l).cfg, armAt := s.dev.dtime, fellBack := false, fallDue := false, twinOwed := [] } ∧
      s.storeArmed l v = if armRefused s l (bitOf v 23) then
        (if (s.lane l).con.armState = 4 then
          u.modCon l fun c => { c with armState := 4, voidCause := 3, voidCnt := if c.voidCnt = 63 then 63 else c.voidCnt + 1 }
        else (u.modCon l fun c => { c with armState := 4, voidCause := 3, voidCnt := if c.voidCnt = 63 then 63 else c.voidCnt + 1 }).postLane l 3).fallback l
      else ((u.modCon l fun c => { c with armState := 1 }).postLane l 3).sendTwin l 19 := by
  have hr : armRefused (s.modCon l fun c => { c with armId := BitVec.ofNat 4 (fld v 27 24), target := bitOf v 23 }) l (bitOf v 23) =
      armRefused s l (bitOf v 23) := by
    unfold armRefused
    rw [State.lane_modCon]
    rfl
  refine ⟨(s.modCon l fun c => { c with armId := BitVec.ofNat 4 (fld v 27 24), target := bitOf v 23 }).modCon l fun c => { c with
    armId := BitVec.ofNat 4 (fld v 27 24), target := bitOf v 23, armedId := BitVec.ofNat 4 (fld v 27 24), armedTarget := bitOf v 23
    armT := armTime (s.lane l).cfg, armAt := s.dev.dtime, fellBack := false, fallDue := false, twinOwed := [] }, by simp, by simp, ?_⟩
  simp only [State.storeArmed, h16, h17, State.arm, Bool.false_eq_true, if_false, if_true, State.lane_modCon, h1, h2, decide_false, Bool.or_self, hr]
  rfl

end

/-- Settles O45: an arm by the conditions of R99, its answers as lane hardware hears them, and the switch with its limits before and behind it. -/
theorem twinSwitch : Obligations.TwinSwitch := by
  unfold Obligations.TwinSwitch
  intro a l v f s
  refine ⟨?_, ?_, ?_, ?_, ?_, ?_, ?_, ?_, ?_, ?_, ?_, ?_, ?_, ?_, ?_, ?_⟩
  · intro ha hl h16 h17 h1 h2 hr
    obtain ⟨u, he, hc, hs⟩ := State.storeArmed_arm h16 h17 h1 h2
    refine ⟨_, exec_arm_served ha hl, ?_⟩
    rw [hs, if_neg (by simp [hr])]
    obtain ⟨c, o, hb⟩ := ((u.modCon l fun c => { c with armState := 1 }).postLane l 3).sendTwin_con l 19
    rw [hb, State.postLane_lane, State.lane_modCon, hc]
    refine ⟨rfl, rfl, rfl, rfl, rfl, rfl, State.onlyLanePosts_of_erase ?_⟩
    simpa using he
  · intro ha hl h16 h17 h1 h2 hr
    obtain ⟨u, he, hc, hs⟩ := State.storeArmed_arm h16 h17 h1 h2
    refine ⟨_, exec_arm_served ha hl, ?_⟩
    have href : armRefused s l (bitOf v 23) = true := by
      rcases hr with h | h | h | h <;> simp [armRefused, h]
    have he : (s.storeArmed l v).erase 2 l = s.erase 2 l := by simp
    refine ⟨?_, ?_, ?_, ?_, State.onlyLaneLogs_of_erase he⟩
    all_goals
      rw [hs, if_pos href]
      obtain ⟨b, d, n, t, hb⟩ := (if (s.lane l).con.armState = 4 then
          u.modCon l fun c => { c with armState := 4, voidCause := 3, voidCnt := if c.voidCnt = 63 then 63 else c.voidCnt + 1 }
        else (u.modCon l fun c => { c with armState := 4, voidCause := 3, voidCnt := if c.voidCnt = 63 then 63 else c.voidCnt + 1 }).postLane l 3).fallback_con l
      rw [hb]
      split <;> simp [hc]
  · intro ha hl h16 h17 hst
    refine ⟨_, exec_arm_served ha hl, ?_⟩
    simp only [State.storeArmed, h16, h17, State.arm, Bool.false_eq_true, if_false, if_true, State.lane_modCon]
    exact if_pos (by rcases hst with h | h <;> simp [h])
  · intro ha hl h17 h16 hst hs hq hh
    refine ⟨_, exec_disarm_served ha hl, ?_⟩
    generalize hu : (s.modCon l fun c => { c with armId := BitVec.ofNat 4 (fld v 27 24), target := bitOf v 23 }) = u
    have hul : u.lane l = { s.lane l with con := { (s.lane l).con with armId := BitVec.ofNat 4 (fld v 27 24), target := bitOf v 23 } } := by
      rw [← hu, State.lane_modCon]
    have hus : serves u l = true := by rw [← hu, serves_modCon, hs]
    have hue : u.erase 1 l = s.erase 1 l := by rw [← hu]; simp
    have hw : s.storeArmed l v = (((u.postLane l 3).modCon l fun c => { c with armCmd := some 20 }).imageSend l true
        (vdmReq (pdSvid (u.postLane l 3)) 20 1 [packFields [(((u.postLane l 3).lane l).con.armId.toNat, 0)]])) := by
      unfold State.storeArmed State.disarm State.sendTwin
      simp only [hu, h17, h16, if_true, Bool.false_eq_true, if_false]
      rw [if_pos (by rw [hul]; rcases hst with h | h <;> simp [h]), if_pos (by rw [serves_postLane]; exact hus), if_neg (by decide)]
    rw [hw]
    have ht := State.takes_twinDisarm (l := l) (t := (u.postLane l 3).modCon l fun c => { c with armCmd := some 20 })
      (svid := pdSvid (u.postLane l 3)) (os := [packFields [(((u.postLane l 3).lane l).con.armId.toNat, 0)]]) (by simpa [hul] using hq) (by simpa [hul] using hh)
    rw [State.imageSend_con, State.imageSend_queue true ht (by simpa [hul] using hq)]
    refine ⟨by simp [hul], by simp, rfl, State.onlyLanePosts_of_erase ?_⟩
    simpa using hue
  · intro ha hl h17 h16 hst
    refine ⟨_, exec_disarm_served ha hl, ?_⟩
    simp only [State.storeArmed, h16, h17, State.disarm, Bool.false_eq_true, if_false, if_true, State.lane_modCon]
    exact if_neg (by rcases hst with h | h <;> simp [h])
  · intro h hsv hp hsvid hty hcmd hst hid ht
    refine ⟨_, exec_twinArmAck_hears h hsv hp hsvid hty hcmd, ?_⟩
    unfold State.twinArmAnswer
    dsimp only
    rw [if_neg (by simp [hst]), if_pos hty, if_pos (by simp [hid, ht])]
    exact ⟨by simp, by simp, State.onlyLanePosts_of_erase (by simp)⟩
  · intro h hsv hp hsvid hty hcmd hst hid
    refine ⟨_, exec_twinArmAck_hears h hsv hp hsvid hty hcmd, ?_⟩
    unfold State.twinArmAnswer
    dsimp only
    rw [if_neg (by simp [hst]), if_pos hty, if_neg (by simp [hid])]
    exact ⟨by simpa using hst, State.onlyLanePosts_of_erase (by simp)⟩
  · intro h hsv hp hsvid hty hcmd hst hid ht
    refine ⟨_, exec_twinDisarmAck_hears h hsv hp hsvid hty hcmd, ?_⟩
    unfold State.twinDisarmAnswer
    dsimp only
    rw [if_pos (by rcases hst with hst | hst <;> simp [hst, hty, hid, ht])]
    exact ⟨by simp, by simp, State.onlyLanePosts_of_erase (by simp)⟩
  · intro hst
    refine ⟨_, if_pos hst, ?_⟩
    obtain ⟨h1, h2, h3⟩ := State.voidBack_con (s := s.amsEnd l) (l := l) (k := 2) (.inl (by simpa using hst))
    exact ⟨h1, h2, h3, State.onlyLaneLogs_of_erase (by simp)⟩
  · intro hst
    exact if_neg hst
  · intro hst htg hrs hsw hh
    refine ⟨_, (if_pos (by simp [hst, htg, hrs])).trans (if_pos (by simp [switchMay, hsw, PdLane.hrBusy, hh])), ?_⟩
    unfold State.runLimits
    dsimp only
    generalize hu : (if (s.lane l).belay.shedPending = true then _ else s) = u
    have hul : (u.lane l).cfg = (s.lane l).cfg := by
      rw [← hu]
      split <;> simp
    have hue : u.erase 0 l = s.erase 0 l := by
      rw [← hu]
      split <;> simp
    obtain ⟨h1, h2⟩ := u.limits_shows l (fld (s.lane l).cfg.twinRun 23 16) (fld (s.lane l).cfg.twinRun 9 0)
    rw [hul] at h1
    rw [State.lane_modCon]
    exact ⟨h1, h2, rfl, State.onlyLane_of_erase (by simpa using hue)⟩
  · intro hst htg hrs hsw hfb
    refine ⟨_, (if_pos (by simp [hst, htg, hrs])).trans (if_neg (by rw [switchMay, decide_eq_false hsw, Bool.false_and]; decide)), ?_⟩
    obtain ⟨h1, h2, -⟩ := State.voidBack_con (s := s) (l := l) (k := 2) (.inr hst)
    exact ⟨h1, h2, State.onlyLanePosts_of_erase (State.erase_voidBack_quiet hfb)⟩
  · intro hst htg hrs
    obtain ⟨h1, h2, h3, -, h5, h6⟩ := s.switchNow_shows l true
    exact ⟨_, (if_pos hst).trans (if_pos (by simp [htg, hrs])), h1, h2, h3, h5, h6⟩
  · intro hst htg hsw hh
    obtain ⟨h1, h2, h3, h4, h5, h6⟩ := s.switchNow_shows l false
    refine ⟨_, (if_pos hst).trans ((if_neg (by simp [htg])).trans (if_pos (by simp [switchMay, hsw, PdLane.hrBusy, hh]))), ?_⟩
    rw [htg]
    exact ⟨h1, h2, h3, h4, h5, h6⟩
  · intro hw
    refine ⟨_, if_pos hw, ?_⟩
    obtain ⟨h1, h2⟩ := s.limits_shows l (fld (s.lane l).cfg.twinStandby 23 16) (fld (s.lane l).cfg.twinStandby 9 0)
    rw [State.lane_modBudget, State.lane_modCon]
    exact ⟨h1, h2, rfl, State.onlyLane_of_erase (by simp)⟩
  · intro hw
    exact if_neg (by simp [hw])

end Sys2Proof.Machine

/-! Reception: the FIFO, duplicates, chunks and the auto-responder (O41). -/
namespace Sys2Proof.Machine

section
variable {s : State} {l : LaneId} {f : Frame}

/-- A repeated MessageID is acknowledged and not stored again (R52). -/
theorem State.receive_duplicate (hatt : (s.lane l).cc.attached = true) (hb : (s.lane l).pd.bist = .off) (hq : (s.lane l).pd.queue = [])
    (hsop : f.sop = .sop) (hd : isCtl f 17 = true) (hid : (s.lane l).pd.rxId.get 0 = some (msgId f.header)) :
    s.receive l f = (.duplicate, s.setLane l ((s.lane l).acked s.dev.dtime f)) := by
  have hctl := (isCtl_plain hd).2.2
  unfold State.receive
  dsimp only
  rw [if_neg (by simp [hatt, hb, hsop, hctl]), State.discardHead_nil hq, ite_self, State.acked_eq, State.lane_setLane,
    if_pos (by rw [hsop, hctl 13 (by decide), Bool.not_false, Bool.true_and, decide_eq_true_iff]; exact hid)]

/-- A new message with all slots held is withheld (R55). -/
theorem State.receive_withheld (hatt : (s.lane l).cc.attached = true) (hb : (s.lane l).pd.bist = .off) (hq : (s.lane l).pd.queue = [])
    (har : (s.lane l).pd.arActive = false) (hsop : f.sop = .sop) (hd : isCtl f 17 = true) (hfull : 4 ≤ (s.lane l).pd.fifo.length)
    (hid : (s.lane l).pd.rxId.get 0 ≠ some (msgId f.header)) :
    s.receive l f = (.withheld, ((s.setLane l ((s.lane l).acked s.dev.dtime f)).modPd l fun p => { p with ack := none }).refuseFrame l) := by
  obtain ⟨hext, hdata, hctl⟩ := isCtl_plain hd
  have hroom : hasRoom ((s.lane l).acked s.dev.dtime f) f = false := by simp [hasRoom, Lane.acked, har, Nat.not_lt.2 hfull]
  unfold State.receive
  dsimp only
  rw [if_neg (by simp [hatt, hb, hsop, hctl]), State.discardHead_nil hq, ite_self, State.acked_eq, State.lane_setLane,
    if_neg (by rw [hsop, hctl 13 (by decide), Bool.not_false, Bool.true_and, decide_eq_true_iff]; exact hid), if_pos (by simp [hroom, hext, hdata])]

/-- A new Chunk Request is acknowledged, its MessageID stored, and the outgoing message acts on it (R51, R65). -/
theorem State.receive_chunkRequest (hatt : (s.lane l).cc.attached = true) (hb : (s.lane l).pd.bist = .off) (hsop : f.sop = .sop)
    (hx : isExtended f.header = true) (hc : exChunked (extHeader f) = true) (hr : exRequest (extHeader f) = true)
    (hid : (s.lane l).pd.rxId.get 0 ≠ some (msgId f.header)) :
    s.receive l f = (.absorbed, ((s.setLane l ((s.lane l).acked s.dev.dtime f)).modPd l fun p =>
      { p with rxId := p.rxId.set (sopIdx f.sop).val (some (msgId f.header)) (sopIdx f.sop).isLt }).chunkAsked l f) := by
  have hctl (n : Nat) : isCtl f n = false := by simp [isCtl, hx]
  unfold State.receive
  simp only [hx, hc, hr, Bool.and_self, if_true]
  rw [if_neg (by simp [hatt, hb, hsop, hctl]), State.acked_eq, State.lane_setLane,
    if_neg (by rw [hsop, hctl 13, Bool.not_false, Bool.true_and, decide_eq_true_iff]; exact hid), if_neg (by simp)]
  simp only [hctl, Bool.false_and, Bool.false_eq_true, if_false]

/-- Where no exchange of lane hardware awaits it and no base image serves the lane, a message stays in the FIFO (R54). -/
theorem State.takeAnswer_unserved (hv : isData f 15 = false) (ho : (s.lane l).swap.ownVcs = false) (hs : serves s l = false) : s.takeAnswer l f = s := by
  have hsv : isSvdm f = false := by simp [isSvdm, hv]
  have hu (n : Nat) : urkaiAnswer s f n = false := by simp [urkaiAnswer, hsv]
  simp [State.takeAnswer, hu, ho, hs]

/-- A control message that answers nothing stays in the FIFO (R54). -/
theorem State.takeAnswer_ctl (hd : isCtl f 17 = true) : s.takeAnswer l f = s := by
  obtain ⟨hext, hdata, hctl⟩ := isCtl_plain hd
  have hsv : isSvdm f = false := by simp [isSvdm, hdata]
  have hu (n : Nat) : urkaiAnswer s f n = false := by simp [urkaiAnswer, hsv]
  have h3 := hctl 3 (by decide)
  have h4 := hctl 4 (by decide)
  have h12 := hctl 12 (by decide)
  have h16 := hctl 16 (by decide)
  simp [State.takeAnswer, hu, hsv, hext, h3, h4, h12, h16]

/-- The stored MessageID of a message on SOP (R51). -/
theorem storedId_sop (hsop : f.sop = .sop) {v : Vector (Option (BitVec 3)) 3} {x : Option (BitVec 3)} :
    (v.set (sopIdx f.sop).val x (sopIdx f.sop).isLt).get 0 = x := by
  rw [hsop]
  exact (Vector.get_eq_getElem _ _).trans (Vector.getElem_set_self ..)

-- a message that is not sent

theorem State.amsFail_pd : ((s.amsFail l).lane l).pd = (s.lane l).pd := by
  unfold State.amsFail
  dsimp only
  split <;> simp

/-- What a message that is not Sent leaves of the message layer: whether an Accept waits (R83). -/
theorem State.notSent_pd (m : TxSlot) : ∃ a b, ((s.notSent l m).lane l).pd = { (s.lane l).pd with acceptPending := a, reqAccept := b } := by
  unfold State.notSent
  dsimp only
  generalize hu : (if m.ams = true then s.amsFail l else s) = u
  have hul : (u.lane l).pd = (s.lane l).pd := by
    rw [← hu]
    split
    · exact State.amsFail_pd
    · rfl
  rw [← hul]
  split
  · exact ⟨_, _, rfl⟩
  · split
    · rw [State.lane_modSwap]
      exact ⟨_, _, rfl⟩
    · split
      · generalize hv : State.modPd (u.modSwap l _) l _ = v
        have hvl : (v.lane l).pd = { (u.lane l).pd with reqAccept := false } := by
          rw [← hv, State.lane_modPd, State.lane_modSwap]
        split
        · refine ⟨false, false, ?_⟩
          rw [State.lane_modPd, hvl]
        · split
          · refine ⟨false, false, ?_⟩
            rw [State.lane_modBudget, State.lane_modCon, State.lane_modPd, hvl]
          · exact ⟨(u.lane l).pd.acceptPending, false, hvl⟩
      · split
        · rw [State.lane_modCon]
          exact ⟨_, _, rfl⟩
        · exact ⟨_, _, rfl⟩

theorem State.endMessage_pd (t : BitVec 4) (r : BitVec 3) (n : Nat) : ((s.endMessage l t r n).lane l).pd =
    { (s.lane l).pd with txDone := true, lastTag := t, lastResult := r, lastRetries := BitVec.ofNat 2 n } := by
  rw [State.endMessage, State.postLane_lane, State.lane_modPd]

/-- Where no message is unanswered, the auto-responder has nothing to answer (R464). -/
theorem State.answerOpen_none (h : (s.lane l).pd.unanswered = []) : s.answerOpen l = s := by simp [State.answerOpen, h]

/-- A rise of ar_active on a lane of one queued message at most, which waits for no answer (R464). -/
theorem State.raiseAr_shows (har : (s.lane l).pd.arActive = false) (hu : (s.lane l).pd.unanswered = []) (hq : (s.lane l).pd.queue.length ≤ 1) :
    ((s.raiseAr l).lane l).pd.arActive = true ∧ ((s.raiseAr l).lane l).pd.queue = (s.lane l).pd.queue.filter (fun m => m.begun) ∧
      (s.raiseAr l).erase 1 l = s.erase 1 l := by
  unfold State.raiseAr
  dsimp only
  rw [if_neg (by simp [har])]
  generalize hv : (s.modPd l fun p => { p with arActive := true }).postLane l 10 = v
  have hvl : v.lane l = { s.lane l with pd := { (s.lane l).pd with arActive := true } } := by
    rw [← hv, State.postLane_lane, State.lane_modPd]
  have hve : v.erase 1 l = s.erase 1 l := by
    rw [← hv]
    simp
  match hm : (s.lane l).pd.queue, hq with
  | [], _ =>
    show ((v.answerOpen l).lane l).pd.arActive = true ∧ ((v.answerOpen l).lane l).pd.queue = [] ∧ (v.answerOpen l).erase 1 l = s.erase 1 l
    rw [State.answerOpen_none (by rw [hvl]; exact hu), hvl]
    exact ⟨rfl, hm, hve⟩
  | [m], _ =>
    by_cases hb : m.begun = true
    · have h1 : ([m].filter fun m => !m.begun) = [] := by simp [hb]
      have h2 : ([m].filter fun m => m.begun) = [m] := by simp [hb]
      rw [h1, h2]
      show ((v.answerOpen l).lane l).pd.arActive = true ∧ ((v.answerOpen l).lane l).pd.queue = [m] ∧ (v.answerOpen l).erase 1 l = s.erase 1 l
      rw [State.answerOpen_none (by rw [hvl]; exact hu), hvl]
      exact ⟨rfl, hm, hve⟩
    · have h1 : ([m].filter fun m => !m.begun) = [m] := by simp [hb]
      have h2 : ([m].filter fun m => m.begun) = [] := by simp [hb]
      rw [h1, h2]
      obtain ⟨a, b, hn⟩ := (v.modPd l fun p => { p with queue := p.queue.erase m }).notSent_pd (l := l) m
      have hw := (((v.modPd l fun p => { p with queue := p.queue.erase m }).notSent l m).endMessage_pd (l := l) m.tag 4 0)
      have he : (((v.modPd l fun p => { p with queue := p.queue.erase m }).notSent l m).endMessage l m.tag 4 0).erase 1 l = s.erase 1 l := by simpa using hve
      change (((((v.modPd l fun p => { p with queue := p.queue.erase m }).notSent l m).endMessage l m.tag 4 0).answerOpen l).lane l).pd.arActive = true ∧
        (((((v.modPd l fun p => { p with queue := p.queue.erase m }).notSent l m).endMessage l m.tag 4 0).answerOpen l).lane l).pd.queue = [] ∧
        ((((v.modPd l fun p => { p with queue := p.queue.erase m }).notSent l m).endMessage l m.tag 4 0).answerOpen l).erase 1 l = _
      rw [hn, State.lane_modPd, hvl] at hw
      rw [State.answerOpen_none (by rw [hw]; exact hu), hw]
      exact ⟨rfl, by simp [hm], he⟩

end

section
variable {s : State} {l : LaneId}

/-- A chunk that does not come abandons the reassembly (R63, R65). -/
theorem State.abandonReasm_shows {r : Reassembly} (hr : (s.lane l).pd.reasm = some r) : ∃ u, s.abandonReasm l = u.notSupported l r.sop ∧
    u.erase 1 l = s.erase 1 l ∧ serves u l = serves s l ∧
    u.lane l = { s.lane l with pd := { (s.lane l).pd.dropRequest with reasm := none, extAbort := true } } := by
  refine ⟨_, by rw [State.abandonReasm, hr], by simp, ?_, by rw [State.postLane_lane, State.lane_modPd]⟩
  rw [serves_postLane, serves_modPd _ (by exact fun _ => rfl)]

theorem hostReads_of_hostServed {a : Agent} (h : hostServed s a = true) : hostReads s a = true := by
  simp only [hostServed, hostReads, Bool.not_eq_true', Bool.and_eq_false_iff, Bool.or_eq_false_iff] at h ⊢
  exact h.imp_right fun h => ⟨h.1.1, h.2⟩

end

/-- Settles O41: what a received frame becomes by whether it is new and has room, and what the chunk timers, the auto-responder and the accesses of the core leave. -/
theorem reception : Obligations.Reception := by
  unfold Obligations.Reception
  intro a l f w r s
  refine ⟨?_, ?_, ?_, ?_, ?_, ?_, ?_, ?_, ?_, ?_, ?_, ?_, ?_, ?_⟩
  · rintro ⟨hatt, hb, hh, hfl, hq, hre, har⟩ hsop hd hlt hid
    obtain ⟨hext, hdata, hctl⟩ := isCtl_plain hd
    have hr := State.receive_stored hatt (by simp [hb]) hq hre hlt (by simp [har]) hsop (hctl 1 (by decide)) hid hext (hctl 13 (by decide)) (hdata 3)
    refine ⟨_, by show execMessageReceived l f s = _; rw [execMessageReceived, hr], ?_⟩
    dsimp only
    rw [State.takeAnswer_ctl hd, State.postLane_lane, State.lane_setLane]
    exact ⟨rfl, storedId_sop hsop, State.onlyLanePosts_of_erase (by simp)⟩
  · rintro ⟨hatt, hb, hh, hfl, hq, hre, har⟩ hsop hext hc1 hc13 hd3 hd15 hown hs hlt hid
    have hr := State.receive_stored hatt (by simp [hb]) hq hre hlt (by simp [har]) hsop hc1 hid hext hc13 hd3
    refine ⟨_, by show execMessageReceived l f s = _; rw [execMessageReceived, hr], ?_⟩
    dsimp only
    rw [State.takeAnswer_unserved hd15 (by rw [State.postLane_lane, State.lane_setLane]; exact hown)
      (by rw [serves_postLane, serves_setLane s l _ (by rfl), hs]), State.postLane_lane, State.lane_setLane]
    exact ⟨rfl, storedId_sop hsop, rfl, State.onlyLanePosts_of_erase (by simp)⟩
  · rintro ⟨hatt, hb, hh, hfl, hq, hre, har⟩ hsop hd hid
    refine ⟨_, by show execMessageReceived l f s = _; rw [execMessageReceived, State.receive_duplicate hatt hb hq hsop hd hid], ?_⟩
    dsimp only
    rw [State.lane_setLane]
    exact ⟨rfl, rfl, State.onlyLanePosts_of_erase (by simp)⟩
  · rintro ⟨hatt, hb, hh, hfl, hq, hre, har⟩ hsop hd hlt hid
    refine ⟨_, by show execMessageReceived l f s = _; rw [execMessageReceived, State.receive_withheld hatt hb hq har hsop hd hlt hid], ?_⟩
    dsimp only
    rw [State.refuseFrame, State.postLane_lane, State.lane_modPd, State.lane_modPd, State.lane_setLane]
    exact ⟨rfl, rfl, rfl, rfl, State.onlyLanePosts_of_erase (by simp)⟩
  · intro ha hl
    refine ⟨_, State.byLaneWrite_served (f := fun st => st.popHead l) ha hl, ?_⟩
    dsimp only
    rw [State.popHead, State.lane_modPd]
    exact ⟨rfl, rfl, State.onlyLane_of_erase (by simp)⟩
  · intro hb
    refine ⟨_, rfl, ?_⟩
    dsimp only
    rw [State.lane_modPd, if_pos hb]
    exact ⟨rfl, State.onlyLane_of_erase (by simp)⟩
  · intro hb
    refine congrArg Host.Outcome.next ?_
    rw [State.modPd, State.modLane, if_neg (by simp [hb])]
    exact s.setLane_self l
  · intro hr haw har
    obtain ⟨u, hu, he, hs, hul⟩ := State.abandonReasm_shows hr
    have hns : serves s l = false := by simp [serves, har]
    have hn : u.notSupported l r.sop = u := if_neg (by simp [hs, hns])
    refine ⟨_, if_pos (by simp [hr, haw]), ?_⟩
    dsimp only
    rw [hu, hn, hul]
    exact ⟨rfl, rfl, rfl, rfl, State.onlyLanePosts_of_erase he⟩
  · intro hr haw har hsv
    obtain ⟨u, hu, he, hs, hul⟩ := State.abandonReasm_shows hr
    have hn : u.notSupported l r.sop = u := if_neg (by simp [hs, hsv])
    refine ⟨_, if_pos (by simp [hr, haw]), ?_⟩
    dsimp only
    rw [hu, hn, hul]
    exact ⟨rfl, rfl, rfl, rfl, State.onlyLanePosts_of_erase he⟩
  · intro hr haw hsop hsv hq hh
    obtain ⟨u, hu, he, hs, hul⟩ := State.abandonReasm_shows hr
    have hn : u.notSupported l r.sop = u.imageSend l false (ctl 16) := (if_pos (by rw [hs, hsv])).trans (by rw [hsop]; rfl)
    have ht : u.takes l (ctl 16) := State.takes_idle (by rw [hul]; exact hq) (by rw [hul]; exact hh) rfl (by decide)
    refine ⟨_, if_pos (by simp [hr, haw]), ?_⟩
    dsimp only
    rw [hu, hn]
    obtain ⟨b, hb⟩ := State.imageSend_pd false ht
    refine ⟨?_, ?_, ?_, State.imageSend_says false ht (by rw [hul]; exact hq), State.onlyLanePosts_of_erase (by simpa using he)⟩
    all_goals rw [hb, hul]
    rfl
  · intro h
    exact if_neg (by simp [h])
  · intro hatt hb hh hsop hx hc hr hid htx hk
    refine ⟨_, rfl, ?_⟩
    dsimp only
    rw [State.receive_chunkRequest hatt hb hsop hx hc hr hid]
    unfold State.chunkAsked
    simp only [State.lane_modPd, State.lane_setLane, Lane.acked, htx, hk, if_true]
    exact ⟨trivial, trivial, trivial, State.onlyLanePosts_of_erase (by simp)⟩
  · intro har hu hq hst hac
    obtain ⟨h1, h2, h3⟩ := State.raiseAr_shows har hu hq
    exact ⟨_, rfl, h1, h2, State.onlyLanePosts_of_erase h3⟩
  · intro hw ha hl
    refine ⟨_, if_pos ?_, ?_⟩
    · simp [ha, hl, hostReads_of_hostServed ha]
    · refine ⟨?_, ?_, State.onlyLane_of_erase (by simp)⟩
      · unfold State.extData
        cases w <;> simp
      · unfold State.extData
        rcases hw with rfl | hw
        · simp
        · cases w <;> simp [hw]

end Sys2Proof.Machine

/-! SUPPORT. What the completion of a hard reset's signalling ends on the lane, and what stands through it (R71, R84, R125). -/
namespace Sys2Proof.Machine

/-- What the messages and the contract of lane x have no part in: configuration, attach, faults, path, stage, roles and the phase of a hard reset. -/
structure Lane.Stands (x y : Lane) : Prop where
  cfg : y.cfg = x.cfg
  st : y.cc.st = x.cc.st
  attachSrc : y.cc.attachSrc = x.cc.attachSrc
  attachVconn : y.cc.attachVconn = x.cc.attachVconn
  fw : y.fw = x.fw
  belay : y.belay = x.belay
  conv : y.conv = x.conv
  swapState : y.swap.state = x.swap.state
  holdOn : y.swap.holdOn = x.swap.holdOn
  powerRole : y.swap.powerRole = x.swap.powerRole
  dataRole : y.swap.dataRole = x.swap.dataRole
  vconnRole : y.swap.vconnRole = x.swap.vconnRole
  hrPhase : y.pd.hrPhase = x.pd.hrPhase
  hrThen : y.pd.hrThen = x.pd.hrThen
  hrRcvd : y.pd.hrRcvd = x.pd.hrRcvd

theorem Lane.Stands.refl (x : Lane) : x.Stands x := ⟨rfl, rfl, rfl, rfl, rfl, rfl, rfl, rfl, rfl, rfl, rfl, rfl, rfl, rfl, rfl⟩

theorem Lane.Stands.trans {x y z : Lane} (h : x.Stands y) (k : y.Stands z) : x.Stands z :=
  ⟨k.cfg.trans h.cfg, k.st.trans h.st, k.attachSrc.trans h.attachSrc, k.attachVconn.trans h.attachVconn, k.fw.trans h.fw, k.belay.trans h.belay,
    k.conv.trans h.conv, k.swapState.trans h.swapState, k.holdOn.trans h.holdOn, k.powerRole.trans h.powerRole, k.dataRole.trans h.dataRole,
    k.vconnRole.trans h.vconnRole, k.hrPhase.trans h.hrPhase, k.hrThen.trans h.hrThen, k.hrRcvd.trans h.hrRcvd⟩

/-- No contract, no message and no MessageID is left on the lane (R71). -/
def Lane.Cleared (x : Lane) : Prop :=
  x.con.valid = false ∧ x.pd.fifo = [] ∧ x.pd.queue = [] ∧ x.pd.txId = Vector.replicate 3 0 ∧ x.pd.rxId = Vector.replicate 3 none

section
variable (s : State) (l : LaneId)

theorem State.loadOff_stands : (s.lane l).Stands ((s.loadOff l).lane l) := by
  unfold State.loadOff
  split
  · rw [State.loadChanges, State.lane_modSect]
    exact ⟨rfl, rfl, rfl, rfl, rfl, rfl, rfl, rfl, rfl, rfl, rfl, rfl, rfl, rfl, rfl⟩
  · exact Lane.Stands.refl _

theorem State.packHold_stands : (s.lane l).Stands ((s.packHold l).lane l) := by
  unfold State.packHold
  split
  · rw [State.lane_modSwap]
    exact ⟨rfl, rfl, rfl, rfl, rfl, rfl, rfl, rfl, rfl, rfl, rfl, rfl, rfl, rfl, rfl⟩
  · exact Lane.Stands.refl _

theorem State.voidArm_lane (k : BitVec 2) : ∃ c, (s.voidArm l k).lane l = { s.lane l with con := c } := by
  unfold State.voidArm
  split
  · exact ⟨_, by rw [State.postLane_lane, State.lane_modCon]⟩
  · exact ⟨_, rfl⟩

theorem State.endUrkai_stands : (s.lane l).Stands ((s.endUrkai l).lane l) := by
  obtain ⟨c, hc⟩ := s.voidArm_lane l 2
  rw [State.endUrkai, State.lane_modSwap, State.lane_modCon, hc]
  exact ⟨rfl, rfl, rfl, rfl, rfl, rfl, rfl, rfl, rfl, rfl, rfl, rfl, rfl, rfl, rfl⟩

theorem State.endMessage_stands (t : BitVec 4) (r : BitVec 3) (n : Nat) : (s.lane l).Stands ((s.endMessage l t r n).lane l) := by
  rw [State.endMessage, State.postLane_lane, State.lane_modPd]
  exact ⟨rfl, rfl, rfl, rfl, rfl, rfl, rfl, rfl, rfl, rfl, rfl, rfl, rfl, rfl, rfl⟩

theorem State.forEach_stands {α : Type} (g : State → α → State) (hg : ∀ (t : State) (a : α), (t.lane l).Stands ((g t a).lane l)) (as : List α) :
    (s.lane l).Stands ((s.forEach as g).lane l) := by
  induction as generalizing s with
  | nil => exact Lane.Stands.refl _
  | cons a as ih => exact (hg s a).trans (ih (g s a))

theorem State.abortQueue_stands : (s.lane l).Stands ((s.abortQueue l).lane l) := by
  unfold State.abortQueue
  dsimp only
  rw [State.lane_modPd]
  split
  · exact ⟨rfl, rfl, rfl, rfl, rfl, rfl, rfl, rfl, rfl, rfl, rfl, rfl, rfl, rfl, rfl⟩
  · next a rest _ =>
    have h := s.forEach_stands l (fun (st : State) (m : TxSlot) => st.endMessage l m.tag 4 (if m.tag = a.tag then headRetries (s.lane l).pd else 0))
      (fun t m => t.endMessage_stands l m.tag 4 _) (a :: rest)
    exact h.trans ⟨rfl, rfl, rfl, rfl, rfl, rfl, rfl, rfl, rfl, rfl, rfl, rfl, rfl, rfl, rfl⟩

/-- The end of messages and contract leaves the lane cleared, and the rest of it as it stands (R71). -/
theorem State.resetMessages_shows : (s.lane l).Stands ((s.resetMessages l).lane l) ∧ ((s.resetMessages l).lane l).Cleared := by
  have h := ((((s.loadOff_stands l).trans ((s.loadOff l).packHold_stands l)).trans (((s.loadOff l).packHold l).endUrkai_stands l)).trans
    ((((s.loadOff l).packHold l).endUrkai l).abortQueue_stands l))
  have hq : ((((((s.loadOff l).packHold l).endUrkai l).abortQueue l).lane l).pd.queue) = [] := by simp [State.abortQueue]
  generalize hu : (((s.loadOff l).packHold l).endUrkai l).abortQueue l = u at h hq
  unfold State.resetMessages
  simp only [hu, State.flushRx, State.lane_modPd, State.lane_modCon, State.lane_modSwap, State.lane_modCc, State.lane_modTally, State.lane_modBudget, State.postLane_lane]
  refine ⟨h.trans ⟨rfl, rfl, rfl, rfl, rfl, rfl, rfl, rfl, rfl, rfl, rfl, rfl, rfl, rfl, rfl⟩, rfl, rfl, hq, rfl, rfl⟩

-- the limits and roles behind a hard reset

/-- The limits of an attach reach registers, the stage's reverse limit and the note of limits owed, and nothing else of the lane (R143, R189). -/
theorem State.baseLimits_lane : ∃ c v b, (s.baseLimits l).lane l = { s.lane l with cfg := c, conv := v, con := { (s.lane l).con with ilimOwed := b } } ∧
    ((s.lane l).swap.powerRole = true → v = (s.lane l).conv) := by
  unfold State.baseLimits
  dsimp only
  split
  · exact ⟨_, _, _, State.lane_modCon .., fun _ => rfl⟩
  · split
    · rw [State.writeIlim, State.lane_modCfg, State.lane_modCon]
      exact ⟨_, _, _, rfl, fun _ => rfl⟩
    · next hp =>
      split
      · rw [State.writeIlim, State.lane_modCfg, State.lane_modCon]
        exact ⟨_, _, _, rfl, fun _ => rfl⟩
      · rw [State.setRev, State.lane_modConv, State.lane_modCfg, State.writeIlim, State.lane_modCfg, State.lane_modCon]
        exact ⟨_, _, _, rfl, fun h => absurd h hp⟩

/-- Whether a hard reset finds a lane in other roles than those of its attach (R125). -/
def Lane.rolesMoved (x : Lane) : Bool :=
  x.swap.state ≠ 0 || x.swap.holdOn || x.swap.powerRole ≠ x.cc.attachSrc || x.swap.dataRole ≠ x.cc.attachSrc || x.swap.vconnRole ≠ vconnAtAttach x

/-- The return of the roles to those of the attach, with the path open and the stage stopped (R125). -/
theorem State.attachRoles_lane : ∃ b v w, (s.attachRoles l).lane l = { s.lane l with belay := b, conv := v, swap := w } ∧ b.sw = 0 ∧ v.on = false ∧
    w.powerRole = (s.lane l).cc.attachSrc ∧ w.dataRole = (s.lane l).cc.attachSrc ∧ w.vconnRole = vconnAtAttach (s.lane l) := by
  have h1 : ∃ w, ((if (s.lane l).swap.state ≠ 0 then s.endSwap l 7 else s).lane l) = { s.lane l with swap := w } := by
    split
    · exact ⟨_, by rw [State.endSwap, State.postLane_lane, State.lane_modSwap]⟩
    · exact ⟨_, rfl⟩
  obtain ⟨w, h1⟩ := h1
  unfold State.attachRoles
  dsimp only
  generalize (if (s.lane l).swap.state ≠ 0 then s.endSwap l 7 else s) = u at *
  rw [State.lane_modSwap, State.lane_modBelay, State.openPath, State.lane_modBelay, State.stopStage, State.lane_modConv, h1]
  exact ⟨_, _, _, rfl, rfl, rfl, rfl, rfl, rfl⟩

end

-- the completion of signalling

section
variable {s : State} {l : LaneId}

/-- What a hard reset leaves of a lane whose service goes on, before its path: cleared, with the roles of its attach (R71, R125). -/
theorem State.resetRoles_shows :
    let u := (if (s.lane l).rolesMoved then (s.resetMessages l).attachRoles l else s.resetMessages l).baseLimits l
    (u.lane l).Cleared ∧ (u.lane l).cc.attachSrc = (s.lane l).cc.attachSrc ∧ (u.lane l).swap.powerRole = (s.lane l).cc.attachSrc ∧
      (u.lane l).swap.dataRole = (s.lane l).cc.attachSrc ∧ (u.lane l).swap.vconnRole = vconnAtAttach (s.lane l) ∧
      (u.lane l).pd.hrRcvd = (s.lane l).pd.hrRcvd ∧
      ((s.lane l).rolesMoved = false → (s.lane l).cc.attachSrc = true →
        (u.lane l).belay.sw = (s.lane l).belay.sw ∧ (u.lane l).conv.on = (s.lane l).conv.on) ∧ u.erase 1 l = s.erase 1 l := by
  obtain ⟨hst, hcl⟩ := s.resetMessages_shows l
  have hva : vconnAtAttach ((s.resetMessages l).lane l) = vconnAtAttach (s.lane l) := by
    rw [vconnAtAttach, vconnAtAttach, hst.attachVconn, hst.fw]
  have he : (s.resetMessages l).erase 1 l = s.erase 1 l := by simp
  generalize s.resetMessages l = t at *
  by_cases hm : (s.lane l).rolesMoved = true
  · rw [if_pos hm]
    intro u
    obtain ⟨b, v, w, hl, hsw, hon, hp, hd, hv⟩ := t.attachRoles_lane l
    obtain ⟨c, v', o, hb, -⟩ := (t.attachRoles l).baseLimits_lane l
    have hu : u.lane l = _ := hb
    rw [hl] at hu
    rw [hu]
    refine ⟨hcl, hst.attachSrc, hp.trans hst.attachSrc, hd.trans hst.attachSrc, hv.trans hva, hst.hrRcvd, fun h => absurd hm (by simp [h]), ?_⟩
    exact (State.erase_baseLimits ..).trans ((State.erase_attachRoles (hk := by decide) ..).trans he)
  · rw [if_neg hm]
    intro u
    obtain ⟨c, v', o, hb, hv'⟩ := t.baseLimits_lane l
    have hu : u.lane l = _ := hb
    rw [hu]
    simp only [Lane.rolesMoved, Bool.or_eq_true, decide_eq_true_eq, not_or, not_not] at hm
    obtain ⟨⟨⟨⟨h1, h2⟩, h3⟩, h4⟩, h5⟩ := hm
    refine ⟨hcl, hst.attachSrc, hst.powerRole.trans h3, hst.dataRole.trans h4, hst.vconnRole.trans h5, hst.hrRcvd, fun _ ha => ⟨?_, ?_⟩, ?_⟩
    · exact congrArg BelayLane.sw hst.belay
    · show v'.on = _
      rw [hv' (hst.powerRole.trans (h3.trans ha)), hst.conv]
    · exact (State.erase_baseLimits ..).trans he

theorem State.hardResetDone_source (hl : (s.lane l).belay.latched = false) (hp : (s.lane l).fw.protoLast = false) (ha : (s.lane l).cc.attachSrc = true) :
    let y := (s.hardResetDone l).lane l
    y.Cleared ∧ y.cc.vconnOn = false ∧ y.pd.hrPhase = (if (s.lane l).rolesMoved then .vbusOff else .psWait) ∧ y.swap.powerRole = true ∧
      y.swap.dataRole = true ∧ y.swap.vconnRole = vconnAtAttach (s.lane l) ∧ y.pd.hrRcvd = (s.lane l).pd.hrRcvd ∧
      ((s.lane l).rolesMoved = false → y.belay.sw = (s.lane l).belay.sw ∧ y.conv.on = (s.lane l).conv.on) ∧
      (s.hardResetDone l).erase 1 l = s.erase 1 l := by
  obtain ⟨hcl, -, hpr, hdr, hvr, hrc, hk, he⟩ := State.resetRoles_shows (s := s) (l := l)
  have hd : s.hardResetDone l = ((((if (s.lane l).rolesMoved then (s.resetMessages l).attachRoles l else s.resetMessages l).baseLimits l).modCc l fun c =>
      { c with vconnOn := false }).modPd l fun p => { p with hrPhase := if (s.lane l).rolesMoved then .vbusOff else .psWait }) := by
    unfold State.hardResetDone
    dsimp only
    rw [if_neg (by simp [hl, hp]), if_pos ha]
    rfl
  intro y
  generalize ((if (s.lane l).rolesMoved = true then (s.resetMessages l).attachRoles l else s.resetMessages l).baseLimits l) = u at *
  have hy : y = ((u.modCc l fun c => { c with vconnOn := false }).modPd l
      fun p => { p with hrPhase := if (s.lane l).rolesMoved then .vbusOff else .psWait }).lane l := by
    show (s.hardResetDone l).lane l = _
    rw [hd]
  rw [hy, hd, State.lane_modPd, State.lane_modCc]
  exact ⟨hcl, rfl, rfl, hpr.trans ha, hdr.trans ha, hvr, hrc, fun h => hk h ha, by simpa using he⟩

theorem State.hardResetDone_sink (hl : (s.lane l).belay.latched = false) (hp : (s.lane l).fw.protoLast = false) (ha : (s.lane l).cc.attachSrc = false)
    (hr : resetEnds (s.lane l) = false) :
    let y := (s.hardResetDone l).lane l
    y.Cleared ∧ y.belay.sw = 0 ∧ y.conv.on = false ∧ y.pd.hrPhase = .sinkWait ∧ (s.hardResetDone l).erase 1 l = s.erase 1 l := by
  obtain ⟨hcl, -, -, -, -, -, -, he⟩ := State.resetRoles_shows (s := s) (l := l)
  have hd : s.hardResetDone l = (((((if (s.lane l).rolesMoved then (s.resetMessages l).attachRoles l else s.resetMessages l).baseLimits l).stopStage l).openPath l).modPd l
      fun p => { p with hrPhase := .sinkWait }) := by
    unfold State.hardResetDone
    dsimp only
    rw [if_neg (by simp [hl, hp]), if_neg (by simp [ha]), if_neg (by simp [hr])]
    rfl
  intro y
  generalize ((if (s.lane l).rolesMoved = true then (s.resetMessages l).attachRoles l else s.resetMessages l).baseLimits l) = u at *
  have hy : y = ((((u.stopStage l).openPath l).modPd l fun p => { p with hrPhase := .sinkWait }).lane l) := by
    show (s.hardResetDone l).lane l = _
    rw [hd]
  rw [hy, hd, State.lane_modPd, State.openPath, State.lane_modBelay, State.stopStage, State.lane_modConv]
  exact ⟨hcl, rfl, rfl, rfl, by simpa using he⟩

end

end Sys2Proof.Machine

/-! Hard reset and cable reset (O42). -/
namespace Sys2Proof.Machine

-- what a SEND of the base image leaves of a hard reset

section
variable (s : State) (l : LaneId)

theorem State.sendStaged_reset : ((s.sendStaged l).lane l).pd.hrPhase = (s.lane l).pd.hrPhase ∧ ((s.sendStaged l).lane l).pd.hrDone = (s.lane l).pd.hrDone := by
  unfold State.sendStaged
  dsimp only
  split
  · rw [State.endMessage_pd]
    exact ⟨rfl, rfl⟩
  · obtain ⟨b, hb⟩ := State.swapSent_pd (l := l) (s.modPd l fun p => { p with queue := p.queue ++ [_], nextTag := p.nextTag + 1 }) _
    split
    · rw [State.lane_modSwap, hb, State.lane_modPd]
      exact ⟨rfl, rfl⟩
    · rw [hb, State.lane_modPd]
      exact ⟨rfl, rfl⟩

theorem State.imageSend_reset (ams : Bool) (f : Frame) :
    ((s.imageSend l ams f).lane l).pd.hrPhase = (s.lane l).pd.hrPhase ∧ ((s.imageSend l ams f).lane l).pd.hrDone = (s.lane l).pd.hrDone := by
  have h := (s.modCfg l fun c => c.staged ams f).sendStaged_reset l
  rw [State.lane_modCfg] at h
  exact h

theorem State.imageSendExt_reset (ams : Bool) (type : Nat) (payload : List Byte) : ((s.imageSendExt l ams type payload).lane l).pd.hrPhase =
    (s.lane l).pd.hrPhase ∧ ((s.imageSendExt l ams type payload).lane l).pd.hrDone = (s.lane l).pd.hrDone := by
  unfold State.imageSendExt
  dsimp only
  generalize hu : (if (s.lane l).pd.queue.any (·.ext) then s else s.modPd l fun p => { p with txBuf := memWriteList p.txBuf 0 payload }) = u
  have hul : (u.lane l).pd.hrPhase = (s.lane l).pd.hrPhase ∧ (u.lane l).pd.hrDone = (s.lane l).pd.hrDone := by
    rw [← hu]
    split <;> simp
  rw [← hul.1, ← hul.2]
  have h := (u.modCfg l fun c => { c with
    txData := (Vector.replicate 8 0).set 0 (BitVec.ofNat 32 ((mkHeader type 0).toNat + 0x8000 + 65536 * (0x8000 + payload.length))),
    txCtrl := packFields [(b2n ams, 5), (1, 4)] }).sendStaged_reset l
  rw [State.lane_modCfg] at h
  exact h

/-- What follows a soft start leaves the end of a hard reset, and the stage (R30, R71). -/
theorem State.firstCaps_shows : ((s.firstCaps l).lane l).pd.hrPhase = (s.lane l).pd.hrPhase ∧ ((s.firstCaps l).lane l).pd.hrDone = (s.lane l).pd.hrDone ∧
    ((s.firstCaps l).lane l).conv = (s.lane l).conv := by
  unfold State.firstCaps
  dsimp only
  split
  · exact ⟨rfl, rfl, rfl⟩
  · split
    · obtain ⟨h1, h2⟩ := (s.modSwap l fun w => { w with vcsTried := true }).imageSend_reset l true (ctl 11)
      rw [h1, h2, State.imageSend_conv, State.lane_modSwap]
      exact ⟨rfl, rfl, rfl⟩
    · split
      · obtain ⟨h1, h2⟩ := (s.modCc l fun c => { c with discRun := true, discTries := 1, discEpr := false }).imageSend_reset l false cableIdentity
        rw [State.startDiscovery, h1, h2, State.imageSend_conv, State.lane_modCc]
        exact ⟨rfl, rfl, rfl⟩
      · have hc : ((s.sendCapsNow l).lane l).conv = (s.lane l).conv := by
          obtain ⟨c, p, w, n, t, h⟩ := s.sendCapsNow_lane l
          rw [h]
        rw [hc]
        unfold State.sendCapsNow State.sendCaps
        dsimp only
        split
        · rw [State.lane_modCon]
          exact ⟨rfl, rfl, rfl⟩
        · split
          · obtain ⟨h1, h2⟩ := (s.modCon l fun c => { c with capsCeil := (s.lane l).budget.ceil, holdT := none }).imageSendExt_reset l true 17 _
            rw [h1, h2, State.lane_modCon]
            exact ⟨rfl, rfl, rfl⟩
          · obtain ⟨h1, h2⟩ := (s.modCon l fun c => { c with capsCeil := (s.lane l).budget.ceil, holdT := none }).imageSend_reset l (s.lane l).con.valid _
            rw [h1, h2, State.lane_modCon]
            exact ⟨rfl, rfl, rfl⟩

end

section
variable {s : State} {l : LaneId}

/-- The end of an attach opens the path, stops the stage, ends a hard reset and leaves the lane cleared (R40). -/
theorem State.leaveAttached_opens (u : State) (l : LaneId) : ((u.leaveAttached l).lane l).belay.sw = 0 ∧ ((u.leaveAttached l).lane l).conv.on = false ∧
    ((u.leaveAttached l).lane l).pd.hrPhase = .idle ∧ ((u.leaveAttached l).lane l).Cleared := by
  obtain ⟨hf, hq, hh, -, -⟩ := u.leaveAttached_pd l
  have ht : ((u.leaveAttached l).lane l).pd.txId = Vector.replicate 3 0 := by
    simp [State.leaveAttached, State.openPath, State.stopStage, State.flushRx, State.abortQueue, PdLane.clearIds]
  have hr : ((u.leaveAttached l).lane l).pd.rxId = Vector.replicate 3 none := by
    simp [State.leaveAttached, State.openPath, State.stopStage, State.flushRx, State.abortQueue, PdLane.clearIds]
  exact ⟨(u.leaveAttached_belay l).1, u.leaveAttached_conv l, hh, u.leaveAttached_con l, hf, hq, ht, hr⟩

theorem State.trans_of_erase {u : State} (h : u.erase 1 l = s.erase 1 l) : u.dev.trans = s.dev.trans := by
  have hd : (u.erase 1 l).dev.trans = (s.erase 1 l).dev.trans := by rw [h]
  exact hd

/-- A lane that is latched when the signalling is complete ends Disabled (R71, R157). -/
theorem State.hardResetDone_latched (h : (s.lane l).belay.latched = true ∨ (s.lane l).fw.protoLast = true) (ht : s.dev.trans = .none) :
    let y := (s.hardResetDone l).lane l
    y.Cleared ∧ y.belay.sw = 0 ∧ y.conv.on = false ∧ y.pd.hrPhase = .idle ∧ y.cc.st = .disabled ∧ (s.hardResetDone l).erase 1 l = s.erase 1 l := by
  have hd : s.hardResetDone l = ((if (s.lane l).swap.state ≠ 0 then (s.resetMessages l).endSwap l 7 else s.resetMessages l).disableLane l).settle :=
    if_pos (by simpa using h)
  have hve : (if (s.lane l).swap.state ≠ 0 then (s.resetMessages l).endSwap l 7 else s.resetMessages l).erase 1 l = s.erase 1 l := by
    split <;> simp
  generalize (if (s.lane l).swap.state ≠ 0 then (s.resetMessages l).endSwap l 7 else s.resetMessages l) = v at *
  have he : (v.disableLane l).erase 1 l = s.erase 1 l := by simpa using hve
  have hs : s.hardResetDone l = v.disableLane l := hd.trans (State.settle_none _ (by rw [State.trans_of_erase he, ht]))
  intro y
  have hy : y = (v.disableLane l).lane l := congrArg (fun u : State => u.lane l) hs
  obtain ⟨k1, k2, k3, k4⟩ := v.leaveAttached_opens l
  rw [hy, hs]
  refine ⟨?_, ?_, ?_, ?_, by rw [State.disableLane, State.lane_modCc], he⟩
  all_goals
    rw [State.disableLane, State.lane_modCc]
    generalize v.leaveAttached l = z at *
  · exact k4
  · exact k1
  · exact k2
  · exact k3

/-- A received Hard Reset of a lane that attached as source (R70, R71). -/
theorem hardResetReceived_source (ha : (s.lane l).cc.attached = true) (hp : (s.lane l).pd.hrPhase = .idle) (hat : (s.lane l).cc.attachSrc = true)
    (hla : (s.lane l).belay.latched = false) (hpl : (s.lane l).fw.protoLast = false) : ∃ u : State, exec (.hardResetReceived l) s = .next u ∧
      (u.lane l).pd.hrRcvd = true ∧ (u.lane l).Cleared ∧ (u.lane l).pd.hrPhase = (if (s.lane l).rolesMoved then .vbusOff else .psWait) ∧
      (u.lane l).cc.vconnOn = false ∧ (u.lane l).swap.powerRole = true ∧ (u.lane l).swap.dataRole = true ∧
      (u.lane l).swap.vconnRole = vconnAtAttach (s.lane l) ∧ s.onlyLanePosts u l := by
  generalize hv : (s.modPd l fun p => { p with hrRcvd := true }).postLane l 1 = v
  have hvl : v.lane l = { s.lane l with pd := { (s.lane l).pd with hrRcvd := true } } := by
    rw [← hv, State.postLane_lane, State.lane_modPd]
  have hve : v.erase 1 l = s.erase 1 l := by
    rw [← hv]
    simp
  obtain ⟨h1, h2, h3, h4, h5, h6, h7, -, h9⟩ := State.hardResetDone_source (s := v) (l := l) (by rw [hvl]; exact hla) (by rw [hvl]; exact hpl) (by rw [hvl]; exact hat)
  rw [hvl] at h3 h6 h7
  refine ⟨v.hardResetDone l, ?_, h7, h1, h3, h2, h4, h5, h6, State.onlyLanePosts_of_erase (h9.trans hve)⟩
  rw [← hv]
  exact (if_pos ha).trans (if_pos (by simp [hp]))

/-- A third hard reset without a contract is error recovery (R43, R72). -/
theorem State.errorRecovery_opens : ((s.errorRecovery l).lane l).belay.sw = 0 ∧ ((s.errorRecovery l).lane l).conv.on = false := by
  unfold State.errorRecovery
  dsimp only
  generalize State.countFault _ l .proto = c
  obtain ⟨last, u⟩ := c
  dsimp only
  have h1 : ((u.detachLane l).lane l).belay.sw = 0 ∧ ((u.detachLane l).lane l).conv.on = false := by
    obtain ⟨k1, k2, -⟩ := u.leaveAttached_opens l
    rw [State.detachLane, State.postLane_lane, State.lane_modCc]
    generalize u.leaveAttached l = z at *
    exact ⟨k1, k2⟩
  generalize u.detachLane l = v at *
  cases last
  · exact h1
  · rw [if_pos rfl, State.irq_lane, State.lane_modCc]
    exact h1

-- the path of a source

/-- Behind tPSHardReset a path that was closed as source, or is being discharged, waits for VBUS to go (R71). -/
theorem psHardReset_waits (hp : (s.lane l).pd.hrPhase = .psWait) (hd : (s.lane l).belay.dischOut = true ∨
    ((s.lane l).belay.sw ≠ 0 ∧ (s.lane l).swap.powerRole = true)) : leads (.psHardReset l) s fun s' =>
      (s'.lane l).pd.hrPhase = .vbusOff ∧ (s'.lane l).belay.sw = 0 ∧ (s'.lane l).belay.dischOut = true ∧ (s'.lane l).conv.on = false ∧ s.onlyLane s' l := by
  have hdo : ((((s.openPath l).stopStage l).lane l).belay.dischOut) = true := by
    rw [State.stopStage, State.lane_modConv, State.openPath, State.lane_modBelay]
    rcases hd with hd | ⟨h1, h2⟩
    · simp [hd]
    · simp only [h2, Bool.true_or, Bool.true_and, Bool.or_eq_true, decide_eq_true_eq]
      exact .inr h1
  refine ⟨_, (if_pos hp).trans (if_pos hdo), ?_⟩
  refine ⟨?_, ?_, ?_, ?_, State.onlyLane_of_erase (by simp)⟩
  · simp
  · simp [State.openPath, State.stopStage]
  · rw [State.lane_modPd]
    exact hdo
  · simp [State.stopStage, ConvLane.stop]

theorem State.tryRamp_dischIn : ((s.tryRamp l).lane l).belay.dischIn = (s.lane l).belay.dischIn := by
  unfold State.tryRamp
  dsimp only
  split <;> simp

theorem State.askClose_pd (w : CloseWant) : ((s.askClose l w).lane l).pd = (s.lane l).pd := by
  unfold State.askClose State.startClose
  dsimp only
  repeat' split
  all_goals simp

theorem State.tryRamp_dev : (s.tryRamp l).dev = s.dev := by
  unfold State.tryRamp
  dsimp only
  split <;> simp

theorem State.notSent_vconnRole (u : State) (l : LaneId) (m : TxSlot) : ((u.notSent l m).lane l).swap.vconnRole = (u.lane l).swap.vconnRole := by
  unfold State.notSent State.amsFail
  dsimp only
  repeat' split
  all_goals simp

/-- The IDs of the cable's SOP types cleared, and that of SOP kept (R73). -/
theorem cableIds_get {α : Type} (v : Vector α 3) (x : α) (i : Fin 3) : ((v.set 1 x).set 2 x).get i = if i = 0 then v.get 0 else x := by
  fin_cases i
  · simp [Vector.get_eq_getElem]
  · simp [Vector.get_eq_getElem]
  · simp [Vector.get_eq_getElem]

/-- What a cable reset leaves of the lane before discovery starts again (R73). -/
theorem State.cableReset_shows (hv : (s.lane l).swap.vconnRole = true) (hh : (s.lane l).pd.hrPhase = .idle) (ha : (s.lane l).cc.attached = true) :
    ∃ u : State, u.erase 1 l = s.erase 1 l ∧ (u.lane l).cc.cableValid = false ∧ (u.lane l).pd.queue = (s.lane l).pd.queue.filter (fun m => m.sop = .sop) ∧
      (u.lane l).pd.txId = ((s.lane l).pd.txId.set 1 0).set 2 0 ∧ (u.lane l).pd.rxId = ((s.lane l).pd.rxId.set 1 none).set 2 none ∧
      (u.lane l).swap.vconnRole = true ∧ (u.lane l).pd.hrPhase = .idle ∧
      s.cableReset l = if (s.lane l).cc.vconnOn && serves s l then u.startDiscovery l (s.lane l).cc.discEpr else u := by
  unfold State.cableReset
  dsimp only
  rw [if_pos (by simp [hv, ha, hh, PdLane.hrBusy])]
  generalize hw : s.modPd l _ = w
  generalize hg : (fun (st : State) (m : TxSlot) => (st.notSent l m).endMessage l m.tag 4 _) = g
  have hkeep (u : State) (m : TxSlot) : (fun u : State => ((u.lane l).pd.queue, (u.lane l).pd.txId, (u.lane l).pd.rxId, (u.lane l).pd.hrPhase,
      (u.lane l).swap.vconnRole)) (g u m) = ((u.lane l).pd.queue, (u.lane l).pd.txId, (u.lane l).pd.rxId, (u.lane l).pd.hrPhase, (u.lane l).swap.vconnRole) := by
    obtain ⟨a, b, hn⟩ := u.notSent_pd (l := l) m
    rw [← hg]
    dsimp only
    rw [State.endMessage_pd, hn, State.endMessage, State.postLane_lane, State.lane_modPd, u.notSent_vconnRole]
  have hsame := State.forEach_same (fun u : State => ((u.lane l).pd.queue, (u.lane l).pd.txId, (u.lane l).pd.rxId, (u.lane l).pd.hrPhase,
    (u.lane l).swap.vconnRole)) g hkeep ((s.lane l).pd.queue.filter fun m => m.sop ≠ .sop) w
  have hwe : w.erase 1 l = s.erase 1 l := by
    rw [← hw]
    simp
  have he : (w.forEach ((s.lane l).pd.queue.filter fun m => m.sop ≠ .sop) g).erase 1 l = s.erase 1 l := by
    rw [← hg]
    simp [hwe]
  generalize w.forEach ((s.lane l).pd.queue.filter fun m => m.sop ≠ .sop) g = v at *
  simp only [Prod.mk.injEq] at hsame
  obtain ⟨h1, h2, h3, h4, h5⟩ := hsame
  rw [← hw, State.lane_modPd] at h1 h2 h3 h4 h5
  refine ⟨_, ?_, ?_, ?_, ?_, ?_, ?_, ?_, rfl⟩
  · simpa using he
  all_goals rw [State.lane_modCc]
  · exact h1
  · exact h2
  · exact h3
  · exact h5.trans hv
  · exact h4.trans hh

/-- Discover Identity on SOP' takes a free slot of an empty queue (R36, R57). -/
theorem State.startDiscovery_says {u : State} {e : Bool} (hq : (u.lane l).pd.queue = []) (hh : (u.lane l).pd.hrPhase = .idle)
    (hv : (u.lane l).swap.vconnRole = true) : ((u.startDiscovery l e).lane l).says [cableIdentity] := by
  generalize hu : (u.modCc l fun c => { c with discRun := true, discTries := 1, discEpr := e }) = t
  have htl : (t.lane l).pd.queue = [] ∧ (t.lane l).pd.hrPhase = .idle ∧ (t.lane l).swap.vconnRole = true := by
    rw [← hu, State.lane_modCc]
    exact ⟨hq, hh, hv⟩
  obtain ⟨htq, hth, htv⟩ := htl
  have hs : u.startDiscovery l e = (t.modCfg l fun c => c.staged false cableIdentity).sendStaged l := by
    rw [← hu]
    rfl
  obtain ⟨h1, h2, h3⟩ := (t.lane l).cfg.staged_fields false cableIdentity
  have hk : fld ((t.lane l).cfg.staged false cableIdentity).txCtrl 1 0 = 1 := h1.trans rfl
  have hp : isPackWrite (t.modCfg l fun c => c.staged false cableIdentity) l = false := by
    simp only [isPackWrite, State.lane_modCfg, LaneCfg.staged]
    rw [stagedVdm_stageWords (f := cableIdentity) (w := 0xFF00A001) (os := []) rfl, show fld (0xFF00A001 : Word) 4 0 = 1 from by decide]
    simp
  have hr : sendRefused (t.modCfg l fun c => c.staged false cableIdentity) l = false := by
    simp [sendRefused, hp, hk, h2, htq, hth, htv, PdLane.hrBusy]
  rw [hs]
  unfold State.sendStaged
  dsimp only
  rw [hr, if_neg (by decide), State.lane_modCfg]
  simp only [h2, h3, hk, Bool.false_and, Bool.false_eq_true, if_false, Lane.says]
  rw [State.swapSent_queue, State.lane_modPd, State.lane_modCfg, htq]
  rfl

theorem closeAllowed_modPd (u : State) (g : PdLane → PdLane) : closeAllowed (u.modPd l g) l = closeAllowed u l := by
  simp only [closeAllowed, liveBit, laneLive, State.lane_modPd]
  rfl

theorem closeAllowed_hardResetEnd (u : State) : closeAllowed (u.hardResetEnd l) l = closeAllowed u l := by
  have h1 : dieUp (u.hardResetEnd l) l = dieUp u l := (dieUp_postLane ..).trans rfl
  have h2 : ((u.hardResetEnd l).lane l) = { u.lane l with pd := { (u.lane l).pd with hrPhase := .idle, hrThen := .normal, hrDone := true } } := by
    rw [State.hardResetEnd, State.postLane_lane, State.lane_modPd]
  have h3 : (u.hardResetEnd l).dev = u.dev := State.postLane_dev ..
  have h4 : (u.hardResetEnd l).sec = u.sec := State.postLane_sec ..
  simp only [closeAllowed, liveBit, laneLive, State.live, State.fusedOff, h1, h2, h3, h4]

theorem closeAllowed_true (h1 : liveBit s l = true) (h2 : dieUp s l = true) (h3 : (s.lane l).belay.latched = false) : closeAllowed s l = true := by
  simp [closeAllowed, h1, h2, h3]

end

/-- Settles O42: the hard reset from its cause through the completion of its signalling to the path's return, and the cable reset. -/
theorem hardResets : Obligations.HardResets := by
  unfold Obligations.HardResets
  intro a l side mv s
  refine ⟨?_, ?_, ?_, ?_, ?_, ?_, ?_, ?_, ?_, ?_, ?_, ?_, ?_, ?_, ?_, ?_, ?_, ?_, ?_, ?_, ?_⟩
  · intro ha hp hc
    have hr : s.hardReset l = s.modPd l fun p => p.signal .normal :=
      (if_neg (by simp [ha, PdLane.hrBusy, hp])).trans (if_neg (by omega))
    refine ⟨_, congrArg Host.Outcome.next hr, ?_⟩
    simp [PdLane.signal, State.onlyLane_of_erase]
  · intro h
    exact congrArg Host.Outcome.next (if_pos (by rcases h with h | h <;> simp [h, PdLane.hrBusy]))
  · intro ha hp hc
    have hr : s.hardReset l = s.errorRecovery l := (if_neg (by simp [ha, PdLane.hrBusy, hp])).trans (if_pos hc)
    refine ⟨_, congrArg Host.Outcome.next hr, ?_⟩
    obtain ⟨h1, h2⟩ := s.errorRecovery_cc l
    obtain ⟨h3, h4⟩ := State.errorRecovery_opens (s := s) (l := l)
    exact ⟨h2, h1, h3, h4, State.onlyLaneLogs_of_erase (by simp)⟩
  · intro ha hp hat hpr hdr hvr hst hho hla hpl
    have hm : (s.lane l).rolesMoved = false := by simp [Lane.rolesMoved, hst, hho, hpr, hdr, hat, hvr]
    obtain ⟨u, h1, h2, h3, h4, h5, -, -, -, h8⟩ := hardResetReceived_source ha hp hat hla hpl
    rw [hm] at h4
    exact ⟨_, h1, h2, h3, h5, h4, h8⟩
  · intro ha hp hat hdr hla hpl
    have hm : (s.lane l).rolesMoved = true := by simp [Lane.rolesMoved, hdr, hat]
    obtain ⟨u, h1, h2, h3, h4, h5, h6, h7, h7', h8⟩ := hardResetReceived_source ha hp hat hla hpl
    rw [hm] at h4
    exact ⟨_, h1, h2, h3, h5, h4, h6, h7, h7', h8⟩
  · intro hp hth hat hpr hst hho hla hpl hlc
    obtain ⟨h1, h2, h3, h4, h5⟩ := State.hardResetDone_sink hla hpl hat (by simp [resetEnds, hth, hlc])
    exact ⟨_, if_pos hp, h1, h2, h3, h4, State.onlyLanePosts_of_erase h5⟩
  · intro hp hat hpr hdr hvr hst hho hla hpl
    have hm : (s.lane l).rolesMoved = false := by simp [Lane.rolesMoved, hst, hho, hpr, hdr, hat, hvr]
    obtain ⟨h1, h2, h3, h4, -, -, -, h8, h9⟩ := State.hardResetDone_source hla hpl hat
    obtain ⟨h8, h8'⟩ := h8 hm
    rw [hm] at h3
    exact ⟨_, if_pos hp, h1, h2, h3, h8, h8', h4, State.onlyLanePosts_of_erase h9⟩
  · intro hp ha hst hlat ht
    obtain ⟨h1, h2, h3, h4, h5, h6⟩ := State.hardResetDone_latched hlat ht
    exact ⟨_, if_pos hp, h1, h2, h3, h4, h5, State.onlyLanePosts_of_erase h6⟩
  · intro hp
    exact if_neg hp
  · intro hp hd
    exact psHardReset_waits hp (.inl hd)
  · intro hp hsw hpr
    exact psHardReset_waits hp (.inr ⟨hsw, hpr⟩)
  · intro hp hre hsw hd
    generalize hu : (s.openPath l).stopStage l = u
    have hul : (u.lane l).belay.sw = 0 ∧ (u.lane l).belay.dischOut = false ∧ (u.lane l).conv.on = false ∧ resetEnds (u.lane l) = false := by
      rw [← hu, State.stopStage, State.lane_modConv, State.openPath, State.lane_modBelay]
      exact ⟨rfl, by simp [hd, hsw], rfl, hre⟩
    have hue : u.erase 0 l = s.erase 0 l := by
      rw [← hu]
      simp
    obtain ⟨h1, h2, h3, h4⟩ := hul
    refine ⟨u.modPd l fun p => { p with hrPhase := .srcRecover }, ?_, ?_⟩
    · rw [← hu] at h2 h4 ⊢
      exact (if_pos hp).trans ((if_neg (by simp [h2])).trans (congrArg Host.Outcome.next (if_neg (by simp [h4]))))
    · dsimp only
      rw [State.lane_modPd]
      exact ⟨rfl, h1, h2, h3, State.onlyLane_of_erase (by simpa using hue)⟩
  · intro hside hd hp hre
    subst hside
    refine ⟨_, (if_pos hd).trans ((if_pos hp).trans (congrArg Host.Outcome.next (if_neg ?_))), ?_⟩
    · rw [State.lane_modBelay]
      exact Bool.eq_false_iff.1 hre
    · dsimp only
      rw [State.lane_modPd, State.lane_modBelay]
      exact ⟨rfl, rfl, State.onlyLane_of_erase (by simp)⟩
  · intro hside hd ht
    subst hside
    refine ⟨_, (if_pos hd).trans (congrArg Host.Outcome.next (State.settle_none _ ?_)), ?_⟩
    · rw [State.tryRamp_dev]
      exact ht
    · refine ⟨?_, State.onlyLane_of_erase (by simp)⟩
      rw [State.tryRamp_dischIn, State.lane_modBelay]
  · intro hp hlive hdie hla hsw
    refine ⟨_, if_pos hp, ?_⟩
    have hc : closeAllowed (s.modPd l fun p => { p with hrPhase := .rising }) l = true :=
      (closeAllowed_modPd ..).trans (closeAllowed_true hlive hdie hla)
    obtain ⟨h1, -⟩ := State.askClose_asks (s := s.modPd l fun p => { p with hrPhase := .rising }) (l := l) .asSource hc (by simpa using hsw)
    exact ⟨by simp [State.askClose_pd], h1, State.onlyLane_of_erase (by simp)⟩
  · intro hp hon hsoft hvs hb
    generalize hu : (((s.rampDone l).hardResetEnd l).vconnBack l) = u
    have hul : (u.lane l).pd.hrPhase = .idle ∧ (u.lane l).pd.hrDone = true ∧ (u.lane l).conv.soft = false ∧ (u.lane l).conv.ramp = false := by
      rw [← hu]
      unfold State.vconnBack State.hardResetEnd State.rampDone
      dsimp only
      split <;> simp
    have hue : u.erase 1 l = s.erase 1 l := by
      rw [← hu]
      simp
    obtain ⟨h1, h2, h3⟩ := u.firstCaps_shows l
    refine ⟨u.firstCaps l, ?_, ?_⟩
    · rw [← hu]
      exact (if_neg (by simp [hon, hsoft, hvs, hb])).trans (if_pos hp)
    · dsimp only
      rw [h1, h2, h3]
      exact ⟨hul.1, hul.2.1, hul.2.2.1, hul.2.2.2, State.onlyLanePosts_of_erase (by simpa using hue)⟩
  · intro h
    refine if_pos ?_
    rcases h with h | h | h
    · simp [h]
    · simp [h]
    · simp [h]
  · intro hp hmv hlive hdie hla hsw
    refine ⟨_, if_pos (by simp [hp, hmv]), ?_⟩
    have hc : closeAllowed (s.hardResetEnd l) l = true := (closeAllowed_hardResetEnd s).trans (closeAllowed_true hlive hdie hla)
    obtain ⟨h1, -⟩ := State.askClose_asks (s := s.hardResetEnd l) (l := l) .asSink hc (by simpa [State.hardResetEnd] using hsw)
    exact ⟨by simp [State.sinkReturn, State.askClose_pd, State.hardResetEnd], by simp [State.sinkReturn, State.askClose_pd, State.hardResetEnd], h1,
      State.onlyLanePosts_of_erase (by simp [State.sinkReturn, State.hardResetEnd])⟩
  · intro hp hmv
    refine ⟨_, (if_pos hp).trans (if_neg (by omega)), ?_⟩
    generalize hu : (s.modPd l fun p => { p with hrPhase := .idle, hrThen := .normal }) = u
    have hue : u.erase 1 l = s.erase 1 l := by
      rw [← hu]
      simp
    obtain ⟨h1, h2⟩ := u.detachLane_cc l
    have he : (u.detachLane l).erase 1 l = s.erase 1 l := by simpa using hue
    have hh : ((u.detachLane l).lane l).pd.hrPhase = .idle := by
      have k := (u.leaveAttached_opens l).2.2.1
      rw [State.detachLane, State.postLane_lane, State.lane_modCc]
      generalize u.leaveAttached l = z at *
      exact k
    generalize u.detachLane l = z at *
    exact ⟨h2, h1, hh, State.onlyLanePosts_of_erase he⟩
  · intro ha hl hv hp hat hno
    obtain ⟨u, he, h1, h2, h3, h4, -, -, hc⟩ := State.cableReset_shows hv hp hat
    rw [if_neg (by rcases hno with h | h <;> simp [h])] at hc
    refine ⟨u, (State.byLaneWrite_served (f := fun st => st.cableReset l) ha hl).trans (congrArg Host.Outcome.next hc), h1, h2, ?_, ?_,
      State.onlyLanePosts_of_erase he⟩
    · intro i
      dsimp only
      rw [h3, cableIds_get]
    · intro i
      dsimp only
      rw [h4, cableIds_get]
  · intro ha hl hv hp hat hon hs hq
    obtain ⟨u, he, h1, h2, -, -, h5, h6, hc⟩ := State.cableReset_shows hv hp hat
    rw [if_pos (by simp [hon, hs])] at hc
    rw [hq] at h2
    refine ⟨_, (State.byLaneWrite_served (f := fun st => st.cableReset l) ha hl).trans (congrArg Host.Outcome.next hc), ?_, ?_, ?_,
      State.startDiscovery_says h2 h6 h5, State.onlyLanePosts_of_erase (by simpa using he)⟩
    all_goals simp [State.startDiscovery, h1]

end Sys2Proof.Machine

/-! SUPPORT. The alarms: what a detection notes, what its level does, and what BOOT detects again (R417, R419, R420, R422, R426). -/
namespace Sys2Proof.Machine

namespace KeepsSettings
variable {r s : State}

theorem modSec (h : KeepsSettings r s) (f : Security → Security) : KeepsSettings r (s.modSec f) := ⟨h.dev, h.cfg, h.enabled⟩
theorem modSup (h : KeepsSettings r s) (f : Sup → Sup) : KeepsSettings r (s.modSup f) := ⟨h.dev, h.cfg, h.enabled⟩
theorem modImage (h : KeepsSettings r s) (f : Image → Image) : KeepsSettings r (s.modImage f) := ⟨h.dev, h.cfg, h.enabled⟩
theorem mbxEnd (h : KeepsSettings r s) (b : Byte) : KeepsSettings r (s.mbxEnd b) := ⟨h.dev, h.cfg, h.enabled⟩
theorem log (h : KeepsSettings r s) (c : Nat) (k : LogKind) (i : Nat) (a b d : Word) : KeepsSettings r (s.log c k i a b d) := h.logFlags ..

theorem state (h : KeepsSettings r s) : s.dev.state = r.dev.state := (congrArg Dev.state h.dev :)
theorem devTrans (h : KeepsSettings r s) : s.dev.trans = r.dev.trans := (congrArg Dev.trans h.dev :)
theorem vsysOk (h : KeepsSettings r s) : s.dev.vsysOk = r.dev.vsysOk := (congrArg Dev.vsysOk h.dev :)
theorem resetLow (h : KeepsSettings r s) : s.dev.resetLow = r.dev.resetLow := (congrArg Dev.resetLow h.dev :)
theorem halting (h : KeepsSettings r s) : s.dev.halting = r.dev.halting := by rw [Dev.halting, Dev.halting, h.devTrans]

end KeepsSettings

section
variable {s r : State} {a : AlarmSource}

-- the entry to HALTED

@[simp] theorem State.enterHalted_sec (c : Nat) : (s.enterHalted c).sec = s.sec := by
  unfold State.enterHalted
  dsimp only
  rw [State.log_sec]
  split <;> rfl

theorem State.sec_of_erase {k : Nat} {l : LaneId} {u v : State} (h : v.erase k l = u.erase k l) : v.sec = u.sec := (congrArg State.sec h :)

theorem State.image_of_erase {k : Nat} {l : LaneId} {u v : State} (h : v.erase k l = u.erase k l) : v.image = u.image := (congrArg State.image h :)
theorem State.pending_of_erase {k : Nat} {l : LaneId} {u v : State} (h : v.erase k l = u.erase k l) : v.pending = u.pending := (congrArg State.pending h :)

theorem State.forEach_leaveService_sec (xs : List LaneId) : (s.forEach xs State.leaveService).sec = s.sec :=
  State.forEach_same State.sec State.leaveService
    (fun u l => (State.sec_of_erase (k := 2) (l := l) (State.erase_leaveService (by decide)) : (u.leaveService l).sec = u.sec)) xs s

theorem State.settle_halting {c : Nat} (h : s.dev.trans = .halting c) : s.settle = s.enterHalted c ∨ s.settle = s := by
  unfold State.settle
  rw [h]
  dsimp only
  split
  · exact .inl rfl
  · exact .inr rfl

/-- The state in which the entry to HALTED waits for its lanes (R15, R16). -/
def State.haltStarted (s : State) (c : Nat) : State :=
  let s1 := (s.modSup fun p => { p with attempt := 0 }).modImage fun x => { x with activating := false, actCore := 0 }
  let s2 := if s1.mbx.busy then s1.mbxEnd 0x09 else s1
  (s2.forEach allLanes State.leaveService).modDev fun d => { d with trans := .halting c, check := none }

theorem State.haltDevice_eq (c : Nat) (hs : s.dev.state ≠ .halted) (hh : s.dev.halting = false) :
    s.haltDevice c = (s.haltStarted c).enterHalted c ∨ s.haltDevice c = s.haltStarted c := by
  rw [show s.haltDevice c = (s.haltStarted c).settle from if_neg (by simp [hs, hh])]
  exact State.settle_halting rfl

theorem State.haltDevice_self (c : Nat) (h : s.dev.state = .halted ∨ s.dev.halting = true) : s.haltDevice c = s := if_pos (by simpa using h)

/-- What the entry to HALTED keeps: every part of the state that it does not name (R352). -/
theorem State.haltDevice_keeps {α : Type} (p : State → α) (hp : ∀ u c, p (State.haltStarted u c) = p u) (hq : ∀ u c, p (State.enterHalted u c) = p u) (c : Nat) :
    p (s.haltDevice c) = p s := by
  by_cases h : s.dev.state = .halted ∨ s.dev.halting = true
  · rw [State.haltDevice_self c h]
  · rw [not_or, Bool.not_eq_true] at h
    obtain e | e := State.haltDevice_eq c h.1 h.2
    · rw [e, hq, hp]
    · rw [e, hp]

theorem State.haltStarted_sec (c : Nat) : (s.haltStarted c).sec = s.sec := by
  unfold State.haltStarted
  dsimp only
  rw [State.modDev_sec, State.forEach_leaveService_sec]
  split <;> rfl

theorem State.forEach_leaveService_image (xs : List LaneId) : (s.forEach xs State.leaveService).image = s.image :=
  State.forEach_same State.image State.leaveService
    (fun u l => (State.image_of_erase (k := 2) (l := l) (State.erase_leaveService (by decide)) : (u.leaveService l).image = u.image)) xs s

theorem State.forEach_leaveService_pending (xs : List LaneId) : (s.forEach xs State.leaveService).pending = s.pending :=
  State.forEach_same State.pending State.leaveService
    (fun u l => (State.pending_of_erase (k := 2) (l := l) (State.erase_leaveService (by decide)) : (u.leaveService l).pending = u.pending)) xs s

theorem State.haltStarted_store (c : Nat) : (s.haltStarted c).image.store = s.image.store := by
  unfold State.haltStarted
  dsimp only
  rw [State.modDev_image, State.forEach_leaveService_image]
  split <;> rfl

theorem State.haltStarted_pending (c : Nat) : (s.haltStarted c).pending = s.pending := by
  unfold State.haltStarted
  dsimp only
  rw [State.modDev_pending, State.forEach_leaveService_pending]
  split <;> rfl

theorem State.enterHalted_store (c : Nat) : (s.enterHalted c).image.store = s.image.store := by
  unfold State.enterHalted
  dsimp only
  rw [State.log_image]
  split <;> rfl

@[simp] theorem State.enterHalted_pending (c : Nat) : (s.enterHalted c).pending = s.pending := by
  unfold State.enterHalted
  dsimp only
  rw [State.log_pending]
  split <;> rfl

theorem State.enterHalted_lanes (c : Nat) : (s.enterHalted c).lanes = s.lanes := by
  unfold State.enterHalted
  dsimp only
  rw [State.log_lanes]
  split <;> rfl

/-- The entry to HALTED touches no field of file 18 (R352). -/
@[simp] theorem State.haltDevice_sec (c : Nat) : (s.haltDevice c).sec = s.sec :=
  State.haltDevice_keeps State.sec (fun _ _ => State.haltStarted_sec _) (fun _ _ => State.enterHalted_sec _) c

/-- What the entry to HALTED leaves of the supplies: a device whose lanes wait stands in the state it was in (R16). -/
theorem State.haltStarted_dev (c : Nat) : (s.haltStarted c).dev.state = s.dev.state ∧ (s.haltStarted c).dev.vsysOk = s.dev.vsysOk ∧
    (s.haltStarted c).dev.resetLow = s.dev.resetLow := by
  unfold State.haltStarted
  extract_lets s1 s2
  have h1 : KeepsSettings s s1 := ((KeepsSettings.refl s).modSup _).modImage _
  have h2 : KeepsSettings s s2 := (h1.mbxEnd 0x09).ite h1
  have h := h2.forEach allLanes fun u l (h : KeepsSettings s u) => h.leaveService l
  generalize s2.forEach allLanes State.leaveService = u at *
  exact ⟨h.state, h.vsysOk, h.resetLow⟩

theorem State.enterHalted_dev (c : Nat) : (s.enterHalted c).dev.state = .halted ∧ (s.enterHalted c).dev.vsysOk = s.dev.vsysOk ∧
    (s.enterHalted c).dev.resetLow = s.dev.resetLow := by
  unfold State.enterHalted
  dsimp only
  rw [((KeepsSettings.refl _).log ..).state, ((KeepsSettings.refl _).log ..).vsysOk, ((KeepsSettings.refl _).log ..).resetLow]
  split <;> exact ⟨rfl, rfl, rfl⟩

/-- The entry to HALTED begins where none has (R16, R352). -/
theorem State.haltDevice_begins (c : Nat) (hs : s.dev.state ≠ .halted) (hh : s.dev.halting = false) :
    (s.haltDevice c).dev.state = .halted ∨ (s.haltDevice c).dev.trans = .halting c := by
  obtain e | e := State.haltDevice_eq c hs hh <;> rw [e]
  · exact .inl (State.enterHalted_dev c).1
  · exact .inr rfl

theorem State.haltDevice_halts (c : Nat) : (s.haltDevice c).dev.state = .halted ∨ (s.haltDevice c).dev.halting = true := by
  by_cases h : s.dev.state = .halted ∨ s.dev.halting = true
  · rw [State.haltDevice_self c h]
    exact h
  · rw [not_or, Bool.not_eq_true] at h
    exact (State.haltDevice_begins c h.1 h.2).imp_right fun h => by rw [Dev.halting, h]

-- the detection

@[simp] theorem State.alarmNoted_sources : (s.alarmNoted a).sec.sources = s.sec.sources ||| BitVec.ofNat 6 (2 ^ a.bit.val) := by
  simp [State.alarmNoted]
@[simp] theorem State.alarmNoted_alarms : (s.alarmNoted a).sec.alarms = satInc s.sec.alarms := by simp [State.alarmNoted]
@[simp] theorem State.alarmNoted_killed : (s.alarmNoted a).sec.killed = s.sec.killed := by simp [State.alarmNoted]

theorem AlarmSource.bit_set (w : BitVec 6) : (w ||| BitVec.ofNat 6 (2 ^ a.bit.val)).getLsbD a.bit.val = true := by cases a <;> simp [AlarmSource.bit]

theorem KeepsSettings.alarmNoted (h : KeepsSettings r s) (a : AlarmSource) : KeepsSettings r (s.alarmNoted a) := by
  unfold State.alarmNoted
  exact (((h.modSec _).log ..).post _).irq _

theorem KeepsSettings.recallCut (h : KeepsSettings r s) (a : AlarmSource) : KeepsSettings r (s.recallCut a) := by
  unfold State.recallCut
  repeat' split
  · exact (h.modSec _).log ..
  all_goals exact h

theorem State.recallCut_sec : ∃ p, (s.recallCut a).sec = { s.sec with policy := p } := by
  unfold State.recallCut
  repeat' split
  · exact ⟨_, State.log_sec ..⟩
  all_goals exact ⟨_, rfl⟩

@[simp] theorem State.alarmNoted_lanes : (s.alarmNoted a).lanes = s.lanes := by simp [State.alarmNoted]
@[simp] theorem State.recallCut_lanes : (s.recallCut a).lanes = s.lanes := by
  unfold State.recallCut
  repeat' split
  all_goals simp

-- what the resets and the levels leave

/-- s keeps what no reset and no alarm takes from r: VSYS and RESET#, the code store and the waiting commands, and the alarms noted so far (R7, R14, R417). -/
structure State.Withstands (r s : State) : Prop where
  vsysOk : s.dev.vsysOk = r.dev.vsysOk
  resetLow : s.dev.resetLow = r.dev.resetLow
  store : s.image.store = r.image.store
  pending : s.pending = r.pending
  sources : s.sec.sources = r.sec.sources
  alarms : s.sec.alarms = r.sec.alarms

namespace State.Withstands

theorem refl (s : State) : s.Withstands s := ⟨rfl, rfl, rfl, rfl, rfl, rfl⟩

theorem trans {u : State} (h : r.Withstands s) (g : s.Withstands u) : r.Withstands u :=
  ⟨g.vsysOk.trans h.vsysOk, g.resetLow.trans h.resetLow, g.store.trans h.store, g.pending.trans h.pending, g.sources.trans h.sources,
    g.alarms.trans h.alarms⟩

theorem modSec (h : r.Withstands s) {f : Security → Security} (hf : ∀ x, (f x).sources = x.sources ∧ (f x).alarms = x.alarms := by exact fun _ => ⟨rfl, rfl⟩) :
    r.Withstands (s.modSec f) := ⟨h.1, h.2, h.3, h.4, (hf _).1.trans h.5, (hf _).2.trans h.6⟩

theorem modDev (h : r.Withstands s) {f : Dev → Dev} (hf : ∀ d, (f d).vsysOk = d.vsysOk ∧ (f d).resetLow = d.resetLow := by exact fun _ => ⟨rfl, rfl⟩) :
    r.Withstands (s.modDev f) := ⟨(hf _).1.trans h.1, (hf _).2.trans h.2, h.3, h.4, h.5, h.6⟩

theorem log (h : r.Withstands s) (c : Nat) (k : LogKind) (i : Nat) (a b d : Word) : r.Withstands (s.log c k i a b d) := by
  have hd : KeepsSettings s (s.log c k i a b d) := (KeepsSettings.refl s).log ..
  exact h.trans ⟨hd.vsysOk, hd.resetLow, by simp, by simp, by simp, by simp⟩

theorem forEach (h : r.Withstands s) {α : Type} {f : State → α → State} (hf : ∀ u x, r.Withstands u → r.Withstands (f u x)) (xs : List α) :
    r.Withstands (s.forEach xs f) := by
  induction xs generalizing s with
  | nil => exact h
  | cons x t ih => exact ih (hf s x h)

theorem burnAt (h : r.Withstands s) (i : Nat) (raw : BitVec 39) : r.Withstands (s.burnAt i raw) := by
  unfold State.burnAt
  split
  · exact h.modSec
  · exact h

theorem free (h : r.Withstands s) : r.Withstands s.free.2 := h.modDev (f := fun d => { d with fresh := d.fresh + 1 })

theorem cutBurn (h : r.Withstands s) : r.Withstands s.cutBurn := by
  unfold State.cutBurn
  split
  · dsimp only
    split
    · exact ((h.free.free).forEach (fun u w hu => hu.burnAt ..) _).burnAt ..
    · exact (h.free.free).forEach (fun u w hu => hu.burnAt ..) _
  · exact h

theorem resetDevice (h : r.Withstands s) : r.Withstands s.resetDevice := by
  constructor <;> simp only [State.resetDevice, h.vsysOk, h.resetLow, h.store, h.pending, h.sources, h.alarms]

theorem readFuses (h : r.Withstands s) : r.Withstands s.readFuses := by
  unfold State.readFuses
  extract_lets x0 x failed y
  have hy : y.sources = s.sec.sources ∧ y.alarms = s.sec.alarms := ⟨rfl, rfl⟩
  clear_value y failed
  exact State.Withstands.modDev (s := { s with sec := y }) ⟨h.1, h.2, h.3, h.4, hy.1.trans h.5, hy.2.trans h.6⟩

theorem recallCut (h : r.Withstands s) (a : AlarmSource) : r.Withstands (s.recallCut a) := by
  unfold State.recallCut
  repeat' split
  · exact h.modSec.log ..
  all_goals exact h

theorem zeroise (h : r.Withstands s) : r.Withstands s.zeroise := h.modSec.log ..

theorem blowKill (h : r.Withstands s) : r.Withstands s.blowKill := by
  unfold State.blowKill
  split
  · exact h
  · exact h.modSec.log ..

theorem haltDevice (h : r.Withstands s) (c : Nat) : r.Withstands (s.haltDevice c) := by
  have hv := State.haltDevice_keeps (s := s) (fun u => u.dev.vsysOk) (fun u c => (State.haltStarted_dev c).2.1) (fun u c => (State.enterHalted_dev c).2.1) c
  have hr := State.haltDevice_keeps (s := s) (fun u => u.dev.resetLow) (fun u c => (State.haltStarted_dev c).2.2) (fun u c => (State.enterHalted_dev c).2.2) c
  have hi := State.haltDevice_keeps (s := s) (fun u => u.image.store) (fun u c => State.haltStarted_store c) (fun u c => State.enterHalted_store c) c
  have hp := State.haltDevice_keeps (s := s) State.pending (fun u c => State.haltStarted_pending c) (fun u c => State.enterHalted_pending c) c
  exact h.trans ⟨hv, hr, hi, hp, by rw [State.haltDevice_sec], by rw [State.haltDevice_sec]⟩

end State.Withstands

-- what an alarm does

/-- The state in which an alarm has been detected and not yet acted on (R420). -/
def State.alarmed (s : State) (a : AlarmSource) : State := (s.recallCut a).alarmNoted a

theorem State.alarmed_settings : KeepsSettings s (s.alarmed a) := ((KeepsSettings.refl s).recallCut a).alarmNoted a

@[simp] theorem State.alarmed_lanes : (s.alarmed a).lanes = s.lanes := by simp [State.alarmed]

theorem State.alarmed_sec : (s.alarmed a).sec.sources = s.sec.sources ||| BitVec.ofNat 6 (2 ^ a.bit.val) ∧
    (s.alarmed a).sec.alarms = satInc s.sec.alarms ∧ (s.alarmed a).sec.killed = s.sec.killed := by
  obtain ⟨p, hp⟩ := s.recallCut_sec (a := a)
  simp [State.alarmed, hp]

theorem State.recallCut_image : (s.recallCut a).image = s.image ∧ (s.recallCut a).pending = s.pending := by
  unfold State.recallCut
  repeat' split
  · exact ⟨by simp, by simp⟩
  all_goals exact ⟨rfl, rfl⟩

theorem State.alarmed_image : (s.alarmed a).image = s.image ∧ (s.alarmed a).pending = s.pending := by
  simp [State.alarmed, State.alarmNoted, State.recallCut_image]

/-- The reset of an alarm at level 1 (R420, R426). -/
def State.alarmReset (s : State) (a : AlarmSource) : State :=
  (s.alarmed a).cutBurn.resetDevice.readFuses.modSec fun x => { x with alarmCut := some (samplePolicy s, alarmStatus (s.alarmed a).sec) }

/-- While VSYS is valid and RESET# is high an alarm acts by its level (R419, R420). -/
theorem State.alarm_eq (hv : s.dev.vsysOk = true) (hr : s.dev.resetLow = false) :
    s.alarm a = match alarmActs s a with
      | 0 => s.alarmed a
      | 1 => s.alarmReset a
      | 2 => (s.alarmed a).zeroise.haltDevice 2
      | _ => (s.alarmed a).zeroise.blowKill.haltDevice 2 := by
  unfold State.alarm
  rw [if_neg (by simp [hv, hr])]
  rfl

theorem State.alarm_withstands (hv : s.dev.vsysOk = true) (hr : s.dev.resetLow = false) : (s.alarmed a).Withstands (s.alarm a) := by
  rw [State.alarm_eq hv hr]
  have h := State.Withstands.refl (s.alarmed a)
  split
  · exact h
  · exact h.cutBurn.resetDevice.readFuses.modSec
  · exact h.zeroise.haltDevice 2
  · exact h.zeroise.blowKill.haltDevice 2

theorem State.alarmReset_shows : (s.alarmReset a).dev.state = .boot ∧ (s.alarmReset a).lanes = State.reset.lanes := ⟨rfl, rfl⟩

@[simp] theorem State.zeroise_lanes : s.zeroise.lanes = s.lanes := State.log_lanes ..

@[simp] theorem State.blowKill_lanes : s.blowKill.lanes = s.lanes := by
  unfold State.blowKill
  split <;> simp

theorem State.zeroise_sec : s.zeroise.sec = { s.sec with key := none, zeroised := true } := State.log_sec ..

theorem State.blowKill_sec : s.blowKill.sec.killed = true ∧ s.blowKill.sec.key = s.sec.key ∧ s.blowKill.sec.zeroised = s.sec.zeroised := by
  unfold State.blowKill
  split
  next h => exact ⟨h, rfl, rfl⟩
  · exact ⟨by simp, by simp, by simp⟩

theorem KeepsSettings.zeroise (h : KeepsSettings r s) : KeepsSettings r s.zeroise := (h.modSec _).log ..

theorem KeepsSettings.blowKill (h : KeepsSettings r s) : KeepsSettings r s.blowKill := by
  unfold State.blowKill
  exact h.ite ((h.modSec _).log ..)

/-- What an alarm at level lv does (R417, R420, R422, R426). -/
def AlarmActs (lv : Nat) (s s' : State) : Prop :=
  (lv = 0 → s'.dev.state = s.dev.state ∧ s'.lanes = s.lanes) ∧
  (lv = 1 → s.dev.state ≠ .halted → sameSample s = false → s'.dev.state = .boot ∧ s'.lanes = State.reset.lanes) ∧
  (lv = 1 → s.dev.state = .halted ∨ sameSample s = true → s'.dev.state = s.dev.state ∧ s'.lanes = s.lanes) ∧
  (lv = 2 → s'.sec.key = none ∧ s'.sec.zeroised = true ∧ s'.sec.killed = s.sec.killed) ∧
  (lv = 3 → s'.sec.key = none ∧ s'.sec.zeroised = true ∧ s'.sec.killed = true) ∧
  (2 ≤ lv → s'.dev.state = .halted ∨ s'.dev.halting = true) ∧
  (2 ≤ lv → s.dev.halting = false → s.dev.state ≠ .halted → s'.dev.state = .halted ∨ s'.dev.trans = .halting 2)

theorem AlarmSource.level_lt (p : BitVec 12) : a.level p < 4 := Nat.mod_lt _ (by decide)

theorem alarmActs_masked (h : a.level (samplePolicy s) = 1) (hm : s.dev.state = .halted ∨ sameSample s = true) : alarmActs s a = 0 :=
  if_pos (by simpa [h] using hm)

theorem alarmActs_level (h : ¬ (a.level (samplePolicy s) = 1 ∧ (s.dev.state = .halted ∨ sameSample s = true))) :
    alarmActs s a = a.level (samplePolicy s) := if_neg (by simpa using h)

/-- A level that halts acts by haltDevice on a state in the device state it found, with its sec as the level leaves it. -/
theorem AlarmActs.halts {u : State} {lv : Nat} (h2 : 2 ≤ lv) (hu : KeepsSettings s u) (hk : u.sec.key = none) (hz : u.sec.zeroised = true)
    (h3 : lv = 2 → u.sec.killed = s.sec.killed) (h4 : lv = 3 → u.sec.killed = true) : AlarmActs lv s (u.haltDevice 2) := by
  refine ⟨fun h => by omega, fun h => by omega, fun h => by omega, fun h => ?_, fun h => ?_, fun _ => u.haltDevice_halts 2, fun _ hh hs => ?_⟩
  · rw [State.haltDevice_sec]
    exact ⟨hk, hz, h3 h⟩
  · rw [State.haltDevice_sec]
    exact ⟨hk, hz, h4 h⟩
  · exact u.haltDevice_begins 2 (hu.state ▸ hs) (hu.halting.trans hh)

theorem State.alarm_acts (hv : s.dev.vsysOk = true) (hr : s.dev.resetLow = false) : AlarmActs (a.level (samplePolicy s)) s (s.alarm a) := by
  rw [State.alarm_eq hv hr]
  have hs := s.alarmed_settings (a := a)
  by_cases hm : a.level (samplePolicy s) = 1 ∧ (s.dev.state = .halted ∨ sameSample s = true)
  · obtain ⟨h1, hm⟩ := hm
    rw [alarmActs_masked h1 hm, h1]
    refine ⟨fun h => by omega, fun _ hn hf => ?_, fun _ _ => ⟨hs.state, State.alarmed_lanes⟩, fun h => by omega, fun h => by omega, fun h => by omega, fun h => by omega⟩
    simp [hn, hf] at hm
  · rw [alarmActs_level hm]
    have hlt := a.level_lt (samplePolicy s)
    have hz := (s.alarmed a).zeroise_sec
    have hb := (s.alarmed a).zeroise.blowKill_sec
    match h : a.level (samplePolicy s) with
    | 0 => exact ⟨fun _ => ⟨hs.state, State.alarmed_lanes⟩, by omega, by omega, by omega, by omega, by omega, by omega⟩
    | 1 =>
      exact ⟨by omega, fun _ _ _ => State.alarmReset_shows, fun _ hx => absurd ⟨h, hx⟩ hm, by omega, by omega, by omega, by omega⟩
    | 2 =>
      refine .halts (le_refl 2) hs.zeroise ?_ ?_ (fun _ => ?_) (by omega) <;> rw [hz]
      exact State.alarmed_sec.2.2
    | 3 =>
      refine .halts (by omega) hs.zeroise.blowKill ?_ ?_ (by omega) fun _ => hb.1
      · rw [hb.2.1, hz]
      · rw [hb.2.2, hz]
    | n + 4 => omega

-- what BOOT detects again

/-- A device that its power-up leaves: in BOOT or HALTED, every lane as at reset (R16, R422). -/
structure State.PoweredUp (r s : State) : Prop where
  vsysOk : s.dev.vsysOk = true
  resetLow : s.dev.resetLow = false
  state : s.dev.state = .boot ∨ s.dev.state = .halted
  lanes : s.lanes = State.reset.lanes
  store : s.image.store = r.image.store
  pending : s.pending = r.pending

/-- A lane at reset has nothing to leave (R43). -/
theorem State.leaveService_idle {l : LaneId} (h : (s.lane l).cc.attached = false) (hd : (s.lane l).cc.st = .disabled) : s.leaveService l = s := by
  unfold State.leaveService
  simp [h, hd]

theorem reset_lane_cc (l : LaneId) : (State.reset.lane l).cc = {} := by
  simp [State.lane, State.reset, Vector.get]

theorem State.forEach_leaveService_idle (h : s.lanes = State.reset.lanes) (xs : List LaneId) : s.forEach xs State.leaveService = s := by
  have hl (l : LaneId) : (s.lane l).cc = {} := by rw [State.lane_congr h, reset_lane_cc]
  induction xs with
  | nil => rfl
  | cons l t ih =>
    change (s.leaveService l).forEach t State.leaveService = s
    rw [State.leaveService_idle (congrArg CcLane.attached (hl l)) (congrArg CcLane.st (hl l)), ih]

theorem State.haltStarted_lanes (c : Nat) (h : s.lanes = State.reset.lanes) : (s.haltStarted c).lanes = State.reset.lanes := by
  unfold State.haltStarted
  extract_lets s1 s2
  have h2 : s2.lanes = State.reset.lanes := by
    refine Eq.trans ?_ h
    show (if s1.mbx.busy then s1.mbxEnd 0x09 else s1).lanes = s.lanes
    split <;> rfl
  clear_value s2
  rw [State.forEach_leaveService_idle h2]
  exact h2

/-- On a device in BOOT whose lanes have not left reset, the entry to HALTED moves none of them (R16). -/
theorem State.haltDevice_boot (c : Nat) (h : s.lanes = State.reset.lanes) (hs : s.dev.state = .boot) :
    (s.haltDevice c).lanes = State.reset.lanes ∧ ((s.haltDevice c).dev.state = .boot ∨ (s.haltDevice c).dev.state = .halted) := by
  by_cases hh : s.dev.halting = true
  · rw [State.haltDevice_self c (.inr hh)]
    exact ⟨h, .inl hs⟩
  · obtain e | e := State.haltDevice_eq c (s := s) (by simp [hs]) (by simpa using hh) <;> rw [e]
    · exact ⟨(State.enterHalted_lanes c).trans (State.haltStarted_lanes c h), .inr (State.enterHalted_dev c).1⟩
    · exact ⟨State.haltStarted_lanes c h, .inl ((State.haltStarted_dev c).1.trans hs)⟩

namespace State.PoweredUp

theorem alarm (h : r.PoweredUp s) (hb : s.dev.state = .boot) : r.PoweredUp (s.alarm a) := by
  have hw := State.alarm_withstands (a := a) h.vsysOk h.resetLow
  have hn := s.alarmed_settings (a := a)
  obtain ⟨hi, hp⟩ := s.alarmed_image (a := a)
  suffices hx : ((s.alarm a).dev.state = .boot ∨ (s.alarm a).dev.state = .halted) ∧ (s.alarm a).lanes = State.reset.lanes from
    ⟨hw.vsysOk.trans (hn.vsysOk.trans h.vsysOk), hw.resetLow.trans (hn.resetLow.trans h.resetLow), hx.1, hx.2,
      hw.store.trans ((congrArg Image.store hi).trans h.store), hw.pending.trans (hp.trans h.pending)⟩
  rw [State.alarm_eq h.vsysOk h.resetLow]
  split
  · exact ⟨.inl (hn.state.trans hb), State.alarmed_lanes.trans h.lanes⟩
  · exact ⟨.inl rfl, rfl⟩
  · exact (State.haltDevice_boot 2 (by simp [h.lanes]) (hn.zeroise.state.trans hb)).symm
  · exact (State.haltDevice_boot 2 (by simp [h.lanes]) (hn.zeroise.blowKill.state.trans hb)).symm

theorem forEach (h : r.PoweredUp s) {α : Type} {f : State → α → State} (hf : ∀ u x, r.PoweredUp u → r.PoweredUp (f u x)) (xs : List α) :
    r.PoweredUp (s.forEach xs f) := by
  induction xs generalizing s with
  | nil => exact h
  | cons x t ih => exact ih (hf s x h)

/-- What BOOT detects again leaves the device in BOOT or HALTED (R419, R422). -/
theorem redetect (h : r.PoweredUp s) : r.PoweredUp s.redetect := by
  unfold State.redetect
  split
  · exact h
  · extract_lets s0
    have h0 : r.PoweredUp s0 := ⟨h.1, h.2, h.3, h.4, h.5, h.6⟩
    clear_value s0
    split
    · exact h0
    · dsimp only
      refine State.PoweredUp.forEach (show r.PoweredUp (s0.free.2.modSec _) from ⟨h0.1, h0.2, h0.3, h0.4, h0.5, h0.6⟩) (fun u x hu => ?_) _
      split
      next hc => exact hu.alarm (by simp at hc; exact hc.1)
      · exact hu

end State.PoweredUp

/-- Where no alarm condition stands BOOT detects none (R422). -/
theorem State.redetect_calm (h : s.sec.standing = []) : s.redetect = s ∨ s.redetect = s.modSec fun x => { x with alarmCut := none } := by
  unfold State.redetect
  split
  · exact .inl rfl
  · exact .inr (if_pos (by rw [show (s.modSec fun x => { x with alarmCut := none }).sec.standing = s.sec.standing from rfl, h]; rfl))

theorem State.redetect_off (h : s.dev.state ≠ .boot) : s.redetect = s := if_pos h

end

end Sys2Proof.Machine

/-! SUPPORT. The power dies: what the loss of a link or a supply isolates, and what its return brings back (R10, R155, R446). -/
namespace Sys2Proof.Machine

theorem mem_allGroups (g : GroupId) : g ∈ allGroups := List.mem_finRange g

theorem State.forEach_reaches {α : Type} {P : State → Prop} {f : State → α → State} {xs : List α} {x : α} (hx : x ∈ xs) (hf : ∀ u, P (f u x))
    (hk : ∀ u y, P u → P (f u y)) (s : State) : P (s.forEach xs f) := by
  have keeps (t : List α) (u : State) (hu : P u) : P (u.forEach t f) := by
    induction t generalizing u with
    | nil => exact hu
    | cons y t ih => exact ih _ (hk u y hu)
  induction xs generalizing s with
  | nil => exact absurd hx List.not_mem_nil
  | cons y t ih =>
    obtain rfl | ht := List.mem_cons.1 hx
    · exact keeps t _ (hf s)
    · exact ih ht (f s y)

section
variable {s : State} {l m : LaneId} {g k : GroupId}

-- isolation

theorem State.erase_isolateLane (j : Nat) : (s.isolateLane l).erase j l = s.erase j l := by
  unfold State.isolateLane
  dsimp only
  split <;> simp

theorem State.isolateLane_only : s.onlyLane (s.isolateLane l) l := State.onlyLane_of_erase (State.erase_isolateLane 0)

theorem State.isolateLane_other (h : m ≠ l) : (s.isolateLane l).lane m = s.lane m := State.lane_of_erase (State.erase_isolateLane 0) h

theorem State.isolateLane_dev : (s.isolateLane l).dev = s.dev :=
  (congrArg State.dev (State.erase_isolateLane (s := s) (l := l) 0) :)

theorem State.isolateLane_group : (s.isolateLane l).group g = s.group g :=
  (congrArg (fun u : State => u.group g) (State.erase_isolateLane (s := s) (l := l) 0) :)

theorem State.sampleCause_conv (c : BitVec 4) : ((s.sampleCause l c).lane l).conv = (s.lane l).conv := by
  unfold State.sampleCause
  split
  · simp
  · rfl

/-- A lane that its die isolates stands open with its stage stopped, and one that was not open by a trip before names CAUSE 8 (R10, R155). -/
theorem State.isolateLane_shows : ((s.isolateLane l).lane l).belay.sw = 0 ∧ ((s.isolateLane l).lane l).conv.on = false ∧
    ((s.lane l).belay.sw ≠ 0 → (s.lane l).belay.tripOpen = false → ((s.isolateLane l).lane l).belay.cause = 8) := by
  unfold State.isolateLane
  dsimp only
  generalize hu : (s.modCc l fun c => { c with vconnOn := false }) = u
  have hb : (u.lane l).belay = (s.lane l).belay := by rw [← hu]; simp
  have hc : (u.lane l).conv = (s.lane l).conv := by rw [← hu]; simp
  split
  · rw [State.lane_modBelay]
    obtain ⟨hsw, hon, -⟩ := u.tripPath_shows l 8 false false
    exact ⟨hsw, hon, fun _ h => u.tripPath_cause l 8 false false ((congrArg BelayLane.tripOpen hb).trans h)⟩
  next h =>
    simp only [Bool.or_eq_true, not_or, decide_eq_true_eq, not_not, Bool.not_eq_true] at h
    obtain ⟨⟨⟨hsw, hon⟩, -⟩, -⟩ := h
    exact ⟨(u.sampleCause_keeps l 8).1.trans ((congrArg BelayLane.sw hb).trans hsw), by rw [State.sampleCause_conv, hc, hon], fun hn => absurd hsw hn⟩

/-- A link that is lost isolates the lanes of its die, and nothing else changes (R10). -/
theorem State.loseLink_shows : (s.loseLink g).dev = s.dev ∧ ((s.loseLink g).group g).linkOk = false ∧ (∀ k, k ≠ g → (s.loseLink g).group k = s.group k) ∧
    ∀ l, (groupOf l = g → ((s.loseLink g).lane l).belay.sw = 0 ∧ ((s.loseLink g).lane l).conv.on = false ∧
      ((s.lane l).belay.sw ≠ 0 → (s.lane l).belay.tripOpen = false → ((s.loseLink g).lane l).belay.cause = 8)) ∧
      (groupOf l ≠ g → (s.loseLink g).lane l = s.lane l) := by
  have hg (k : GroupId) : (s.loseLink g).group k = (s.modGroup g fun y => { y with linkOk := false }).group k :=
    State.forEach_same (fun u => u.group k) _ (fun _ _ => State.isolateLane_group) _ _
  refine ⟨State.forEach_same State.dev _ (fun _ _ => State.isolateLane_dev) _ _, ?_, fun k hk => ?_, fun l => ⟨fun hl => ?_, fun hl => ?_⟩⟩
  · rw [hg, State.group_modGroup]
  · rw [hg, State.group_modGroup_ne _ _ hk]
  · obtain ⟨u, -, hu, he⟩ := State.forEach_lane_at (Q := fun _ => True) (f := State.isolateLane) (s := s.modGroup g fun y => { y with linkOk := false })
      (fun _ _ _ hm => State.isolateLane_other hm) (fun _ _ _ => trivial) trivial (lanesOf_nodup g) (mem_lanesOf.2 hl)
    rw [State.loseLink, he, ← show u.lane l = s.lane l from hu]
    exact State.isolateLane_shows
  · exact State.forEach_lane_other (fun _ _ _ hm => State.isolateLane_other hm) (fun h => hl (mem_lanesOf.1 h))

/-- A supply of the digital die that is lost takes every link (R10, R11, R446). -/
theorem State.loseLinks_shows : (s.forEach allGroups State.loseLink).dev = s.dev ∧
    (∀ k, ((s.forEach allGroups State.loseLink).group k).linkOk = false) ∧
    ∀ l, ((s.forEach allGroups State.loseLink).lane l).belay.sw = 0 ∧ ((s.forEach allGroups State.loseLink).lane l).conv.on = false := by
  refine ⟨State.forEach_same State.dev _ (fun _ _ => State.loseLink_shows.1) _ _, fun k => ?_, fun l => ?_⟩
  · refine State.forEach_reaches (P := fun u => (u.group k).linkOk = false) (mem_allGroups k) (fun u => State.loseLink_shows.2.1) (fun u y hu => ?_) s
    by_cases h : k = y
    · exact h ▸ State.loseLink_shows.2.1
    · rw [State.loseLink_shows.2.2.1 k h, hu]
  · refine State.forEach_reaches (P := fun u => (u.lane l).belay.sw = 0 ∧ (u.lane l).conv.on = false) (mem_allGroups (groupOf l))
      (fun u => ?_) (fun u y hu => ?_) s
    · obtain ⟨h1, h2, -⟩ := (u.loseLink_shows.2.2.2 l).1 rfl
      exact ⟨h1, h2⟩
    · by_cases h : groupOf l = y
      · obtain ⟨h1, h2, -⟩ := (u.loseLink_shows.2.2.2 l).1 h
        exact ⟨h1, h2⟩
      · rw [(u.loseLink_shows.2.2.2 l).2 h]
        exact hu

end

end Sys2Proof.Machine

/-! SUPPORT. What the return of a link leaves of the supplies (R155), what VSYS_WARN leaves of them (R136), and what the start of a core leaves of it (R286). -/
namespace Sys2Proof.Machine

/-- s has the supplies of the digital die, the links and lane l's waiting steps as r has them (R10, R155). -/
structure State.KeepsLinks (r : State) (l : LaneId) (s : State) : Prop where
  dev : s.dev.vcoreOk = r.dev.vcoreOk ∧ s.dev.vioOk = r.dev.vioOk
  link : ∀ g, (s.group g).linkOk = (r.group g).linkOk
  deferred : (s.lane l).belay.deferred = (r.lane l).belay.deferred

namespace State.KeepsLinks
variable {r s : State} {l : LaneId}

theorem refl (s : State) (l : LaneId) : s.KeepsLinks l s := ⟨⟨rfl, rfl⟩, fun _ => rfl, rfl⟩

theorem trans {u : State} (h : r.KeepsLinks l s) (g : s.KeepsLinks l u) : r.KeepsLinks l u :=
  ⟨⟨g.dev.1.trans h.dev.1, g.dev.2.trans h.dev.2⟩, fun k => (g.link k).trans (h.link k), g.deferred.trans h.deferred⟩

theorem modDev (h : r.KeepsLinks l s) {f : Dev → Dev} (hf : ∀ d, (f d).vcoreOk = d.vcoreOk ∧ (f d).vioOk = d.vioOk := by exact fun _ => ⟨rfl, rfl⟩) :
    r.KeepsLinks l (s.modDev f) := h.trans ⟨hf _, fun _ => rfl, rfl⟩
theorem modLane (h : r.KeepsLinks l s) {f : Lane → Lane} (hf : ∀ x, (f x).belay.deferred = x.belay.deferred := by exact fun _ => rfl) :
    r.KeepsLinks l (s.modLane l f) := h.trans ⟨⟨rfl, rfl⟩, fun _ => rfl, by rw [State.lane_modLane, hf]⟩
theorem modCc (h : r.KeepsLinks l s) (f : CcLane → CcLane) : r.KeepsLinks l (s.modCc l f) := h.modLane
theorem modPd (h : r.KeepsLinks l s) (f : PdLane → PdLane) : r.KeepsLinks l (s.modPd l f) := h.modLane
theorem modCon (h : r.KeepsLinks l s) (f : ContractLane → ContractLane) : r.KeepsLinks l (s.modCon l f) := h.modLane
theorem modSwap (h : r.KeepsLinks l s) (f : SwapLane → SwapLane) : r.KeepsLinks l (s.modSwap l f) := h.modLane
theorem modFw (h : r.KeepsLinks l s) (f : FwLane → FwLane) : r.KeepsLinks l (s.modFw l f) := h.modLane
theorem modConv (h : r.KeepsLinks l s) (f : ConvLane → ConvLane) : r.KeepsLinks l (s.modConv l f) := h.modLane
theorem modBudget (h : r.KeepsLinks l s) (f : BudgetLane → BudgetLane) : r.KeepsLinks l (s.modBudget l f) := h.modLane
theorem modSect (h : r.KeepsLinks l s) (f : SectLane → SectLane) : r.KeepsLinks l (s.modSect l f) := h.modLane
theorem modBelay (h : r.KeepsLinks l s) {f : BelayLane → BelayLane} (hf : ∀ b, (f b).deferred = b.deferred := by exact fun _ => rfl) :
    r.KeepsLinks l (s.modBelay l f) := h.modLane fun x => hf x.belay

theorem post (h : r.KeepsLinks l s) (n : Nat) : r.KeepsLinks l (s.post n) :=
  h.trans ⟨by simp, fun _ => s.post_linkOk n _, by simp⟩
theorem postLane (h : r.KeepsLinks l s) (k : LaneId) (n : Nat) : r.KeepsLinks l (s.postLane k n) := h.post _
theorem irq (h : r.KeepsLinks l s) (n : Fin 11) : r.KeepsLinks l (s.irq n) := h.trans ⟨⟨rfl, rfl⟩, fun _ => rfl, by simp⟩
theorem logAdvance (h : r.KeepsLinks l s) : r.KeepsLinks l s.logAdvance := by
  unfold State.logAdvance
  dsimp only
  split
  · exact h.modDev.post _
  · exact h.modDev
theorem logFlags (h : r.KeepsLinks l s) (fl c : Nat) (k : LogKind) (i : Nat) (a b d : Word) : r.KeepsLinks l (s.logFlags fl c k i a b d) := by
  unfold State.logFlags
  extract_lets _ m0 m1 m2 m3 m4 m5 m6 m7 m8
  have hm : r.KeepsLinks l { s with mem := m8 } := h.trans ⟨⟨rfl, rfl⟩, fun _ => rfl, rfl⟩
  exact hm.logAdvance
theorem log (h : r.KeepsLinks l s) (c : Nat) (k : LogKind) (i : Nat) (a b d : Word) : r.KeepsLinks l (s.log c k i a b d) := h.logFlags ..

theorem ite {c : Prop} [Decidable c] {a b : State} (ha : r.KeepsLinks l a) (hb : r.KeepsLinks l b) : r.KeepsLinks l (if c then a else b) := by
  split <;> assumption

theorem forEach (h : r.KeepsLinks l s) {α : Type} {f : State → α → State} (hf : ∀ u x, r.KeepsLinks l u → r.KeepsLinks l (f u x)) (xs : List α) :
    r.KeepsLinks l (s.forEach xs f) := by
  induction xs generalizing s with
  | nil => exact h
  | cons x t ih => exact ih (hf s x h)

theorem abortQueue (h : r.KeepsLinks l s) : r.KeepsLinks l (s.abortQueue l) := by
  unfold State.abortQueue
  dsimp only
  refine KeepsLinks.modPd ?_ _
  split
  · exact h
  · exact h.forEach (fun u m hu => (hu.modPd _).postLane ..) _

theorem loadOff (h : r.KeepsLinks l s) : r.KeepsLinks l (s.loadOff l) := by
  unfold State.loadOff State.loadChanges
  exact (h.modSect _).ite h

theorem voidArm (h : r.KeepsLinks l s) (cause : BitVec 2) : r.KeepsLinks l (s.voidArm l cause) := ((h.modCon _).postLane ..).ite h

theorem endUrkai (h : r.KeepsLinks l s) : r.KeepsLinks l (s.endUrkai l) := ((h.voidArm 2).modCon _).modSwap _

theorem openPath (h : r.KeepsLinks l s) : r.KeepsLinks l (s.openPath l) := by
  unfold State.openPath
  exact h.modBelay

theorem leaveAttached (h : r.KeepsLinks l s) : r.KeepsLinks l (s.leaveAttached l) := by
  have h0 := h.loadOff.endUrkai.abortQueue
  unfold State.leaveAttached State.flushRx State.stopStage
  refine KeepsLinks.modBelay (KeepsLinks.modBudget (KeepsLinks.modFw (KeepsLinks.modCc (KeepsLinks.modSwap ?_ _) _) _) _)
  exact KeepsLinks.modConv (KeepsLinks.openPath (KeepsLinks.modCon ((h0.modPd _).modPd _) _)) _

theorem disableLane (h : r.KeepsLinks l s) : r.KeepsLinks l (s.disableLane l) := by
  unfold State.disableLane
  exact h.leaveAttached.modCc _

theorem detachLane (h : r.KeepsLinks l s) : r.KeepsLinks l (s.detachLane l) := by
  unfold State.detachLane
  exact (h.leaveAttached.modCc _).postLane l 0

theorem endSwap (h : r.KeepsLinks l s) (o : BitVec 4) : r.KeepsLinks l (s.endSwap l o) := by
  unfold State.endSwap
  exact (h.modSwap _).postLane l 6

theorem packHold (h : r.KeepsLinks l s) : r.KeepsLinks l (s.packHold l) := (h.modSwap _).ite h

theorem countFault (h : r.KeepsLinks l s) (k : FaultClass) : r.KeepsLinks l (s.countFault l k).2 := by
  unfold State.countFault
  dsimp only
  split <;> dsimp only
  · exact ((h.modFw _).modFw _).logFlags ..
  · exact h.modFw _

theorem errorRecovery (h : r.KeepsLinks l s) : r.KeepsLinks l (s.errorRecovery l) := by
  have hlog := h.log 0x0104 .lane l.val (txStatus (s.lane l).pd) 0 0
  have hd := ((((hlog.endSwap 8).ite (c := (s.lane l).swap.state ≠ 0) hlog).packHold).countFault .proto).detachLane
  unfold State.errorRecovery
  exact ((hd.modCc _).irq 6).ite hd

theorem hardReset (h : r.KeepsLinks l s) : r.KeepsLinks l (s.hardReset l) := by
  unfold State.hardReset
  exact h.ite (h.errorRecovery.ite (h.modPd _))

theorem tripRecord (h : r.KeepsLinks l s) : r.KeepsLinks l (s.tripRecord l) := by
  unfold State.tripRecord
  extract_lets was s1 x s2
  have h2 : r.KeepsLinks l s2 := (h.modBelay.postLane l 4).log ..
  have h3 := h2.countFault .power
  generalize s2.countFault l .power = c at h3 ⊢
  obtain ⟨last, s3⟩ := c
  dsimp -zeta only at h3 ⊢
  extract_lets s5 y5 s4 s6 y done
  have h5 : r.KeepsLinks l s5 := (h3.modBelay (f := fun b => { b with latched := true })).postLane l 4
  clear_value s5
  have h4 : r.KeepsLinks l s4 := ((h5.logFlags _ _ _ _ _ _ _).irq 5).ite h3
  clear_value s4
  have h6 : r.KeepsLinks l s6 := h4.hardReset
  clear_value s6
  exact h6.disableLane.ite h6

end State.KeepsLinks

-- the return of a link

section
variable {s : State} {l m : LaneId} {g : GroupId}

theorem State.erase_deferredSteps : (s.deferredSteps l).erase 2 l = s.erase 2 l := by
  unfold State.deferredSteps
  split <;> simp

theorem State.deferredSteps_other (h : m ≠ l) : (s.deferredSteps l).lane m = s.lane m := State.lane_of_erase State.erase_deferredSteps h

/-- The steps that waited are done (R155). -/
theorem State.deferredSteps_deferred : ((s.deferredSteps l).lane l).belay.deferred = false := by
  unfold State.deferredSteps
  split
  · have h := ((State.KeepsLinks.refl (s.modBelay l fun b => { b with deferred := false }) l).voidArm 2).tripRecord
    rw [h.deferred, State.lane_modBelay]
  next h => simpa using h

theorem State.deferredSteps_links : s.KeepsLinks l (s.deferredSteps l) ∨
    (s.modBelay l fun b => { b with deferred := false }).KeepsLinks l (s.deferredSteps l) := by
  unfold State.deferredSteps
  split
  · exact .inr ((State.KeepsLinks.refl _ l).voidArm 2).tripRecord
  · exact .inl (.refl s l)

/-- The die of group g and its link are up (R10). -/
def State.Linked (s : State) (g : GroupId) : Prop := s.dev.vcoreOk = true ∧ s.dev.vioOk = true ∧ (s.group g).linkOk = true

theorem State.Linked.of_keeps {r : State} (h : r.Linked g) (k : r.KeepsLinks l s) : s.Linked g :=
  ⟨k.dev.1.trans h.1, k.dev.2.trans h.2.1, (k.link g).trans h.2.2⟩

theorem State.Linked.deferredSteps (h : s.Linked g) : (s.deferredSteps l).Linked g := by
  obtain k | k := s.deferredSteps_links (l := l)
  · exact h.of_keeps k
  · exact State.Linked.of_keeps (r := s.modBelay l fun b => { b with deferred := false }) h k

theorem State.vconnBack_belay : ((s.vconnBack l).lane m).belay = (s.lane m).belay := by
  by_cases hm : m = l
  · subst hm
    unfold State.vconnBack
    dsimp only
    split
    · simp
    · rfl
  · rw [State.lane_of_erase (State.erase_vconnBack (j := 0)) hm]

theorem State.Linked.vconnBack (h : s.Linked g) : (s.vconnBack l).Linked g := by
  unfold State.vconnBack
  dsimp only
  split
  · exact h.of_keeps ((State.KeepsLinks.refl s l).modCc _)
  · exact h

/-- VCONN that was due while the die was down comes back to a lane that no hard reset and no retry holds (R35, R446). -/
def State.vconnReturned (s : State) (l : LaneId) : State := if (s.lane l).pd.hrBusy || (s.lane l).cc.vconnRetry then s else s.vconnBack l

theorem State.Linked.vconnReturned (h : s.Linked g) : (s.vconnReturned l).Linked g := by
  unfold State.vconnReturned
  split
  · exact h
  · exact h.vconnBack

theorem State.forEach_vconnReturned_belay (xs : List LaneId) : ((s.forEach xs State.vconnReturned).lane m).belay = (s.lane m).belay := by
  refine State.forEach_same (fun u => (u.lane m).belay) State.vconnReturned (fun u k => ?_) xs s
  unfold State.vconnReturned
  split
  · rfl
  · exact State.vconnBack_belay

theorem State.enterReady_belay : (s.enterReady.lane l).belay = (s.lane l).belay := by
  simp [State.enterReady, State.releaseCounters, State.lane, Vector.get_eq_getElem]

theorem State.enterHalted_belay (c : Nat) : ((s.enterHalted c).lane l).belay = (s.lane l).belay := by
  rw [State.lane_congr (State.enterHalted_lanes c)]

theorem State.Linked.enterHalted (h : s.Linked g) (c : Nat) : (s.enterHalted c).Linked g := by
  unfold State.enterHalted
  dsimp only
  refine State.Linked.of_keeps (l := 0) (r := State.irq _ 9) ?_ ((State.KeepsLinks.refl _ 0).log ..)
  split <;> exact h

theorem State.Linked.settle (h : s.Linked g) : s.settle.Linked g := by
  unfold State.settle
  repeat' split
  · exact h
  · exact h
  · exact h.enterHalted _
  all_goals exact h

theorem State.settle_belay : (s.settle.lane l).belay = (s.lane l).belay := by
  unfold State.settle
  repeat' split
  · exact State.enterReady_belay
  · rfl
  · exact State.enterHalted_belay _
  all_goals rfl

theorem State.Linked.forEach {f : State → LaneId → State} (h : s.Linked g) (hf : ∀ u l, State.Linked u g → (f u l).Linked g) (xs : List LaneId) :
    (s.forEach xs f).Linked g := by
  induction xs generalizing s with
  | nil => exact h
  | cons x t ih => exact ih (hf s x h)

/-- A link and the supplies have returned, and no lane of the die waits for its trip's steps (R155). -/
theorem linkRestored_shows : leads (.linkRestored g) s fun s' => s'.dev.vcoreOk = true ∧ s'.dev.vioOk = true ∧ (s'.group g).linkOk = true ∧
    ∀ l, groupOf l = g → (s'.lane l).belay.deferred = false := by
  let s1 := (s.modDev fun d => { d with vcoreOk := true, vioOk := true }).modGroup g fun y => { y with linkOk := true }
  have h1 : s1.Linked g := ⟨rfl, rfl, by simp [s1]⟩
  have h2 := h1.forEach (f := State.deferredSteps) (fun _ _ h => h.deferredSteps) (lanesOf g)
  have h3 := (h2.forEach (f := State.vconnReturned) (fun u l h => h.vconnReturned) (lanesOf g)).settle
  refine ⟨_, rfl, h3.1, h3.2.1, h3.2.2, fun l hl => ?_⟩
  obtain ⟨u, -, -, he⟩ := State.forEach_lane_at (Q := fun _ => True) (f := State.deferredSteps) (s := s1)
    (fun _ _ _ hm => State.deferredSteps_other hm) (fun _ _ _ => trivial) trivial (lanesOf_nodup g) (mem_lanesOf.2 hl)
  rw [State.settle_belay]
  refine (congrArg BelayLane.deferred (State.forEach_vconnReturned_belay (lanesOf g))).trans ?_
  rw [he, State.deferredSteps_deferred]

end

-- VSYS_WARN

namespace KeepsSettings
variable {r s : State}

theorem amsFail (h : KeepsSettings r s) (l : LaneId) : KeepsSettings r (s.amsFail l) := h.ite (h.modSwap l _)

theorem amsEnd (h : KeepsSettings r s) (l : LaneId) : KeepsSettings r (s.amsEnd l) := (h.amsFail l).ite h

theorem notSent (h : KeepsSettings r s) (l : LaneId) (m : TxSlot) : KeepsSettings r (s.notSent l m) := by
  unfold State.notSent
  extract_lets f s1 s2
  have h1 : KeepsSettings r s1 := (h.amsFail l).ite h
  have h2 : KeepsSettings r s2 := (h1.modSwap l _).modPd l _
  clear_value s1 s2
  exact h1.ite ((h1.modSwap l _).ite (((h2.modPd l _).ite ((((h2.modPd l _).modCon l _).modBudget l _).ite h2)).ite ((h1.modCon l _).ite h1)))

theorem cancelQueued (h : KeepsSettings r s) (l : LaneId) (p : TxSlot → Bool) : KeepsSettings r (s.cancelQueued l p) :=
  h.forEach _ fun _ m hu => ((hu.modPd l _).notSent l m).endMessage ..

theorem logSw (h : KeepsSettings r s) (c : Nat) (k : LogKind) (i : Nat) (a b d : Word) : KeepsSettings r (s.logSw c k i a b d) := h.logFlags ..

/-- A pack write that VSYS_WARN meets touches no register of the device but the log's (R136). -/
theorem freezePackWrite (h : KeepsSettings r s) (l : LaneId) : KeepsSettings r (s.freezePackWrite l) := by
  unfold State.freezePackWrite
  dsimp only
  repeat' split
  · exact h
  · exact (((h.cancelQueued l _).logSw ..).modCon l _).amsEnd l
  · exact ((h.logSw ..).modCon l _).amsEnd l
  · exact (((h.cancelQueued l _).logSw ..).modCon l _).amsEnd l
  · exact h.logSw ..
  · exact h

end KeepsSettings

-- the start of a core

/-- s has the memories and the device registers of r, and each core at its pc, with the cause of its start, and running where it ran. -/
structure State.RunsOn (r s : State) : Prop where
  mem : s.mem = r.mem
  dev : s.dev = r.dev
  core : ∀ t, (s.core t).pc = (r.core t).pc ∧ (s.core t).rcause = (r.core t).rcause ∧ ((r.core t).run = .running → (s.core t).run = .running)

namespace State.RunsOn
variable {r s : State}

theorem refl (s : State) : s.RunsOn s := ⟨rfl, rfl, fun _ => ⟨rfl, rfl, id⟩⟩

theorem trans {u : State} (h : r.RunsOn s) (g : s.RunsOn u) : r.RunsOn u :=
  ⟨g.mem.trans h.mem, g.dev.trans h.dev, fun t => ⟨(g.core t).1.trans (h.core t).1, (g.core t).2.1.trans (h.core t).2.1, (g.core t).2.2 ∘ (h.core t).2.2⟩⟩

theorem of_cores {u : State} (h : r.RunsOn s) (hm : u.mem = s.mem) (hd : u.dev = s.dev) (hc : u.cores = s.cores) : r.RunsOn u :=
  h.trans ⟨hm, hd, fun t => by rw [State.core_congr hc]; exact ⟨rfl, rfl, id⟩⟩

theorem modCore (h : r.RunsOn s) (t : CoreId) {f : CoreState → CoreState}
    (hf : ∀ c, (f c).pc = c.pc ∧ (f c).rcause = c.rcause ∧ (c.run = .running → (f c).run = .running)) : r.RunsOn (s.modCore t f) := by
  refine h.trans ⟨rfl, rfl, fun k => ?_⟩
  by_cases hk : k = t
  · subst hk
    rw [State.core_modCore]
    exact hf _
  · rw [State.core_modCore_ne _ _ hk]
    exact ⟨rfl, rfl, id⟩

theorem wakeCore (h : r.RunsOn s) (t : CoreId) : r.RunsOn (s.wakeCore t) := by
  unfold State.wakeCore
  split
  · exact h.modCore t fun c => ⟨rfl, rfl, fun _ => rfl⟩
  · exact h

theorem wakeGroup (h : r.RunsOn s) (t : CoreId) : r.RunsOn (s.wakeGroup t) := h.of_cores (by simp) (by simp) (by simp)

theorem ite {c : Prop} [Decidable c] {a b : State} (ha : r.RunsOn a) (hb : r.RunsOn b) : r.RunsOn (if c then a else b) := by
  split <;> assumption

theorem forEach (h : r.RunsOn s) {α : Type} {f : State → α → State} (hf : ∀ u x, r.RunsOn u → r.RunsOn (f u x)) (xs : List α) :
    r.RunsOn (s.forEach xs f) := by
  induction xs generalizing s with
  | nil => exact h
  | cons x t ih => exact ih (hf s x h)

theorem modIc (h : r.RunsOn s) (t : CoreId) (f : IcCore → IcCore) : r.RunsOn (s.modIc t f) := h.of_cores rfl rfl rfl
theorem modSrc (h : r.RunsOn s) (x : SourceId) (f : IcSrc → IcSrc) : r.RunsOn (s.modSrc x f) := h.of_cores rfl rfl rfl
theorem modSup (h : r.RunsOn s) (f : Sup → Sup) : r.RunsOn (s.modSup f) := h.of_cores rfl rfl rfl
theorem modGroup (h : r.RunsOn s) (g : GroupId) (f : Group → Group) : r.RunsOn (s.modGroup g f) := h.of_cores rfl rfl rfl

theorem post (h : r.RunsOn s) (n : Nat) : r.RunsOn (s.post n) := by
  unfold State.post
  split
  · dsimp only
    split
    · split
      · exact (((h.modSrc _ _).wakeGroup _).wakeCore _).ite ((h.modSrc _ _).wakeGroup _)
      · exact h.modSrc _ _
    · exact h
  · exact h

theorem withdraw (h : r.RunsOn s) (t : CoreId) (x : SourceId) : r.RunsOn (s.withdraw t x) := by
  unfold State.withdraw
  exact (h.modIc t _).ite h

theorem overMask (h : r.RunsOn s) (t : CoreId) (k : Fin 32) (m : Word) : r.RunsOn (s.overMask t k m) := h.modCore t fun _ => ⟨rfl, rfl, id⟩

theorem moveSource (h : r.RunsOn s) (f d : CoreId) (x : SourceId) : r.RunsOn (s.moveSource f d x) := by
  unfold State.moveSource
  extract_lets k bit put s1 s2 s3 s4 m
  have h1 : r.RunsOn s1 := h.withdraw f x
  have h4 : r.RunsOn s4 := ((h1.modSrc x _).modIc d _).modIc f _
  clear_value s4
  exact (h4.overMask f k m).overMask d k m

theorem rewriteNow (h : r.RunsOn s) (f d : CoreId) (g : GroupId) (b : Bool) : r.RunsOn (s.rewriteNow f d g b) := by
  unfold State.rewriteNow
  extract_lets xs s1 s2 touch s3 s4
  have h1 : r.RunsOn s1 := h.forEach (fun u x hu => hu.moveSource f d x) xs
  have h4 : r.RunsOn s4 := ((((h1.modSup _).modIc f _).modIc d _).modGroup g _).modSrc _ _
  clear_value s4
  unfold State.wakeIfReady
  have h5 := h4.post (spliceSource g).val
  generalize s4.post (spliceSource g).val = s5 at h5 ⊢
  exact ((h5.wakeGroup d).wakeCore d).ite h5

theorem runRewrites (h : r.RunsOn s) : r.RunsOn s.runRewrites := by
  unfold State.runRewrites
  refine (h.modSup _).forEach (fun u e hu => ?_) _
  unfold State.rewrite
  exact (hu.modSup _).ite (hu.rewriteNow ..)

theorem restartIc (h : r.RunsOn s) (t : CoreId) (w : Option Bool) : r.RunsOn (s.restartIc t w) := by
  unfold State.restartIc
  extract_lets s1
  have h1 : r.RunsOn s1 := h.of_cores rfl rfl rfl
  exact (h1.modIc t _).runRewrites

end State.RunsOn

end Sys2Proof.Machine

/-! O34. Power-up, RESET#, the supplies, the links and the tamper alarms (R10–R14, R155, R386, R387, R417, R419, R420, R446). -/
namespace Sys2Proof.Machine

section
variable {s : State} {l : LaneId} {g : GroupId}

theorem memRead_memClear {m : Mem} {lo hi a : Nat} (h1 : lo ≤ a) (h2 : a < hi) : memRead (memClear m lo hi) a = 0 := by
  induction m with
  | nil => rfl
  | cons c t ih =>
    rw [memClear, List.filter_cons]
    split
    next hc =>
      have hne : c.1 ≠ a := by simp at hc; omega
      exact (if_neg hne).trans ih
    · exact ih

/-- S0 starts in the boot ROM of a device in BOOT (R286, R386). -/
theorem State.startCore_s0 (hb : s.dev.state = .boot) : (s.startCore 4 0).mem = s.mem ∧ (s.startCore 4 0).dev = s.dev ∧
    ((s.startCore 4 0).core 4).run = .running ∧ ((s.startCore 4 0).core 4).pc = 0x300000 ∧ ((s.startCore 4 0).core 4).rcause = 0 := by
  unfold State.startCore
  extract_lets shown
  clear_value shown
  generalize hu : s.modCore 4 _ = u
  have hm : u.mem = s.mem ∧ u.dev = s.dev := by rw [← hu]; exact ⟨rfl, rfl⟩
  have hc : (u.core 4).run = .running ∧ (u.core 4).pc = 0x300000 ∧ (u.core 4).rcause = 0 := by
    rw [← hu, State.core_modCore]
    exact ⟨rfl, if_pos (by simp [hb]), rfl⟩
  have hr := (State.RunsOn.refl u).restartIc 4 shown
  obtain ⟨hp, hcause, hrun⟩ := hr.core 4
  exact ⟨hr.mem.trans hm.1, hr.dev.trans hm.2, hrun hc.1, hp.trans hc.2.1, hcause.trans hc.2.2⟩

theorem standing_congr {x y : Security} (h1 : x.tamperLow = y.tamperLow) (h2 : x.meshBroken = y.meshBroken) (h3 : x.vGlitch = y.vGlitch)
    (h4 : x.cGlitch = y.cGlitch) : x.standing = y.standing := by simp only [Security.standing, h1, h2, h3, h4]

/-- What step 2 of R386 changes: fields of file 18 and DEGRADED. -/
theorem State.readFuses_shows : ∃ y d, s.readFuses = State.modDev { s with sec := y } (fun e => { e with degraded := d }) ∧
    y.standing = s.sec.standing ∧ y.fuses = s.sec.fuses ∧ y.alarms = s.sec.alarms ∧ y.sources = s.sec.sources ∧ ∀ i,
      y.shadow.get i = (if auditFailed s.sec i then 0 else fuseValue (s.sec.fuses.get i)) ∧
      y.wstat.get i = (if auditFailed s.sec i then 3 else fuseState (s.sec.fuses.get i)) := by
  unfold State.readFuses
  extract_lets x0 x failed y
  have hshadow : y.shadow = Vector.ofFn fun i => if auditFailed s.sec i then 0 else fuseValue (s.sec.fuses.get i) := rfl
  have hwstat : y.wstat = Vector.ofFn fun i => if auditFailed s.sec i then 3 else fuseState (s.sec.fuses.get i) := rfl
  have hstand : y.standing = s.sec.standing := standing_congr rfl rfl rfl rfl
  have hy : y.fuses = s.sec.fuses ∧ y.alarms = s.sec.alarms ∧ y.sources = s.sec.sources := ⟨rfl, rfl, rfl⟩
  clear_value y failed
  refine ⟨y, _, rfl, hstand, hy.1, hy.2.1, hy.2.2, fun i => ⟨?_, ?_⟩⟩
  · rw [hshadow, Vector.get_eq_getElem, Vector.getElem_ofFn]
  · rw [hwstat, Vector.get_eq_getElem, Vector.getElem_ofFn]

/-- Where no alarm condition stands the reading of the fuses detects none (R386, R422). -/
theorem State.redetect_readFuses (h : s.sec.standing = []) : ∃ y d, s.readFuses.redetect = State.modDev { s with sec := y } (fun e => { e with degraded := d }) ∧
    y.fuses = s.sec.fuses ∧ y.alarms = s.sec.alarms ∧ y.sources = s.sec.sources ∧ ∀ i,
      y.shadow.get i = (if auditFailed s.sec i then 0 else fuseValue (s.sec.fuses.get i)) ∧
      y.wstat.get i = (if auditFailed s.sec i then 3 else fuseState (s.sec.fuses.get i)) := by
  obtain ⟨y, d, hf, hstand, hfuses, hal, hsrc, hi⟩ := s.readFuses_shows
  obtain e | e := State.redetect_calm (s := s.readFuses) (by rw [hf]; exact hstand.trans h)
  · exact ⟨y, d, e.trans hf, hfuses, hal, hsrc, hi⟩
  · exact ⟨{ y with alarmCut := none }, d, e.trans (by rw [hf]; rfl), hfuses, hal, hsrc, hi⟩

theorem State.resetDevice_sec : s.resetDevice.sec.fuses = s.sec.fuses ∧ s.resetDevice.sec.alarms = s.sec.alarms := by
  simp only [State.resetDevice, and_self]

theorem State.powerReset_sec : s.powerReset.sec.fuses = s.sec.fuses ∧ s.powerReset.sec.standing = s.sec.standing ∧ s.powerReset.sec.alarms = 0 ∧
    s.powerReset.sec.sources = 0 := by
  refine ⟨?_, standing_congr ?_ ?_ ?_ ?_, rfl, rfl⟩ <;> simp only [State.powerReset, State.resetDevice, State.modSec]

theorem powerUp_calm (h : s.sec.standing = []) : leads .powerUp s fun s' => s'.dev.state = .boot ∧ s'.dev.vsysOk = true ∧
    s'.lanes = State.reset.lanes ∧ s'.cores = State.reset.cores ∧ s'.sec.alarms = 0 ∧ s'.sec.sources = 0 ∧
    s'.sec.fuses = s.sec.fuses ∧ s'.image.store = s.image.store ∧ s'.pending = s.pending := by
  obtain ⟨hf0, hs0, hal0, hsrc0⟩ := s.powerReset_sec
  refine ⟨_, rfl, ?_⟩
  dsimp only
  split
  · exact ⟨rfl, rfl, rfl, rfl, hal0, hsrc0, hf0, rfl, rfl⟩
  · obtain ⟨y, d, e, hf, hal, hsrc, -⟩ := State.redetect_readFuses (s := s.powerReset.modDev fun d => { d with vsysOk := true }) (hs0.trans h)
    rw [e]
    exact ⟨rfl, rfl, rfl, rfl, hal.trans hal0, hsrc.trans hsrc0, hf.trans hf0, rfl, rfl⟩

theorem powerUp_alarmed : leads .powerUp s fun s' => s'.dev.vsysOk = true ∧ (s'.dev.state = .boot ∨ s'.dev.state = .halted) ∧
    s'.lanes = State.reset.lanes ∧ s'.image.store = s.image.store ∧ s'.pending = s.pending := by
  refine ⟨_, rfl, ?_⟩
  dsimp only
  split
  · exact ⟨rfl, .inl rfl, rfl, rfl, rfl⟩
  next hr =>
    obtain ⟨y, d, e, -⟩ := State.readFuses_shows (s := s.powerReset.modDev fun d => { d with vsysOk := true })
    have h : s.PoweredUp (s.powerReset.modDev fun d => { d with vsysOk := true }).readFuses := by
      rw [e]
      exact ⟨rfl, (Bool.not_eq_true _).mp hr, .inl rfl, rfl, rfl, rfl⟩
    have h' := h.redetect
    exact ⟨h'.vsysOk, h'.state, h'.lanes, h'.store, h'.pending⟩

/-- Every fuse word is read behind a release of RESET#, and one that AUDIT marked fails closed (R386, R387, R416). -/
theorem resetReleased_reads (hr : s.dev.resetLow = true) (hv : s.dev.vsysOk = true) (h : s.sec.standing = []) :
    leads .resetReleased s fun s' => s'.dev.resetLow = false ∧
      ∀ i : Fin 512, (i.val ∉ s.sec.auditBad → s'.sec.shadow.get i = fuseValue (s.sec.fuses.get i) ∧
      s'.sec.wstat.get i = fuseState (s.sec.fuses.get i)) ∧ (i.val ∈ s.sec.auditBad → s'.sec.shadow.get i = 0 ∧ s'.sec.wstat.get i = 3) := by
  obtain ⟨y, d, e, -, -, -, hi⟩ := State.redetect_readFuses (s := s.modDev fun d => { d with resetLow := false }) h
  refine ⟨(s.modDev fun d => { d with resetLow := false }).readFuses.redetect,
    (if_pos hr).trans (congrArg Host.Outcome.next (if_pos hv)), ?_⟩
  rw [e]
  refine ⟨rfl, fun i => ?_⟩
  obtain ⟨hshadow, hwstat⟩ := hi i
  exact ⟨fun hn => ⟨hshadow.trans (if_neg (by simpa [auditFailed] using hn)), hwstat.trans (if_neg (by simpa [auditFailed] using hn))⟩,
    fun hm => ⟨hshadow.trans (if_pos (by simpa [auditFailed] using hm)), hwstat.trans (if_pos (by simpa [auditFailed] using hm))⟩⟩

theorem vcoreAndVioInRange_boot (hb : s.dev.state = .boot) (hv : s.dev.vsysOk = true) (hr : s.dev.resetLow = false) (hx : s.dev.xin = false)
    (h : s.sec.standing = []) : leads .vcoreAndVioInRange s fun s' => s'.dev.xin = true ∧ s'.dev.vcoreOk = true ∧ s'.dev.vioOk = true ∧
      ∀ k, (s'.group k).linkOk = true := by
  obtain ⟨u, hu, hdev⟩ : ∃ u, s.redetect = u ∧ u.dev = s.dev := by
    obtain e | e := State.redetect_calm h <;> exact ⟨_, e, rfl⟩
  have hon : (u.dev.state = .boot && u.dev.vsysOk && !u.dev.resetLow && !u.dev.xin) = true := by simp [hdev, hb, hv, hr, hx]
  obtain ⟨y, d, hf, -⟩ := State.readFuses_shows (s := u.modDev fun d => { d with vcoreOk := true, vioOk := true })
  have he : exec .vcoreAndVioInRange s = .next (((u.modDev fun d => { d with vcoreOk := true, vioOk := true }).readFuses.modDev fun d => { d with xin := true }).forEach
      allGroups fun st g => st.modGroup g fun y => { y with linkOk := true }) := by
    change execVcoreAndVioInRange s = _
    unfold execVcoreAndVioInRange
    rw [hu]
    exact if_pos hon
  refine ⟨_, he, ?_⟩
  rw [hf]
  generalize hw : State.modDev _ _ = w
  have hd : (w.forEach allGroups fun st g => st.modGroup g fun y => { y with linkOk := true }).dev = w.dev :=
    State.forEach_same State.dev (fun st g => st.modGroup g fun y => { y with linkOk := true }) (fun _ _ => rfl) _ _
  rw [hd]
  refine ⟨by rw [← hw]; rfl, by rw [← hw]; rfl, by rw [← hw]; rfl, fun k => ?_⟩
  refine State.forEach_reaches (P := fun v => (v.group k).linkOk = true) (mem_allGroups k) (fun v => by simp) (fun v j hj => ?_) w
  by_cases hk : k = j
  · subst hk; simp
  · rw [State.group_modGroup_ne _ _ hk, hj]

theorem vcoreAndVioInRange_other (h : s.dev.state ≠ .boot ∨ (s.dev.xin = true ∧ s.sec.standing = [])) :
    leads .vcoreAndVioInRange s fun s' => s'.dev.vcoreOk = true ∧ s'.dev.vioOk = true ∧ s'.dev.xin = s.dev.xin ∧ s'.lanes = s.lanes ∧ s'.groups = s.groups := by
  obtain ⟨u, hu, hdev, hl, hg⟩ : ∃ u, s.redetect = u ∧ u.dev = s.dev ∧ u.lanes = s.lanes ∧ u.groups = s.groups := by
    obtain h | ⟨-, h⟩ := h
    · exact ⟨_, State.redetect_off h, rfl, rfl, rfl⟩
    · obtain e | e := State.redetect_calm h <;> exact ⟨_, e, rfl, rfl, rfl⟩
  have he : exec .vcoreAndVioInRange s = .next (u.modDev fun d => { d with vcoreOk := true, vioOk := true }) := by
    change execVcoreAndVioInRange s = _
    unfold execVcoreAndVioInRange
    rw [hu]
    refine if_neg ?_
    obtain h | ⟨h, -⟩ := h <;> simp [hdev, h]
  exact ⟨_, he, rfl, rfl, (congrArg Dev.xin hdev :), hl, hg⟩

/-- The PLL's lock clears the event log region and starts S0 in the boot ROM (R386). -/
theorem pllLocked_boot (hb : s.dev.state = .boot) (hx : s.dev.xin = true) (hp : s.dev.pll = false) (h : s.sec.standing = []) :
    leads .pllLocked s fun s' => s'.dev.pll = true ∧ (s'.core 4).run = .running ∧ (s'.core 4).pc = 0x300000 ∧ (s'.core 4).rcause = 0 ∧
      ∀ a, logBase ≤ a → a < 0x300000 → memRead s'.mem a = 0 := by
  obtain ⟨u, hu, hdev⟩ : ∃ u, s.redetect = u ∧ u.dev = s.dev := by
    obtain e | e := State.redetect_calm h <;> exact ⟨_, e, rfl⟩
  obtain ⟨w, hw⟩ : ∃ w : State, w = { u.modDev fun d => { d with pll := true } with mem := memClear u.mem logBase 0x300000 } := ⟨_, rfl⟩
  have he : exec .pllLocked s = .next (w.startCore 4 0) := by
    change execPllLocked s = _
    unfold execPllLocked
    rw [hu]
    rw [hw]
    exact if_pos (by simp [hdev, hb, hx, hp])
  obtain ⟨hm, hd, hrun, hpc, hcause⟩ := w.startCore_s0 (by rw [hw]; exact (congrArg Dev.state hdev).trans hb)
  refine ⟨_, he, by rw [hd, hw]; rfl, hrun, hpc, hcause, fun a h1 h2 => ?_⟩
  rw [hm, hw]
  exact memRead_memClear h1 h2

theorem linkFrameTimeout_shows : leads (.linkFrameTimeout g) s fun s' => (s'.group g).linkOk = false ∧ (∀ k, k ≠ g → s'.group k = s.group k) ∧
    ∀ l, (groupOf l = g → (s'.lane l).belay.sw = 0 ∧ (s'.lane l).conv.on = false ∧ ((s.lane l).belay.sw ≠ 0 → (s.lane l).belay.tripOpen = false →
      (s'.lane l).belay.cause = 8)) ∧ (groupOf l ≠ g → s'.lane l = s.lane l) := by
  have shows (n : Nat) := (s.free.2.modGroup g fun y => y.badFrames n).loseLink_shows (g := g)
  refine ⟨_, rfl, ?_⟩
  obtain ⟨-, hg, hk, hl⟩ := shows (s.free.1.toNat % 2 ^ 16)
  exact ⟨hg, fun k h => (hk k h).trans (State.group_modGroup_ne _ _ h), hl⟩

theorem mem_allLanes (l : LaneId) : l ∈ allLanes := List.mem_finRange l

/-- A lane without its VCONN supply applies VCONN no more (R35). -/
def State.vconnSupLost (t : Nat) (s : State) (l : LaneId) : State :=
  if (s.lane l).cc.vconnOn then s.modCc l fun c => { c with vconnOn := false, supLowAt := some t } else s

theorem State.vconnSupLost_dev {t : Nat} : (s.vconnSupLost t l).dev = s.dev := by
  unfold State.vconnSupLost
  split <;> rfl

theorem State.vconnSupLost_off {t : Nat} : ((s.vconnSupLost t l).lane l).cc.vconnOn = false := by
  unfold State.vconnSupLost
  split
  · simp
  next h => simpa using h

theorem State.vconnSupLost_stays {t : Nat} {k : LaneId} (h : (s.lane l).cc.vconnOn = false) : ((s.vconnSupLost t k).lane l).cc.vconnOn = false := by
  by_cases hk : l = k
  · exact hk ▸ State.vconnSupLost_off
  · unfold State.vconnSupLost
    split
    · rw [State.lane_modCc_ne _ _ hk, h]
    · exact h

theorem vconnSupLow_shows : leads .vconnSupLow s fun s' => s'.dev.vconnSupOk = false ∧ ∀ l, (s'.lane l).cc.vconnOn = false := by
  let s1 := s.modDev fun d => { d with vconnSupOk := false }
  have hd (t : Nat) : (s1.forEach allLanes (State.vconnSupLost t)).dev = s1.dev :=
    State.forEach_same State.dev (State.vconnSupLost t) (fun u k => State.vconnSupLost_dev) _ _
  have hl (t : Nat) (l : LaneId) : ((s1.forEach allLanes (State.vconnSupLost t)).lane l).cc.vconnOn = false :=
    State.forEach_reaches (P := fun u => (u.lane l).cc.vconnOn = false) (f := State.vconnSupLost t) (mem_allLanes l) (fun u => State.vconnSupLost_off)
      (fun u k => State.vconnSupLost_stays) s1
  refine ⟨(s1.forEach allLanes (State.vconnSupLost s.dev.dtime)).log 0x0103 .device 0 0 0 0, rfl, ?_, fun l => ?_⟩
  · have hk := ((KeepsSettings.refl (s1.forEach allLanes (State.vconnSupLost s.dev.dtime))).log 0x0103 .device 0 0 0 0).dev
    have hs := hd s.dev.dtime
    generalize s1.forEach allLanes (State.vconnSupLost s.dev.dtime) = u at *
    exact (congrArg Dev.vconnSupOk hk :).trans (congrArg Dev.vconnSupOk hs)
  · rw [State.log_lane]
    exact hl _ l

theorem vconnSupRestored_shows : leads .vconnSupRestored s fun s' => s'.dev.vconnSupOk = true ∧ ∀ l, (s.lane l).pd.hrBusy = true →
    (s'.lane l).cc.vconnOn = (s.lane l).cc.vconnOn := by
  refine ⟨(s.modDev fun d => { d with vconnSupOk := true }).forEach allLanes State.vconnReturned, rfl, ?_, fun l hl => ?_⟩
  · refine congrArg Dev.vconnSupOk (State.forEach_same State.dev State.vconnReturned (fun u k => ?_) allLanes (s.modDev fun d => { d with vconnSupOk := true }))
    unfold State.vconnReturned
    split
    · rfl
    · exact (congrArg State.dev (State.erase_vconnBack (s := u) (l := k) (j := 0)) :)
  · have keeps (u : State) (k : LaneId) (hu : u.lane l = s.lane l) : (u.vconnReturned k).lane l = s.lane l := by
      unfold State.vconnReturned
      split
      · exact hu
      next h =>
        have hk : l ≠ k := by rintro rfl; simp [hu, hl] at h
        rw [State.lane_of_erase (State.erase_vconnBack (j := 0)) hk, hu]
    have hall (xs : List LaneId) (u : State) (hu : u.lane l = s.lane l) : (u.forEach xs State.vconnReturned).lane l = s.lane l := by
      induction xs generalizing u with
      | nil => exact hu
      | cons k t ih => exact ih _ (keeps u k hu)
    exact congrArg (fun x : Lane => x.cc.vconnOn) (hall allLanes (s.modDev fun d => { d with vconnSupOk := true }) rfl)

theorem vsysWarn_shows (h : s.dev.vsysWarn = false) : leads .vsysWarn s fun s' => s'.dev.vsysWarn = true ∧ s'.dev.warnEvt = true := by
  have hk := (((KeepsSettings.refl (s.modDev fun d => { d with vsysWarn := true, warnEvt := true })).post 0x21A).forEach allLanes
    fun u l (hu : KeepsSettings _ u) => hu.freezePackWrite l).dev
  refine ⟨_, if_neg (by simp [h]), ?_⟩
  generalize State.forEach _ _ _ = u at *
  exact ⟨(congrArg Dev.vsysWarn hk :), (congrArg Dev.warnEvt hk :)⟩

/-- Settles O34: each clause by the lemma of its command; an alarm's by what it does at its level. -/
theorem suppliesAndReset : Obligations.SuppliesAndReset := by
  unfold Obligations.SuppliesAndReset
  intro g s acts
  have hacts (lv : Nat) (s' : State) : acts lv s' = AlarmActs lv s s' := rfl
  clear_value acts
  have halarm (a : AlarmSource) (u : State) (hv : u.dev.vsysOk = true) (hr : u.dev.resetLow = false) :
      (u.alarm a).sec.sources.getLsbD a.bit.val = true ∧ (u.alarm a).sec.alarms = satInc u.sec.alarms ∧
      AlarmActs (a.level (samplePolicy u)) u (u.alarm a) := by
    have hw := State.alarm_withstands (a := a) hv hr
    have hs := u.alarmed_sec (a := a)
    exact ⟨by rw [hw.sources, hs.1]; exact a.bit_set _, hw.alarms.trans hs.2.1, u.alarm_acts hv hr⟩
  simp only [hacts]
  let low := s.modDev fun d => { d with resetLow := true }
  refine ⟨powerUp_calm, fun _ => powerUp_alarmed, ⟨_, rfl, rfl, rfl, rfl, rfl, (State.resetDevice_sec (s := low)).2,
      (State.resetDevice_sec (s := low)).1, rfl, rfl⟩, resetReleased_reads, ⟨_, rfl, rfl, rfl, rfl, rfl⟩,
    vcoreAndVioInRange_boot, vcoreAndVioInRange_other, pllLocked_boot, ?_, ?_, linkFrameTimeout_shows, linkRestored_shows, vconnSupLow_shows,
    vconnSupRestored_shows, vsysWarn_shows, ?_, ?_, ?_, ?_, ?_⟩
  · obtain ⟨hd, hl⟩ := State.loseLinks_shows (s := s.modDev fun d => { d with vcoreOk := false })
    exact ⟨_, rfl, (congrArg Dev.vcoreOk hd).trans rfl, hl⟩
  · obtain ⟨hd, hl⟩ := State.loseLinks_shows (s := s.modDev fun d => { d with vioOk := false })
    exact ⟨_, rfl, (congrArg Dev.vioOk hd).trans rfl, hl⟩
  · exact fun h => ⟨_, if_pos h, (congrArg Dev.vsysWarn (State.post_dev ..)).trans rfl⟩
  · exact fun hv hr => ⟨_, rfl, halarm .tamper (s.modSec fun x => { x with tamperLow := true }) hv hr⟩
  · exact fun hv hr => ⟨_, rfl, halarm .mesh (s.modSec fun x => { x with meshBroken := true }) hv hr⟩
  · exact fun hv hr => ⟨_, rfl, halarm .vglitch (s.modSec fun x => { x with vGlitch := true }) hv hr⟩
  · exact fun hv hr => ⟨_, rfl, halarm .cglitch (s.modSec fun x => { x with cGlitch := true }) hv hr⟩

end

end Sys2Proof.Machine

/-! SUPPORT. The operations of one lane leave the waiting commands as they are: each follows from what it leaves of the state beside its lane. -/
namespace Sys2Proof.Machine

section
variable {s s1 : State} {l : LaneId} {i j : ℕ} {want : CloseWant} {b c : Bool} {cls : FaultClass} {tag : BitVec 4} {stage : StageSample} {v : Word} {test : TestResult} {f : Frame} {wr : Option Word} {bytes : List Byte} {hw : HwKind} {reasm : Reassembly} {res : BitVec 3} {ustep : UrkaiStep} {code : BitVec 2} {hm : HwMsg} {ans : SwapAnswer}


-- path

@[simp] theorem State.writeIlim_pending : (s.writeIlim l i).pending = s.pending := State.pending_of_erase (k := 2) (l := l) (by simp)
@[simp] theorem State.setFwd_pending : (s.setFwd l i).pending = s.pending := State.pending_of_erase (k := 2) (l := l) (by simp)
@[simp] theorem State.setRev_pending : (s.setRev l i).pending = s.pending := State.pending_of_erase (k := 2) (l := l) (by simp)
@[simp] theorem State.setVset_pending : (s.setVset l i).pending = s.pending := State.pending_of_erase (k := 2) (l := l) (by simp)
@[simp] theorem State.softStart_pending : (s.softStart l).pending = s.pending := State.pending_of_erase (k := 2) (l := l) (by simp)
@[simp] theorem State.reverseStart_pending : (s.reverseStart l).pending = s.pending := State.pending_of_erase (k := 2) (l := l) (by simp)
@[simp] theorem State.stopStage_pending : (s.stopStage l).pending = s.pending := State.pending_of_erase (k := 2) (l := l) (by simp)
@[simp] theorem State.openPath_pending : (s.openPath l).pending = s.pending := State.pending_of_erase (k := 2) (l := l) (by simp)
@[simp] theorem State.startClose_pending : (s.startClose l).pending = s.pending := State.pending_of_erase (k := 2) (l := l) (by simp)
@[simp] theorem State.askClose_pending : (s.askClose l want).pending = s.pending := State.pending_of_erase (k := 2) (l := l) (by simp)
@[simp] theorem State.tryRamp_pending : (s.tryRamp l).pending = s.pending := State.pending_of_erase (k := 2) (l := l) (by simp)
@[simp] theorem State.endUrkai_pending : (s.endUrkai l).pending = s.pending := State.pending_of_erase (k := 2) (l := l) (by simp)
@[simp] theorem State.loadChanges_pending : (s.loadChanges l i b).pending = s.pending := State.pending_of_erase (k := 2) (l := l) (by simp)
@[simp] theorem State.armMissed_pending : (s.armMissed l).pending = s.pending := State.pending_of_erase (k := 2) (l := l) (by simp)
@[simp] theorem State.countFault_pending : (s.countFault l cls).2.pending = s.pending := State.pending_of_erase (k := 2) (l := l) (by simp)
@[simp] theorem State.enterUnattached_pending : (s.enterUnattached l).pending = s.pending := State.pending_of_erase (k := 2) (l := l) (by simp)
@[simp] theorem State.disableLane_pending : (s.disableLane l).pending = s.pending := State.pending_of_erase (k := 2) (l := l) (by simp)
@[simp] theorem State.detachLane_pending : (s.detachLane l).pending = s.pending := State.pending_of_erase (k := 2) (l := l) (by simp)
@[simp] theorem State.cutLane_pending : (s.cutLane l).pending = s.pending := State.pending_of_erase (k := 2) (l := l) (by simp)
@[simp] theorem State.endSwap_pending : (s.endSwap l tag).pending = s.pending := State.pending_of_erase (k := 2) (l := l) (by simp)
@[simp] theorem State.errorRecovery_pending : (s.errorRecovery l).pending = s.pending := State.pending_of_erase (k := 2) (l := l) (by simp)
@[simp] theorem State.hardReset_pending : (s.hardReset l).pending = s.pending := State.pending_of_erase (k := 2) (l := l) (by simp)
@[simp] theorem State.hardResetOff_pending : (s.hardResetOff l).pending = s.pending := State.pending_of_erase (k := 2) (l := l) (by simp)
@[simp] theorem State.leaveService_pending : (s.leaveService l).pending = s.pending := State.pending_of_erase (k := 2) (l := l) (by simp)
@[simp] theorem State.trip_pending : (s.trip l tag b c).pending = s.pending := State.pending_of_erase (k := 2) (l := l) (by simp)
@[simp] theorem State.crossing_pending : (s.crossing l tag b c).pending = s.pending := State.pending_of_erase (k := 2) (l := l) (by simp)
@[simp] theorem State.setFails_pending : (s.setFails l b c).pending = s.pending := State.pending_of_erase (k := 2) (l := l) (by simp)
@[simp] theorem State.baseLimits_pending : (s.baseLimits l).pending = s.pending := State.pending_of_erase (k := 2) (l := l) (by simp)

-- loop

@[simp] theorem State.changeLegs_pending : (s.changeLegs s1 l).pending = s1.pending := State.pending_of_erase (k := 2) (l := l) (by simp)
@[simp] theorem State.valleyOf_pending : (s.valleyOf l stage).pending = s.pending := State.pending_of_erase (k := 2) (l := l) (by simp)
@[simp] theorem State.rampDone_pending : (s.rampDone l).pending = s.pending := State.pending_of_erase (k := 2) (l := l) (by simp)
@[simp] theorem State.applySetpoints_pending : (s.applySetpoints l).pending = s.pending := State.pending_of_erase (k := 2) (l := l) (by simp)
@[simp] theorem State.storeConvVset_pending : (s.storeConvVset l v).pending = s.pending := State.pending_of_erase (k := 2) (l := l) (by simp)
@[simp] theorem State.storeConvIset_pending : (s.storeConvIset l v).pending = s.pending := State.pending_of_erase (k := 2) (l := l) (by simp)
@[simp] theorem State.storePhase_pending : (s.storePhase l v).pending = s.pending := State.pending_of_erase (k := 2) (l := l) (by simp)

-- belay

@[simp] theorem State.closeAt_pending : (s.closeAt l i j).pending = s.pending := State.pending_of_erase (k := 2) (l := l) (by simp)
@[simp] theorem State.testB_pending : (s.testB l).pending = s.pending := State.pending_of_erase (k := 2) (l := l) (by simp)
@[simp] theorem State.sampleCause_pending : (s.sampleCause l tag).pending = s.pending := State.pending_of_erase (k := 2) (l := l) (by simp)
@[simp] theorem State.setThermWarn_pending : (s.setThermWarn b l).pending = s.pending := State.pending_of_erase (k := 2) (l := l) (by simp)
@[simp] theorem State.thermTrip_pending : (s.thermTrip l).pending = s.pending := State.pending_of_erase (k := 2) (l := l) (by simp)
@[simp] theorem State.selfTestRun_pending : (s.selfTestRun l test).pending = s.pending := State.pending_of_erase (k := 2) (l := l) (by simp)
@[simp] theorem State.storeIlim_pending : (s.storeIlim l v).pending = s.pending := State.pending_of_erase (k := 2) (l := l) (by simp)
@[simp] theorem State.storeShed_pending : (s.storeShed l i).pending = s.pending := State.pending_of_erase (k := 2) (l := l) (by simp)
@[simp] theorem State.latchClear_pending : (s.latchClear l).pending = s.pending := State.pending_of_erase (k := 2) (l := l) (by simp)
@[simp] theorem State.storeBelayCtrl_pending : (s.storeBelayCtrl l v).pending = s.pending := State.pending_of_erase (k := 2) (l := l) (by simp)

-- link

@[simp] theorem State.fillSlot_pending : (s.fillSlot l b f).pending = s.pending := State.pending_of_erase (k := 2) (l := l) (by simp)
@[simp] theorem State.refuseFrame_pending : (s.refuseFrame l).pending = s.pending := State.pending_of_erase (k := 2) (l := l) (by simp)
@[simp] theorem State.popHead_pending : (s.popHead l).pending = s.pending := State.pending_of_erase (k := 2) (l := l) (by simp)
@[simp] theorem State.takeNewest_pending : (s.takeNewest l).pending = s.pending := State.pending_of_erase (k := 2) (l := l) (by simp)
@[simp] theorem State.extData_pending : (s.extData l wr).2.pending = s.pending := State.pending_of_erase (k := 2) (l := l) (by simp)
@[simp] theorem State.sendStaged_pending : (s.sendStaged l).pending = s.pending := State.pending_of_erase (k := 2) (l := l) (by simp)
@[simp] theorem State.imageSend_pending : (s.imageSend l b f).pending = s.pending := State.pending_of_erase (k := 2) (l := l) (by simp)
@[simp] theorem State.imageSendExt_pending : (s.imageSendExt l b i bytes).pending = s.pending := State.pending_of_erase (k := 2) (l := l) (by simp)
@[simp] theorem State.hwSend_pending : (s.hwSend l hw b f).pending = s.pending := State.pending_of_erase (k := 2) (l := l) (by simp)
@[simp] theorem State.stampEop_pending : (s.stampEop l).pending = s.pending := State.pending_of_erase (k := 2) (l := l) (by simp)
@[simp] theorem State.startFrame_pending : (s.startFrame l).pending = s.pending := State.pending_of_erase (k := 2) (l := l) (by simp)
@[simp] theorem State.abandonReasm_pending : (s.abandonReasm l).pending = s.pending := State.pending_of_erase (k := 2) (l := l) (by simp)
@[simp] theorem State.nextChunk_pending : (s.nextChunk l reasm f).pending = s.pending := State.pending_of_erase (k := 2) (l := l) (by simp)
@[simp] theorem State.firstChunk_pending : (s.firstChunk l f).pending = s.pending := State.pending_of_erase (k := 2) (l := l) (by simp)
@[simp] theorem State.arAnswer_pending : (s.arAnswer l f).pending = s.pending := State.pending_of_erase (k := 2) (l := l) (by simp)
@[simp] theorem State.endHead_pending : (s.endHead l res i).pending = s.pending := State.pending_of_erase (k := 2) (l := l) (by simp)
@[simp] theorem State.raiseAr_pending : (s.raiseAr l).pending = s.pending := State.pending_of_erase (k := 2) (l := l) (by simp)
@[simp] theorem State.dropAr_pending : (s.dropAr l).pending = s.pending := State.pending_of_erase (k := 2) (l := l) (by simp)
@[simp] theorem State.chunkAsked_pending : (s.chunkAsked l f).pending = s.pending := State.pending_of_erase (k := 2) (l := l) (by simp)
@[simp] theorem State.discardHead_pending : (s.discardHead l).pending = s.pending := State.pending_of_erase (k := 2) (l := l) (by simp)
@[simp] theorem State.keepAlive_pending : (s.keepAlive l f).pending = s.pending := State.pending_of_erase (k := 2) (l := l) (by simp)
@[simp] theorem State.noteCaps_pending : (s.noteCaps l f).pending = s.pending := State.pending_of_erase (k := 2) (l := l) (by simp)
@[simp] theorem State.softVoid_pending : (s.softVoid l).pending = s.pending := State.pending_of_erase (k := 2) (l := l) (by simp)
@[simp] theorem State.startDiscovery_pending : (s.startDiscovery l b).pending = s.pending := State.pending_of_erase (k := 2) (l := l) (by simp)
@[simp] theorem State.cableReset_pending : (s.cableReset l).pending = s.pending := State.pending_of_erase (k := 2) (l := l) (by simp)

-- contract

@[simp] theorem State.sendCaps_pending : (s.sendCaps l b).pending = s.pending := State.pending_of_erase (k := 2) (l := l) (by simp)
@[simp] theorem State.sendCapsNow_pending : (s.sendCapsNow l).pending = s.pending := State.pending_of_erase (k := 2) (l := l) (by simp)
@[simp] theorem State.amsEnd_pending : (s.amsEnd l).pending = s.pending := State.pending_of_erase (k := 2) (l := l) (by simp)
@[simp] theorem State.answerRequest_pending : (s.answerRequest l f).pending = s.pending := State.pending_of_erase (k := 2) (l := l) (by simp)
@[simp] theorem State.psReady_pending : (s.psReady l).pending = s.pending := State.pending_of_erase (k := 2) (l := l) (by simp)
@[simp] theorem State.releaseReady_pending : (s.releaseReady l).pending = s.pending := State.pending_of_erase (k := 2) (l := l) (by simp)
@[simp] theorem State.acceptSent_pending : (s.acceptSent l).pending = s.pending := State.pending_of_erase (k := 2) (l := l) (by simp)
@[simp] theorem State.contractTakes_pending : (s.contractTakes l i).pending = s.pending := State.pending_of_erase (k := 2) (l := l) (by simp)
@[simp] theorem State.shedRecord_pending : (s.shedRecord l res).pending = s.pending := State.pending_of_erase (k := 2) (l := l) (by simp)
@[simp] theorem State.fallback_pending : (s.fallback l).pending = s.pending := State.pending_of_erase (k := 2) (l := l) (by simp)
@[simp] theorem State.onSourceCaps_pending : (s.onSourceCaps l f).pending = s.pending := State.pending_of_erase (k := 2) (l := l) (by simp)
@[simp] theorem State.sinkContract_pending : (s.sinkContract l).pending = s.pending := State.pending_of_erase (k := 2) (l := l) (by simp)
@[simp] theorem State.onEprMode_pending : (s.onEprMode l f).pending = s.pending := State.pending_of_erase (k := 2) (l := l) (by simp)
@[simp] theorem State.seqStep_pending : (s.seqStep l ustep).pending = s.pending := State.pending_of_erase (k := 2) (l := l) (by simp)
@[simp] theorem State.authSend_pending : (s.authSend l ustep bytes).pending = s.pending := State.pending_of_erase (k := 2) (l := l) (by simp)
@[simp] theorem State.recNext_pending : (s.recNext l).pending = s.pending := State.pending_of_erase (k := 2) (l := l) (by simp)
@[simp] theorem State.authEnd_pending : (s.authEnd l tag b).pending = s.pending := State.pending_of_erase (k := 2) (l := l) (by simp)
@[simp] theorem State.authBegin_pending : (s.authBegin l).pending = s.pending := State.pending_of_erase (k := 2) (l := l) (by simp)
@[simp] theorem State.seqNext_pending : (s.seqNext l).pending = s.pending := State.pending_of_erase (k := 2) (l := l) (by simp)
@[simp] theorem State.learnModes_pending : (s.learnModes l v).pending = s.pending := State.pending_of_erase (k := 2) (l := l) (by simp)
@[simp] theorem State.urkaiEntered_pending : (s.urkaiEntered l).pending = s.pending := State.pending_of_erase (k := 2) (l := l) (by simp)
@[simp] theorem State.exitUrkai_pending : (s.exitUrkai l).pending = s.pending := State.pending_of_erase (k := 2) (l := l) (by simp)
@[simp] theorem State.armFrs_pending : (s.armFrs l).pending = s.pending := State.pending_of_erase (k := 2) (l := l) (by simp)
@[simp] theorem State.seqAnswer_pending : (s.seqAnswer l f).pending = s.pending := State.pending_of_erase (k := 2) (l := l) (by simp)
@[simp] theorem State.twinTimeout_pending : (s.twinTimeout l).pending = s.pending := State.pending_of_erase (k := 2) (l := l) (by simp)
@[simp] theorem State.askChain_pending : (s.askChain l).pending = s.pending := State.pending_of_erase (k := 2) (l := l) (by simp)
@[simp] theorem State.answerVdm_pending : (s.answerVdm l f).pending = s.pending := State.pending_of_erase (k := 2) (l := l) (by simp)
@[simp] theorem State.tmMarkAnswer_pending : (s.tmMarkAnswer l f).pending = s.pending := State.pending_of_erase (k := 2) (l := l) (by simp)
@[simp] theorem State.tmFollowAnswer_pending : (s.tmFollowAnswer l f).pending = s.pending := State.pending_of_erase (k := 2) (l := l) (by simp)
@[simp] theorem State.voidBack_pending : (s.voidBack l code).pending = s.pending := State.pending_of_erase (k := 2) (l := l) (by simp)
@[simp] theorem State.disarm_pending : (s.disarm l).pending = s.pending := State.pending_of_erase (k := 2) (l := l) (by simp)
@[simp] theorem State.storeArmed_pending : (s.storeArmed l v).pending = s.pending := State.pending_of_erase (k := 2) (l := l) (by simp)
@[simp] theorem State.twinArmAnswer_pending : (s.twinArmAnswer l f).pending = s.pending := State.pending_of_erase (k := 2) (l := l) (by simp)
@[simp] theorem State.twinDisarmAnswer_pending : (s.twinDisarmAnswer l f).pending = s.pending := State.pending_of_erase (k := 2) (l := l) (by simp)
@[simp] theorem State.armResume_pending : (s.armResume l).pending = s.pending := State.pending_of_erase (k := 2) (l := l) (by simp)
@[simp] theorem State.armLate_pending : (s.armLate l).pending = s.pending := State.pending_of_erase (k := 2) (l := l) (by simp)
@[simp] theorem State.capsResume_pending : (s.capsResume l).pending = s.pending := State.pending_of_erase (k := 2) (l := l) (by simp)
@[simp] theorem State.switchNow_pending : (s.switchNow l b).pending = s.pending := State.pending_of_erase (k := 2) (l := l) (by simp)

-- message

@[simp] theorem State.discoveryEnd_pending : (s.discoveryEnd l).pending = s.pending := State.pending_of_erase (k := 2) (l := l) (by simp)
@[simp] theorem State.discoveryFails_pending : (s.discoveryFails l).pending = s.pending := State.pending_of_erase (k := 2) (l := l) (by simp)
@[simp] theorem State.discAnswer_pending : (s.discAnswer l f).pending = s.pending := State.pending_of_erase (k := 2) (l := l) (by simp)
@[simp] theorem State.firstCaps_pending : (s.firstCaps l).pending = s.pending := State.pending_of_erase (k := 2) (l := l) (by simp)
@[simp] theorem State.sentAny_pending : (s.sentAny l f).pending = s.pending := State.pending_of_erase (k := 2) (l := l) (by simp)
@[simp] theorem State.startVcs_pending : (s.startVcs l).pending = s.pending := State.pending_of_erase (k := 2) (l := l) (by simp)
@[simp] theorem State.frsAfresh_pending : (s.frsAfresh l).pending = s.pending := State.pending_of_erase (k := 2) (l := l) (by simp)
@[simp] theorem State.hwDone_pending : (s.hwDone l hm b).pending = s.pending := State.pending_of_erase (k := 2) (l := l) (by simp)
@[simp] theorem State.resetMessages_pending : (s.resetMessages l).pending = s.pending := State.pending_of_erase (k := 2) (l := l) (by simp)
@[simp] theorem State.attachRoles_pending : (s.attachRoles l).pending = s.pending := State.pending_of_erase (k := 2) (l := l) (by simp)
@[simp] theorem State.hardResetEnd_pending : (s.hardResetEnd l).pending = s.pending := State.pending_of_erase (k := 2) (l := l) (by simp)
@[simp] theorem State.vconnBack_pending : (s.vconnBack l).pending = s.pending := State.pending_of_erase (k := 2) (l := l) (by simp)
@[simp] theorem State.sinkReturn_pending : (s.sinkReturn l).pending = s.pending := State.pending_of_erase (k := 2) (l := l) (by simp)

-- attach

@[simp] theorem State.tryAttach_pending : (s.tryAttach l).pending = s.pending := State.pending_of_erase (k := 2) (l := l) (by simp)
@[simp] theorem State.cutClear_pending : (s.cutClear l).pending = s.pending := State.pending_of_erase (k := 2) (l := l) (by simp)
@[simp] theorem State.watchAttach_pending : (s.watchAttach l).pending = s.pending := State.pending_of_erase (k := 2) (l := l) (by simp)
@[simp] theorem State.watchCut_pending : (s.watchCut l).pending = s.pending := State.pending_of_erase (k := 2) (l := l) (by simp)

-- swap

@[simp] theorem State.takeServed_pending : (s.takeServed l).pending = s.pending := State.pending_of_erase (k := 2) (l := l) (by simp)
@[simp] theorem State.answerSwap_pending : (s.answerSwap l ans).pending = s.pending := State.pending_of_erase (k := 2) (l := l) (by simp)
@[simp] theorem State.sendPrSwap_pending : (s.sendPrSwap l).pending = s.pending := State.pending_of_erase (k := 2) (l := l) (by simp)
@[simp] theorem State.partnerReady_pending : (s.partnerReady l).pending = s.pending := State.pending_of_erase (k := 2) (l := l) (by simp)
@[simp] theorem State.onSinkCaps_pending : (s.onSinkCaps l f).pending = s.pending := State.pending_of_erase (k := 2) (l := l) (by simp)
@[simp] theorem State.onHoldSet_pending : (s.onHoldSet l f).pending = s.pending := State.pending_of_erase (k := 2) (l := l) (by simp)
@[simp] theorem State.signalFrs_pending : (s.signalFrs l).pending = s.pending := State.pending_of_erase (k := 2) (l := l) (by simp)
@[simp] theorem State.prsReq_pending : (s.prsReq l).pending = s.pending := State.pending_of_erase (k := 2) (l := l) (by simp)

-- tally

@[simp] theorem State.anchor_pending : (s.anchor l code).pending = s.pending := State.pending_of_erase (k := 2) (l := l) (by simp [State.erase_anchor])
@[simp] theorem State.tallyClear_pending : (s.tallyClear l).pending = s.pending := State.pending_of_erase (k := 2) (l := l) (by simp)
@[simp] theorem State.onRecCommit_pending : (s.onRecCommit l f).pending = s.pending := State.pending_of_erase (k := 2) (l := l) (by simp)
@[simp] theorem State.freezePackWrite_pending : (s.freezePackWrite l).pending = s.pending := State.pending_of_erase (k := 2) (l := l) (by simp)

-- power

@[simp] theorem State.isolateLane_pending : (s.isolateLane l).pending = s.pending := State.pending_of_erase (k := 2) (l := l) (by simp [State.erase_isolateLane])
@[simp] theorem State.deferredSteps_pending : (s.deferredSteps l).pending = s.pending := State.pending_of_erase (k := 2) (l := l) (by simp [State.erase_deferredSteps])

end

end Sys2Proof.Machine

/-! SUPPORT. The operations of the device leave the waiting commands as they are. -/
namespace Sys2Proof.Machine

section
variable {s s1 : State} {l : LaneId} {i j k : ℕ} {b c d : Bool} {byte byte2 : Byte} {tag : BitVec 4} {v w : Word} {g : GroupId} {f : Frame} {wr : Option Word} {bytes : List Byte} {n : CounterId} {cnts : List CounterId} {a : Agent} {ceil : BitVec 12} {bus : BusSample} {claims : List LaneClaim} {tile : ℤ × ℤ} {recs : List TetherRecord} {rec : TetherRecord} {pose : PoseReport} {cells : List (ℤ × ℤ)} {y z : ℤ} {chunk : Fin 128} {t t1 : CoreId} {fl : InFlight} {x : SourceId} {mw : Fin 32} {shown : Option Bool} {fw : Fin 512} {raw : BitVec 39} {burns : List (ℕ × Word)} {mvs : List ℕ} {reads : List VerifyRead} {al : AlarmSource} {margins : List MarginRead} {ent : Fin 16} {sec : Section} {p : Port} {nb : Neighbour} {df : DownFrame} {uf : UpFrame} {st : DevState} {site : EccSite} {fails : List CheckFail} {ports : LaneId → Bool} {job : CheckJob} {cfg : LaneCfg → LaneCfg} {hdr : HspiHeader} {cut : Option ReadCut} {pos : Fin 8} {op : AluOp} {rc rc2 rc3 : RegCode} {fw2 : Word → Word → Word} {pl : Option Place} {place : Place} {fw1 : Word → Word} {bit : BitVec 16} {bp : BitPlace} {rx : Option RegCode} {fb : Bool → Bool → Bool} {ff : Bool → Flags → Flags} {disp : BitVec 10} {sz : Fin 3} {fm : Word → Micro} {mic : Micro} {margs : MicroArgs} {prog : List (Word × Option Word)}

@[simp] theorem State.forEach_pending {α : Type} {f' : State → α → State} (hf : ∀ u x, (f' u x).pending = u.pending) (xs : List α) :
    (s.forEach xs f').pending = s.pending := State.forEach_same State.pending f' hf xs s
@[simp] theorem State.pending_ite {p : Prop} [Decidable p] (s s1 : State) : (if p then s else s1).pending = if p then s.pending else s1.pending :=
  apply_ite ..
@[simp] theorem State.goOn_pending (h : CoreState → CoreState) : (s.goOn t h).pending = s.pending := by simp [State.goOn]

-- ops

@[simp] theorem State.free_pending : s.free.2.pending = s.pending := by simp -implicitDefEqProofs [State.free]

-- path

@[simp] theorem State.mbxEnd_pending : (s.mbxEnd byte).pending = s.pending := by simp -implicitDefEqProofs [State.mbxEnd]
@[simp] theorem State.releaseCounters_pending : s.releaseCounters.pending = s.pending := by simp -implicitDefEqProofs [State.releaseCounters]
@[simp] theorem State.enterReady_pending : s.enterReady.pending = s.pending := by simp -implicitDefEqProofs [State.enterReady]
@[simp] theorem State.settle_pending : s.settle.pending = s.pending := by
  unfold State.settle; repeat' split
  all_goals simp -implicitDefEqProofs
@[simp] theorem State.endService_pending : (s.endService l).pending = s.pending := by simp -implicitDefEqProofs [State.endService]

-- loop

@[simp] theorem State.keepCarriers_pending : (s.keepCarriers s1).pending = s1.pending := by simp -implicitDefEqProofs [State.keepCarriers]

-- belay

@[simp] theorem State.dieTemp_pending : (s.dieTemp g byte).pending = s.pending := by simp -implicitDefEqProofs [State.dieTemp]

-- link

@[simp] theorem State.receive_pending : (s.receive l f).2.pending = s.pending := by
  unfold State.receive
  extract_lets x i id chunkReq s0 s1 y soft s2 m s3 z chunk s4 n s5
  have h1 : s1.pending = s.pending := by simp [s1, s0]
  have h2 : s2.pending = s.pending := by simp [s2, apply_ite State.pending, h1]
  have h3 : s3.pending = s.pending := by simp [s3, h2]
  have h4 : s4.pending = s.pending := by simp [s4, apply_ite State.pending, h3]
  have h5 : s5.pending = s.pending := by simp [s5, apply_ite State.pending, h4]
  clear_value s1 s2 s3 s4 s5
  repeat' split
  all_goals simp [h1, h2, h3, h4, h5]

-- contract

@[simp] theorem State.authChallenge_pending : (s.authChallenge l).pending = s.pending := by simp -implicitDefEqProofs [State.authChallenge]
@[simp] theorem State.authAnswer_pending : (s.authAnswer l f b).pending = s.pending := by
  unfold State.authAnswer; dsimp only; repeat' split
  all_goals simp -implicitDefEqProofs
@[simp] theorem State.runLimits_pending : (s.runLimits l).pending = s.pending := by simp -implicitDefEqProofs [State.runLimits]

-- message

@[simp] theorem State.acceptDone_pending : (s.acceptDone l).pending = s.pending := by simp -implicitDefEqProofs [State.acceptDone]
@[simp] theorem State.sentQueue_pending : (s.sentQueue l f).pending = s.pending := by simp -implicitDefEqProofs [State.sentQueue]
@[simp] theorem State.takeAnswer_pending : (s.takeAnswer l f).pending = s.pending := by simp -implicitDefEqProofs [State.takeAnswer]
@[simp] theorem State.hardResetDone_pending : (s.hardResetDone l).pending = s.pending := by simp -implicitDefEqProofs [State.hardResetDone]
@[simp] theorem State.vbusGone_pending : (s.vbusGone l).pending = s.pending := by simp -implicitDefEqProofs [State.vbusGone]

-- tally

@[simp] theorem State.onBattery_pending : (s.onBattery l f).pending = s.pending := by simp -implicitDefEqProofs [State.onBattery]

-- counters

@[simp] theorem State.postCnt_pending : (s.postCnt n i).pending = s.pending := by simp -implicitDefEqProofs [State.postCnt]
@[simp] theorem State.loadSlot_pending : (s.loadSlot n).pending = s.pending := by
  unfold State.loadSlot; repeat' split
  all_goals simp -implicitDefEqProofs
@[simp] theorem State.lineEdge_pending : (s.lineEdge l b).pending = s.pending := by simp -implicitDefEqProofs [State.lineEdge]
@[simp] theorem State.fireSlot_pending : (s.fireSlot n).pending = s.pending := by
  unfold State.fireSlot; dsimp only; repeat' split
  all_goals simp -implicitDefEqProofs
@[simp] theorem State.attachSlot_pending : (s.attachSlot i j l b).pending = s.pending := by
  unfold State.attachSlot; repeat' split
  all_goals simp -implicitDefEqProofs
@[simp] theorem State.dropSlots_pending : (s.dropSlots l).pending = s.pending := by simp -implicitDefEqProofs [State.dropSlots]
@[simp] theorem State.matchAct_pending : (s.matchAct n b).pending = s.pending := by
  unfold State.matchAct; dsimp only; repeat' split
  all_goals simp -implicitDefEqProofs
@[simp] theorem State.turnPeak_pending : (s.turnPeak n b c).pending = s.pending := by simp -implicitDefEqProofs [State.turnPeak]
@[simp] theorem State.stepCounter_pending : (s.stepCounter n b c d).2.pending = s.pending := by simp -implicitDefEqProofs [State.stepCounter]
@[simp] theorem State.tickFrom_pending : (s.tickFrom s1 b c cnts).pending = s.pending := by
  induction cnts generalizing s c with
  | nil => rfl
  | cons n r ih =>
    unfold State.tickFrom
    dsimp only
    split <;> simp [ih]
@[simp] theorem State.storeCntVal_pending : (s.storeCntVal a n v).pending = s.pending := by simp -implicitDefEqProofs [State.storeCntVal]
@[simp] theorem State.storeCntTop_pending : (s.storeCntTop a n v).pending = s.pending := by simp -implicitDefEqProofs [State.storeCntTop]
@[simp] theorem State.storeCntCmp_pending : (s.storeCntCmp a n b v).pending = s.pending := by simp -implicitDefEqProofs [State.storeCntCmp]
@[simp] theorem State.startSet_pending : (s.startSet n).pending = s.pending := by simp -implicitDefEqProofs [State.startSet]
@[simp] theorem State.storeCntCtrl_pending : (s.storeCntCtrl a n v).pending = s.pending := by simp -implicitDefEqProofs [State.storeCntCtrl]
@[simp] theorem State.storeCntAct_pending : (s.storeCntAct a n v).pending = s.pending := by simp -implicitDefEqProofs [State.storeCntAct]
@[simp] theorem State.storeCntCap_pending : (s.storeCntCap a n v).pending = s.pending := by simp -implicitDefEqProofs [State.storeCntCap]
@[simp] theorem State.readCntVal_pending : (s.readCntVal a n).2.pending = s.pending := by simp -implicitDefEqProofs [State.readCntVal]
@[simp] theorem State.claimCounters_pending : s.claimCounters.pending = s.pending := by simp -implicitDefEqProofs [State.claimCounters]

-- budget

@[simp] theorem State.placeSwitch_pending : (s.placeSwitch i j k).2.pending = s.pending := by
  unfold State.placeSwitch; dsimp only; repeat' split
  all_goals simp -implicitDefEqProofs
@[simp] theorem State.armFor_pending : (s.armFor l b i).pending = s.pending := by simp -implicitDefEqProofs [State.armFor]
@[simp] theorem State.switchOn_pending : (s.switchOn l i j).pending = s.pending := by simp -implicitDefEqProofs [State.switchOn]
@[simp] theorem State.giveSlot_pending : (s.giveSlot l i).pending = s.pending := by
  unfold State.giveSlot; dsimp only; repeat' split
  all_goals simp -implicitDefEqProofs
@[simp] theorem State.requestOn_pending : (s.requestOn l i).pending = s.pending := by simp -implicitDefEqProofs [State.requestOn]
@[simp] theorem State.capsRefresh_pending : (s.capsRefresh l).pending = s.pending := by simp -implicitDefEqProofs [State.capsRefresh]
@[simp] theorem State.unshed_pending : (s.unshed l).pending = s.pending := by simp -implicitDefEqProofs [State.unshed]
@[simp] theorem State.lateArm_pending : (s.lateArm l).pending = s.pending := by simp -implicitDefEqProofs [State.lateArm]
@[simp] theorem State.takeCeil_pending : (s.takeCeil l ceil).pending = s.pending := by simp -implicitDefEqProofs [State.takeCeil]
@[simp] theorem State.unstagger_pending : (s.unstagger l).pending = s.pending := by
  unfold State.unstagger; repeat' split
  all_goals simp -implicitDefEqProofs
@[simp] theorem State.setFrozen_pending : (s.setFrozen b).pending = s.pending := by simp -implicitDefEqProofs [State.setFrozen]
@[simp] theorem State.followCeil_pending : (s.followCeil l ceil).pending = s.pending := by simp -implicitDefEqProofs [State.followCeil]
@[simp] theorem State.laneClock_pending : (s.laneClock l).pending = s.pending := by simp -implicitDefEqProofs [State.laneClock]
@[simp] theorem State.measure_pending : (s.measure bus).pending = s.pending := by simp -implicitDefEqProofs [State.measure]
@[simp] theorem State.placeAll_pending : (s.placeAll claims).pending = s.pending := by
  unfold State.placeAll
  rw [State.modBus_pending, State.forEach_pending fun u x => ?_]
  split
  · dsimp only
    split <;> simp
  · simp
@[simp] theorem State.askSwitch_pending : (s.askSwitch i j k).pending = s.pending := by simp -implicitDefEqProofs [State.askSwitch]
@[simp] theorem State.applyResults_pending : (s.applyResults claims).pending = s.pending := by
  unfold State.applyResults
  rw [State.forEach_pending fun u x => ?_, State.modBus_pending]
  repeat' split
  all_goals simp
@[simp] theorem State.setSag_pending : (s.setSag b).pending = s.pending := by simp -implicitDefEqProofs [State.setSag]
@[simp] theorem State.setShedMiss_pending : (s.setShedMiss l).pending = s.pending := by simp -implicitDefEqProofs [State.setShedMiss]
@[simp] theorem State.shedStep_pending : (s.shedStep l).pending = s.pending := by simp -implicitDefEqProofs [State.shedStep]
@[simp] theorem State.storeBudget_pending : (s.storeBudget a v).pending = s.pending := by simp -implicitDefEqProofs [State.storeBudget]
@[simp] theorem State.testVersion_pending : s.testVersion.pending = s.pending := by simp -implicitDefEqProofs [State.testVersion]
@[simp] theorem State.versionMoved_pending : s.versionMoved.pending = s.pending := by simp -implicitDefEqProofs [State.versionMoved]

-- swath

@[simp] theorem State.markLost_pending : s.markLost.pending = s.pending := by simp -implicitDefEqProofs [State.markLost]
@[simp] theorem State.markCell_pending : (s.markCell tile).2.pending = s.pending := by
  unfold State.markCell; dsimp only; repeat' split
  all_goals simp -implicitDefEqProofs
@[simp] theorem State.tileEvt_pending : s.tileEvt.pending = s.pending := by simp -implicitDefEqProofs [State.tileEvt]
@[simp] theorem State.moveWindow_pending : (s.moveWindow tile).pending = s.pending := by simp -implicitDefEqProofs [State.moveWindow]
@[simp] theorem State.followWindow_pending : s.followWindow.pending = s.pending := by simp -implicitDefEqProofs [State.followWindow]
@[simp] theorem State.queueRecords_pending : (s.queueRecords recs).pending = s.pending := by simp -implicitDefEqProofs [State.queueRecords]
@[simp] theorem State.queueMark_pending : (s.queueMark rec).pending = s.pending := by simp -implicitDefEqProofs [State.queueMark]
@[simp] theorem State.fixCommit_pending : s.fixCommit.pending = s.pending := by simp -implicitDefEqProofs [State.fixCommit]
@[simp] theorem State.takePose_pending : (s.takePose pose).pending = s.pending := by simp -implicitDefEqProofs [State.takePose]
@[simp] theorem State.startGs_pending : s.startGs.pending = s.pending := by simp -implicitDefEqProofs [State.startGs]
@[simp] theorem State.deadReckon_pending : s.deadReckon.pending = s.pending := by simp -implicitDefEqProofs [State.deadReckon]
@[simp] theorem State.postSwitch_pending : (s.postSwitch l b i).pending = s.pending := by simp -implicitDefEqProofs [State.postSwitch]
@[simp] theorem State.cancelPost_pending : (s.cancelPost l).pending = s.pending := by simp -implicitDefEqProofs [State.cancelPost]
@[simp] theorem State.evalSection_pending : (s.evalSection l).pending = s.pending := by simp -implicitDefEqProofs [State.evalSection]
@[simp] theorem State.repostSection_pending : (s.repostSection l).pending = s.pending := by simp -implicitDefEqProofs [State.repostSection]
@[simp] theorem State.markCells_pending : (s.markCells cells).pending = s.pending := by
  have walk (xs : List (ℤ × ℤ)) (r : State × List (ℤ × ℤ × ℕ × ℕ × ℕ)) :
      (xs.foldl (fun a c => let p := a.1.markCell c; (p.2, if p.1 then addRun a.2 c else a.2)) r).1.pending = r.1.pending := by
    induction xs generalizing r with
    | nil => rfl
    | cons c t ih => exact (ih _).trans State.markCell_pending
  unfold State.markCells
  rw [State.forEach_pending fun _ _ => State.queueMark_pending]
  exact walk cells (s, [])
@[simp] theorem State.markSection_pending : (s.markSection l).pending = s.pending := by
  unfold State.markSection; dsimp only; repeat' split
  all_goals simp -implicitDefEqProofs
@[simp] theorem State.dueLines_pending : s.dueLines.pending = s.pending := by
  unfold State.dueLines; dsimp only; repeat' split
  all_goals simp -implicitDefEqProofs
@[simp] theorem State.storeSectCtrl_pending : (s.storeSectCtrl l v).pending = s.pending := by simp -implicitDefEqProofs [State.storeSectCtrl]
@[simp] theorem State.dropTiles_pending : s.dropTiles.pending = s.pending := by simp -implicitDefEqProofs [State.dropTiles]
@[simp] theorem State.startSwath_pending : s.startSwath.pending = s.pending := by simp -implicitDefEqProofs [State.startSwath]
@[simp] theorem State.storeSwathCtrl_pending : (s.storeSwathCtrl v).pending = s.pending := by simp -implicitDefEqProofs [State.storeSwathCtrl]
@[simp] theorem State.storeSwathStatus_pending : (s.storeSwathStatus v).pending = s.pending := by simp -implicitDefEqProofs [State.storeSwathStatus]
@[simp] theorem State.storeTile_pending : (s.storeTile tile b bytes).pending = s.pending := by simp -implicitDefEqProofs [State.storeTile]
@[simp] theorem State.tileLoad_pending : s.tileLoad.2.pending = s.pending := by
  unfold State.tileLoad; dsimp only; repeat' split
  all_goals simp -implicitDefEqProofs
@[simp] theorem State.tileTake_pending : s.tileTake.2.pending = s.pending := by
  unfold State.tileTake; dsimp only; repeat' split
  all_goals simp -implicitDefEqProofs
@[simp] theorem State.applyMark_pending : (s.applyMark y z byte byte2 i).pending = s.pending := by simp -implicitDefEqProofs [State.applyMark]
@[simp] theorem State.takeChunk_pending : (s.takeChunk y z chunk bytes).pending = s.pending := by
  unfold State.takeChunk; dsimp only; repeat' split
  all_goals simp -implicitDefEqProofs

-- operands

@[simp] theorem State.commit_pending : (s.commit t fl).pending = s.pending := by
  unfold State.commit; repeat' split
  all_goals simp -implicitDefEqProofs
@[simp] theorem State.ageFlight_pending : (s.ageFlight t).pending = s.pending := by simp -implicitDefEqProofs [State.ageFlight]
@[simp] theorem State.flush_pending : (s.flush t).pending = s.pending := by simp -implicitDefEqProofs [State.flush]
@[simp] theorem State.takeTrap_pending : (s.takeTrap t i v wr).pending = s.pending := by simp -implicitDefEqProofs [State.takeTrap]
@[simp] theorem State.begun_pending : (s.begun t).pending = s.pending := by simp -implicitDefEqProofs [State.begun]

-- interrupts

@[simp] theorem State.withdraw_pending : (s.withdraw t x).pending = s.pending := by simp -implicitDefEqProofs [State.withdraw]
@[simp] theorem State.consume_pending : (s.consume t x).pending = s.pending := by simp -implicitDefEqProofs [State.consume]
@[simp] theorem State.wakeIfReady_pending : (s.wakeIfReady t).pending = s.pending := by simp -implicitDefEqProofs [State.wakeIfReady]
@[simp] theorem State.wakePending_pending : s.wakePending.pending = s.pending := by simp -implicitDefEqProofs [State.wakePending]
@[simp] theorem State.ringDoorbell_pending : (s.ringDoorbell t x).pending = s.pending := by simp -implicitDefEqProofs [State.ringDoorbell]
@[simp] theorem State.icClear_pending : (s.icClear a x).pending = s.pending := by
  unfold State.icClear; dsimp only; repeat' split
  all_goals simp -implicitDefEqProofs
@[simp] theorem State.overMask_pending : (s.overMask t mw v).pending = s.pending := by simp -implicitDefEqProofs [State.overMask]
@[simp] theorem State.moveSource_pending : (s.moveSource t t1 x).pending = s.pending := by simp -implicitDefEqProofs [State.moveSource]
@[simp] theorem State.rewriteNow_pending : (s.rewriteNow t t1 g b).pending = s.pending := by simp -implicitDefEqProofs [State.rewriteNow]
@[simp] theorem State.rewrite_pending : (s.rewrite t t1 g b).pending = s.pending := by simp -implicitDefEqProofs [State.rewrite]
@[simp] theorem State.runRewrites_pending : s.runRewrites.pending = s.pending := by simp -implicitDefEqProofs [State.runRewrites]
@[simp] theorem State.lockTake_pending : (s.lockTake t).pending = s.pending := by simp -implicitDefEqProofs [State.lockTake]
@[simp] theorem State.lockRelease_pending : (s.lockRelease t).pending = s.pending := by simp -implicitDefEqProofs [State.lockRelease]
@[simp] theorem State.restartIc_pending : (s.restartIc t shown).pending = s.pending := by simp -implicitDefEqProofs [State.restartIc]

-- fuses

@[simp] theorem State.readFuses_pending : s.readFuses.pending = s.pending := by simp -implicitDefEqProofs [State.readFuses]
@[simp] theorem State.resetDevice_pending : s.resetDevice.pending = s.pending := by simp -implicitDefEqProofs [State.resetDevice]
@[simp] theorem State.powerReset_pending : s.powerReset.pending = s.pending := by simp -implicitDefEqProofs [State.powerReset]
@[simp] theorem State.haltDevice_pending : (s.haltDevice i).pending = s.pending := by simp -implicitDefEqProofs [State.haltDevice]
@[simp] theorem State.burnWord_pending : (s.burnWord fw raw).pending = s.pending := by simp -implicitDefEqProofs [State.burnWord]
@[simp] theorem State.burnAt_pending : (s.burnAt i raw).pending = s.pending := by
  unfold State.burnAt; repeat' split
  all_goals simp -implicitDefEqProofs
@[simp] theorem State.burnWords_pending : (s.burnWords i burns mvs reads).2.pending = s.pending := by
  induction burns generalizing s i mvs reads with
  | nil => rfl
  | cons w ws ih =>
    unfold State.burnWords
    dsimp only
    repeat' split
    all_goals simp [ih]
@[simp] theorem State.fuseProgram_pending : (s.fuseProgram mvs reads).2.pending = s.pending := by
  unfold State.fuseProgram; dsimp only; repeat' split
  all_goals simp -implicitDefEqProofs
@[simp] theorem State.cutBurn_pending : s.cutBurn.pending = s.pending := by
  unfold State.cutBurn; dsimp only; repeat' split
  all_goals simp -implicitDefEqProofs
@[simp] theorem State.alarmNoted_pending : (s.alarmNoted al).pending = s.pending := by simp -implicitDefEqProofs [State.alarmNoted]
@[simp] theorem State.recallCut_pending : (s.recallCut al).pending = s.pending := by
  unfold State.recallCut; repeat' split
  all_goals simp -implicitDefEqProofs
@[simp] theorem State.zeroise_pending : s.zeroise.pending = s.pending := by simp -implicitDefEqProofs [State.zeroise]
@[simp] theorem State.blowKill_pending : s.blowKill.pending = s.pending := by simp -implicitDefEqProofs [State.blowKill]
@[simp] theorem State.alarm_pending : (s.alarm al).pending = s.pending := by
  unfold State.alarm; dsimp only; repeat' split
  all_goals simp -implicitDefEqProofs
@[simp] theorem State.redetect_pending : s.redetect.pending = s.pending := by simp -implicitDefEqProofs [State.redetect]
@[simp] theorem State.auditWord_pending : (State.auditWord margins s fw).pending = s.pending := by simp -implicitDefEqProofs [State.auditWord]
@[simp] theorem State.auditAll_pending : (s.auditAll margins).2.pending = s.pending := by
  have walk (xs : List (Fin 512)) : (s.forEach xs (State.auditWord margins)).pending = s.pending :=
    State.forEach_pending (fun _ _ => State.auditWord_pending) xs
  unfold State.auditAll
  dsimp only
  rw [State.post_pending, State.modMbx_pending, State.modSec_pending]
  exact walk _
@[simp] theorem State.measVprog_pending : (s.measVprog ceil).pending = s.pending := by simp -implicitDefEqProofs [State.measVprog]
@[simp] theorem State.dbgAttempt_pending : (s.dbgAttempt v).pending = s.pending := by simp -implicitDefEqProofs [State.dbgAttempt]
@[simp] theorem State.relockDebug_pending : s.relockDebug.pending = s.pending := by simp -implicitDefEqProofs [State.relockDebug]
@[simp] theorem State.storePolicy_pending : (s.storePolicy v).pending = s.pending := by simp -implicitDefEqProofs [State.storePolicy]
@[simp] theorem State.storeSecCtrl_pending : (s.storeSecCtrl v).pending = s.pending := by simp -implicitDefEqProofs [State.storeSecCtrl]

-- image

@[simp] theorem State.validateEntry_pending : (s.validateEntry t ent).pending = s.pending := by simp -implicitDefEqProofs [State.validateEntry]
@[simp] theorem State.storeDec_pending : (s.storeDec a t v).pending = s.pending := by simp -implicitDefEqProofs [State.storeDec]
@[simp] theorem State.storeImage_pending : (s.storeImage i bytes).pending = s.pending := by simp -implicitDefEqProofs [State.storeImage]
@[simp] theorem State.authFailure_pending : s.authFailure.pending = s.pending := by simp -implicitDefEqProofs [State.authFailure]
@[simp] theorem State.writeFailure_pending : s.writeFailure.pending = s.pending := by simp -implicitDefEqProofs [State.writeFailure]
@[simp] theorem State.finishWrite_pending : (s.finishWrite b).2.pending = s.pending := by
  unfold State.finishWrite; dsimp only; repeat' split
  all_goals simp -implicitDefEqProofs
@[simp] theorem State.reportAccepted_pending : s.reportAccepted.pending = s.pending := by simp -implicitDefEqProofs [State.reportAccepted]
@[simp] theorem State.takeImage_pending : (s.takeImage b).2.pending = s.pending := by
  unfold State.takeImage; dsimp only; repeat' split
  all_goals simp -implicitDefEqProofs
@[simp] theorem State.imageWrite_pending : (State.imageWrite b s).2.pending = s.pending := by
  unfold State.imageWrite; dsimp only; repeat' split
  all_goals simp -implicitDefEqProofs
@[simp] theorem State.clockGroup_pending : (s.clockGroup t).pending = s.pending := by
  unfold State.clockGroup; repeat' split
  all_goals simp -implicitDefEqProofs
@[simp] theorem State.startCore_pending : (s.startCore t i).pending = s.pending := by simp -implicitDefEqProofs [State.startCore]
@[simp] theorem State.loadSection_pending : (State.loadSection bytes t s sec).pending = s.pending := by
  unfold State.loadSection; dsimp only; repeat' split
  all_goals simp -implicitDefEqProofs
@[simp] theorem State.loadCore_pending : (s.loadCore bytes t).pending = s.pending := by simp -implicitDefEqProofs [State.loadCore]
@[simp] theorem State.reloadCore_pending : (s.reloadCore bytes t i).pending = s.pending := by simp -implicitDefEqProofs [State.reloadCore]
@[simp] theorem State.loadShared_pending : (s.loadShared bytes).pending = s.pending := by simp -implicitDefEqProofs [State.loadShared]
@[simp] theorem State.baseRoutes_pending : s.baseRoutes.pending = s.pending := by simp -implicitDefEqProofs [State.baseRoutes]
@[simp] theorem State.imageRuns_pending : s.imageRuns.pending = s.pending := by simp -implicitDefEqProofs [State.imageRuns]

-- tether

@[simp] theorem State.setTimeLock_pending : (s.setTimeLock b).pending = s.pending := by simp -implicitDefEqProofs [State.setTimeLock]
@[simp] theorem State.tunnelLost_pending : s.tunnelLost.pending = s.pending := by
  unfold State.tunnelLost; dsimp only; repeat' split
  all_goals simp -implicitDefEqProofs
@[simp] theorem State.hitchChanged_pending : s.hitchChanged.pending = s.pending := by simp -implicitDefEqProofs [State.hitchChanged]
@[simp] theorem State.becomeHitch_pending : (s.becomeHitch i).pending = s.pending := by simp -implicitDefEqProofs [State.becomeHitch]
@[simp] theorem State.takeRole_pending : s.takeRole.pending = s.pending := by simp -implicitDefEqProofs [State.takeRole]
@[simp] theorem State.linkChanged_pending : s.linkChanged.pending = s.pending := by simp -implicitDefEqProofs [State.linkChanged]
@[simp] theorem State.acquire_pending : (s.acquire p nb).pending = s.pending := by simp -implicitDefEqProofs [State.acquire]
@[simp] theorem State.storeTetherCtrl_pending : (s.storeTetherCtrl v).pending = s.pending := by simp -implicitDefEqProofs [State.storeTetherCtrl]
@[simp] theorem State.adjustRate_pending : (s.adjustRate y).pending = s.pending := by simp -implicitDefEqProofs [State.adjustRate]
@[simp] theorem State.takeTime_pending : (s.takeTime df).pending = s.pending := by
  unfold State.takeTime; repeat' split
  all_goals simp -implicitDefEqProofs
@[simp] theorem State.noteSilence_pending : s.noteSilence.pending = s.pending := by simp -implicitDefEqProofs [State.noteSilence]
@[simp] theorem State.sendUp_pending : (s.sendUp uf).pending = s.pending := by
  unfold State.sendUp; dsimp only; repeat' split
  all_goals simp -implicitDefEqProofs

-- faults

@[simp] theorem State.raiseGroup_pending : (s.raiseGroup g).pending = s.pending := by simp -implicitDefEqProofs [State.raiseGroup]
@[simp] theorem State.askAgain_pending : (s.askAgain l).pending = s.pending := by
  unfold State.askAgain; dsimp only; repeat' split
  all_goals simp -implicitDefEqProofs
@[simp] theorem State.readHead_pending : (s.readHead l f).pending = s.pending := by simp -implicitDefEqProofs [State.readHead]
@[simp] theorem State.readFifo_pending : (s.readFifo l).pending = s.pending := by simp -implicitDefEqProofs [State.readFifo]
@[simp] theorem State.owedWrites_pending : (s.owedWrites l).pending = s.pending := by simp -implicitDefEqProofs [State.owedWrites]
@[simp] theorem State.resume_pending : (s.resume l).pending = s.pending := by simp -implicitDefEqProofs [State.resume]
@[simp] theorem State.takeGroup_pending : (s.takeGroup g).pending = s.pending := by simp -implicitDefEqProofs [State.takeGroup]
@[simp] theorem State.startReturn_pending : (s.startReturn g).pending = s.pending := by simp -implicitDefEqProofs [State.startReturn]
@[simp] theorem State.finishReturn_pending : (s.finishReturn g).pending = s.pending := by simp -implicitDefEqProofs [State.finishReturn]
@[simp] theorem State.beatCore_pending : (s.beatCore t).pending = s.pending := by simp -implicitDefEqProofs [State.beatCore]
@[simp] theorem State.orphanGroup_pending : (s.orphanGroup g).pending = s.pending := by simp -implicitDefEqProofs [State.orphanGroup]
@[simp] theorem State.splice_pending : (s.splice g).pending = s.pending := by simp -implicitDefEqProofs [State.splice]
@[simp] theorem State.loseGroups_pending : (s.loseGroups g).pending = s.pending := by simp -implicitDefEqProofs [State.loseGroups]
@[simp] theorem State.judgeOut_pending : (s.judgeOut t).pending = s.pending := by simp -implicitDefEqProofs [State.judgeOut]
@[simp] theorem State.attemptFailed_pending : (s.attemptFailed tag).2.pending = s.pending := by
  unfold State.attemptFailed; dsimp only; repeat' split
  all_goals simp -implicitDefEqProofs
@[simp] theorem State.wardenTry_pending : (s.wardenTry i).pending = s.pending := by
  induction i generalizing s with
  | zero => rfl
  | succ n ih =>
    unfold State.wardenTry
    dsimp only
    split
    · rw [State.forEach_pending fun u t => by simp, State.forEach_pending fun u g => by simp]
      rfl
    · split <;> simp [ih]
@[simp] theorem State.wardenFail_pending : (s.wardenFail tag).pending = s.pending := by simp -implicitDefEqProofs [State.wardenFail]
@[simp] theorem State.sleepAgain_pending : s.sleepAgain.pending = s.pending := by simp -implicitDefEqProofs [State.sleepAgain]
@[simp] theorem State.wardenEnd_pending : (s.wardenEnd st).pending = s.pending := by simp -implicitDefEqProofs [State.wardenEnd]
@[simp] theorem State.restartCore_pending : (s.restartCore t).pending = s.pending := by simp -implicitDefEqProofs [State.restartCore]
@[simp] theorem State.storeCoreRst_pending : (s.storeCoreRst a v).pending = s.pending := by
  unfold State.storeCoreRst; dsimp only; repeat' split
  all_goals simp -implicitDefEqProofs
@[simp] theorem State.miss_pending : (s.miss t).pending = s.pending := by
  unfold State.miss; dsimp only; repeat' split
  all_goals simp -implicitDefEqProofs
@[simp] theorem State.protoEnd_pending : (s.protoEnd l).pending = s.pending := by simp -implicitDefEqProofs [State.protoEnd]
@[simp] theorem State.coreCorrected_pending : (s.coreCorrected t).pending = s.pending := by simp -implicitDefEqProofs [State.coreCorrected]
@[simp] theorem State.markBad_pending : (s.markBad t i).pending = s.pending := by simp -implicitDefEqProofs [State.markBad]
@[simp] theorem State.freeSample_pending : s.freeSample.2.pending = s.pending := by simp -implicitDefEqProofs [State.freeSample]
@[simp] theorem State.eccError_pending : (s.eccError site b).pending = s.pending := by
  unfold State.eccError; dsimp only; repeat' split
  all_goals simp -implicitDefEqProofs
@[simp] theorem State.activateCore_pending : (s.activateCore t).pending = s.pending := by simp -implicitDefEqProofs [State.activateCore]
@[simp] theorem State.activateEnd_pending : s.activateEnd.pending = s.pending := by simp -implicitDefEqProofs [State.activateEnd]

-- check

@[simp] theorem State.noteCheck_pending : (s.noteCheck b c i fails).pending = s.pending := by simp -implicitDefEqProofs [State.noteCheck]

-- power

@[simp] theorem State.loseLink_pending : (s.loseLink g).pending = s.pending := by simp -implicitDefEqProofs [State.loseLink]
@[simp] theorem State.enterRunOn_pending : (s.enterRunOn ports).pending = s.pending := by simp -implicitDefEqProofs [State.enterRunOn]
@[simp] theorem State.runCheck_pending : (s.runCheck b).pending = s.pending := by simp -implicitDefEqProofs [State.runCheck]
@[simp] theorem State.startCheck_pending : (s.startCheck b).pending = s.pending := by simp -implicitDefEqProofs [State.startCheck]
@[simp] theorem State.dropLane_pending : (s.dropLane l).pending = s.pending := by simp -implicitDefEqProofs [State.dropLane]
@[simp] theorem State.laneCheck_pending : (s.laneCheck l).pending = s.pending := by simp -implicitDefEqProofs [State.laneCheck]
@[simp] theorem State.followPort_pending : (s.followPort l).pending = s.pending := by simp -implicitDefEqProofs [State.followPort]
@[simp] theorem State.storeLaneCtrl_pending : (s.storeLaneCtrl l v).pending = s.pending := by simp -implicitDefEqProofs [State.storeLaneCtrl]
@[simp] theorem State.endCheck_pending : (s.endCheck job).pending = s.pending := by simp -implicitDefEqProofs [State.endCheck]
@[simp] theorem State.stopRun_pending : s.stopRun.pending = s.pending := by simp -implicitDefEqProofs [State.stopRun]
@[simp] theorem State.startWatch_pending : s.startWatch.pending = s.pending := by simp -implicitDefEqProofs [State.startWatch]
@[simp] theorem State.openPins_pending : s.openPins.pending = s.pending := by simp -implicitDefEqProofs [State.openPins]
@[simp] theorem State.watchToReady_pending : s.watchToReady.pending = s.pending := by simp -implicitDefEqProofs [State.watchToReady]
@[simp] theorem State.watchToRun_pending : s.watchToRun.pending = s.pending := by simp -implicitDefEqProofs [State.watchToRun]
@[simp] theorem State.actCtrl_pending : (s.actCtrl b).pending = s.pending := by
  unfold State.actCtrl; repeat' split
  all_goals simp -implicitDefEqProofs
@[simp] theorem State.storeDevCtrl_pending : (s.storeDevCtrl v).pending = s.pending := by simp -implicitDefEqProofs [State.storeDevCtrl]
@[simp] theorem State.writeDevCtrl_pending : (s.writeDevCtrl v).pending = s.pending := by simp -implicitDefEqProofs [State.writeDevCtrl]
@[simp] theorem State.loseMap_pending : s.loseMap.pending = s.pending := by simp -implicitDefEqProofs [State.loseMap]
@[simp] theorem State.enterWatch_pending : s.enterWatch.pending = s.pending := by simp -implicitDefEqProofs [State.enterWatch]
@[simp] theorem State.afterTakeover_pending : s.afterTakeover.pending = s.pending := by simp -implicitDefEqProofs [State.afterTakeover]

-- regs

@[simp] theorem State.clearBad_pending : (s.clearBad i).pending = s.pending := by
  unfold State.clearBad; dsimp only; repeat' split
  all_goals simp -implicitDefEqProofs
@[simp] theorem State.storeWord_pending : (s.storeWord i v).pending = s.pending := by simp -implicitDefEqProofs [State.storeWord]
@[simp] theorem State.latchDtime_pending : (s.latchDtime a).pending = s.pending := by simp -implicitDefEqProofs [State.latchDtime]
@[simp] theorem State.latchTally_pending : (s.latchTally a l).pending = s.pending := by simp -implicitDefEqProofs [State.latchTally]
@[simp] theorem State.latchPose_pending : (s.latchPose a).pending = s.pending := by simp -implicitDefEqProofs [State.latchPose]
@[simp] theorem State.latchPps_pending : (s.latchPps a).pending = s.pending := by simp -implicitDefEqProofs [State.latchPps]
@[simp] theorem State.reserveLog_pending : (s.reserveLog a).2.pending = s.pending := by
  unfold State.reserveLog; repeat' split
  all_goals simp -implicitDefEqProofs
@[simp] theorem State.readReg_pending : (s.readReg a i).2.pending = s.pending := by
  unfold State.readReg; dsimp only; repeat' split
  all_goals simp -implicitDefEqProofs
@[simp] theorem State.cfgRwl_pending : (s.cfgRwl l cfg).pending = s.pending := by simp -implicitDefEqProofs [State.cfgRwl]
@[simp] theorem State.storeCcStatus_pending : (s.storeCcStatus a l v).pending = s.pending := by simp -implicitDefEqProofs [State.storeCcStatus]
@[simp] theorem State.storeRxStatus_pending : (s.storeRxStatus l v).pending = s.pending := by simp -implicitDefEqProofs [State.storeRxStatus]
@[simp] theorem State.storeTxCtrl_pending : (s.storeTxCtrl l v).pending = s.pending := by simp -implicitDefEqProofs [State.storeTxCtrl]
@[simp] theorem State.storeContract_pending : (s.storeContract a l v).pending = s.pending := by simp -implicitDefEqProofs [State.storeContract]
@[simp] theorem State.storeBelayWord_pending : (s.storeBelayWord l v).pending = s.pending := by simp -implicitDefEqProofs [State.storeBelayWord]
@[simp] theorem State.storeBelayStatus_pending : (s.storeBelayStatus l v).pending = s.pending := by simp -implicitDefEqProofs [State.storeBelayStatus]
@[simp] theorem State.storeSwapCtrl_pending : (s.storeSwapCtrl l v).pending = s.pending := by simp -implicitDefEqProofs [State.storeSwapCtrl]
@[simp] theorem State.storeSwapStatus_pending : (s.storeSwapStatus a l v).pending = s.pending := by simp -implicitDefEqProofs [State.storeSwapStatus]
@[simp] theorem State.storeTallyStatus_pending : (s.storeTallyStatus l v).pending = s.pending := by simp -implicitDefEqProofs [State.storeTallyStatus]
@[simp] theorem State.writeLane_pending : (s.writeLane a l i v).pending = s.pending := by
  unfold State.writeLane; dsimp only; repeat' split
  all_goals simp -implicitDefEqProofs
@[simp] theorem State.storeVsysMon_pending : (s.storeVsysMon v).pending = s.pending := by simp -implicitDefEqProofs [State.storeVsysMon]
@[simp] theorem State.storeMbxCmd_pending : (s.storeMbxCmd v).pending = s.pending := by simp -implicitDefEqProofs [State.storeMbxCmd]
@[simp] theorem State.storeSupStatus_pending : (s.storeSupStatus v).pending = s.pending := by simp -implicitDefEqProofs [State.storeSupStatus]
@[simp] theorem State.storeFixCtrl_pending : (s.storeFixCtrl v).pending = s.pending := by simp -implicitDefEqProofs [State.storeFixCtrl]
@[simp] theorem State.storeFix_pending : (s.storeFix i v).pending = s.pending := by simp -implicitDefEqProofs [State.storeFix]
@[simp] theorem State.storeMask_pending : (s.storeMask a t mw v).pending = s.pending := by
  unfold State.storeMask; dsimp only; repeat' split
  all_goals simp -implicitDefEqProofs
@[simp] theorem State.storeFdis_pending : (s.storeFdis a t b).pending = s.pending := by simp -implicitDefEqProofs [State.storeFdis]
@[simp] theorem State.storeMlock_pending : (s.storeMlock t v).pending = s.pending := by simp -implicitDefEqProofs [State.storeMlock]
@[simp] theorem State.writeIc_pending : (s.writeIc a t i v).pending = s.pending := by
  unfold State.writeIc; repeat' split
  all_goals simp -implicitDefEqProofs
@[simp] theorem State.storeSrc_pending : (s.storeSrc a x v).pending = s.pending := by
  unfold State.storeSrc; dsimp only; repeat' split
  all_goals simp -implicitDefEqProofs
@[simp] theorem State.writeCounter_pending : (s.writeCounter a n i v).pending = s.pending := by
  unfold State.writeCounter; repeat' split
  all_goals simp -implicitDefEqProofs
@[simp] theorem State.storeFuseCtrl_pending : (s.storeFuseCtrl v).pending = s.pending := by simp -implicitDefEqProofs [State.storeFuseCtrl]
@[simp] theorem State.writeGlobal_pending : (s.writeGlobal a i v).pending = s.pending := by
  unfold State.writeGlobal; repeat' split
  all_goals simp -implicitDefEqProofs
@[simp] theorem State.writeReg_pending : (s.writeReg a i v).pending = s.pending := by simp -implicitDefEqProofs [State.writeReg]

-- host port

@[simp] theorem State.refuseHspi_pending : (s.refuseHspi i).pending = s.pending := by simp -implicitDefEqProofs [State.refuseHspi]
@[simp] theorem State.abortHspi_pending : s.abortHspi.pending = s.pending := by simp -implicitDefEqProofs [State.abortHspi]
@[simp] theorem State.applyWrite_pending : (s.applyWrite hdr bytes).pending = s.pending := by simp -implicitDefEqProofs [State.applyWrite]
@[simp] theorem State.fetchWord_pending : (s.fetchWord i).2.2.pending = s.pending := by
  unfold State.fetchWord; dsimp only; repeat' split
  all_goals simp -implicitDefEqProofs
@[simp] theorem State.fetchWords_pending : (s.fetchWords i j).2.2.pending = s.pending := by
  induction j generalizing s i with
  | zero => rfl
  | succ n ih => simp [State.fetchWords, ih]
@[simp] theorem State.transact_pending : (s.transact bytes cut).2.pending = s.pending := by
  unfold State.transact; dsimp only; repeat' split
  all_goals simp -implicitDefEqProofs
@[simp] theorem State.hspi_pending : (s.hspi bytes cut).pending = s.pending := by simp -implicitDefEqProofs [State.hspi]

-- frames

@[simp] theorem State.tunnelAnswer_pending : (s.tunnelAnswer bytes).pending = s.pending := by simp -implicitDefEqProofs [State.tunnelAnswer]
@[simp] theorem State.takeTunnel_pending : (s.takeTunnel byte byte2 bytes).pending = s.pending := by simp -implicitDefEqProofs [State.takeTunnel]
@[simp] theorem State.tunnelAbsent_pending : (s.tunnelAbsent pos).2.pending = s.pending := by
  unfold State.tunnelAbsent; dsimp only; repeat' split
  all_goals simp -implicitDefEqProofs
@[simp] theorem State.tunnelStart_pending : (s.tunnelStart byte).pending = s.pending := by simp -implicitDefEqProofs [State.tunnelStart]
@[simp] theorem State.takeDownRecord_pending : (s.takeDownRecord rec).pending = s.pending := by
  unfold State.takeDownRecord; repeat' split
  all_goals simp -implicitDefEqProofs
@[simp] theorem State.takeUpRecord_pending : (s.takeUpRecord rec).pending = s.pending := by
  unfold State.takeUpRecord; repeat' split
  all_goals simp -implicitDefEqProofs
@[simp] theorem State.frameReceived_pending : (s.frameReceived b).pending = s.pending := by simp -implicitDefEqProofs [State.frameReceived]
@[simp] theorem State.followHitch_pending : (s.followHitch p df).pending = s.pending := by simp -implicitDefEqProofs [State.followHitch]
@[simp] theorem State.followOthers_pending : (s.followOthers df).pending = s.pending := by simp -implicitDefEqProofs [State.followOthers]
@[simp] theorem State.takeResults_pending : (s.takeResults df).pending = s.pending := by
  unfold State.takeResults
  extract_lets s0 s1 s2
  have h0 : s0.pending = s.pending := by simp [s0]
  clear_value s0
  have h1 : s1.pending = s.pending := by simp [s1, h0]
  have h2 : s2.pending = s.pending := by simp [s2, h0]
  clear_value s1 s2
  split
  · exact h0
  · split
    · rw [State.forEach_pending fun u l => ?_, h1]
      repeat' split
      all_goals simp
    · split <;> simp [h2]
@[simp] theorem State.forwardDown_pending : (s.forwardDown df).pending = s.pending := by simp -implicitDefEqProofs [State.forwardDown]
@[simp] theorem State.takeDown_pending : (s.takeDown p df).pending = s.pending := by
  unfold State.takeDown; dsimp only; repeat' split
  all_goals simp -implicitDefEqProofs
@[simp] theorem State.takeSlots_pending : (s.takeSlots p uf).pending = s.pending := by simp -implicitDefEqProofs [State.takeSlots]

-- load store

@[simp] theorem State.stall_pending : (s.stall t).pending = s.pending := by simp -implicitDefEqProofs [State.stall]
@[simp] theorem State.stallAt_pending : (s.stallAt t pl).pending = s.pending := by simp -implicitDefEqProofs [State.stallAt]
@[simp] theorem State.loadAt_pending : (s.loadAt t place i).2.pending = s.pending := by
  unfold State.loadAt; repeat' split
  all_goals simp -implicitDefEqProofs
@[simp] theorem State.storeAt_pending : (s.storeAt t place i v).pending = s.pending := by
  unfold State.storeAt; dsimp only; repeat' split
  all_goals simp -implicitDefEqProofs
@[simp] theorem State.loadN_pending : (s.loadN t v i).2.pending = s.pending := by
  unfold State.loadN; dsimp only; repeat' split
  all_goals simp -implicitDefEqProofs
@[simp] theorem State.storeN_pending : (s.storeN t v i w).pending = s.pending := by
  unfold State.storeN; repeat' split
  all_goals simp -implicitDefEqProofs

-- bits

@[simp] theorem State.putBit_pending : (s.putBit t bp b).pending = s.pending := by
  unfold State.putBit; dsimp only; repeat' split
  all_goals simp -implicitDefEqProofs
@[simp] theorem State.writeBit_pending : (s.writeBit t bit b).pending = s.pending := by simp -implicitDefEqProofs [State.writeBit]

-- control

@[simp] theorem State.endActive_pending : (s.endActive t b).pending = s.pending := by simp -implicitDefEqProofs [State.endActive]

-- blocks

@[simp] theorem State.cycles_pending : (s.cycles t i).pending = s.pending := by simp -implicitDefEqProofs [State.cycles]
@[simp] theorem State.stallFor_pending : (s.stallFor t v).pending = s.pending := by simp -implicitDefEqProofs [State.stallFor]

-- customer

@[simp] theorem State.microBit_pending : (s.microBit t bit b).pending = s.pending := by simp -implicitDefEqProofs [State.microBit]

end

end Sys2Proof.Machine

/-! O3. Every command completes and leaves the waiting commands as they are: the rules of the instruction cycle, of received messages and of mailbox commands, and the commands one by one. -/
namespace Sys2Proof.Machine

section
variable {s : State} {t : CoreId} {l : LaneId} {a : Agent} {f : Frame}

-- the instruction cycle

@[simp] theorem InstrEnd.state_next : (InstrEnd.next s).state = s := rfl
@[simp] theorem InstrEnd.state_branch {v : Option Word} {b : Bool} : (InstrEnd.branch v b s).state = s := rfl
@[simp] theorem InstrEnd.state_trap {k : Nat} {v : Option Word} : (InstrEnd.trap k v s).state = s := rfl
@[simp] theorem InstrEnd.state_hold : (InstrEnd.hold s).state = s := rfl
@[simp] theorem InstrEnd.state_soft {k : Nat} : (InstrEnd.soft k s).state = s := rfl
@[simp] theorem ElementEnd.state_more : (ElementEnd.more s).state = s := rfl
@[simp] theorem ElementEnd.state_done : (ElementEnd.done s).state = s := rfl
@[simp] theorem ElementEnd.state_trap {k : Nat} {v : Word} : (ElementEnd.trap k v s).state = s := rfl
@[simp] theorem MicroEnd.state_go {k : Nat} {m : Micro} : (MicroEnd.go k m s).state = s := rfl
@[simp] theorem MicroEnd.state_trap {k : Nat} {v : Word} : (MicroEnd.trap k v s).state = s := rfl

@[simp] theorem InstrEnd.pending_ite {p : Prop} [Decidable p] (x y : InstrEnd) :
    (if p then x else y).state.pending = if p then x.state.pending else y.state.pending := apply_ite (fun e : InstrEnd => e.state.pending) ..

/-- An instruction leaves the waiting commands where its row does. -/
@[simp] theorem State.instr_pending {bars : Bool} {g : State → InstrEnd} (hg : ∀ u, (g u).state.pending = u.pending) :
    (s.instr t bars g).pending = s.pending := by
  have hb : (g (s.begun t)).state.pending = s.pending := (hg _).trans State.begun_pending
  unfold State.instr
  dsimp only
  split
  · rfl
  · split
    · simp
    · split
      · simp
      · split
        · simp
        · generalize g (s.begun t) = e at hb ⊢
          cases e <;> simp_all

@[simp] theorem State.coreInstr_pending {g : CoreState → CoreState} : (s.coreInstr t g).pending = s.pending := State.instr_pending fun _ => rfl

@[simp] theorem State.aluRow_pending {op : AluOp} {rd ra rb : RegCode} {sets : Bool} : (s.aluRow t op rd ra rb sets).pending = s.pending :=
  State.coreInstr_pending

@[simp] theorem State.immRow_pending {g : Word → Word → Word} {rd ra : RegCode} {imm : Word} : (s.immRow t g rd ra imm).pending = s.pending :=
  State.coreInstr_pending

@[simp] theorem State.loadRow_pending {n : Nat} {conv : Word → Word} {rd ra : RegCode} {imm : BitVec 16} :
    (s.loadRow t n conv rd ra imm).pending = s.pending := by
  refine State.instr_pending fun u => ?_
  dsimp only
  split
  · rfl
  · simp

@[simp] theorem State.storeRow_pending {n : Nat} {rd ra : RegCode} {imm : BitVec 16} : (s.storeRow t n rd ra imm).pending = s.pending := by
  refine State.instr_pending fun u => ?_
  dsimp only
  split
  · rfl
  · simp

@[simp] theorem State.bitRow_pending {rx : Option RegCode} {ba : BitVec 16} {g : Bool → Bool → Bool} : (s.bitRow t rx ba g).pending = s.pending :=
  State.instr_pending fun _ => State.writeBit_pending

@[simp] theorem State.flagRow_pending {rx : Option RegCode} {ba : BitVec 16} {g : Bool → Flags → Flags} :
    (s.flagRow t rx ba g).pending = s.pending := State.instr_pending fun _ => rfl

@[simp] theorem State.bitBranch_pending {on : Bool} {disp : BitVec 10} {ba : BitVec 16} : (s.bitBranch t on disp ba).pending = s.pending :=
  State.instr_pending fun _ => rfl

@[simp] theorem State.callTo_pending {g : CoreState → Word} : (s.callTo t g).pending = s.pending :=
  State.instr_pending fun u => by dsimp only; split <;> rfl

-- repeats

@[simp] theorem State.elements_pending {g : State → ElementEnd} (hg : ∀ u, (g u).state.pending = u.pending) (first : Bool) (n : Nat) :
    (s.elements t g first n).state.pending = s.pending := by
  induction n generalizing s first with
  | zero => rfl
  | succ n ih =>
    have hs := hg s
    unfold State.elements
    split
    · rfl
    · generalize g s = e at hs ⊢
      cases e with
      | trap k a u => exact hs
      | done u => simpa [apply_ite] using hs
      | more u =>
        have hu : u.pending = s.pending := hs
        dsimp only
        split <;> simp [ih, hu]

@[simp] theorem State.str_pending {g : State → ElementEnd} {after : CoreState → CoreState} (hg : ∀ u, (g u).state.pending = u.pending) :
    (s.str t g after).pending = s.pending := by
  refine State.instr_pending fun u => ?_
  have he := State.elements_pending (s := u) (t := t) hg true (u.core t).xc.toNat
  generalize u.elements t g true (u.core t).xc.toNat = e at he ⊢
  cases e with
  | next v => simpa using he
  | _ => exact he

@[simp] theorem movsElement_pending {n : Nat} {step : Word} : (movsElement t n step s).state.pending = s.pending := by
  unfold movsElement
  dsimp only
  split
  · rfl
  · simp

@[simp] theorem fillsElement_pending {n : Nat} {step v : Word} : (fillsElement t n step v s).state.pending = s.pending := by
  unfold fillsElement
  dsimp only
  split
  · rfl
  · simp

@[simp] theorem cmpsElement_pending {n : Nat} {step : Word} : (cmpsElement t n step s).state.pending = s.pending := by
  unfold cmpsElement
  dsimp only
  split
  · rfl
  · split <;> simp

@[simp] theorem crcsElement_pending {rd : RegCode} {step : Word} {poly : Fin 3} : (crcsElement t rd step poly s).state.pending = s.pending := by
  unfold crcsElement
  dsimp only
  split
  · rfl
  · exact State.loadN_pending

-- customer opcodes

@[simp] theorem microLoad_pending {a : Word} {n : Nat} {g : Word → Micro} : (microLoad s t a n g).state.pending = s.pending := by
  unfold microLoad
  split
  · rfl
  · exact State.loadN_pending

@[simp] theorem microStore_pending {a : Word} {n : Nat} {v : Word} {m : Micro} : (microStore s t a n v m).state.pending = s.pending := by
  unfold microStore
  split
  · rfl
  · simp

@[simp] theorem microStep_pending {x : MicroArgs} {w : Word} {m : Micro} : (microStep s t x w m).state.pending = s.pending := by
  unfold microStep
  dsimp only
  repeat' split
  all_goals simp [microLoad_pending, microStore_pending]

@[simp] theorem State.micros_pending {x : MicroArgs} {m : Micro} {ws : List (Word × Option Word)} {k : Nat} :
    (s.micros t x m ws k).state.pending = s.pending := by
  induction ws generalizing s m k with
  | nil => simp [State.micros]
  | cons w ws ih =>
    cases k with
    | succ k => exact ih
    | zero =>
      have hm := microStep_pending (s := s) (t := t) (x := x) (w := w.1) (m := m)
      unfold State.micros
      split
      · rfl
      · generalize microStep s t x w.1 m = e at hm ⊢
        cases e with
        | trap k a u => exact hm
        | go k m u =>
          have hu : u.pending = s.pending := hm
          dsimp only
          split
          · simpa using hu
          · simp [ih, hu]

-- received messages, mailbox commands and claims

@[simp] theorem State.imageReceive_pending {g : State → State} (hg : ∀ u, (g u).pending = u.pending) : (s.imageReceive l f g).pending = s.pending := by
  have hr := State.receive_pending (s := s) (l := l) (f := f)
  unfold State.imageReceive
  generalize s.receive l f = p at hr ⊢
  obtain ⟨e, u⟩ := p
  cases e <;> simp_all

@[simp] theorem State.urkaiReceive_pending {cmd : Nat} {g h : State → State} (hg : ∀ u, (g u).pending = u.pending) (hh : ∀ u, (h u).pending = u.pending) :
    (s.urkaiReceive l f cmd g h).pending = s.pending := by
  have hr := State.receive_pending (s := s) (l := l) (f := f)
  unfold State.urkaiReceive
  generalize s.receive l f = p at hr ⊢
  obtain ⟨e, u⟩ := p
  cases e <;> simp_all

@[simp] theorem State.mbxRun_pending {code tag : Byte} {may : State → Bool} {k : State → Byte × State} (hk : ∀ u, (k u).2.pending = u.pending) :
    (s.mbxRun a code tag may k).pending = s.pending := by
  unfold State.mbxRun
  extract_lets s1 p
  have h1 : s1.pending = s.pending := by simp [s1]
  have hp : p.2.pending = s.pending := (hk s1).trans h1
  clear_value p
  clear_value s1
  simp [h1, hp]

@[simp] theorem State.claimEntry_pending {fast : Bool} {x count : Nat} {g : State → State} (hg : (g s).pending = s.pending) :
    (s.claimEntry t fast x count g).pending = s.pending := by
  unfold State.claimEntry
  simp [hg]

end

end Sys2Proof.Machine

/-! O3. Every command completes and leaves the waiting commands as they are: the commands one by one, by the rules of the operations they use. -/
namespace Sys2Proof.Machine

/-- An outcome is a next state in which the commands of r wait. -/
def Out.queues (r : State) (o : Out) : Prop := ∃ s', o = .next s' ∧ s'.pending = r.pending

section
variable {r s : State} {a : Agent} {l : LaneId}

@[simp] theorem Out.queues_next : Out.queues r (.next s) ↔ s.pending = r.pending :=
  ⟨fun ⟨_, e, h⟩ => by cases e; exact h, fun h => ⟨s, rfl, h⟩⟩

@[simp] theorem Out.queues_ite {c : Prop} [Decidable c] {x y : Out} (hx : Out.queues r x) (hy : Out.queues r y) : Out.queues r (if c then x else y) := by
  split <;> assumption

@[simp] theorem Out.queues_byWrite {f : State → State} (hf : (f s).pending = s.pending) : Out.queues s (s.byWrite a f) := by
  unfold State.byWrite
  split <;> simp [hf]

@[simp] theorem Out.queues_byLaneWrite {f : State → State} (hf : (f s).pending = s.pending) : Out.queues s (s.byLaneWrite a l f) :=
  Out.queues_byWrite (by split; exacts [rfl, hf])

@[simp] theorem Out.queues_byRead {n : Nat} : Out.queues s (s.byRead a n) := by
  unfold State.byRead
  split <;> simp

/-- A command of a received message, where g answers a stored one. -/
theorem Out.queues_stored {f : Frame} {g : State → Out} (hg : ∀ u, Out.queues u (g u)) :
    Out.queues s (match s.receive l f with | (.stored, s1) => g s1 | (_, s1) => .next s1) := by
  have hr := State.receive_pending (s := s) (l := l) (f := f)
  generalize s.receive l f = p at hr ⊢
  obtain ⟨e, u⟩ := p
  obtain ⟨v, hv, hp⟩ := hg u
  cases e
  case stored => exact ⟨v, hv, hp.trans hr⟩
  all_goals exact Out.queues_next.2 hr

theorem frSwap_queues {f : Frame} : Out.queues s (execFrSwap l f s) := by
  refine Out.queues_stored fun u => ?_
  split
  · dsimp only
    split <;> simp
  · simp

/-- A watch probe notes what it sees, and may attach or cut. -/
theorem watchProbe_queues {c d : CcTerm} : Out.queues s (execWatchProbe l c d s) := by
  unfold execWatchProbe
  extract_lets x seen p run n s1
  have h1 : s1.pending = s.pending := State.modCc_pending ..
  clear_value s1
  repeat' apply Out.queues_ite
  all_goals simp [h1]

theorem budgetFrame_queues {b : BusSample} : Out.queues s (execBudgetFrame b s) := by
  unfold execBudgetFrame
  extract_lets runs s0 s1 cs idle eff rs s2
  have h0 : s0.pending = s.pending := State.forEach_pending (fun u k => State.laneClock_pending) allLanes
  have h1 : s1.pending = s.pending := by simp [s1, h0]
  have h2 : s2.pending = s.pending := by simp [s2, h1]
  clear_value s1 s2
  repeat' apply Out.queues_ite
  all_goals simp [h1, h2]

theorem arbitrationResult_queues {r : List (BitVec 12 × BitVec 4)} : Out.queues s (execArbitrationResult r s) := by
  unfold execArbitrationResult
  extract_lets s1
  have h1 : s1.pending = s.pending := by simp [s1]
  clear_value s1
  refine Out.queues_ite (by simp) (Out.queues_next.2 ((State.forEach_pending (fun u k => ?_) allLanes).trans h1))
  split <;> simp

theorem upstreamFrame_queues {p : Port} {f : UpFrame} : Out.queues s (execUpstreamFrame p f s) := by
  unfold execUpstreamFrame
  extract_lets u s1 s2
  have hu : u.pending = s.pending := by simp [u]
  have h1 : s1.pending = s.pending := by
    refine Eq.trans ?_ hu
    unfold s1
    split
    · exact State.forEach_pending (fun v r => by split <;> simp) f.records
    · rfl
  have h2 : s2.pending = s.pending := by simp [s2, h1]
  clear_value u s1 s2
  repeat' apply Out.queues_ite
  all_goals simp -implicitDefEqProofs [hu, h2]

/-- MACD changes its core alone. -/
theorem macd_queues {t : CoreId} {acc neg : Bool} {rx ry : RegCode} {x y : BitVec 4} : Out.queues s (execMacd t acc neg rx ry x y s) :=
  Out.queues_next.2 (State.instr_pending fun u => by
    dsimp only
    split
    · rfl
    · split <;> rfl)

/-- Every command completes, and no command changes the waiting ones. -/
theorem exec_queues (i : Instr) : Out.queues s (exec i s) := by
  cases i
  case messageReceived l f => exact Out.queues_stored fun u => Out.queues_next.2 (by simp)
  case tmFollowAck l f => exact Out.queues_stored fun u => by split <;> simp
  case twinArmAck l f => exact Out.queues_stored fun u => by split <;> simp
  case twinDisarmAck l f => exact Out.queues_stored fun u => by split <;> simp
  case swapRefused l f => exact Out.queues_stored fun u => by dsimp only; split <;> simp
  case psRdy l f => exact Out.queues_stored fun u => by split <;> simp
  case frSwap l f => exact frSwap_queues
  case audit a tag reads => exact Out.queues_next.2 (State.mbxRun_pending fun u => State.auditAll_pending)
  case macd => exact macd_queues
  case watchProbe => exact watchProbe_queues
  case budgetFrame => exact budgetFrame_queues
  case arbitrationResult => exact arbitrationResult_queues
  case upstreamFrame => exact upstreamFrame_queues
  case dtimeLoRead | evtLogRsv | ppsLoRead | poseERead | cntnValRead | tallyQLoRead => exact Out.queues_byRead
  -- the rows that name one next state
  case ratioModeChange | currentLimit | thermWarn | thermalShutdown | thermalRestart | transmitStart | amsHoldTimeout | chunkRequest | arActiveRise |
      bistCarrierEnd | hardReset | request | softReset | getSourceCap | sourceCapabilities | eprKeepalive | eprMode | securityRequest | discoverIdentity |
      enterModeAck | twinSetAck | prSwap | sinkCapabilities | holdSetAck | frsTrigClear | packHoldEnd | drSwap | vconnSwap | batteryStatus | recCommitAck |
      slotTimeConversion | sagEnd | pospps | tileLoad | tileTake | swathMark | tileChunk | holdOff | fuseProgram | tamper | mesh | vglitch | cglitch |
      timeLock | eccError | resetAsserted | vsysNotValid | vcoreOutOfRange | vioLow | check | hspiWrite | hspiRead | add | sub | addc | subc | and | or | xor |
      andn | shl | shr | sar | ror | mul | mulh | mulhu | min | max | minu | maxu | clz | cmp | tst | addi | andi | ori | xori | cmpi | shi | movi | movhi |
      ld | ldh | ldhu | ldb | ldbu | st | sth | stb | bset | bclr | bnot | bmovToBit | btst | bmovToC | bmovn | band | bandn | bor | born | bxor | btas |
      brbs | brbc | aclr | mac | msu | macu | mfal | mfah | mfag | mtal | mtah | mtag | asr | asl | arnd | bcc | call | nop | jmpr | callr | ret | reti |
      retx | wait | halt | trap | mfc | mtc | ei | di | mfx | mtx | mflk | mtlk | movs | fills | cmps | crcs | cx =>
    exact Out.queues_next.2 (by simp -implicitDefEqProofs)
  -- the rows that ask first, by the file they stand in
  case slewEnter | leave | slewTo | ffRampEnd | reverseRampEnd =>
    simp only [exec, execSlewEnter, execLeave, execSlewTo, execFfRampEnd, execReverseRampEnd]
    repeat' split
    all_goals simp -implicitDefEqProofs
  case preCloseTest | comparatorAccept | backfeed | preCloseRetry | closeComplete | ocp | ovp | uvp | reverseCurrent | overload | selfTest | shedIlimBelay =>
    simp only [exec, execPreCloseTest, execComparatorAccept, execBackfeed, execPreCloseRetry, execCloseComplete, execOcp, execOvp, execUvp, execReverseCurrent,
      execOverload, execSelfTest, execShedIlimBelay]
    repeat' split
    all_goals simp -implicitDefEqProofs
  case sinkTx | chunkSenderResponse | chunkSenderRequest | partnerRpChange =>
    simp only [exec, execSinkTx, execChunkSenderResponse, execChunkSenderRequest, execPartnerRpChange]
    repeat' split
    all_goals simp -implicitDefEqProofs
  case srcTransition | contractLimitFall | keepaliveMissed | sinkKeepalive | urkaiDiscovery | urkaiResponseTimeout | exitModeAck | timeMark | armDeadline |
      runLimit | twinSwitch | standbyLimit =>
    simp only [exec, execSrcTransition, execContractLimitFall, execKeepaliveMissed, execSinkKeepalive, execUrkaiDiscovery, execUrkaiResponseTimeout,
      execExitModeAck, execTimeMark, execArmDeadline, execRunLimit, execTwinSwitch, execStandbyLimit]
    repeat' split
    all_goals simp -implicitDefEqProofs
  case discoveryResponseTimeout | goodcrcReceived | goodcrcTimeout | hardResetComplete | hardResetReceived | psHardReset | dischargeEnd | srcRecover |
      rampComplete | sinkVbusReturn | sinkHardResetTimeout =>
    simp only [exec, execDiscoveryResponseTimeout, execGoodcrcReceived, execGoodcrcTimeout, execHardResetComplete, execHardResetReceived, execPsHardReset,
      execDischargeEnd, execSrcRecover, execRampComplete, execSinkVbusReturn, execSinkHardResetTimeout]
    repeat' split
    all_goals simp -implicitDefEqProofs
  case drpToggle | attachWaitSrc | attachWaitSnk | ccDebounce | terminationLost | tryCcDebounce | drpTry | trywaitDebounce | tryTimeout =>
    simp only [exec, execDrpToggle, execAttachWaitSrc, execAttachWaitSnk, execCcDebounce, execTerminationLost, execTryCcDebounce, execDrpTry,
      execTrywaitDebounce, execTryTimeout]
    repeat' split
    all_goals simp -implicitDefEqProofs
  case sinkVbusPresent | detach | unattachedWaitEnd | cut | vconnOc | vconnReapply | vconnSupLow | vconnSupRestored =>
    simp only [exec, execSinkVbusPresent, execDetach, execUnattachedWaitEnd, execCut, execVconnOc, execVconnReapply, execVconnSupLow, execVconnSupRestored]
    repeat' split
    all_goals simp -implicitDefEqProofs
  case prSwapAccept | swapSrcTransition | swapVsafe0v | psSourceOn | psSourceOff | frsArm | frsTrig =>
    simp only [exec, execPrSwapAccept, execSwapSrcTransition, execSwapVsafe0v, execPsSourceOn, execPsSourceOff, execFrsArm, execFrsTrig]
    repeat' split
    all_goals simp -implicitDefEqProofs
  case frsSwapTx | frsHoldCheck | frsTimeout | holdEnd | vconnStable | vconnSourceTimeout | vconnSourceOff =>
    simp only [exec, execFrsSwapTx, execFrsHoldCheck, execFrsTimeout, execHoldEnd, execVconnStable, execVconnSourceTimeout, execVconnSourceOff]
    repeat' split
    all_goals simp -implicitDefEqProofs
  case fullAnchor | emptyAnchor =>
    simp only [exec, execFullAnchor, execEmptyAnchor]
    repeat' split
    all_goals simp -implicitDefEqProofs
  case turnEvent | peakEvent | compareMatch | capture =>
    simp only [exec, execTurnEvent, execPeakEvent, execCompareMatch, execCapture]
    repeat' split
    all_goals simp -implicitDefEqProofs
  case frozen | busSag | shedMeasure | shedDeadline | staggerRequest =>
    simp only [exec, execFrozen, execBusSag, execShedMeasure, execShedDeadline, execStaggerRequest]
    repeat' split
    all_goals simp -implicitDefEqProofs
  case swathStep | fixStale | drOut | poseLost | postLapse | applied =>
    simp only [exec, execSwathStep, execFixStale, execDrOut, execPoseLost, execPostLapse, execApplied]
    repeat' split
    all_goals simp -implicitDefEqProofs
  case interruptClaim | doorbell | icClr | take | release | mlockBreak | mpClr | debugHalt | debugResume =>
    simp only [exec, execInterruptClaim, execDoorbell, execIcClr, execTake, execRelease, execMlockBreak, execMpClr, execDebugHalt, execDebugResume]
    repeat' split
    all_goals simp -implicitDefEqProofs
  case imageWrite | imageCheckComplete =>
    simp only [exec, execImageWrite, execImageCheckComplete]
    repeat' split
    all_goals simp -implicitDefEqProofs
  case linkUp | linkDown | acqTimeout | timingMarker | watchBeacon | hitchSuccession | frameStart =>
    simp only [exec, execLinkUp, execLinkDown, execAcqTimeout, execTimingMarker, execWatchBeacon, execHitchSuccession, execFrameStart]
    repeat' split
    all_goals simp -implicitDefEqProofs
  case takeG | rtnG | relG | returnTimeout | wardenTakeover | wardenAttempt | wardenAttemptTimeout | holdoverLimit | heartbeatPeriod | orphanTimeout |
      activate | activateNextCore =>
    simp only [exec, execTakeG, execRtnG, execRelG, execReturnTimeout, execWardenTakeover, execWardenAttempt, execWardenAttemptTimeout, execHoldoverLimit,
      execHeartbeatPeriod, execOrphanTimeout, execActivate, execActivateNextCore]
    repeat' split
    all_goals simp -implicitDefEqProofs
  case powerUp | resetReleased | vcoreAndVioInRange | pllLocked | linkFrameTimeout | linkRestored | vsysWarn | vsysWarnClear | runSet =>
    simp only [exec, execPowerUp, execResetReleased, execVcoreAndVioInRange, execPllLocked, execLinkFrameTimeout, execLinkRestored, execVsysWarn,
      execVsysWarnClear, execRunSet]
    repeat' split
    all_goals simp -implicitDefEqProofs
  case runClear | watchSet | watchClear | watchEntryComplete | portEnSet | portEnClear | groupIdle | wardenSuccess =>
    simp only [exec, execRunClear, execWatchSet, execWatchClear, execWatchEntryComplete, execPortEnSet, execPortEnClear, execGroupIdle, execWardenSuccess]
    repeat' split
    all_goals simp -implicitDefEqProofs
  case registerWrite | cutClear | send | pop | cableReset | arm | disarm | prsReq | emptyMark | clr =>
    simp only [exec, execRegisterWrite, execCutClear, execSend, execPop, execCableReset, execArm, execDisarm, execPrsReq, execEmptyMark, execClr]
    repeat' split
    all_goals simp -implicitDefEqProofs
  case stestNow | latchClr | ilimSet | shedIlim | convVset | convIset | phaseOffset | sectCtrl | protoLast | pdExtData =>
    simp only [exec, execStestNow, execLatchClr, execIlimSet, execShedIlim, execConvVset, execConvIset, execPhaseOffset, execSectCtrl, execProtoLast,
      execPdExtData]
    repeat' split
    all_goals simp -implicitDefEqProofs
  case busBudget | fixCommit | cntnVal | cntnTop | cntnCmp | cntnCtrl | cntnCap | decCtrl | coreRst | solo =>
    simp only [exec, execBusBudget, execFixCommit, execCntnVal, execCntnTop, execCntnCmp, execCntnCtrl, execCntnCap, execDecCtrl, execCoreRst, execSolo]
    repeat' split
    all_goals simp -implicitDefEqProofs
  case hspiClr | meas | dbgPass7 | relock | alarmPolicy | secCtrl | vsysMon =>
    simp only [exec, execHspiClr, execMeas, execDbgPass7, execRelock, execAlarmPolicy, execSecCtrl, execVsysMon]
    repeat' split
    all_goals simp -implicitDefEqProofs
  case tunnel | downstreamFrame =>
    simp only [exec, execTunnel, execDownstreamFrame]
    repeat' split
    all_goals simp -implicitDefEqProofs
  case illegalInstruction =>
    simp only [exec, execIllegalInstruction]
    repeat' split
    all_goals simp -implicitDefEqProofs

/-- Settles O3: every command completes with the waiting commands as they were. -/
theorem execKeepsQueue : Obligations.ExecKeepsQueue := by
  unfold Obligations.ExecKeepsQueue
  exact fun c s => exec_queues c

end

end Sys2Proof.Machine
